-- ==== Sys2Proof/Word.lean ====
section
/-! DEFINITION. The word types of the Traom 960: bytes, 32-bit words, 64-bit pairs and lane masks. -/

namespace Sys2Proof

/-- One byte of memory. -/
abbrev Byte := BitVec 8

/-- A 32-bit register (R174). -/
abbrev Word := BitVec 32

/-- A 64-bit value in an even-aligned pair (R176). -/
abbrev Dword := BitVec 64

/-- A set of the 64 lanes of a warp: bit i stands for lane i (R16). -/
abbrev LaneMask := BitVec 64

end Sys2Proof
end

