-- ==== Sys2Proof/Syntax.lean ====
section
/-! DEFINITION. The instructions and the steps of the part as data: operand forms, field names, and the one
inductive `Instr` with a constructor for each row of the spec's table (spec/opcode_table.json; R174, R180, R195). -/

namespace Sys2Proof

/-- R174: what a 7-bit operand code names: a vector register, one of the scalars s0 to s15, a clause
temporary, or one of the eight constants of the instruction's type. -/
inductive Opd where
  | v (r : Fin 96)
  | s (r : Fin 16)
  | x (r : Fin 8)
  | k (c : Fin 8)
  deriving DecidableEq, Repr

/-- R179: what the 5-bit b field of a 16-bit word names. -/
inductive Opd16 where
  | v (r : Fin 16)
  | x (r : Fin 8)
  | k (c : Fin 8)
  deriving DecidableEq, Repr

/-- R223: the element types of the packed integer forms. -/
inductive PackT where
  | i8x4 | n8x4 | i16x2 | n16x2
  deriving DecidableEq, Repr

/-- R255: the rounding mode of an arithmetic form. -/
inductive Rm where
  | rn | rz | rp | rm
  deriving DecidableEq, Repr

/-- R196: the format codes of the element conversions. -/
inductive CFmt where
  | f64 | f32 | f16 | bf16 | e4m3 | e5m2 | i32 | n32
  deriving DecidableEq, Repr

/-- R196: the modes of the conversions, sub 0 to 9. -/
inductive CMode where
  | rn | rz | rp | rm | rs | rnSat | rzSat | rpSat | rmSat | rsSat
  deriving DecidableEq, Repr

/-- R195: the raw operation of `lred` and `lscan`. -/
inductive RedOp where
  | add | fadd | fmin | fmax | and | or
  deriving DecidableEq, Repr

/-- R281: the field of the work identifier that `lidx` reads. -/
inductive WidF where
  | field (k : Fin 6)
  | all
  deriving DecidableEq, Repr

/-- R195: the conditions of `cmp` and `cmpi`, in the order of major 0x03 sub 0 to 11. -/
inductive Cond where
  | eqI | neI | ltI | leI | gtI | geI | eqN | neN | ltN | leN | gtN | geN
  deriving DecidableEq, Repr

/-- R184: the size and kind of a load or store. -/
inductive MSize where
  | b8z | b8s | b16z | b16s | b32 | b64 | b128
  deriving DecidableEq, Repr

/-- R33: the memory spaces a load or store can name. -/
inductive Space where
  | priv | shr | dws | con | fab
  deriving DecidableEq, Repr

/-- R185: the types of the atomics. -/
inductive AType where
  | n32 | i32 | f32 | n64
  deriving DecidableEq, Repr

/-- R73, R185: the four scopes. -/
inductive Scope where
  | grp | clu | chip | sys
  deriving DecidableEq, Repr

/-- R237: the space of a copy's endpoint; for `cpx` the third code names the operand buffer. -/
inductive EndSp where
  | shr | dws | fab | mem
  deriving DecidableEq, Repr

/-- R238: the barrier selector. -/
inductive BarSel where
  | none
  | shr (k : Fin 32)
  | dws (k : Fin 32)
  | headed
  deriving DecidableEq, Repr

/-- R246: the region space written by `sobind`. -/
inductive RSpace where
  | none | shr | dws | mem
  deriving DecidableEq, Repr

/-- R246: the space of a synchronisation object. -/
inductive ObjSp where
  | shr | dws | fab
  deriving DecidableEq, Repr

/-- R299: the status registers that `srd`, `swr` and `segld` name. -/
inductive SReg where
  | warpw | widf | core | clus | chip | modl | cyc | flg | ctb | late | seed | deg | pmode | helpd
  | trapc | trapa | trapv | trapt | traph | segpriv | segshr | segdws | segcon | segfab | segob
  deriving DecidableEq, Repr

/-- One constructor for each row of the table of operations and events. A row with an encoding carries the
fields of its encoding; a step of another agent carries what names the thing it acts on. -/
inductive Instr where
  /-- R179. MOV_16 -/
  | mov16 (d : Fin 64) (b : Opd16)
  /-- R208. NOP_16 -/
  | nop16
  /-- R179. IADD_16 -/
  | iadd16 (d : Fin 64) (b : Opd16)
  /-- R179. ISUB_16 -/
  | isub16 (d : Fin 64) (b : Opd16)
  /-- R179. IMUL_16 -/
  | imul16 (d : Fin 64) (b : Opd16)
  /-- R179. AND_16 -/
  | and16 (d : Fin 64) (b : Opd16)
  /-- R179. OR_16 -/
  | or16 (d : Fin 64) (b : Opd16)
  /-- R179. XOR_16 -/
  | xor16 (d : Fin 64) (b : Opd16)
  /-- R179. SHL_16 -/
  | shl16 (d : Fin 64) (b : Opd16)
  /-- R179. SHR_16 -/
  | shr16 (d : Fin 64) (b : Opd16)
  /-- R179. SAR_16 -/
  | sar16 (d : Fin 64) (b : Opd16)
  /-- R179. IMIN_I32_16 -/
  | iminI3216 (d : Fin 64) (b : Opd16)
  /-- R179. IMAX_I32_16 -/
  | imaxI3216 (d : Fin 64) (b : Opd16)
  /-- R179. FADD_16 -/
  | fadd16 (d : Fin 64) (b : Opd16)
  /-- R179. FSUB_16 -/
  | fsub16 (d : Fin 64) (b : Opd16)
  /-- R179. FMUL_16 -/
  | fmul16 (d : Fin 64) (b : Opd16)
  /-- R179. FMAX_16 -/
  | fmax16 (d : Fin 64) (b : Opd16)
  /-- R217. IADD -/
  | iadd (d : Opd) (a : Opd) (b : Opd)
  /-- R217. ISUB -/
  | isub (d : Opd) (a : Opd) (b : Opd)
  /-- R217. IMUL -/
  | imul (d : Opd) (a : Opd) (b : Opd)
  /-- R217. IMULH_I32 -/
  | imulhI32 (d : Opd) (a : Opd) (b : Opd)
  /-- R217. IMULH_N32 -/
  | imulhN32 (d : Opd) (a : Opd) (b : Opd)
  /-- R217. IMAD -/
  | imad (d : Opd) (a : Opd) (b : Opd)
  /-- R217. IABS -/
  | iabs (d : Opd) (a : Opd)
  /-- R217. LEA -/
  | lea (d : Opd) (a : Opd) (b : Opd)
  /-- R217. MOV -/
  | mov (d : Opd) (a : Opd)
  /-- R217. POPC -/
  | popc (d : Opd) (a : Opd)
  /-- R217. CLZ -/
  | clz (d : Opd) (a : Opd)
  /-- R217. CTZ -/
  | ctz (d : Opd) (a : Opd)
  /-- R217. BREV -/
  | brev (d : Opd) (a : Opd)
  /-- R218. BFE -/
  | bfe (d : Opd) (a : Opd) (b : Opd)
  /-- R218. BFI -/
  | bfi (d : Opd) (a : Opd) (b : Opd)
  /-- R217. AND -/
  | and (d : Opd) (a : Opd) (b : Opd)
  /-- R217. OR -/
  | or (d : Opd) (a : Opd) (b : Opd)
  /-- R217. XOR -/
  | xor (d : Opd) (a : Opd) (b : Opd)
  /-- R217. ANDN -/
  | andn (d : Opd) (a : Opd) (b : Opd)
  /-- R109. SHL -/
  | shl (d : Opd) (a : Opd) (b : Opd)
  /-- R109. SHR -/
  | shr (d : Opd) (a : Opd) (b : Opd)
  /-- R109. SAR -/
  | sar (d : Opd) (a : Opd) (b : Opd)
  /-- R109. ROL -/
  | rol (d : Opd) (a : Opd) (b : Opd)
  /-- R217. CMP_EQ_I32 -/
  | cmpEqI32 (d : Opd) (a : Opd) (b : Opd)
  /-- R217. CMP_NE_I32 -/
  | cmpNeI32 (d : Opd) (a : Opd) (b : Opd)
  /-- R217. CMP_LT_I32 -/
  | cmpLtI32 (d : Opd) (a : Opd) (b : Opd)
  /-- R217. CMP_LE_I32 -/
  | cmpLeI32 (d : Opd) (a : Opd) (b : Opd)
  /-- R217. CMP_GT_I32 -/
  | cmpGtI32 (d : Opd) (a : Opd) (b : Opd)
  /-- R217. CMP_GE_I32 -/
  | cmpGeI32 (d : Opd) (a : Opd) (b : Opd)
  /-- R217. CMP_EQ_N32 -/
  | cmpEqN32 (d : Opd) (a : Opd) (b : Opd)
  /-- R217. CMP_NE_N32 -/
  | cmpNeN32 (d : Opd) (a : Opd) (b : Opd)
  /-- R217. CMP_LT_N32 -/
  | cmpLtN32 (d : Opd) (a : Opd) (b : Opd)
  /-- R217. CMP_LE_N32 -/
  | cmpLeN32 (d : Opd) (a : Opd) (b : Opd)
  /-- R217. CMP_GT_N32 -/
  | cmpGtN32 (d : Opd) (a : Opd) (b : Opd)
  /-- R217. CMP_GE_N32 -/
  | cmpGeN32 (d : Opd) (a : Opd) (b : Opd)
  /-- R217. IMIN_I32 -/
  | iminI32 (d : Opd) (a : Opd) (b : Opd)
  /-- R217. IMAX_I32 -/
  | imaxI32 (d : Opd) (a : Opd) (b : Opd)
  /-- R217. IMIN_N32 -/
  | iminN32 (d : Opd) (a : Opd) (b : Opd)
  /-- R217. IMAX_N32 -/
  | imaxN32 (d : Opd) (a : Opd) (b : Opd)
  /-- R219. SEL_MASK -/
  | selMask (d : Opd) (k : Fin 12) (a : Opd) (b : Opd)
  /-- R219. SEL -/
  | sel (d : Opd) (a : Opd) (b : Opd)
  /-- R224. IADD_PACKED -/
  | iaddPacked (d : Fin 64) (a : Fin 64) (b : Fin 64) (t : PackT) (sat : Bool)
  /-- R224. ISUB_PACKED -/
  | isubPacked (d : Fin 64) (a : Fin 64) (b : Fin 64) (t : PackT) (sat : Bool)
  /-- R224. IMIN_PACKED -/
  | iminPacked (d : Fin 64) (a : Fin 64) (b : Fin 64) (t : PackT)
  /-- R224. IMAX_PACKED -/
  | imaxPacked (d : Fin 64) (a : Fin 64) (b : Fin 64) (t : PackT)
  /-- R224. SHL_PACKED -/
  | shlPacked (d : Fin 64) (a : Fin 64) (b : Fin 64) (t : PackT)
  /-- R224. SHR_PACKED -/
  | shrPacked (d : Fin 64) (a : Fin 64) (b : Fin 64) (t : PackT)
  /-- R224. SAR_PACKED -/
  | sarPacked (d : Fin 64) (a : Fin 64) (b : Fin 64) (t : PackT)
  /-- R224. IDOT4 -/
  | idot4 (d : Fin 64) (a : Fin 64) (b : Fin 64) (u : Bool)
  /-- R224. IDOT2 -/
  | idot2 (d : Fin 64) (a : Fin 64) (b : Fin 64) (u : Bool)
  /-- R226. IADD64 -/
  | iadd64 (d : Opd) (a : Opd) (b : Opd)
  /-- R226. ISUB64 -/
  | isub64 (d : Opd) (a : Opd) (b : Opd)
  /-- R226. SHL64 -/
  | shl64 (d : Opd) (a : Opd) (b : Opd)
  /-- R226. SHR64 -/
  | shr64 (d : Opd) (a : Opd) (b : Opd)
  /-- R226. IMULW_I32 -/
  | imulwI32 (d : Opd) (a : Opd) (b : Opd)
  /-- R226. IMULW_N32 -/
  | imulwN32 (d : Opd) (a : Opd) (b : Opd)
  /-- R226. CMP64_EQ -/
  | cmp64Eq (d : Opd) (a : Opd) (b : Opd)
  /-- R226. CMP64_NE -/
  | cmp64Ne (d : Opd) (a : Opd) (b : Opd)
  /-- R226. CMP64_LT_I64 -/
  | cmp64LtI64 (d : Opd) (a : Opd) (b : Opd)
  /-- R226. CMP64_LT_N64 -/
  | cmp64LtN64 (d : Opd) (a : Opd) (b : Opd)
  /-- R226. CMP64_LE_I64 -/
  | cmp64LeI64 (d : Opd) (a : Opd) (b : Opd)
  /-- R226. CMP64_LE_N64 -/
  | cmp64LeN64 (d : Opd) (a : Opd) (b : Opd)
  /-- R110. IDIV_I32 -/
  | idivI32 (d : Opd) (a : Opd) (b : Opd)
  /-- R110. IDIV_N32 -/
  | idivN32 (d : Opd) (a : Opd) (b : Opd)
  /-- R110. IREM_I32 -/
  | iremI32 (d : Opd) (a : Opd) (b : Opd)
  /-- R110. IREM_N32 -/
  | iremN32 (d : Opd) (a : Opd) (b : Opd)
  /-- R256. FADD -/
  | fadd (d : Opd) (a : Opd) (b : Opd) (md : Rm)
  /-- R256. FSUB -/
  | fsub (d : Opd) (a : Opd) (b : Opd) (md : Rm)
  /-- R256. FMUL -/
  | fmul (d : Opd) (a : Opd) (b : Opd) (md : Rm)
  /-- R256. FFMA -/
  | ffma (d : Opd) (a : Opd) (b : Opd) (md : Rm)
  /-- R258. FCMP_EQ -/
  | fcmpEq (d : Opd) (a : Opd) (b : Opd)
  /-- R258. FCMP_NE -/
  | fcmpNe (d : Opd) (a : Opd) (b : Opd)
  /-- R258. FCMP_LT -/
  | fcmpLt (d : Opd) (a : Opd) (b : Opd)
  /-- R258. FCMP_LE -/
  | fcmpLe (d : Opd) (a : Opd) (b : Opd)
  /-- R258. FCMP_GT -/
  | fcmpGt (d : Opd) (a : Opd) (b : Opd)
  /-- R258. FCMP_GE -/
  | fcmpGe (d : Opd) (a : Opd) (b : Opd)
  /-- R258. FCMP_UN -/
  | fcmpUn (d : Opd) (a : Opd) (b : Opd)
  /-- R259. FMIN -/
  | fmin (d : Opd) (a : Opd) (b : Opd)
  /-- R259. FMAX -/
  | fmax (d : Opd) (a : Opd) (b : Opd)
  /-- R260. FABS -/
  | fabs (d : Opd) (a : Opd)
  /-- R260. FNEG -/
  | fneg (d : Opd) (a : Opd)
  /-- R261. FRND_RN -/
  | frndRn (d : Opd) (a : Opd)
  /-- R261. FRND_RZ -/
  | frndRz (d : Opd) (a : Opd)
  /-- R261. FRND_RP -/
  | frndRp (d : Opd) (a : Opd)
  /-- R261. FRND_RM -/
  | frndRm (d : Opd) (a : Opd)
  /-- R262. FFRAC -/
  | ffrac (d : Opd) (a : Opd)
  /-- R263. HADD2 -/
  | hadd2 (d : Opd) (a : Opd) (b : Opd) (md : Rm)
  /-- R263. HMUL2 -/
  | hmul2 (d : Opd) (a : Opd) (b : Opd) (md : Rm)
  /-- R263. HFMA2 -/
  | hfma2 (d : Opd) (a : Opd) (b : Opd) (md : Rm)
  /-- R263. BADD2 -/
  | badd2 (d : Opd) (a : Opd) (b : Opd) (md : Rm)
  /-- R263. BMUL2 -/
  | bmul2 (d : Opd) (a : Opd) (b : Opd) (md : Rm)
  /-- R263. BFMA2 -/
  | bfma2 (d : Opd) (a : Opd) (b : Opd) (md : Rm)
  /-- R265. DADD -/
  | dadd (d : Opd) (a : Opd) (b : Opd) (md : Rm)
  /-- R265. DMUL -/
  | dmul (d : Opd) (a : Opd) (b : Opd) (md : Rm)
  /-- R265. DFMA -/
  | dfma (d : Opd) (a : Opd) (b : Opd) (md : Rm)
  /-- R268. CVT -/
  | cvt (d : Opd) (a : Opd) (dst : CFmt) (src : CFmt) (mode : CMode)
  /-- R268. CVT_PK -/
  | cvtPk (d : Opd) (a : Opd) (dst : CFmt) (src : CFmt) (mode : CMode)
  /-- R271. CVT_BLK_PACK -/
  | cvtBlkPack (d : Opd) (a : Opd) (f : Fin 16) (mode : CMode)
  /-- R272. CVT_BLK_UNPACK -/
  | cvtBlkUnpack (d : Opd) (a : Opd) (f : Fin 16)
  /-- R271. CVT_BLKP_PACK -/
  | cvtBlkpPack (d : Opd) (a : Opd) (f : Fin 16) (mode : CMode)
  /-- R272. CVT_BLKP_UNPACK -/
  | cvtBlkpUnpack (d : Opd) (a : Opd) (f : Fin 16)
  /-- R273. FRCP -/
  | frcp (d : Opd) (a : Opd)
  /-- R273. FRSQ -/
  | frsq (d : Opd) (a : Opd)
  /-- R273. FSQRT -/
  | fsqrt (d : Opd) (a : Opd)
  /-- R273. FEXP2 -/
  | fexp2 (d : Opd) (a : Opd)
  /-- R273. FLOG2 -/
  | flog2 (d : Opd) (a : Opd)
  /-- R273. FSIN -/
  | fsin (d : Opd) (a : Opd)
  /-- R273. FCOS -/
  | fcos (d : Opd) (a : Opd)
  /-- R273. FTANH -/
  | ftanh (d : Opd) (a : Opd)
  /-- R277. LSHF_UP -/
  | lshfUp (d : Opd) (a : Opd) (b : Opd)
  /-- R277. LSHF_DN -/
  | lshfDn (d : Opd) (a : Opd) (b : Opd)
  /-- R277. LSHF_XOR -/
  | lshfXor (d : Opd) (a : Opd) (b : Opd)
  /-- R277. LSHF_IDX -/
  | lshfIdx (d : Opd) (a : Opd) (b : Opd)
  /-- R277. LSHF_UP_W -/
  | lshfUpW (d : Opd) (a : Opd) (j : Fin 8)
  /-- R277. LSHF_DN_W -/
  | lshfDnW (d : Opd) (a : Opd) (j : Fin 8)
  /-- R277. LSHF_XOR_W -/
  | lshfXorW (d : Opd) (a : Opd) (j : Fin 8)
  /-- R278. LBCAST -/
  | lbcast (d : Opd) (a : Opd) (b : Opd)
  /-- R279. LRED -/
  | lred (d : Opd) (a : Opd) (op : RedOp)
  /-- R279. LSCAN -/
  | lscan (d : Opd) (a : Opd) (op : RedOp)
  /-- R280. LVOTE_ANY -/
  | lvoteAny (d : Opd) (a : Opd)
  /-- R280. LVOTE_ALL -/
  | lvoteAll (d : Opd) (a : Opd)
  /-- R280. LVOTE_BALLOT -/
  | lvoteBallot (d : Opd) (a : Opd)
  /-- R281. LIDX -/
  | lidx (d : Opd) (f : WidF)
  /-- R282. LGET -/
  | lget (d : Opd) (a : Opd) (b : Opd)
  /-- R16. JOIN -/
  | join (k : Fin 12)
  /-- R16. LEAVE -/
  | leave (k : Fin 12)
  /-- R17. WAIT -/
  | wait (k : Fin 12)
  /-- R214. MSET -/
  | mset (k : Fin 12) (a : Opd)
  /-- R214. MGET -/
  | mget (d : Opd) (j : Fin 13)
  /-- R214. MAND -/
  | mand (d : Fin 12) (a : Fin 12) (b : Fin 12)
  /-- R214. MOR -/
  | mor (d : Fin 12) (a : Fin 12) (b : Fin 12)
  /-- R214. MXOR -/
  | mxor (d : Fin 12) (a : Fin 12) (b : Fin 12)
  /-- R214. MNOT -/
  | mnot (d : Fin 12) (a : Fin 12)
  /-- R214. MPOP -/
  | mpop (d : Opd) (j : Fin 13)
  /-- R214. MFIRST -/
  | mfirst (d : Opd) (j : Fin 13)
  /-- R252. XSEND -/
  | xsend (slot : Opd) (v : Opd)
  /-- R252. XRECV -/
  | xrecv (d : Opd) (slot : Opd)
  /-- R53. QPUSH -/
  | qpush (k : Fin 12) (q : Fin 8) (v : Opd)
  /-- R53. QPOP -/
  | qpop (d : Opd) (k : Fin 12) (q : Fin 8)
  /-- R54. QPOPW -/
  | qpopw (d : Opd) (k : Fin 12) (q : Fin 8)
  /-- R53. QLEN -/
  | qlen (d : Opd) (q : Fin 8)
  /-- R220. IADDI -/
  | iaddi (d : Opd) (a : Opd) (imm : BitVec 11)
  /-- R220. ANDI -/
  | andi (d : Opd) (a : Opd) (imm : BitVec 11)
  /-- R220. ORI -/
  | ori (d : Opd) (a : Opd) (imm : BitVec 11)
  /-- R220. XORI -/
  | xori (d : Opd) (a : Opd) (imm : BitVec 11)
  /-- R220. SHLI -/
  | shli (d : Opd) (a : Opd) (n : BitVec 8)
  /-- R220. SHRI -/
  | shri (d : Opd) (a : Opd) (n : BitVec 8)
  /-- R220. SARI -/
  | sari (d : Opd) (a : Opd) (n : BitVec 8)
  /-- R220. CMPI -/
  | cmpi (d : Opd) (a : Opd) (c : Cond) (v : BitVec 7)
  /-- R220. IMULI -/
  | imuli (d : Opd) (a : Opd) (imm : BitVec 11)
  /-- R221. MOVS_FROM_SCALAR -/
  | movsFromScalar (d : Opd) (n : Fin 64)
  /-- R221. MOVS_TO_SCALAR -/
  | movsToScalar (n : Fin 64) (a : Opd)
  /-- R183. MOVL -/
  | movl (d : Opd) (imm : BitVec 18)
  /-- R183. MOVH -/
  | movh (d : Opd) (imm : BitVec 18)
  /-- R230. LD -/
  | ld (data : Opd) (base : Opd) (off : Fin 32) (size : MSize) (sp : Space)
  /-- R230. ST -/
  | st (data : Opd) (base : Opd) (off : Fin 32) (size : MSize) (sp : Space)
  /-- R232. ST_FAB_REL -/
  | stFabRel (data : Opd) (base : Opd) (off : Fin 32) (size : MSize)
  /-- R235. ATOM_ADD -/
  | atomAdd (d : Opd) (addr : Opd) (main : Bool) (ty : AType) (sc : Scope)
  /-- R235. ATOM_MIN -/
  | atomMin (d : Opd) (addr : Opd) (main : Bool) (ty : AType) (sc : Scope)
  /-- R235. ATOM_MAX -/
  | atomMax (d : Opd) (addr : Opd) (main : Bool) (ty : AType) (sc : Scope)
  /-- R235. ATOM_AND -/
  | atomAnd (d : Opd) (addr : Opd) (main : Bool) (ty : AType) (sc : Scope)
  /-- R235. ATOM_OR -/
  | atomOr (d : Opd) (addr : Opd) (main : Bool) (ty : AType) (sc : Scope)
  /-- R235. ATOM_XOR -/
  | atomXor (d : Opd) (addr : Opd) (main : Bool) (ty : AType) (sc : Scope)
  /-- R235. ATOM_XCHG -/
  | atomXchg (d : Opd) (addr : Opd) (main : Bool) (ty : AType) (sc : Scope)
  /-- R235. ATOM_CAS -/
  | atomCas (d : Opd) (addr : Opd) (main : Bool) (ty : AType) (sc : Scope)
  /-- R235. ATOM_INCW -/
  | atomIncw (d : Opd) (addr : Opd) (main : Bool) (ty : AType) (sc : Scope)
  /-- R235. ATOM_DECW -/
  | atomDecw (d : Opd) (addr : Opd) (main : Bool) (ty : AType) (sc : Scope)
  /-- R236. RED_ADD -/
  | redAdd (d : Opd) (addr : Opd) (main : Bool) (ty : AType) (sc : Scope)
  /-- R236. RED_MIN -/
  | redMin (d : Opd) (addr : Opd) (main : Bool) (ty : AType) (sc : Scope)
  /-- R236. RED_MAX -/
  | redMax (d : Opd) (addr : Opd) (main : Bool) (ty : AType) (sc : Scope)
  /-- R236. RED_AND -/
  | redAnd (d : Opd) (addr : Opd) (main : Bool) (ty : AType) (sc : Scope)
  /-- R236. RED_OR -/
  | redOr (d : Opd) (addr : Opd) (main : Bool) (ty : AType) (sc : Scope)
  /-- R236. RED_XOR -/
  | redXor (d : Opd) (addr : Opd) (main : Bool) (ty : AType) (sc : Scope)
  /-- R236. RED_INCW -/
  | redIncw (d : Opd) (addr : Opd) (main : Bool) (ty : AType) (sc : Scope)
  /-- R236. RED_DECW -/
  | redDecw (d : Opd) (addr : Opd) (main : Bool) (ty : AType) (sc : Scope)
  /-- R240. CPY -/
  | cpy (dst : Opd) (src : Opd) (tag : Fin 64) (dsp : EndSp) (ssp : EndSp) (bar : BarSel) (len : Opd) (d : Opd)
  /-- R241. CPX -/
  | cpx (dst : Opd) (src : Opd) (tag : Fin 64) (dsp : EndSp) (ssp : EndSp) (bar : BarSel) (len : Opd) (d : Opd)
  /-- R240. CPG -/
  | cpg (dst : Opd) (src : Opd) (tag : Fin 64) (dsp : EndSp) (ssp : EndSp) (bar : BarSel) (len : Opd) (d : Opd)
  /-- R240. CPS -/
  | cps (dst : Opd) (src : Opd) (tag : Fin 64) (dsp : EndSp) (ssp : EndSp) (bar : BarSel) (len : Opd) (d : Opd)
  /-- R243. TAGANY -/
  | tagany (tag : Fin 64)
  /-- R243. TAGALL -/
  | tagall (tag : Fin 64)
  /-- R243. TAGCLR -/
  | tagclr (tag : Fin 64)
  /-- R243. TAGANY_MASK -/
  | taganyMask (m : Opd)
  /-- R243. TAGALL_MASK -/
  | tagallMask (m : Opd)
  /-- R243. TAGCLR_MASK -/
  | tagclrMask (m : Opd)
  /-- R243. TAGFIRST -/
  | tagfirst (d : Opd) (m : Opd)
  /-- R49. BCB_INIT -/
  | bcbInit (a : Opd) (sp : Bool) (v : Opd)
  /-- R49. BCB_INIT_ABANDON -/
  | bcbInitAbandon (a : Opd) (sp : Bool)
  /-- R49. BCB_EXP -/
  | bcbExp (a : Opd) (sp : Bool) (v : Opd)
  /-- R49. BCB_ARR -/
  | bcbArr (a : Opd) (sp : Bool) (v : Opd)
  /-- R245. BCB_WAIT -/
  | bcbWait (d : Fin 64) (a : Opd) (sp : Bool) (rel : Fin 8)
  /-- R245. BCB_TEST -/
  | bcbTest (d : Fin 64) (a : Opd) (sp : Bool)
  /-- R80. SOBIND_GRP -/
  | sobindGrp (obj : Opd) (base : Opd) (rsp : RSpace) (len : Opd) (d : Opd)
  /-- R80. SOBIND_CLU -/
  | sobindClu (obj : Opd) (base : Opd) (rsp : RSpace) (len : Opd) (d : Opd)
  /-- R80. SOBIND_CHIP -/
  | sobindChip (obj : Opd) (base : Opd) (rsp : RSpace) (len : Opd) (d : Opd)
  /-- R80. SOBIND_SYS -/
  | sobindSys (obj : Opd) (base : Opd) (rsp : RSpace) (len : Opd) (d : Opd)
  /-- R81. SACQ -/
  | sacq (a : Opd) (sp : ObjSp)
  /-- R81. SACQ_SH -/
  | sacqSh (a : Opd) (sp : ObjSp)
  /-- R81. STRY -/
  | stry (d : Opd) (a : Opd) (sp : ObjSp)
  /-- R81. SREL -/
  | srel (d : Opd) (a : Opd) (sp : ObjSp)
  /-- R77. FENCE_GRP -/
  | fenceGrp
  /-- R77. FENCE_CLU -/
  | fenceClu
  /-- R77. FENCE_CHIP -/
  | fenceChip
  /-- R77. FENCE_SYS -/
  | fenceSys
  /-- R66. HRED_OPEN -/
  | hredOpen (slot : Opd) (op : Opd) (timeout : Opd) (mask : Opd) (d : Opd)
  /-- R68. HRED_PUT -/
  | hredPut (d : Opd) (slot : Opd)
  /-- R69. HRED_WAIT -/
  | hredWait (d : Opd) (slot : Opd)
  /-- R201. JMP -/
  | jmp (disp : BitVec 18)
  /-- R201. BZ -/
  | bz (c : Opd) (disp : BitVec 18)
  /-- R201. BNZ -/
  | bnz (c : Opd) (disp : BitVec 18)
  /-- R201. BM -/
  | bm (k : Fin 12) (disp : BitVec 18)
  /-- R202. CALL -/
  | call (disp : BitVec 18)
  /-- R206. JMPR -/
  | jmpr (a : Opd)
  /-- R206. RET -/
  | ret
  /-- R207. END -/
  | endLanes
  /-- R208. NOP -/
  | nop
  /-- R209. YIELD -/
  | yield
  /-- R210. SLEEP -/
  | sleep (a : Opd)
  /-- R211. TRAP -/
  | trap (n : Fin 64)
  /-- R211. BRK -/
  | brk (n : Fin 64)
  /-- R212. RFE -/
  | rfe (a : Opd)
  /-- R114. OBRES -/
  | obres (d : Opd) (a : Opd) (f : Fin 64)
  /-- R114. OBREC -/
  | obrec (d : Opd) (a : Opd)
  /-- R114. OBREL -/
  | obrel (a : Opd)
  /-- R118. MLOAD -/
  | mload (d : Opd) (h : Opd) (bar : BarSel) (row0 : Opd)
  /-- R119. MSWAP -/
  | mswap
  /-- R119. MSWAP_AUTO -/
  | mswapAuto
  /-- R123. MSTREAM -/
  | mstream (d : Opd) (t : Opd) (ctr : Fin 16) (bar : BarSel) (rowbase : Opd) (h : Opd)
  /-- R122. MZERO -/
  | mzero (d : Opd) (t : Opd)
  /-- R126. MDRAIN -/
  | mdrain (d : Opd) (t : Opd) (n : Opd) (c : Opd)
  /-- R127. MWAIT -/
  | mwait (t : Opd)
  /-- R127. MPOLL -/
  | mpoll (d : Opd) (t : Opd)
  /-- R122. ACCGET -/
  | accget (d : Opd)
  /-- R122. ACCPUT -/
  | accput (t : Opd)
  /-- R130. MSTAT -/
  | mstat (d : Opd)
  /-- R134. TSPAWN -/
  | tspawn (d : Opd) (a : Opd)
  /-- R136. TFORK -/
  | tfork (d : Opd) (a : Opd) (sb : Fin 64)
  /-- R136. TSYNC -/
  | tsync
  /-- R135. TPOST -/
  | tpost (a : Opd) (n : Opd)
  /-- R135. TDEC -/
  | tdec (a : Opd)
  /-- R134. TSELF -/
  | tself (d : Opd)
  /-- R138. TDONE -/
  | tdone (a : Opd)
  /-- R139. FWAIT -/
  | fwait (d : Opd) (a : Opd)
  /-- R139. FSET -/
  | fset (a : Opd) (v : Opd)
  /-- R139. LKACQ -/
  | lkacq (d : Opd) (a : Opd)
  /-- R139. LKREL -/
  | lkrel (a : Opd)
  /-- R160. GWIDTH -/
  | gwidth (d : Opd) (sq : Opd)
  /-- R152. GSET -/
  | gset (d : Opd) (sq : Opd) (sw : Fin 64)
  /-- R160. GSET_X -/
  | gsetX (d : Opd) (sq : Opd) (sa : Fin 64)
  /-- R160. GVIEW -/
  | gview (d : Opd) (sq : Opd)
  /-- R160. GRANK -/
  | grank (d : Opd) (sq : Opd)
  /-- R157. GSTEP -/
  | gstep (d : Opd) (sq : Opd) (sn : Fin 64)
  /-- R159. GLATE -/
  | glate (d : Opd) (sq : Opd)
  /-- R297. KVX -/
  | kvx (d : Opd) (sq : Opd) (va : Fin 64)
  /-- R161. KVAPP -/
  | kvapp (d : Opd) (sq : Opd) (sp : Fin 64)
  /-- R162. KVFORK -/
  | kvfork (d : Opd) (sq : Opd) (sp : Fin 64)
  /-- R163. KVFREE -/
  | kvfree (d : Opd) (sq : Opd) (sn : Fin 64)
  /-- R160. FLPOP -/
  | flpop (d : Opd) (st : Opd)
  /-- R160. FLPUSH -/
  | flpush (d : Opd) (sb : Opd)
  /-- R301. SRD -/
  | srd (d : Opd) (r : SReg)
  /-- R302. SWR -/
  | swr (r : SReg) (v : Opd)
  /-- R303. SEGLD -/
  | segld (r : SReg) (a : Opd)
  /-- R304. RGROW -/
  | rgrow (a : Opd)
  /-- R304. RSHRINK -/
  | rshrink (a : Opd)
  /-- R190. CLAUSE_HEADER -/
  | clauseHeader (len : Fin 32) (fb : Fin 16) (fa : Fin 16) (wait : BitVec 12)
  /-- R15. CLAUSE_TRAILER -/
  | clauseTrailer (sp : Bool) (fl : Fin 8) (d3 : Opd) (d2 : Opd) (d1 : Opd)
  /-- R26. RGROW_GRANT -/
  | rgrowGrant (gid : Nat) (wid : Nat)
  /-- R27. RGROW_DEADLOCK_PREEMPT -/
  | rgrowDeadlockPreempt (chip : Nat) (core : Nat)
  /-- R22. PARKED_SUBGROUP_RETURN -/
  | parkedSubgroupReturn (gid : Nat) (wid : Nat) (k : Nat)
  /-- R21. LATE_SPLIT -/
  | lateSplit (gid : Nat) (wid : Nat)
  /-- R210. SLEEP_EXPIRY -/
  | sleepExpiry (gid : Nat) (wid : Nat) (k : Nat)
  /-- R209. YIELD_TIMEOUT -/
  | yieldTimeout (gid : Nat) (wid : Nat)
  /-- R231. LOAD_REPLY -/
  | loadReply (op : Nat)
  /-- R74. STORE_PERFORMED -/
  | storePerformed (op : Nat)
  /-- R235. ATOMIC_AT_HOME -/
  | atomicAtHome (op : Nat)
  /-- R60. RELEASE_PERFORM -/
  | releasePerform (op : Nat)
  /-- R58. FABRIC_UNDELIVERABLE -/
  | fabricUndeliverable (op : Nat)
  /-- R63. FABRIC_REQUEST_TIMEOUT -/
  | fabricRequestTimeout (op : Nat)
  /-- R62. ESCAPE_DIVERT -/
  | escapeDivert (op : Nat) (port : Nat)
  /-- R46. COPY_COMMAND_COMPLETE -/
  | copyCommandComplete (cmd : Nat)
  /-- R50. COPY_COMMAND_FAIL -/
  | copyCommandFail (cmd : Nat) (code : Nat) (unit : Nat)
  /-- R357. MATRIX_GRANT -/
  | matrixGrant (clu : Nat)
  /-- R127. MATRIX_COMMAND_RETIRE -/
  | matrixCommandRetire (clu : Nat) (cmd : Nat)
  /-- R128. MATRIX_COMMAND_FAIL -/
  | matrixCommandFail (clu : Nat) (cmd : Nat) (code : Nat) (acc : Bool)
  /-- R69. HRED_TIMEOUT -/
  | hredTimeout (slot : Nat)
  /-- R70. HRED_SLOT_EXPIRE -/
  | hredSlotExpire (slot : Nat)
  /-- R133. TASK_DISPATCH -/
  | taskDispatch (chip : Nat) (part : Nat) (vf : Nat) (core : Nat)
  /-- R153. GANG_WALK -/
  | gangWalk (slot : Nat)
  /-- R154. SWITCH -/
  | switchMsg (slot : Nat) (chip : Nat)
  /-- R154. SWITCH_REPLY -/
  | switchReply (slot : Nat) (chip : Nat)
  /-- R154. CUT -/
  | cutMsg (slot : Nat) (chip : Nat)
  /-- R154. LAP_REPORT -/
  | lapReport (slot : Nat) (chip : Nat)
  /-- R155. SWITCH_TIMEOUT -/
  | switchTimeout (slot : Nat) (chip : Nat)
  /-- R155. ABORT -/
  | abortMsg (slot : Nat) (chip : Nat)
  /-- R155. ABORT_ACKNOWLEDGEMENT -/
  | abortAcknowledgement (slot : Nat) (chip : Nat)
  /-- R157. LAP_MESSAGE -/
  | lapMessage (lap : Nat)
  /-- R157. LAP_DEADLINE -/
  | lapDeadline (lap : Nat)
  /-- R158. LATE_ARRIVAL -/
  | lateArrival (msg : Nat)
  /-- R159. GLATE_TIMEOUT -/
  | glateTimeout (gid : Nat) (wid : Nat)
  /-- R369. TRAP_DELIVERY -/
  | trapDelivery (chip : Nat) (part : Nat) (core : Nat)
  /-- R354. VF_SLICE_END -/
  | vfSliceEnd (chip : Nat) (part : Nat)
  /-- R374. PREEMPT_STOP -/
  | preemptStop (gid : Nat)
  /-- R6. GROUP_DISPATCH -/
  | groupDispatch (chip : Nat) (part : Nat) (vf : Nat) (core : Nat)
  /-- R374. GROUP_RESUME -/
  | groupResume (gid : Nat) (core : Nat)
  /-- R348. QTAIL -/
  | qtail (part : Nat) (vf : Nat) (q : Nat) (value : Word)
  /-- R349. LAUNCH_NONE -/
  | launchNone (part : Nat) (vf : Nat) (q : Nat)
  /-- R351. GRID -/
  | grid (part : Nat) (vf : Nat) (q : Nat)
  /-- R351. OPEN_SLOT -/
  | openSlot (part : Nat) (vf : Nat) (q : Nat)
  /-- R351. CLOSE_SLOT -/
  | closeSlot (part : Nat) (vf : Nat) (q : Nat)
  /-- R351. RECORD_COMPLETE -/
  | recordComplete (rec : Nat)
  /-- R356. STEAL_REQUEST -/
  | stealRequest (rec : Nat) (thief : Nat) (victim : Nat)
  /-- R363. MAP -/
  | map (part : Nat) (vf : Nat)
  /-- R363. UNMAP -/
  | unmap (part : Nat) (vf : Nat)
  /-- R363. PROTECT -/
  | protect (part : Nat) (vf : Nat)
  /-- R363. SETTAG -/
  | settag (part : Nat) (vf : Nat)
  /-- R363. MOVE -/
  | move (part : Nat) (vf : Nat)
  /-- R363. REGQ -/
  | regq (part : Nat) (vf : Nat)
  /-- R366. PAGE_MIGRATION -/
  | pageMigration (part : Nat) (vf : Nat) (va : Nat) (tier : Nat)
  /-- R386. PSET -/
  | pset
  /-- R387. VSET -/
  | vset
  /-- R389. PDEL -/
  | pdel
  /-- R385. ENROLL -/
  | enroll
  /-- R391. KLOAD -/
  | kload
  /-- R391. KCLR -/
  | kclr
  /-- R394. LSIGN -/
  | lsign
  /-- R397. CSET -/
  | cset
  /-- R397. CSET_TIMEOUT -/
  | csetTimeout
  /-- R71. HFREE -/
  | hfree
  /-- R71. FUNCTION_LEVEL_RESET -/
  | functionLevelReset (part : Nat) (vf : Nat)
  /-- R380. REPLCTL_GO -/
  | replctlGo (kind : Nat)
  /-- R381. QUIESCE_COMPLETE -/
  | quiesceComplete
  /-- R379. HBEAT -/
  | hbeat (value : Nat)
  /-- R382. HEARTBEAT_INTERVAL_END -/
  | heartbeatIntervalEnd
  /-- R382. IMAGE_FAULT -/
  | imageFault
  /-- R377. POWER_ON -/
  | powerOn
  /-- R404. POWER_LOSS -/
  | powerLoss
  /-- R403. POWER_INTERVAL -/
  | powerInterval (watts : Nat)
  /-- R403. COOLANT_CRITICAL -/
  | coolantCritical
  /-- R392. USAGE_INTERVAL_END -/
  | usageIntervalEnd (part : Nat) (vf : Nat)
  /-- R392. KVHOLD_SAMPLE -/
  | kvholdSample
  /-- R390. QUOTA_WINDOW -/
  | quotaWindow (chip : Nat)
  /-- R402. HBM_CHANNEL_RETIRE -/
  | hbmChannelRetire (chip : Nat) (channel : Nat)
  /-- R401. QUADRANT_RETIRE -/
  | quadrantRetire (clu : Nat) (quad : Nat)
  /-- R399. FEC_WINDOW -/
  | fecWindow (port : Nat) (wave : Nat) (bits : Nat)
  /-- R399. RETRAIN_DONE -/
  | retrainDone (port : Nat)
  /-- R399. RETRAIN_TIMEOUT -/
  | retrainTimeout (port : Nat)
  /-- R4. REGISTER_WRITE -/
  | registerWrite (part : Nat) (vf : Nat) (off : Nat) (value : Word)
  /-- R397. GEN_EXCHANGE -/
  | genExchange (serial : Dword) (module : Nat) (gen : Dword)
  /-- R371. CRC_RETRY -/
  | crcRetry (port : Nat)
  /-- R378. ATTESTATION_QUOTE -/
  | attestationQuote (part : Nat)
  /-- R353. HOST_WRITE -/
  | hostWrite (part : Nat) (vf : Nat) (va : Nat) (bytes : List Byte)
  deriving DecidableEq, Repr

end Sys2Proof
end

