-- ==== Sys2Proof/Decode.lean ====
section
/-! DEFINITION. The decoder, total on any bytes, and the encoder, both written from the formats of R178 to R197
and R200 to R299. A word is handled as the number of its bits, bit 0 the least significant of the first word. -/

namespace Sys2Proof

/-- The `n` bits of `w` that start at bit `lo`. -/
def fld (w lo n : Nat) : Nat := w >>> lo % 2 ^ n

/-- Keeps a decoded instruction when the given test of its fixed bits holds. -/
def guardThen (b : Bool) (o : Option Instr) : Option Instr := if b then o else none

/-! ### Fields: from a number to the field, and back -/

def toFin (n w : Nat) (_h : 0 < n) : Option (Fin n) := if h : w < n then some ⟨w, h⟩ else none

/-- R174: the operand codes. -/
def Opd.ofBits (c : Nat) : Opd :=
  if h : c < 96 then .v ⟨c, h⟩
  else if h : c - 96 < 16 then .s ⟨c - 96, h⟩
  else if h : c - 112 < 8 then .x ⟨c - 112, h⟩
  else .k ⟨(c - 120) % 8, Nat.mod_lt _ (by decide)⟩

def Opd.toNat : Opd → Nat
  | .v r => r.val
  | .s r => 96 + r.val
  | .x r => 112 + r.val
  | .k c => 120 + c.val

/-- R179: the b field of a 16-bit word. -/
def Opd16.ofBits (c : Nat) : Opd16 :=
  if h : c < 16 then .v ⟨c, h⟩
  else if h : c - 16 < 8 then .x ⟨c - 16, h⟩
  else .k ⟨(c - 24) % 8, Nat.mod_lt _ (by decide)⟩

def Opd16.toNat : Opd16 → Nat
  | .v r => r.val
  | .x r => 16 + r.val
  | .k c => 24 + c.val

/-- The operand that a 16-bit word's b field names (R179). -/
def Opd16.toOpd : Opd16 → Opd
  | .v r => .v ⟨r.val, by omega⟩
  | .x r => .x r
  | .k c => .k c

def PackT.ofBits (c : Nat) : PackT :=
  if c = 0 then .i8x4 else if c = 1 then .n8x4 else if c = 2 then .i16x2 else .n16x2
def PackT.toNat : PackT → Nat
  | .i8x4 => 0 | .n8x4 => 1 | .i16x2 => 2 | .n16x2 => 3

def Rm.ofBits (c : Nat) : Rm := if c = 0 then .rn else if c = 1 then .rz else if c = 2 then .rp else .rm
def Rm.toNat : Rm → Nat
  | .rn => 0 | .rz => 1 | .rp => 2 | .rm => 3

def CFmt.ofBits (c : Nat) : CFmt :=
  if c = 0 then .f64 else if c = 1 then .f32 else if c = 2 then .f16 else if c = 3 then .bf16
  else if c = 4 then .e4m3 else if c = 5 then .e5m2 else if c = 6 then .i32 else .n32
def CFmt.toNat : CFmt → Nat
  | .f64 => 0 | .f32 => 1 | .f16 => 2 | .bf16 => 3 | .e4m3 => 4 | .e5m2 => 5 | .i32 => 6 | .n32 => 7

def CMode.ofBits? (c : Nat) : Option CMode :=
  [CMode.rn, .rz, .rp, .rm, .rs, .rnSat, .rzSat, .rpSat, .rmSat, .rsSat][c]?
def CMode.toNat : CMode → Nat
  | .rn => 0 | .rz => 1 | .rp => 2 | .rm => 3 | .rs => 4
  | .rnSat => 5 | .rzSat => 6 | .rpSat => 7 | .rmSat => 8 | .rsSat => 9

def RedOp.ofBits? (c : Nat) : Option RedOp := [RedOp.add, .fadd, .fmin, .fmax, .and, .or][c]?
def RedOp.toNat : RedOp → Nat
  | .add => 0 | .fadd => 1 | .fmin => 2 | .fmax => 3 | .and => 4 | .or => 5

def WidF.ofBits? (c : Nat) : Option WidF :=
  if h : c < 6 then some (.field ⟨c, h⟩) else if c = 7 then some .all else none
def WidF.toNat : WidF → Nat
  | .field k => k.val | .all => 7

def Cond.ofBits? (c : Nat) : Option Cond :=
  [Cond.eqI, .neI, .ltI, .leI, .gtI, .geI, .eqN, .neN, .ltN, .leN, .gtN, .geN][c]?
def Cond.toNat : Cond → Nat
  | .eqI => 0 | .neI => 1 | .ltI => 2 | .leI => 3 | .gtI => 4 | .geI => 5
  | .eqN => 6 | .neN => 7 | .ltN => 8 | .leN => 9 | .gtN => 10 | .geN => 11

def MSize.ofBits? (c : Nat) : Option MSize := [MSize.b8z, .b8s, .b16z, .b16s, .b32, .b64, .b128][c]?
def MSize.toNat : MSize → Nat
  | .b8z => 0 | .b8s => 1 | .b16z => 2 | .b16s => 3 | .b32 => 4 | .b64 => 5 | .b128 => 6

def Space.ofBits? (c : Nat) : Option Space := [Space.priv, .shr, .dws, .con, .fab][c]?
def Space.toNat : Space → Nat
  | .priv => 0 | .shr => 1 | .dws => 2 | .con => 3 | .fab => 4

def AType.ofBits (c : Nat) : AType := if c = 0 then .n32 else if c = 1 then .i32 else if c = 2 then .f32 else .n64
def AType.toNat : AType → Nat
  | .n32 => 0 | .i32 => 1 | .f32 => 2 | .n64 => 3

def Scope.ofBits (c : Nat) : Scope := if c = 0 then .grp else if c = 1 then .clu else if c = 2 then .chip else .sys
def Scope.toNat : Scope → Nat
  | .grp => 0 | .clu => 1 | .chip => 2 | .sys => 3

def EndSp.ofBits (c : Nat) : EndSp := if c = 0 then .shr else if c = 1 then .dws else if c = 2 then .fab else .mem
def EndSp.toNat : EndSp → Nat
  | .shr => 0 | .dws => 1 | .fab => 2 | .mem => 3

def BarSel.ofBits? (c : Nat) : Option BarSel :=
  if c / 32 = 0 then (if c = 0 then some .none else Option.none)
  else if c / 32 = 1 then some (.shr ⟨c % 32, Nat.mod_lt _ (by decide)⟩)
  else if c / 32 = 2 then some (.dws ⟨c % 32, Nat.mod_lt _ (by decide)⟩)
  else if c = 96 then some .headed else Option.none
def BarSel.toNat : BarSel → Nat
  | .none => 0 | .shr k => 32 + k.val | .dws k => 64 + k.val | .headed => 96

def RSpace.ofBits? (c : Nat) : Option RSpace := [RSpace.none, .shr, .dws, .mem][c]?
def RSpace.toNat : RSpace → Nat
  | .none => 0 | .shr => 1 | .dws => 2 | .mem => 3

def ObjSp.ofBits? (c : Nat) : Option ObjSp := [ObjSp.shr, .dws, .fab][c]?
def ObjSp.toNat : ObjSp → Nat
  | .shr => 0 | .dws => 1 | .fab => 2

/-- R299: the register numbers; 19 and 26 to 63 name nothing. -/
def SReg.ofBits? (c : Nat) : Option SReg :=
  if c = 19 then none else
  [SReg.warpw, .widf, .core, .clus, .chip, .modl, .cyc, .flg, .ctb, .late, .seed, .deg, .pmode, .helpd,
   .trapc, .trapa, .trapv, .trapt, .traph, .traph, .segpriv, .segshr, .segdws, .segcon, .segfab, .segob][c]?
def SReg.toNat : SReg → Nat
  | .warpw => 0 | .widf => 1 | .core => 2 | .clus => 3 | .chip => 4 | .modl => 5 | .cyc => 6 | .flg => 7
  | .ctb => 8 | .late => 9 | .seed => 10 | .deg => 11 | .pmode => 12 | .helpd => 13 | .trapc => 14
  | .trapa => 15 | .trapv => 16 | .trapt => 17 | .traph => 18 | .segpriv => 20 | .segshr => 21
  | .segdws => 22 | .segcon => 23 | .segfab => 24 | .segob => 25

def boolNat (b : Bool) : Nat := if b then 1 else 0

/-! ### 16-bit words (R179) -/

/-- R178, R179: a word whose bit 0 is 0; the word 0 is the nop. -/
def decode16 (w : Nat) : Option Instr :=
  if w = 0 then some .nop16 else
  match fld w 1 4 with
  | 0 => do
      let d ← toFin 64 (fld w 5 6) (by decide)
      some (.mov16 d (Opd16.ofBits (fld w 11 5)))
  | 1 => do
      let d ← toFin 64 (fld w 5 6) (by decide)
      some (.iadd16 d (Opd16.ofBits (fld w 11 5)))
  | 2 => do
      let d ← toFin 64 (fld w 5 6) (by decide)
      some (.isub16 d (Opd16.ofBits (fld w 11 5)))
  | 3 => do
      let d ← toFin 64 (fld w 5 6) (by decide)
      some (.imul16 d (Opd16.ofBits (fld w 11 5)))
  | 4 => do
      let d ← toFin 64 (fld w 5 6) (by decide)
      some (.and16 d (Opd16.ofBits (fld w 11 5)))
  | 5 => do
      let d ← toFin 64 (fld w 5 6) (by decide)
      some (.or16 d (Opd16.ofBits (fld w 11 5)))
  | 6 => do
      let d ← toFin 64 (fld w 5 6) (by decide)
      some (.xor16 d (Opd16.ofBits (fld w 11 5)))
  | 7 => do
      let d ← toFin 64 (fld w 5 6) (by decide)
      some (.shl16 d (Opd16.ofBits (fld w 11 5)))
  | 8 => do
      let d ← toFin 64 (fld w 5 6) (by decide)
      some (.shr16 d (Opd16.ofBits (fld w 11 5)))
  | 9 => do
      let d ← toFin 64 (fld w 5 6) (by decide)
      some (.sar16 d (Opd16.ofBits (fld w 11 5)))
  | 10 => do
      let d ← toFin 64 (fld w 5 6) (by decide)
      some (.iminI3216 d (Opd16.ofBits (fld w 11 5)))
  | 11 => do
      let d ← toFin 64 (fld w 5 6) (by decide)
      some (.imaxI3216 d (Opd16.ofBits (fld w 11 5)))
  | 12 => do
      let d ← toFin 64 (fld w 5 6) (by decide)
      some (.fadd16 d (Opd16.ofBits (fld w 11 5)))
  | 13 => do
      let d ← toFin 64 (fld w 5 6) (by decide)
      some (.fsub16 d (Opd16.ofBits (fld w 11 5)))
  | 14 => do
      let d ← toFin 64 (fld w 5 6) (by decide)
      some (.fmul16 d (Opd16.ofBits (fld w 11 5)))
  | 15 => do
      let d ← toFin 64 (fld w 5 6) (by decide)
      some (.fmax16 d (Opd16.ofBits (fld w 11 5)))
  | _ => none

/-- Major 0x01 (R195). -/
def decodeMaj01 (w : Nat) : Option Instr :=
  match fld w 7 4 with
  | 0 =>
    guardThen (true) (
      some (.iadd (Opd.ofBits (fld w 11 7)) (Opd.ofBits (fld w 18 7)) (Opd.ofBits (fld w 25 7))))
  | 1 =>
    guardThen (true) (
      some (.isub (Opd.ofBits (fld w 11 7)) (Opd.ofBits (fld w 18 7)) (Opd.ofBits (fld w 25 7))))
  | 2 =>
    guardThen (true) (
      some (.imul (Opd.ofBits (fld w 11 7)) (Opd.ofBits (fld w 18 7)) (Opd.ofBits (fld w 25 7))))
  | 3 =>
    guardThen (true) (
      some (.imulhI32 (Opd.ofBits (fld w 11 7)) (Opd.ofBits (fld w 18 7)) (Opd.ofBits (fld w 25 7))))
  | 4 =>
    guardThen (true) (
      some (.imulhN32 (Opd.ofBits (fld w 11 7)) (Opd.ofBits (fld w 18 7)) (Opd.ofBits (fld w 25 7))))
  | 5 =>
    guardThen (true) (
      some (.imad (Opd.ofBits (fld w 11 7)) (Opd.ofBits (fld w 18 7)) (Opd.ofBits (fld w 25 7))))
  | 6 =>
    guardThen (fld w 25 7 == 0) (
      some (.iabs (Opd.ofBits (fld w 11 7)) (Opd.ofBits (fld w 18 7))))
  | 7 =>
    guardThen (true) (
      some (.lea (Opd.ofBits (fld w 11 7)) (Opd.ofBits (fld w 18 7)) (Opd.ofBits (fld w 25 7))))
  | 8 =>
    guardThen (fld w 25 7 == 0) (
      some (.mov (Opd.ofBits (fld w 11 7)) (Opd.ofBits (fld w 18 7))))
  | 9 =>
    guardThen (fld w 25 7 == 0) (
      some (.popc (Opd.ofBits (fld w 11 7)) (Opd.ofBits (fld w 18 7))))
  | 10 =>
    guardThen (fld w 25 7 == 0) (
      some (.clz (Opd.ofBits (fld w 11 7)) (Opd.ofBits (fld w 18 7))))
  | 11 =>
    guardThen (fld w 25 7 == 0) (
      some (.ctz (Opd.ofBits (fld w 11 7)) (Opd.ofBits (fld w 18 7))))
  | 12 =>
    guardThen (fld w 25 7 == 0) (
      some (.brev (Opd.ofBits (fld w 11 7)) (Opd.ofBits (fld w 18 7))))
  | 13 =>
    guardThen (true) (
      some (.bfe (Opd.ofBits (fld w 11 7)) (Opd.ofBits (fld w 18 7)) (Opd.ofBits (fld w 25 7))))
  | 14 =>
    guardThen (true) (
      some (.bfi (Opd.ofBits (fld w 11 7)) (Opd.ofBits (fld w 18 7)) (Opd.ofBits (fld w 25 7))))
  | _ => none

/-- Major 0x02 (R195). -/
def decodeMaj02 (w : Nat) : Option Instr :=
  match fld w 7 4 with
  | 0 =>
    guardThen (true) (
      some (.and (Opd.ofBits (fld w 11 7)) (Opd.ofBits (fld w 18 7)) (Opd.ofBits (fld w 25 7))))
  | 1 =>
    guardThen (true) (
      some (.or (Opd.ofBits (fld w 11 7)) (Opd.ofBits (fld w 18 7)) (Opd.ofBits (fld w 25 7))))
  | 2 =>
    guardThen (true) (
      some (.xor (Opd.ofBits (fld w 11 7)) (Opd.ofBits (fld w 18 7)) (Opd.ofBits (fld w 25 7))))
  | 3 =>
    guardThen (true) (
      some (.andn (Opd.ofBits (fld w 11 7)) (Opd.ofBits (fld w 18 7)) (Opd.ofBits (fld w 25 7))))
  | 4 =>
    guardThen (true) (
      some (.shl (Opd.ofBits (fld w 11 7)) (Opd.ofBits (fld w 18 7)) (Opd.ofBits (fld w 25 7))))
  | 5 =>
    guardThen (true) (
      some (.shr (Opd.ofBits (fld w 11 7)) (Opd.ofBits (fld w 18 7)) (Opd.ofBits (fld w 25 7))))
  | 6 =>
    guardThen (true) (
      some (.sar (Opd.ofBits (fld w 11 7)) (Opd.ofBits (fld w 18 7)) (Opd.ofBits (fld w 25 7))))
  | 7 =>
    guardThen (true) (
      some (.rol (Opd.ofBits (fld w 11 7)) (Opd.ofBits (fld w 18 7)) (Opd.ofBits (fld w 25 7))))
  | _ => none

/-- Major 0x03 (R195). -/
def decodeMaj03 (w : Nat) : Option Instr :=
  match fld w 7 4 with
  | 0 =>
    guardThen (true) (
      some (.cmpEqI32 (Opd.ofBits (fld w 11 7)) (Opd.ofBits (fld w 18 7)) (Opd.ofBits (fld w 25 7))))
  | 1 =>
    guardThen (true) (
      some (.cmpNeI32 (Opd.ofBits (fld w 11 7)) (Opd.ofBits (fld w 18 7)) (Opd.ofBits (fld w 25 7))))
  | 2 =>
    guardThen (true) (
      some (.cmpLtI32 (Opd.ofBits (fld w 11 7)) (Opd.ofBits (fld w 18 7)) (Opd.ofBits (fld w 25 7))))
  | 3 =>
    guardThen (true) (
      some (.cmpLeI32 (Opd.ofBits (fld w 11 7)) (Opd.ofBits (fld w 18 7)) (Opd.ofBits (fld w 25 7))))
  | 4 =>
    guardThen (true) (
      some (.cmpGtI32 (Opd.ofBits (fld w 11 7)) (Opd.ofBits (fld w 18 7)) (Opd.ofBits (fld w 25 7))))
  | 5 =>
    guardThen (true) (
      some (.cmpGeI32 (Opd.ofBits (fld w 11 7)) (Opd.ofBits (fld w 18 7)) (Opd.ofBits (fld w 25 7))))
  | 6 =>
    guardThen (true) (
      some (.cmpEqN32 (Opd.ofBits (fld w 11 7)) (Opd.ofBits (fld w 18 7)) (Opd.ofBits (fld w 25 7))))
  | 7 =>
    guardThen (true) (
      some (.cmpNeN32 (Opd.ofBits (fld w 11 7)) (Opd.ofBits (fld w 18 7)) (Opd.ofBits (fld w 25 7))))
  | 8 =>
    guardThen (true) (
      some (.cmpLtN32 (Opd.ofBits (fld w 11 7)) (Opd.ofBits (fld w 18 7)) (Opd.ofBits (fld w 25 7))))
  | 9 =>
    guardThen (true) (
      some (.cmpLeN32 (Opd.ofBits (fld w 11 7)) (Opd.ofBits (fld w 18 7)) (Opd.ofBits (fld w 25 7))))
  | 10 =>
    guardThen (true) (
      some (.cmpGtN32 (Opd.ofBits (fld w 11 7)) (Opd.ofBits (fld w 18 7)) (Opd.ofBits (fld w 25 7))))
  | 11 =>
    guardThen (true) (
      some (.cmpGeN32 (Opd.ofBits (fld w 11 7)) (Opd.ofBits (fld w 18 7)) (Opd.ofBits (fld w 25 7))))
  | 12 =>
    guardThen (true) (
      some (.iminI32 (Opd.ofBits (fld w 11 7)) (Opd.ofBits (fld w 18 7)) (Opd.ofBits (fld w 25 7))))
  | 13 =>
    guardThen (true) (
      some (.imaxI32 (Opd.ofBits (fld w 11 7)) (Opd.ofBits (fld w 18 7)) (Opd.ofBits (fld w 25 7))))
  | 14 =>
    guardThen (true) (
      some (.iminN32 (Opd.ofBits (fld w 11 7)) (Opd.ofBits (fld w 18 7)) (Opd.ofBits (fld w 25 7))))
  | 15 =>
    guardThen (true) (
      some (.imaxN32 (Opd.ofBits (fld w 11 7)) (Opd.ofBits (fld w 18 7)) (Opd.ofBits (fld w 25 7))))
  | _ => none

/-- Major 0x04 (R195). -/
def decodeMaj04 (w : Nat) : Option Instr :=
  if fld w 7 4 = 12 then
    guardThen (true) (
      some (.sel (Opd.ofBits (fld w 11 7)) (Opd.ofBits (fld w 18 7)) (Opd.ofBits (fld w 25 7))))
  else
    guardThen (true) (
      do
      let k ← toFin 12 (fld w 7 4) (by decide)
      some (.selMask (Opd.ofBits (fld w 11 7)) k (Opd.ofBits (fld w 18 7)) (Opd.ofBits (fld w 25 7))))

/-- Major 0x05 (R195). -/
def decodeMaj05 (w : Nat) : Option Instr :=
  match fld w 7 4 with
  | 0 =>
    guardThen (true) (
      do
      let d ← toFin 64 (fld w 14 6) (by decide)
      let a ← toFin 64 (fld w 20 6) (by decide)
      let b ← toFin 64 (fld w 26 6) (by decide)
      some (.iaddPacked d a b (PackT.ofBits (fld w 11 2)) (fld w 13 1 == 1)))
  | 1 =>
    guardThen (true) (
      do
      let d ← toFin 64 (fld w 14 6) (by decide)
      let a ← toFin 64 (fld w 20 6) (by decide)
      let b ← toFin 64 (fld w 26 6) (by decide)
      some (.isubPacked d a b (PackT.ofBits (fld w 11 2)) (fld w 13 1 == 1)))
  | 2 =>
    guardThen (fld w 13 1 == 0) (
      do
      let d ← toFin 64 (fld w 14 6) (by decide)
      let a ← toFin 64 (fld w 20 6) (by decide)
      let b ← toFin 64 (fld w 26 6) (by decide)
      some (.iminPacked d a b (PackT.ofBits (fld w 11 2))))
  | 3 =>
    guardThen (fld w 13 1 == 0) (
      do
      let d ← toFin 64 (fld w 14 6) (by decide)
      let a ← toFin 64 (fld w 20 6) (by decide)
      let b ← toFin 64 (fld w 26 6) (by decide)
      some (.imaxPacked d a b (PackT.ofBits (fld w 11 2))))
  | 4 =>
    guardThen (fld w 13 1 == 0) (
      do
      let d ← toFin 64 (fld w 14 6) (by decide)
      let a ← toFin 64 (fld w 20 6) (by decide)
      let b ← toFin 64 (fld w 26 6) (by decide)
      some (.shlPacked d a b (PackT.ofBits (fld w 11 2))))
  | 5 =>
    guardThen (fld w 13 1 == 0) (
      do
      let d ← toFin 64 (fld w 14 6) (by decide)
      let a ← toFin 64 (fld w 20 6) (by decide)
      let b ← toFin 64 (fld w 26 6) (by decide)
      some (.shrPacked d a b (PackT.ofBits (fld w 11 2))))
  | 6 =>
    guardThen (fld w 13 1 == 0) (
      do
      let d ← toFin 64 (fld w 14 6) (by decide)
      let a ← toFin 64 (fld w 20 6) (by decide)
      let b ← toFin 64 (fld w 26 6) (by decide)
      some (.sarPacked d a b (PackT.ofBits (fld w 11 2))))
  | 7 =>
    guardThen (fld w 12 2 == 0) (
      do
      let d ← toFin 64 (fld w 14 6) (by decide)
      let a ← toFin 64 (fld w 20 6) (by decide)
      let b ← toFin 64 (fld w 26 6) (by decide)
      some (.idot4 d a b (fld w 11 1 == 1)))
    <|> guardThen (fld w 12 2 == 1) (
      do
      let d ← toFin 64 (fld w 14 6) (by decide)
      let a ← toFin 64 (fld w 20 6) (by decide)
      let b ← toFin 64 (fld w 26 6) (by decide)
      some (.idot2 d a b (fld w 11 1 == 1)))
  | _ => none

/-- Major 0x06 (R195). -/
def decodeMaj06 (w : Nat) : Option Instr :=
  match fld w 7 4 with
  | 0 =>
    guardThen (true) (
      some (.iadd64 (Opd.ofBits (fld w 11 7)) (Opd.ofBits (fld w 18 7)) (Opd.ofBits (fld w 25 7))))
  | 1 =>
    guardThen (true) (
      some (.isub64 (Opd.ofBits (fld w 11 7)) (Opd.ofBits (fld w 18 7)) (Opd.ofBits (fld w 25 7))))
  | 2 =>
    guardThen (true) (
      some (.shl64 (Opd.ofBits (fld w 11 7)) (Opd.ofBits (fld w 18 7)) (Opd.ofBits (fld w 25 7))))
  | 3 =>
    guardThen (true) (
      some (.shr64 (Opd.ofBits (fld w 11 7)) (Opd.ofBits (fld w 18 7)) (Opd.ofBits (fld w 25 7))))
  | 4 =>
    guardThen (true) (
      some (.imulwI32 (Opd.ofBits (fld w 11 7)) (Opd.ofBits (fld w 18 7)) (Opd.ofBits (fld w 25 7))))
  | 5 =>
    guardThen (true) (
      some (.imulwN32 (Opd.ofBits (fld w 11 7)) (Opd.ofBits (fld w 18 7)) (Opd.ofBits (fld w 25 7))))
  | 6 =>
    guardThen (true) (
      some (.cmp64Eq (Opd.ofBits (fld w 11 7)) (Opd.ofBits (fld w 18 7)) (Opd.ofBits (fld w 25 7))))
  | 7 =>
    guardThen (true) (
      some (.cmp64Ne (Opd.ofBits (fld w 11 7)) (Opd.ofBits (fld w 18 7)) (Opd.ofBits (fld w 25 7))))
  | 8 =>
    guardThen (true) (
      some (.cmp64LtI64 (Opd.ofBits (fld w 11 7)) (Opd.ofBits (fld w 18 7)) (Opd.ofBits (fld w 25 7))))
  | 9 =>
    guardThen (true) (
      some (.cmp64LtN64 (Opd.ofBits (fld w 11 7)) (Opd.ofBits (fld w 18 7)) (Opd.ofBits (fld w 25 7))))
  | 10 =>
    guardThen (true) (
      some (.cmp64LeI64 (Opd.ofBits (fld w 11 7)) (Opd.ofBits (fld w 18 7)) (Opd.ofBits (fld w 25 7))))
  | 11 =>
    guardThen (true) (
      some (.cmp64LeN64 (Opd.ofBits (fld w 11 7)) (Opd.ofBits (fld w 18 7)) (Opd.ofBits (fld w 25 7))))
  | 12 =>
    guardThen (true) (
      some (.idivI32 (Opd.ofBits (fld w 11 7)) (Opd.ofBits (fld w 18 7)) (Opd.ofBits (fld w 25 7))))
  | 13 =>
    guardThen (true) (
      some (.idivN32 (Opd.ofBits (fld w 11 7)) (Opd.ofBits (fld w 18 7)) (Opd.ofBits (fld w 25 7))))
  | 14 =>
    guardThen (true) (
      some (.iremI32 (Opd.ofBits (fld w 11 7)) (Opd.ofBits (fld w 18 7)) (Opd.ofBits (fld w 25 7))))
  | 15 =>
    guardThen (true) (
      some (.iremN32 (Opd.ofBits (fld w 11 7)) (Opd.ofBits (fld w 18 7)) (Opd.ofBits (fld w 25 7))))
  | _ => none

/-- Major 0x08 (R195). -/
def decodeMaj08 (w : Nat) : Option Instr :=
  match fld w 7 4 with
  | 0 | 1 | 2 | 3 =>
    guardThen (true) (
      some (.fadd (Opd.ofBits (fld w 11 7)) (Opd.ofBits (fld w 18 7)) (Opd.ofBits (fld w 25 7)) (Rm.ofBits (fld w 7 2))))
  | 4 | 5 | 6 | 7 =>
    guardThen (true) (
      some (.fsub (Opd.ofBits (fld w 11 7)) (Opd.ofBits (fld w 18 7)) (Opd.ofBits (fld w 25 7)) (Rm.ofBits (fld w 7 2))))
  | 8 | 9 | 10 | 11 =>
    guardThen (true) (
      some (.fmul (Opd.ofBits (fld w 11 7)) (Opd.ofBits (fld w 18 7)) (Opd.ofBits (fld w 25 7)) (Rm.ofBits (fld w 7 2))))
  | 12 | 13 | 14 | 15 =>
    guardThen (true) (
      some (.ffma (Opd.ofBits (fld w 11 7)) (Opd.ofBits (fld w 18 7)) (Opd.ofBits (fld w 25 7)) (Rm.ofBits (fld w 7 2))))
  | _ => none

/-- Major 0x09 (R195). -/
def decodeMaj09 (w : Nat) : Option Instr :=
  match fld w 7 4 with
  | 0 =>
    guardThen (true) (
      some (.fcmpEq (Opd.ofBits (fld w 11 7)) (Opd.ofBits (fld w 18 7)) (Opd.ofBits (fld w 25 7))))
  | 1 =>
    guardThen (true) (
      some (.fcmpNe (Opd.ofBits (fld w 11 7)) (Opd.ofBits (fld w 18 7)) (Opd.ofBits (fld w 25 7))))
  | 2 =>
    guardThen (true) (
      some (.fcmpLt (Opd.ofBits (fld w 11 7)) (Opd.ofBits (fld w 18 7)) (Opd.ofBits (fld w 25 7))))
  | 3 =>
    guardThen (true) (
      some (.fcmpLe (Opd.ofBits (fld w 11 7)) (Opd.ofBits (fld w 18 7)) (Opd.ofBits (fld w 25 7))))
  | 4 =>
    guardThen (true) (
      some (.fcmpGt (Opd.ofBits (fld w 11 7)) (Opd.ofBits (fld w 18 7)) (Opd.ofBits (fld w 25 7))))
  | 5 =>
    guardThen (true) (
      some (.fcmpGe (Opd.ofBits (fld w 11 7)) (Opd.ofBits (fld w 18 7)) (Opd.ofBits (fld w 25 7))))
  | 6 =>
    guardThen (true) (
      some (.fcmpUn (Opd.ofBits (fld w 11 7)) (Opd.ofBits (fld w 18 7)) (Opd.ofBits (fld w 25 7))))
  | 7 =>
    guardThen (true) (
      some (.fmin (Opd.ofBits (fld w 11 7)) (Opd.ofBits (fld w 18 7)) (Opd.ofBits (fld w 25 7))))
  | 8 =>
    guardThen (true) (
      some (.fmax (Opd.ofBits (fld w 11 7)) (Opd.ofBits (fld w 18 7)) (Opd.ofBits (fld w 25 7))))
  | 9 =>
    guardThen (fld w 25 7 == 0) (
      some (.fabs (Opd.ofBits (fld w 11 7)) (Opd.ofBits (fld w 18 7))))
  | 10 =>
    guardThen (fld w 25 7 == 0) (
      some (.fneg (Opd.ofBits (fld w 11 7)) (Opd.ofBits (fld w 18 7))))
  | 11 =>
    guardThen (fld w 25 7 == 0) (
      some (.frndRn (Opd.ofBits (fld w 11 7)) (Opd.ofBits (fld w 18 7))))
  | 12 =>
    guardThen (fld w 25 7 == 0) (
      some (.frndRz (Opd.ofBits (fld w 11 7)) (Opd.ofBits (fld w 18 7))))
  | 13 =>
    guardThen (fld w 25 7 == 0) (
      some (.frndRp (Opd.ofBits (fld w 11 7)) (Opd.ofBits (fld w 18 7))))
  | 14 =>
    guardThen (fld w 25 7 == 0) (
      some (.frndRm (Opd.ofBits (fld w 11 7)) (Opd.ofBits (fld w 18 7))))
  | 15 =>
    guardThen (fld w 25 7 == 0) (
      some (.ffrac (Opd.ofBits (fld w 11 7)) (Opd.ofBits (fld w 18 7))))
  | _ => none

/-- Major 0x0A (R195). -/
def decodeMaj0A (w : Nat) : Option Instr :=
  match fld w 7 4 with
  | 0 | 1 | 2 | 3 =>
    guardThen (true) (
      some (.hadd2 (Opd.ofBits (fld w 11 7)) (Opd.ofBits (fld w 18 7)) (Opd.ofBits (fld w 25 7)) (Rm.ofBits (fld w 7 2))))
  | 4 | 5 | 6 | 7 =>
    guardThen (true) (
      some (.hmul2 (Opd.ofBits (fld w 11 7)) (Opd.ofBits (fld w 18 7)) (Opd.ofBits (fld w 25 7)) (Rm.ofBits (fld w 7 2))))
  | 8 | 9 | 10 | 11 =>
    guardThen (true) (
      some (.hfma2 (Opd.ofBits (fld w 11 7)) (Opd.ofBits (fld w 18 7)) (Opd.ofBits (fld w 25 7)) (Rm.ofBits (fld w 7 2))))
  | _ => none

/-- Major 0x0B (R195). -/
def decodeMaj0B (w : Nat) : Option Instr :=
  match fld w 7 4 with
  | 0 | 1 | 2 | 3 =>
    guardThen (true) (
      some (.badd2 (Opd.ofBits (fld w 11 7)) (Opd.ofBits (fld w 18 7)) (Opd.ofBits (fld w 25 7)) (Rm.ofBits (fld w 7 2))))
  | 4 | 5 | 6 | 7 =>
    guardThen (true) (
      some (.bmul2 (Opd.ofBits (fld w 11 7)) (Opd.ofBits (fld w 18 7)) (Opd.ofBits (fld w 25 7)) (Rm.ofBits (fld w 7 2))))
  | 8 | 9 | 10 | 11 =>
    guardThen (true) (
      some (.bfma2 (Opd.ofBits (fld w 11 7)) (Opd.ofBits (fld w 18 7)) (Opd.ofBits (fld w 25 7)) (Rm.ofBits (fld w 7 2))))
  | _ => none

/-- Major 0x0C (R195). -/
def decodeMaj0C (w : Nat) : Option Instr :=
  match fld w 7 4 with
  | 0 | 1 | 2 | 3 =>
    guardThen (true) (
      some (.dadd (Opd.ofBits (fld w 11 7)) (Opd.ofBits (fld w 18 7)) (Opd.ofBits (fld w 25 7)) (Rm.ofBits (fld w 7 2))))
  | 4 | 5 | 6 | 7 =>
    guardThen (true) (
      some (.dmul (Opd.ofBits (fld w 11 7)) (Opd.ofBits (fld w 18 7)) (Opd.ofBits (fld w 25 7)) (Rm.ofBits (fld w 7 2))))
  | 8 | 9 | 10 | 11 =>
    guardThen (true) (
      some (.dfma (Opd.ofBits (fld w 11 7)) (Opd.ofBits (fld w 18 7)) (Opd.ofBits (fld w 25 7)) (Rm.ofBits (fld w 7 2))))
  | _ => none

/-- Major 0x0D (R195). -/
def decodeMaj0D (w : Nat) : Option Instr :=
    guardThen (fld w 31 1 == 0) (
      do
      let mode ← CMode.ofBits? (fld w 7 4)
      some (.cvt (Opd.ofBits (fld w 11 7)) (Opd.ofBits (fld w 18 7)) (CFmt.ofBits (fld w 28 3)) (CFmt.ofBits (fld w 25 3)) mode))
    <|> guardThen (fld w 31 1 == 1) (
      do
      let mode ← CMode.ofBits? (fld w 7 4)
      some (.cvtPk (Opd.ofBits (fld w 11 7)) (Opd.ofBits (fld w 18 7)) (CFmt.ofBits (fld w 28 3)) (CFmt.ofBits (fld w 25 3)) mode))

/-- Major 0x0E (R195). -/
def decodeMaj0E (w : Nat) : Option Instr :=
    guardThen (fld w 25 3 == 0) (
      do
      let f ← toFin 16 (fld w 28 4) (by decide)
      let mode ← CMode.ofBits? (fld w 7 4)
      some (.cvtBlkPack (Opd.ofBits (fld w 11 7)) (Opd.ofBits (fld w 18 7)) f mode))
    <|> guardThen (fld w 7 4 == 0 && fld w 25 3 == 1) (
      do
      let f ← toFin 16 (fld w 28 4) (by decide)
      some (.cvtBlkUnpack (Opd.ofBits (fld w 11 7)) (Opd.ofBits (fld w 18 7)) f))
    <|> guardThen (fld w 25 3 == 2) (
      do
      let f ← toFin 16 (fld w 28 4) (by decide)
      let mode ← CMode.ofBits? (fld w 7 4)
      some (.cvtBlkpPack (Opd.ofBits (fld w 11 7)) (Opd.ofBits (fld w 18 7)) f mode))
    <|> guardThen (fld w 7 4 == 0 && fld w 25 3 == 3) (
      do
      let f ← toFin 16 (fld w 28 4) (by decide)
      some (.cvtBlkpUnpack (Opd.ofBits (fld w 11 7)) (Opd.ofBits (fld w 18 7)) f))

/-- Major 0x0F (R195). -/
def decodeMaj0F (w : Nat) : Option Instr :=
  match fld w 7 4 with
  | 0 =>
    guardThen (fld w 25 7 == 0) (
      some (.frcp (Opd.ofBits (fld w 11 7)) (Opd.ofBits (fld w 18 7))))
  | 1 =>
    guardThen (fld w 25 7 == 0) (
      some (.frsq (Opd.ofBits (fld w 11 7)) (Opd.ofBits (fld w 18 7))))
  | 2 =>
    guardThen (fld w 25 7 == 0) (
      some (.fsqrt (Opd.ofBits (fld w 11 7)) (Opd.ofBits (fld w 18 7))))
  | 3 =>
    guardThen (fld w 25 7 == 0) (
      some (.fexp2 (Opd.ofBits (fld w 11 7)) (Opd.ofBits (fld w 18 7))))
  | 4 =>
    guardThen (fld w 25 7 == 0) (
      some (.flog2 (Opd.ofBits (fld w 11 7)) (Opd.ofBits (fld w 18 7))))
  | 5 =>
    guardThen (fld w 25 7 == 0) (
      some (.fsin (Opd.ofBits (fld w 11 7)) (Opd.ofBits (fld w 18 7))))
  | 6 =>
    guardThen (fld w 25 7 == 0) (
      some (.fcos (Opd.ofBits (fld w 11 7)) (Opd.ofBits (fld w 18 7))))
  | 7 =>
    guardThen (fld w 25 7 == 0) (
      some (.ftanh (Opd.ofBits (fld w 11 7)) (Opd.ofBits (fld w 18 7))))
  | _ => none

/-- Major 0x10 (R195). -/
def decodeMaj10 (w : Nat) : Option Instr :=
  match fld w 7 4 with
  | 0 =>
    guardThen (true) (
      some (.lshfUp (Opd.ofBits (fld w 11 7)) (Opd.ofBits (fld w 18 7)) (Opd.ofBits (fld w 25 7))))
  | 1 =>
    guardThen (true) (
      some (.lshfDn (Opd.ofBits (fld w 11 7)) (Opd.ofBits (fld w 18 7)) (Opd.ofBits (fld w 25 7))))
  | 2 =>
    guardThen (true) (
      some (.lshfXor (Opd.ofBits (fld w 11 7)) (Opd.ofBits (fld w 18 7)) (Opd.ofBits (fld w 25 7))))
  | 3 =>
    guardThen (true) (
      some (.lshfIdx (Opd.ofBits (fld w 11 7)) (Opd.ofBits (fld w 18 7)) (Opd.ofBits (fld w 25 7))))
  | 4 =>
    guardThen (true) (
      do
      let j ← toFin 8 (fld w 25 7) (by decide)
      some (.lshfUpW (Opd.ofBits (fld w 11 7)) (Opd.ofBits (fld w 18 7)) j))
  | 5 =>
    guardThen (true) (
      do
      let j ← toFin 8 (fld w 25 7) (by decide)
      some (.lshfDnW (Opd.ofBits (fld w 11 7)) (Opd.ofBits (fld w 18 7)) j))
  | 6 =>
    guardThen (true) (
      do
      let j ← toFin 8 (fld w 25 7) (by decide)
      some (.lshfXorW (Opd.ofBits (fld w 11 7)) (Opd.ofBits (fld w 18 7)) j))
  | 7 =>
    guardThen (true) (
      some (.lbcast (Opd.ofBits (fld w 11 7)) (Opd.ofBits (fld w 18 7)) (Opd.ofBits (fld w 25 7))))
  | 8 =>
    guardThen (true) (
      do
      let op ← RedOp.ofBits? (fld w 25 7)
      some (.lred (Opd.ofBits (fld w 11 7)) (Opd.ofBits (fld w 18 7)) op))
  | 9 =>
    guardThen (true) (
      do
      let op ← RedOp.ofBits? (fld w 25 7)
      some (.lscan (Opd.ofBits (fld w 11 7)) (Opd.ofBits (fld w 18 7)) op))
  | 10 =>
    guardThen (fld w 25 7 == 0) (
      some (.lvoteAny (Opd.ofBits (fld w 11 7)) (Opd.ofBits (fld w 18 7))))
  | 11 =>
    guardThen (fld w 25 7 == 0) (
      some (.lvoteAll (Opd.ofBits (fld w 11 7)) (Opd.ofBits (fld w 18 7))))
  | 12 =>
    guardThen (fld w 25 7 == 0) (
      some (.lvoteBallot (Opd.ofBits (fld w 11 7)) (Opd.ofBits (fld w 18 7))))
  | 13 =>
    guardThen (fld w 18 7 == 0) (
      do
      let f ← WidF.ofBits? (fld w 25 7)
      some (.lidx (Opd.ofBits (fld w 11 7)) f))
  | 14 =>
    guardThen (true) (
      some (.lget (Opd.ofBits (fld w 11 7)) (Opd.ofBits (fld w 18 7)) (Opd.ofBits (fld w 25 7))))
  | _ => none

/-- Major 0x11 (R195). -/
def decodeMaj11 (w : Nat) : Option Instr :=
  match fld w 7 4 with
  | 0 =>
    guardThen (fld w 18 14 == 0) (
      do
      let k ← toFin 12 (fld w 11 7) (by decide)
      some (.join k))
  | 1 =>
    guardThen (fld w 18 14 == 0) (
      do
      let k ← toFin 12 (fld w 11 7) (by decide)
      some (.leave k))
  | 2 =>
    guardThen (fld w 11 7 == 0 && fld w 25 7 == 0) (
      do
      let k ← toFin 12 (fld w 18 7) (by decide)
      some (.wait k))
  | 3 =>
    guardThen (fld w 25 7 == 0) (
      do
      let k ← toFin 12 (fld w 11 7) (by decide)
      some (.mset k (Opd.ofBits (fld w 18 7))))
  | 4 =>
    guardThen (fld w 25 7 == 0) (
      do
      let j ← toFin 13 (fld w 18 7) (by decide)
      some (.mget (Opd.ofBits (fld w 11 7)) j))
  | 5 =>
    guardThen (true) (
      do
      let d ← toFin 12 (fld w 11 7) (by decide)
      let a ← toFin 12 (fld w 18 7) (by decide)
      let b ← toFin 12 (fld w 25 7) (by decide)
      some (.mand d a b))
  | 6 =>
    guardThen (true) (
      do
      let d ← toFin 12 (fld w 11 7) (by decide)
      let a ← toFin 12 (fld w 18 7) (by decide)
      let b ← toFin 12 (fld w 25 7) (by decide)
      some (.mor d a b))
  | 7 =>
    guardThen (true) (
      do
      let d ← toFin 12 (fld w 11 7) (by decide)
      let a ← toFin 12 (fld w 18 7) (by decide)
      let b ← toFin 12 (fld w 25 7) (by decide)
      some (.mxor d a b))
  | 8 =>
    guardThen (fld w 25 7 == 0) (
      do
      let d ← toFin 12 (fld w 11 7) (by decide)
      let a ← toFin 12 (fld w 18 7) (by decide)
      some (.mnot d a))
  | 9 =>
    guardThen (fld w 25 7 == 0) (
      do
      let j ← toFin 13 (fld w 18 7) (by decide)
      some (.mpop (Opd.ofBits (fld w 11 7)) j))
  | 10 =>
    guardThen (fld w 25 7 == 0) (
      do
      let j ← toFin 13 (fld w 18 7) (by decide)
      some (.mfirst (Opd.ofBits (fld w 11 7)) j))
  | _ => none

/-- Major 0x12 (R195). -/
def decodeMaj12 (w : Nat) : Option Instr :=
  match fld w 7 4 with
  | 0 =>
    guardThen (fld w 11 7 == 0) (
      some (.xsend (Opd.ofBits (fld w 18 7)) (Opd.ofBits (fld w 25 7))))
  | 1 =>
    guardThen (fld w 25 7 == 0) (
      some (.xrecv (Opd.ofBits (fld w 11 7)) (Opd.ofBits (fld w 18 7))))
  | 2 =>
    guardThen (true) (
      do
      let k ← toFin 12 (fld w 11 7) (by decide)
      let q ← toFin 8 (fld w 18 7) (by decide)
      some (.qpush k q (Opd.ofBits (fld w 25 7))))
  | 3 =>
    guardThen (true) (
      do
      let k ← toFin 12 (fld w 25 7) (by decide)
      let q ← toFin 8 (fld w 18 7) (by decide)
      some (.qpop (Opd.ofBits (fld w 11 7)) k q))
  | 4 =>
    guardThen (true) (
      do
      let k ← toFin 12 (fld w 25 7) (by decide)
      let q ← toFin 8 (fld w 18 7) (by decide)
      some (.qpopw (Opd.ofBits (fld w 11 7)) k q))
  | 5 =>
    guardThen (fld w 25 7 == 0) (
      do
      let q ← toFin 8 (fld w 18 7) (by decide)
      some (.qlen (Opd.ofBits (fld w 11 7)) q))
  | _ => none

/-- Major 0x18 (R195). -/
def decodeMaj18 (w : Nat) : Option Instr :=
    guardThen (true) (
      some (.iaddi (Opd.ofBits (fld w 7 7)) (Opd.ofBits (fld w 14 7)) (BitVec.ofNat 11 (fld w 21 11))))

/-- Major 0x19 (R195). -/
def decodeMaj19 (w : Nat) : Option Instr :=
    guardThen (true) (
      some (.andi (Opd.ofBits (fld w 7 7)) (Opd.ofBits (fld w 14 7)) (BitVec.ofNat 11 (fld w 21 11))))

/-- Major 0x1A (R195). -/
def decodeMaj1A (w : Nat) : Option Instr :=
    guardThen (true) (
      some (.ori (Opd.ofBits (fld w 7 7)) (Opd.ofBits (fld w 14 7)) (BitVec.ofNat 11 (fld w 21 11))))

/-- Major 0x1B (R195). -/
def decodeMaj1B (w : Nat) : Option Instr :=
    guardThen (true) (
      some (.xori (Opd.ofBits (fld w 7 7)) (Opd.ofBits (fld w 14 7)) (BitVec.ofNat 11 (fld w 21 11))))

/-- Major 0x1C (R195). -/
def decodeMaj1C (w : Nat) : Option Instr :=
    guardThen (fld w 29 3 == 0) (
      some (.shli (Opd.ofBits (fld w 7 7)) (Opd.ofBits (fld w 14 7)) (BitVec.ofNat 8 (fld w 21 8))))
    <|> guardThen (fld w 29 3 == 1) (
      some (.shri (Opd.ofBits (fld w 7 7)) (Opd.ofBits (fld w 14 7)) (BitVec.ofNat 8 (fld w 21 8))))
    <|> guardThen (fld w 29 3 == 2) (
      some (.sari (Opd.ofBits (fld w 7 7)) (Opd.ofBits (fld w 14 7)) (BitVec.ofNat 8 (fld w 21 8))))

/-- Major 0x1D (R195). -/
def decodeMaj1D (w : Nat) : Option Instr :=
    guardThen (true) (
      do
      let c ← Cond.ofBits? (fld w 28 4)
      some (.cmpi (Opd.ofBits (fld w 7 7)) (Opd.ofBits (fld w 14 7)) c (BitVec.ofNat 7 (fld w 21 7))))

/-- Major 0x1E (R195). -/
def decodeMaj1E (w : Nat) : Option Instr :=
    guardThen (true) (
      some (.imuli (Opd.ofBits (fld w 7 7)) (Opd.ofBits (fld w 14 7)) (BitVec.ofNat 11 (fld w 21 11))))

/-- Major 0x1F (R195). -/
def decodeMaj1F (w : Nat) : Option Instr :=
    guardThen (fld w 14 7 == 0 && fld w 27 5 == 0) (
      do
      let n ← toFin 64 (fld w 21 6) (by decide)
      some (.movsFromScalar (Opd.ofBits (fld w 7 7)) n))
    <|> guardThen (fld w 7 7 == 0 && fld w 27 5 == 1) (
      do
      let n ← toFin 64 (fld w 21 6) (by decide)
      some (.movsToScalar n (Opd.ofBits (fld w 14 7))))

/-- Major 0x20 (R195). -/
def decodeMaj20 (w : Nat) : Option Instr :=
    guardThen (true) (
      some (.movl (Opd.ofBits (fld w 7 7)) (BitVec.ofNat 18 (fld w 14 18))))

/-- Major 0x21 (R195). -/
def decodeMaj21 (w : Nat) : Option Instr :=
    guardThen (true) (
      some (.movh (Opd.ofBits (fld w 7 7)) (BitVec.ofNat 18 (fld w 14 18))))

/-- Major 0x22 (R195). -/
def decodeMaj22 (w : Nat) : Option Instr :=
    guardThen (true) (
      do
      let off ← toFin 32 (fld w 27 5) (by decide)
      let size ← MSize.ofBits? (fld w 10 3)
      let sp ← Space.ofBits? (fld w 7 3)
      some (.ld (Opd.ofBits (fld w 13 7)) (Opd.ofBits (fld w 20 7)) off size sp))

/-- Major 0x23 (R195). -/
def decodeMaj23 (w : Nat) : Option Instr :=
    guardThen (true) (
      do
      let off ← toFin 32 (fld w 27 5) (by decide)
      let size ← MSize.ofBits? (fld w 10 3)
      let sp ← Space.ofBits? (fld w 7 3)
      some (.st (Opd.ofBits (fld w 13 7)) (Opd.ofBits (fld w 20 7)) off size sp))

/-- Major 0x24 (R195). -/
def decodeMaj24 (w : Nat) : Option Instr :=
    guardThen (fld w 7 3 == 4) (
      do
      let off ← toFin 32 (fld w 27 5) (by decide)
      let size ← MSize.ofBits? (fld w 10 3)
      some (.stFabRel (Opd.ofBits (fld w 13 7)) (Opd.ofBits (fld w 20 7)) off size))

/-- Major 0x25 (R195). -/
def decodeMaj25 (w : Nat) : Option Instr :=
  match fld w 7 4 with
  | 0 =>
    guardThen (fld w 30 2 == 0) (
      some (.atomAdd (Opd.ofBits (fld w 16 7)) (Opd.ofBits (fld w 23 7)) (fld w 15 1 == 1) (AType.ofBits (fld w 13 2)) (Scope.ofBits (fld w 11 2))))
  | 1 =>
    guardThen (fld w 30 2 == 0) (
      some (.atomMin (Opd.ofBits (fld w 16 7)) (Opd.ofBits (fld w 23 7)) (fld w 15 1 == 1) (AType.ofBits (fld w 13 2)) (Scope.ofBits (fld w 11 2))))
  | 2 =>
    guardThen (fld w 30 2 == 0) (
      some (.atomMax (Opd.ofBits (fld w 16 7)) (Opd.ofBits (fld w 23 7)) (fld w 15 1 == 1) (AType.ofBits (fld w 13 2)) (Scope.ofBits (fld w 11 2))))
  | 3 =>
    guardThen (fld w 30 2 == 0) (
      some (.atomAnd (Opd.ofBits (fld w 16 7)) (Opd.ofBits (fld w 23 7)) (fld w 15 1 == 1) (AType.ofBits (fld w 13 2)) (Scope.ofBits (fld w 11 2))))
  | 4 =>
    guardThen (fld w 30 2 == 0) (
      some (.atomOr (Opd.ofBits (fld w 16 7)) (Opd.ofBits (fld w 23 7)) (fld w 15 1 == 1) (AType.ofBits (fld w 13 2)) (Scope.ofBits (fld w 11 2))))
  | 5 =>
    guardThen (fld w 30 2 == 0) (
      some (.atomXor (Opd.ofBits (fld w 16 7)) (Opd.ofBits (fld w 23 7)) (fld w 15 1 == 1) (AType.ofBits (fld w 13 2)) (Scope.ofBits (fld w 11 2))))
  | 6 =>
    guardThen (fld w 30 2 == 0) (
      some (.atomXchg (Opd.ofBits (fld w 16 7)) (Opd.ofBits (fld w 23 7)) (fld w 15 1 == 1) (AType.ofBits (fld w 13 2)) (Scope.ofBits (fld w 11 2))))
  | 7 =>
    guardThen (fld w 30 2 == 0) (
      some (.atomCas (Opd.ofBits (fld w 16 7)) (Opd.ofBits (fld w 23 7)) (fld w 15 1 == 1) (AType.ofBits (fld w 13 2)) (Scope.ofBits (fld w 11 2))))
  | 8 =>
    guardThen (fld w 30 2 == 0) (
      some (.atomIncw (Opd.ofBits (fld w 16 7)) (Opd.ofBits (fld w 23 7)) (fld w 15 1 == 1) (AType.ofBits (fld w 13 2)) (Scope.ofBits (fld w 11 2))))
  | 9 =>
    guardThen (fld w 30 2 == 0) (
      some (.atomDecw (Opd.ofBits (fld w 16 7)) (Opd.ofBits (fld w 23 7)) (fld w 15 1 == 1) (AType.ofBits (fld w 13 2)) (Scope.ofBits (fld w 11 2))))
  | _ => none

/-- Major 0x26 (R195). -/
def decodeMaj26 (w : Nat) : Option Instr :=
  match fld w 7 4 with
  | 0 =>
    guardThen (fld w 30 2 == 0) (
      some (.redAdd (Opd.ofBits (fld w 16 7)) (Opd.ofBits (fld w 23 7)) (fld w 15 1 == 1) (AType.ofBits (fld w 13 2)) (Scope.ofBits (fld w 11 2))))
  | 1 =>
    guardThen (fld w 30 2 == 0) (
      some (.redMin (Opd.ofBits (fld w 16 7)) (Opd.ofBits (fld w 23 7)) (fld w 15 1 == 1) (AType.ofBits (fld w 13 2)) (Scope.ofBits (fld w 11 2))))
  | 2 =>
    guardThen (fld w 30 2 == 0) (
      some (.redMax (Opd.ofBits (fld w 16 7)) (Opd.ofBits (fld w 23 7)) (fld w 15 1 == 1) (AType.ofBits (fld w 13 2)) (Scope.ofBits (fld w 11 2))))
  | 3 =>
    guardThen (fld w 30 2 == 0) (
      some (.redAnd (Opd.ofBits (fld w 16 7)) (Opd.ofBits (fld w 23 7)) (fld w 15 1 == 1) (AType.ofBits (fld w 13 2)) (Scope.ofBits (fld w 11 2))))
  | 4 =>
    guardThen (fld w 30 2 == 0) (
      some (.redOr (Opd.ofBits (fld w 16 7)) (Opd.ofBits (fld w 23 7)) (fld w 15 1 == 1) (AType.ofBits (fld w 13 2)) (Scope.ofBits (fld w 11 2))))
  | 5 =>
    guardThen (fld w 30 2 == 0) (
      some (.redXor (Opd.ofBits (fld w 16 7)) (Opd.ofBits (fld w 23 7)) (fld w 15 1 == 1) (AType.ofBits (fld w 13 2)) (Scope.ofBits (fld w 11 2))))
  | 8 =>
    guardThen (fld w 30 2 == 0) (
      some (.redIncw (Opd.ofBits (fld w 16 7)) (Opd.ofBits (fld w 23 7)) (fld w 15 1 == 1) (AType.ofBits (fld w 13 2)) (Scope.ofBits (fld w 11 2))))
  | 9 =>
    guardThen (fld w 30 2 == 0) (
      some (.redDecw (Opd.ofBits (fld w 16 7)) (Opd.ofBits (fld w 23 7)) (fld w 15 1 == 1) (AType.ofBits (fld w 13 2)) (Scope.ofBits (fld w 11 2))))
  | _ => none

/-- Major 0x27 (R195). -/
def decodeMaj27 (w x : Nat) : Option Instr :=
  match fld w 7 4 with
  | 0 =>
    guardThen (fld w 31 1 == 0 && fld x 0 7 == 1) (
      do
      let tag ← toFin 64 (fld w 11 6) (by decide)
      let bar ← BarSel.ofBits? (fld x 21 7)
      some (.cpy (Opd.ofBits (fld w 17 7)) (Opd.ofBits (fld w 24 7)) tag (EndSp.ofBits (fld x 30 2)) (EndSp.ofBits (fld x 28 2)) bar (Opd.ofBits (fld x 14 7)) (Opd.ofBits (fld x 7 7))))
  | 1 =>
    guardThen (fld w 31 1 == 0 && fld x 0 7 == 1) (
      do
      let tag ← toFin 64 (fld w 11 6) (by decide)
      let bar ← BarSel.ofBits? (fld x 21 7)
      some (.cpx (Opd.ofBits (fld w 17 7)) (Opd.ofBits (fld w 24 7)) tag (EndSp.ofBits (fld x 30 2)) (EndSp.ofBits (fld x 28 2)) bar (Opd.ofBits (fld x 14 7)) (Opd.ofBits (fld x 7 7))))
  | 2 =>
    guardThen (fld w 31 1 == 0 && fld x 0 7 == 1) (
      do
      let tag ← toFin 64 (fld w 11 6) (by decide)
      let bar ← BarSel.ofBits? (fld x 21 7)
      some (.cpg (Opd.ofBits (fld w 17 7)) (Opd.ofBits (fld w 24 7)) tag (EndSp.ofBits (fld x 30 2)) (EndSp.ofBits (fld x 28 2)) bar (Opd.ofBits (fld x 14 7)) (Opd.ofBits (fld x 7 7))))
  | 3 =>
    guardThen (fld w 31 1 == 0 && fld x 0 7 == 1) (
      do
      let tag ← toFin 64 (fld w 11 6) (by decide)
      let bar ← BarSel.ofBits? (fld x 21 7)
      some (.cps (Opd.ofBits (fld w 17 7)) (Opd.ofBits (fld w 24 7)) tag (EndSp.ofBits (fld x 30 2)) (EndSp.ofBits (fld x 28 2)) bar (Opd.ofBits (fld x 14 7)) (Opd.ofBits (fld x 7 7))))
  | _ => none

/-- Major 0x28 (R195). -/
def decodeMaj28 (w : Nat) : Option Instr :=
  match fld w 7 4 with
  | 0 =>
    guardThen (fld w 17 15 == 128) (
      do
      let tag ← toFin 64 (fld w 11 6) (by decide)
      some (.tagany tag))
    <|> guardThen (fld w 11 6 == 0 && fld w 24 8 == 0) (
      some (.taganyMask (Opd.ofBits (fld w 17 7))))
  | 1 =>
    guardThen (fld w 17 15 == 128) (
      do
      let tag ← toFin 64 (fld w 11 6) (by decide)
      some (.tagall tag))
    <|> guardThen (fld w 11 6 == 0 && fld w 24 8 == 0) (
      some (.tagallMask (Opd.ofBits (fld w 17 7))))
  | 2 =>
    guardThen (fld w 11 6 == 0 && fld w 31 1 == 0) (
      some (.tagfirst (Opd.ofBits (fld w 24 7)) (Opd.ofBits (fld w 17 7))))
  | 3 =>
    guardThen (fld w 17 15 == 128) (
      do
      let tag ← toFin 64 (fld w 11 6) (by decide)
      some (.tagclr tag))
    <|> guardThen (fld w 11 6 == 0 && fld w 24 8 == 0) (
      some (.tagclrMask (Opd.ofBits (fld w 17 7))))
  | 4 =>
    guardThen (fld w 12 5 == 0 && fld w 31 1 == 0) (
      some (.bcbInit (Opd.ofBits (fld w 17 7)) (fld w 11 1 == 1) (Opd.ofBits (fld w 24 7))))
  | 5 =>
    guardThen (fld w 12 5 == 0 && fld w 24 8 == 0) (
      some (.bcbInitAbandon (Opd.ofBits (fld w 17 7)) (fld w 11 1 == 1)))
  | 6 =>
    guardThen (fld w 12 5 == 0 && fld w 31 1 == 0) (
      some (.bcbExp (Opd.ofBits (fld w 17 7)) (fld w 11 1 == 1) (Opd.ofBits (fld w 24 7))))
  | 7 =>
    guardThen (fld w 12 5 == 0 && fld w 31 1 == 0) (
      some (.bcbArr (Opd.ofBits (fld w 17 7)) (fld w 11 1 == 1) (Opd.ofBits (fld w 24 7))))
  | 8 =>
    guardThen (fld w 28 4 == 0) (
      do
      let d ← toFin 64 (fld w 11 6) (by decide)
      let rel ← toFin 8 (fld w 24 3) (by decide)
      some (.bcbWait d (Opd.ofBits (fld w 17 7)) (fld w 27 1 == 1) rel))
  | 9 =>
    guardThen (fld w 24 3 == 0 && fld w 28 4 == 0) (
      do
      let d ← toFin 64 (fld w 11 6) (by decide)
      some (.bcbTest d (Opd.ofBits (fld w 17 7)) (fld w 27 1 == 1)))
  | _ => none

/-- Major 0x29 (R195). -/
def decodeMaj29 (w x : Nat) : Option Instr :=
  match fld w 7 4 with
  | 0 =>
    guardThen (fld w 31 1 == 0 && fld x 0 7 == 1 && fld x 21 11 == 0) (
      do
      let rsp ← RSpace.ofBits? (fld w 11 6)
      some (.sobindGrp (Opd.ofBits (fld w 17 7)) (Opd.ofBits (fld w 24 7)) rsp (Opd.ofBits (fld x 14 7)) (Opd.ofBits (fld x 7 7))))
  | 1 =>
    guardThen (fld w 31 1 == 0 && fld x 0 7 == 1 && fld x 21 11 == 0) (
      do
      let rsp ← RSpace.ofBits? (fld w 11 6)
      some (.sobindClu (Opd.ofBits (fld w 17 7)) (Opd.ofBits (fld w 24 7)) rsp (Opd.ofBits (fld x 14 7)) (Opd.ofBits (fld x 7 7))))
  | 2 =>
    guardThen (fld w 31 1 == 0 && fld x 0 7 == 1 && fld x 21 11 == 0) (
      do
      let rsp ← RSpace.ofBits? (fld w 11 6)
      some (.sobindChip (Opd.ofBits (fld w 17 7)) (Opd.ofBits (fld w 24 7)) rsp (Opd.ofBits (fld x 14 7)) (Opd.ofBits (fld x 7 7))))
  | 3 =>
    guardThen (fld w 31 1 == 0 && fld x 0 7 == 1 && fld x 21 11 == 0) (
      do
      let rsp ← RSpace.ofBits? (fld w 11 6)
      some (.sobindSys (Opd.ofBits (fld w 17 7)) (Opd.ofBits (fld w 24 7)) rsp (Opd.ofBits (fld x 14 7)) (Opd.ofBits (fld x 7 7))))
  | 4 =>
    guardThen (fld w 24 8 == 0) (
      do
      let sp ← ObjSp.ofBits? (fld w 11 6)
      some (.sacq (Opd.ofBits (fld w 17 7)) sp))
  | 5 =>
    guardThen (fld w 24 8 == 0) (
      do
      let sp ← ObjSp.ofBits? (fld w 11 6)
      some (.sacqSh (Opd.ofBits (fld w 17 7)) sp))
  | 6 =>
    guardThen (fld w 31 1 == 0) (
      do
      let sp ← ObjSp.ofBits? (fld w 11 6)
      some (.stry (Opd.ofBits (fld w 24 7)) (Opd.ofBits (fld w 17 7)) sp))
  | 7 =>
    guardThen (fld w 31 1 == 0) (
      do
      let sp ← ObjSp.ofBits? (fld w 11 6)
      some (.srel (Opd.ofBits (fld w 24 7)) (Opd.ofBits (fld w 17 7)) sp))
  | 8 =>
    guardThen (fld w 11 21 == 0) (
      some (.fenceGrp))
  | 9 =>
    guardThen (fld w 11 21 == 0) (
      some (.fenceClu))
  | 10 =>
    guardThen (fld w 11 21 == 0) (
      some (.fenceChip))
  | 11 =>
    guardThen (fld w 11 21 == 0) (
      some (.fenceSys))
  | _ => none

/-- Major 0x2A (R195). -/
def decodeMaj2A (w x : Nat) : Option Instr :=
  match fld w 7 4 with
  | 0 =>
    guardThen (fld w 11 6 == 0 && fld w 31 1 == 0 && fld x 0 7 == 1 && fld x 28 4 == 0) (
      some (.hredOpen (Opd.ofBits (fld w 17 7)) (Opd.ofBits (fld w 24 7)) (Opd.ofBits (fld x 21 7)) (Opd.ofBits (fld x 14 7)) (Opd.ofBits (fld x 7 7))))
  | 1 =>
    guardThen (fld w 11 6 == 0 && fld w 31 1 == 0) (
      some (.hredPut (Opd.ofBits (fld w 24 7)) (Opd.ofBits (fld w 17 7))))
  | 2 =>
    guardThen (fld w 11 6 == 0 && fld w 31 1 == 0) (
      some (.hredWait (Opd.ofBits (fld w 24 7)) (Opd.ofBits (fld w 17 7))))
  | _ => none

/-- Major 0x30 (R195). -/
def decodeMaj30 (w : Nat) : Option Instr :=
    guardThen (fld w 7 7 == 0) (
      some (.jmp (BitVec.ofNat 18 (fld w 14 18))))

/-- Major 0x31 (R195). -/
def decodeMaj31 (w : Nat) : Option Instr :=
    guardThen (true) (
      some (.bz (Opd.ofBits (fld w 7 7)) (BitVec.ofNat 18 (fld w 14 18))))

/-- Major 0x32 (R195). -/
def decodeMaj32 (w : Nat) : Option Instr :=
    guardThen (true) (
      some (.bnz (Opd.ofBits (fld w 7 7)) (BitVec.ofNat 18 (fld w 14 18))))

/-- Major 0x33 (R195). -/
def decodeMaj33 (w : Nat) : Option Instr :=
    guardThen (true) (
      do
      let k ← toFin 12 (fld w 7 7) (by decide)
      some (.bm k (BitVec.ofNat 18 (fld w 14 18))))

/-- Major 0x34 (R195). -/
def decodeMaj34 (w : Nat) : Option Instr :=
    guardThen (fld w 7 7 == 0) (
      some (.call (BitVec.ofNat 18 (fld w 14 18))))

/-- Major 0x35 (R195). -/
def decodeMaj35 (w : Nat) : Option Instr :=
  match fld w 7 4 with
  | 0 =>
    guardThen (fld w 11 6 == 0 && fld w 24 8 == 0) (
      some (.jmpr (Opd.ofBits (fld w 17 7))))
  | 1 =>
    guardThen (fld w 11 21 == 0) (
      some (.ret))
  | 2 =>
    guardThen (fld w 11 21 == 0) (
      some (.endLanes))
  | 3 =>
    guardThen (fld w 11 21 == 0) (
      some (.nop))
  | 4 =>
    guardThen (fld w 11 21 == 0) (
      some (.yield))
  | 5 =>
    guardThen (fld w 11 6 == 0 && fld w 24 8 == 0) (
      some (.sleep (Opd.ofBits (fld w 17 7))))
  | 6 =>
    guardThen (fld w 17 15 == 0) (
      do
      let n ← toFin 64 (fld w 11 6) (by decide)
      some (.trap n))
  | 7 =>
    guardThen (fld w 17 15 == 0) (
      do
      let n ← toFin 64 (fld w 11 6) (by decide)
      some (.brk n))
  | 8 =>
    guardThen (fld w 11 6 == 0 && fld w 24 8 == 0) (
      some (.rfe (Opd.ofBits (fld w 17 7))))
  | _ => none

/-- Major 0x36 (R195). -/
noncomputable def decodeMaj36 (w x : Nat) : Option Instr :=
  match fld w 7 4 with
  | 0 =>
    guardThen (fld w 31 1 == 0) (
      do
      let f ← toFin 64 (fld w 11 6) (by decide)
      some (.obres (Opd.ofBits (fld w 24 7)) (Opd.ofBits (fld w 17 7)) f))
  | 1 =>
    guardThen (fld w 11 6 == 0 && fld w 31 1 == 0) (
      some (.obrec (Opd.ofBits (fld w 24 7)) (Opd.ofBits (fld w 17 7))))
  | 2 =>
    guardThen (fld w 11 6 == 0 && fld w 24 8 == 0) (
      some (.obrel (Opd.ofBits (fld w 17 7))))
  | 3 =>
    guardThen (fld w 11 6 == 0 && fld w 31 1 == 0 && fld x 0 7 == 1 && fld x 14 7 == 0 && fld x 28 4 == 0) (
      do
      let bar ← BarSel.ofBits? (fld x 21 7)
      some (.mload (Opd.ofBits (fld w 24 7)) (Opd.ofBits (fld w 17 7)) bar (Opd.ofBits (fld x 7 7))))
  | 4 =>
    guardThen (fld w 11 21 == 0) (
      some (.mswap))
  | 5 =>
    guardThen (fld w 11 21 == 0) (
      some (.mswapAuto))
  | 6 =>
    guardThen (fld w 11 6 == 0 && fld w 31 1 == 0 && fld x 0 7 == 1) (
      do
      let ctr ← toFin 16 (fld x 28 4) (by decide)
      let bar ← BarSel.ofBits? (fld x 21 7)
      some (.mstream (Opd.ofBits (fld w 24 7)) (Opd.ofBits (fld w 17 7)) ctr bar (Opd.ofBits (fld x 14 7)) (Opd.ofBits (fld x 7 7))))
  | 7 =>
    guardThen (fld w 11 6 == 0 && fld w 31 1 == 0) (
      some (.mzero (Opd.ofBits (fld w 24 7)) (Opd.ofBits (fld w 17 7))))
  | 8 =>
    guardThen (fld w 11 6 == 0 && fld w 31 1 == 0 && fld x 0 7 == 1 && fld x 21 11 == 0) (
      some (.mdrain (Opd.ofBits (fld w 24 7)) (Opd.ofBits (fld w 17 7)) (Opd.ofBits (fld x 14 7)) (Opd.ofBits (fld x 7 7))))
  | 9 =>
    guardThen (fld w 11 6 == 0 && fld w 24 8 == 0) (
      some (.mwait (Opd.ofBits (fld w 17 7))))
  | 10 =>
    guardThen (fld w 11 6 == 0 && fld w 31 1 == 0) (
      some (.mpoll (Opd.ofBits (fld w 24 7)) (Opd.ofBits (fld w 17 7))))
  | 11 =>
    guardThen (fld w 11 13 == 0 && fld w 31 1 == 0) (
      some (.accget (Opd.ofBits (fld w 24 7))))
  | 12 =>
    guardThen (fld w 11 6 == 0 && fld w 24 8 == 0) (
      some (.accput (Opd.ofBits (fld w 17 7))))
  | 13 =>
    guardThen (fld w 11 13 == 0 && fld w 31 1 == 0) (
      some (.mstat (Opd.ofBits (fld w 24 7))))
  | _ => none

/-- Major 0x37 (R195). -/
noncomputable def decodeMaj37 (w : Nat) : Option Instr :=
  match fld w 7 4 with
  | 0 =>
    guardThen (fld w 11 6 == 0 && fld w 31 1 == 0) (
      some (.tspawn (Opd.ofBits (fld w 24 7)) (Opd.ofBits (fld w 17 7))))
  | 1 =>
    guardThen (fld w 31 1 == 0) (
      do
      let sb ← toFin 64 (fld w 11 6) (by decide)
      some (.tfork (Opd.ofBits (fld w 24 7)) (Opd.ofBits (fld w 17 7)) sb))
  | 2 =>
    guardThen (fld w 11 21 == 0) (
      some (.tsync))
  | 3 =>
    guardThen (fld w 11 6 == 0 && fld w 31 1 == 0) (
      some (.tpost (Opd.ofBits (fld w 17 7)) (Opd.ofBits (fld w 24 7))))
  | 4 =>
    guardThen (fld w 11 6 == 0 && fld w 24 8 == 0) (
      some (.tdec (Opd.ofBits (fld w 17 7))))
  | 5 =>
    guardThen (fld w 11 13 == 0 && fld w 31 1 == 0) (
      some (.tself (Opd.ofBits (fld w 24 7))))
  | 6 =>
    guardThen (fld w 11 6 == 0 && fld w 24 8 == 0) (
      some (.tdone (Opd.ofBits (fld w 17 7))))
  | 7 =>
    guardThen (fld w 11 6 == 0 && fld w 31 1 == 0) (
      some (.fwait (Opd.ofBits (fld w 24 7)) (Opd.ofBits (fld w 17 7))))
  | 8 =>
    guardThen (fld w 11 6 == 0 && fld w 31 1 == 0) (
      some (.fset (Opd.ofBits (fld w 17 7)) (Opd.ofBits (fld w 24 7))))
  | 9 =>
    guardThen (fld w 11 6 == 0 && fld w 31 1 == 0) (
      some (.lkacq (Opd.ofBits (fld w 24 7)) (Opd.ofBits (fld w 17 7))))
  | 10 =>
    guardThen (fld w 11 6 == 0 && fld w 24 8 == 0) (
      some (.lkrel (Opd.ofBits (fld w 17 7))))
  | _ => none

/-- Major 0x38 (R195). -/
noncomputable def decodeMaj38 (w : Nat) : Option Instr :=
  match fld w 7 4 with
  | 0 =>
    guardThen (fld w 11 6 == 0 && fld w 31 1 == 0) (
      some (.gwidth (Opd.ofBits (fld w 24 7)) (Opd.ofBits (fld w 17 7))))
  | 1 =>
    guardThen (fld w 31 1 == 0) (
      do
      let sw ← toFin 64 (fld w 11 6) (by decide)
      some (.gset (Opd.ofBits (fld w 24 7)) (Opd.ofBits (fld w 17 7)) sw))
  | 2 =>
    guardThen (fld w 31 1 == 0) (
      do
      let sa ← toFin 64 (fld w 11 6) (by decide)
      some (.gsetX (Opd.ofBits (fld w 24 7)) (Opd.ofBits (fld w 17 7)) sa))
  | 3 =>
    guardThen (fld w 11 6 == 0 && fld w 31 1 == 0) (
      some (.gview (Opd.ofBits (fld w 24 7)) (Opd.ofBits (fld w 17 7))))
  | 4 =>
    guardThen (fld w 11 6 == 0 && fld w 31 1 == 0) (
      some (.grank (Opd.ofBits (fld w 24 7)) (Opd.ofBits (fld w 17 7))))
  | 5 =>
    guardThen (fld w 31 1 == 0) (
      do
      let sn ← toFin 64 (fld w 11 6) (by decide)
      some (.gstep (Opd.ofBits (fld w 24 7)) (Opd.ofBits (fld w 17 7)) sn))
  | 6 =>
    guardThen (fld w 11 6 == 0 && fld w 31 1 == 0) (
      some (.glate (Opd.ofBits (fld w 24 7)) (Opd.ofBits (fld w 17 7))))
  | 7 =>
    guardThen (fld w 31 1 == 0) (
      do
      let va ← toFin 64 (fld w 11 6) (by decide)
      some (.kvx (Opd.ofBits (fld w 24 7)) (Opd.ofBits (fld w 17 7)) va))
  | 8 =>
    guardThen (fld w 31 1 == 0) (
      do
      let sp ← toFin 64 (fld w 11 6) (by decide)
      some (.kvapp (Opd.ofBits (fld w 24 7)) (Opd.ofBits (fld w 17 7)) sp))
  | 9 =>
    guardThen (fld w 31 1 == 0) (
      do
      let sp ← toFin 64 (fld w 11 6) (by decide)
      some (.kvfork (Opd.ofBits (fld w 24 7)) (Opd.ofBits (fld w 17 7)) sp))
  | 10 =>
    guardThen (fld w 31 1 == 0) (
      do
      let sn ← toFin 64 (fld w 11 6) (by decide)
      some (.kvfree (Opd.ofBits (fld w 24 7)) (Opd.ofBits (fld w 17 7)) sn))
  | 11 =>
    guardThen (fld w 11 6 == 0 && fld w 31 1 == 0) (
      some (.flpop (Opd.ofBits (fld w 24 7)) (Opd.ofBits (fld w 17 7))))
  | 12 =>
    guardThen (fld w 11 6 == 0 && fld w 31 1 == 0) (
      some (.flpush (Opd.ofBits (fld w 24 7)) (Opd.ofBits (fld w 17 7))))
  | _ => none

/-- Major 0x39 (R195). -/
noncomputable def decodeMaj39 (w : Nat) : Option Instr :=
  match fld w 7 4 with
  | 0 =>
    guardThen (fld w 17 7 == 0 && fld w 31 1 == 0) (
      do
      let r ← SReg.ofBits? (fld w 11 6)
      some (.srd (Opd.ofBits (fld w 24 7)) r))
  | 1 =>
    guardThen (fld w 17 7 == 0 && fld w 31 1 == 0) (
      do
      let r ← SReg.ofBits? (fld w 11 6)
      some (.swr r (Opd.ofBits (fld w 24 7))))
  | 2 =>
    guardThen (fld w 24 8 == 0) (
      do
      let r ← SReg.ofBits? (fld w 11 6)
      some (.segld r (Opd.ofBits (fld w 17 7))))
  | 3 =>
    guardThen (fld w 11 6 == 0 && fld w 24 8 == 0) (
      some (.rgrow (Opd.ofBits (fld w 17 7))))
  | 4 =>
    guardThen (fld w 11 6 == 0 && fld w 24 8 == 0) (
      some (.rshrink (Opd.ofBits (fld w 17 7))))
  | _ => none

/-- Major 0x3E (R195). -/
noncomputable def decodeMaj3E (w : Nat) : Option Instr :=
    guardThen (true) (
      do
      let fl ← toFin 8 (fld w 28 3) (by decide)
      some (.clauseTrailer (fld w 31 1 == 1) fl (Opd.ofBits (fld w 21 7)) (Opd.ofBits (fld w 14 7)) (Opd.ofBits (fld w 7 7))))

/-- Major 0x3F (R195). -/
noncomputable def decodeMaj3F (w : Nat) : Option Instr :=
    guardThen (true) (
      do
      let len ← toFin 32 (fld w 27 5) (by decide)
      let fb ← toFin 16 (fld w 23 4) (by decide)
      let fa ← toFin 16 (fld w 19 4) (by decide)
      some (.clauseHeader len fb fa (BitVec.ofNat 12 (fld w 7 12))))

/-- R186: whether a 32-bit word is an instruction that takes an operand word. -/
def needsEx (w : Nat) : Bool :=
  match fld w 1 6, fld w 7 4 with
  | 39, 0 => true
  | 39, 1 => true
  | 39, 2 => true
  | 39, 3 => true
  | 41, 0 => true
  | 41, 1 => true
  | 41, 2 => true
  | 41, 3 => true
  | 42, 0 => true
  | 54, 3 => true
  | 54, 6 => true
  | 54, 8 => true
  | _, _ => false

/-- R178, R195: a 32-bit word by its major, with the operand word that follows it where it takes one. -/
noncomputable def decode32 (w x : Nat) : Option Instr :=
  match fld w 1 6 with
  | 1 => decodeMaj01 w
  | 2 => decodeMaj02 w
  | 3 => decodeMaj03 w
  | 4 => decodeMaj04 w
  | 5 => decodeMaj05 w
  | 6 => decodeMaj06 w
  | 8 => decodeMaj08 w
  | 9 => decodeMaj09 w
  | 10 => decodeMaj0A w
  | 11 => decodeMaj0B w
  | 12 => decodeMaj0C w
  | 13 => decodeMaj0D w
  | 14 => decodeMaj0E w
  | 15 => decodeMaj0F w
  | 16 => decodeMaj10 w
  | 17 => decodeMaj11 w
  | 18 => decodeMaj12 w
  | 24 => decodeMaj18 w
  | 25 => decodeMaj19 w
  | 26 => decodeMaj1A w
  | 27 => decodeMaj1B w
  | 28 => decodeMaj1C w
  | 29 => decodeMaj1D w
  | 30 => decodeMaj1E w
  | 31 => decodeMaj1F w
  | 32 => decodeMaj20 w
  | 33 => decodeMaj21 w
  | 34 => decodeMaj22 w
  | 35 => decodeMaj23 w
  | 36 => decodeMaj24 w
  | 37 => decodeMaj25 w
  | 38 => decodeMaj26 w
  | 39 => decodeMaj27 w x
  | 40 => decodeMaj28 w
  | 41 => decodeMaj29 w x
  | 42 => decodeMaj2A w x
  | 48 => decodeMaj30 w
  | 49 => decodeMaj31 w
  | 50 => decodeMaj32 w
  | 51 => decodeMaj33 w
  | 52 => decodeMaj34 w
  | 53 => decodeMaj35 w
  | 54 => decodeMaj36 w x
  | 55 => decodeMaj37 w
  | 56 => decodeMaj38 w
  | 57 => decodeMaj39 w
  | 62 => decodeMaj3E w
  | 63 => decodeMaj3F w
  | _ => none

/-- The little-endian number of a list of bytes. -/
def leNat : List Byte → Nat
  | [] => 0
  | b :: bs => b.toNat + 256 * leNat bs

/-- The first `n` bytes of a number, lowest first. -/
def leBytes : Nat → Nat → List Byte
  | 0, _ => []
  | n + 1, w => BitVec.ofNat 8 w :: leBytes n (w / 256)

/-- What the bytes at an instruction's address hold (R178, R186): the instruction and its length in bytes. -/
noncomputable def decodeAt (bs : List Byte) : Option (Instr × Nat) :=
  let h := leNat (bs.take 2)
  if bs.length < 2 then none
  else if h % 2 = 0 then (decode16 h).map (·, 2)
  else if bs.length < 4 then none
  else
    let w := leNat (bs.take 4)
    if needsEx w then
      if bs.length < 8 then none else (decode32 w (leNat ((bs.drop 4).take 4))).map (·, 8)
    else (decode32 w 0).map (·, 4)

/-- The decoder: the first instruction of a list of bytes, with the bytes after it. -/
noncomputable def decode (bs : List Byte) : Option (Instr × List Byte) :=
  (decodeAt bs).map fun p => (p.1, bs.drop p.2)

/-- The longest instruction: an E word and its operand word. -/
def maxInstrBytes : Nat := 8

/-- The bytes of an instruction whose bits are `w`, numbered as the table numbers them. -/
def tableBytes (nbits w : Nat) : List Byte := leBytes maxInstrBytes (w % 2 ^ nbits)

/-- The instruction that the decoder reads from a table word (bits above `nbits` zero). -/
noncomputable def decodeTableWord (nbits w : Nat) : Option Instr := (decodeAt (tableBytes nbits w)).map (·.1)

/-! ### The encoder -/

/-- A word from its fixed bits and its fields, each given with its lowest bit. -/
def packWord (base : Nat) : List (Nat × Nat) → Nat
  | [] => base
  | f :: fs => f.1 * 2 ^ f.2 + packWord base fs

/-- An E word and the operand word that follows it (R186). -/
def packPair (w x : Nat) : Nat := w + x * 2 ^ 32

/-- The bits of an instruction and its length in bytes; a step of another agent has none. -/
def encodeBits : Instr → Option (Nat × Nat)
  | .mov16 d b => some (packWord 0 [(d.val, 5), (b.toNat, 11)], 2)
  | .nop16 => some (packWord 0 [], 2)
  | .iadd16 d b => some (packWord 2 [(d.val, 5), (b.toNat, 11)], 2)
  | .isub16 d b => some (packWord 4 [(d.val, 5), (b.toNat, 11)], 2)
  | .imul16 d b => some (packWord 6 [(d.val, 5), (b.toNat, 11)], 2)
  | .and16 d b => some (packWord 8 [(d.val, 5), (b.toNat, 11)], 2)
  | .or16 d b => some (packWord 10 [(d.val, 5), (b.toNat, 11)], 2)
  | .xor16 d b => some (packWord 12 [(d.val, 5), (b.toNat, 11)], 2)
  | .shl16 d b => some (packWord 14 [(d.val, 5), (b.toNat, 11)], 2)
  | .shr16 d b => some (packWord 16 [(d.val, 5), (b.toNat, 11)], 2)
  | .sar16 d b => some (packWord 18 [(d.val, 5), (b.toNat, 11)], 2)
  | .iminI3216 d b => some (packWord 20 [(d.val, 5), (b.toNat, 11)], 2)
  | .imaxI3216 d b => some (packWord 22 [(d.val, 5), (b.toNat, 11)], 2)
  | .fadd16 d b => some (packWord 24 [(d.val, 5), (b.toNat, 11)], 2)
  | .fsub16 d b => some (packWord 26 [(d.val, 5), (b.toNat, 11)], 2)
  | .fmul16 d b => some (packWord 28 [(d.val, 5), (b.toNat, 11)], 2)
  | .fmax16 d b => some (packWord 30 [(d.val, 5), (b.toNat, 11)], 2)
  | .iadd d a b => some (packWord 3 [(d.toNat, 11), (a.toNat, 18), (b.toNat, 25)], 4)
  | .isub d a b => some (packWord 131 [(d.toNat, 11), (a.toNat, 18), (b.toNat, 25)], 4)
  | .imul d a b => some (packWord 259 [(d.toNat, 11), (a.toNat, 18), (b.toNat, 25)], 4)
  | .imulhI32 d a b => some (packWord 387 [(d.toNat, 11), (a.toNat, 18), (b.toNat, 25)], 4)
  | .imulhN32 d a b => some (packWord 515 [(d.toNat, 11), (a.toNat, 18), (b.toNat, 25)], 4)
  | .imad d a b => some (packWord 643 [(d.toNat, 11), (a.toNat, 18), (b.toNat, 25)], 4)
  | .iabs d a => some (packWord 771 [(d.toNat, 11), (a.toNat, 18)], 4)
  | .lea d a b => some (packWord 899 [(d.toNat, 11), (a.toNat, 18), (b.toNat, 25)], 4)
  | .mov d a => some (packWord 1027 [(d.toNat, 11), (a.toNat, 18)], 4)
  | .popc d a => some (packWord 1155 [(d.toNat, 11), (a.toNat, 18)], 4)
  | .clz d a => some (packWord 1283 [(d.toNat, 11), (a.toNat, 18)], 4)
  | .ctz d a => some (packWord 1411 [(d.toNat, 11), (a.toNat, 18)], 4)
  | .brev d a => some (packWord 1539 [(d.toNat, 11), (a.toNat, 18)], 4)
  | .bfe d a b => some (packWord 1667 [(d.toNat, 11), (a.toNat, 18), (b.toNat, 25)], 4)
  | .bfi d a b => some (packWord 1795 [(d.toNat, 11), (a.toNat, 18), (b.toNat, 25)], 4)
  | .and d a b => some (packWord 5 [(d.toNat, 11), (a.toNat, 18), (b.toNat, 25)], 4)
  | .or d a b => some (packWord 133 [(d.toNat, 11), (a.toNat, 18), (b.toNat, 25)], 4)
  | .xor d a b => some (packWord 261 [(d.toNat, 11), (a.toNat, 18), (b.toNat, 25)], 4)
  | .andn d a b => some (packWord 389 [(d.toNat, 11), (a.toNat, 18), (b.toNat, 25)], 4)
  | .shl d a b => some (packWord 517 [(d.toNat, 11), (a.toNat, 18), (b.toNat, 25)], 4)
  | .shr d a b => some (packWord 645 [(d.toNat, 11), (a.toNat, 18), (b.toNat, 25)], 4)
  | .sar d a b => some (packWord 773 [(d.toNat, 11), (a.toNat, 18), (b.toNat, 25)], 4)
  | .rol d a b => some (packWord 901 [(d.toNat, 11), (a.toNat, 18), (b.toNat, 25)], 4)
  | .cmpEqI32 d a b => some (packWord 7 [(d.toNat, 11), (a.toNat, 18), (b.toNat, 25)], 4)
  | .cmpNeI32 d a b => some (packWord 135 [(d.toNat, 11), (a.toNat, 18), (b.toNat, 25)], 4)
  | .cmpLtI32 d a b => some (packWord 263 [(d.toNat, 11), (a.toNat, 18), (b.toNat, 25)], 4)
  | .cmpLeI32 d a b => some (packWord 391 [(d.toNat, 11), (a.toNat, 18), (b.toNat, 25)], 4)
  | .cmpGtI32 d a b => some (packWord 519 [(d.toNat, 11), (a.toNat, 18), (b.toNat, 25)], 4)
  | .cmpGeI32 d a b => some (packWord 647 [(d.toNat, 11), (a.toNat, 18), (b.toNat, 25)], 4)
  | .cmpEqN32 d a b => some (packWord 775 [(d.toNat, 11), (a.toNat, 18), (b.toNat, 25)], 4)
  | .cmpNeN32 d a b => some (packWord 903 [(d.toNat, 11), (a.toNat, 18), (b.toNat, 25)], 4)
  | .cmpLtN32 d a b => some (packWord 1031 [(d.toNat, 11), (a.toNat, 18), (b.toNat, 25)], 4)
  | .cmpLeN32 d a b => some (packWord 1159 [(d.toNat, 11), (a.toNat, 18), (b.toNat, 25)], 4)
  | .cmpGtN32 d a b => some (packWord 1287 [(d.toNat, 11), (a.toNat, 18), (b.toNat, 25)], 4)
  | .cmpGeN32 d a b => some (packWord 1415 [(d.toNat, 11), (a.toNat, 18), (b.toNat, 25)], 4)
  | .iminI32 d a b => some (packWord 1543 [(d.toNat, 11), (a.toNat, 18), (b.toNat, 25)], 4)
  | .imaxI32 d a b => some (packWord 1671 [(d.toNat, 11), (a.toNat, 18), (b.toNat, 25)], 4)
  | .iminN32 d a b => some (packWord 1799 [(d.toNat, 11), (a.toNat, 18), (b.toNat, 25)], 4)
  | .imaxN32 d a b => some (packWord 1927 [(d.toNat, 11), (a.toNat, 18), (b.toNat, 25)], 4)
  | .selMask d k a b => some (packWord 9 [(d.toNat, 11), (k.val, 7), (a.toNat, 18), (b.toNat, 25)], 4)
  | .sel d a b => some (packWord 1545 [(d.toNat, 11), (a.toNat, 18), (b.toNat, 25)], 4)
  | .iaddPacked d a b t sat => some (packWord 11 [(d.val, 14), (a.val, 20), (b.val, 26), (t.toNat, 11), (boolNat sat, 13)], 4)
  | .isubPacked d a b t sat => some (packWord 139 [(d.val, 14), (a.val, 20), (b.val, 26), (t.toNat, 11), (boolNat sat, 13)], 4)
  | .iminPacked d a b t => some (packWord 267 [(d.val, 14), (a.val, 20), (b.val, 26), (t.toNat, 11)], 4)
  | .imaxPacked d a b t => some (packWord 395 [(d.val, 14), (a.val, 20), (b.val, 26), (t.toNat, 11)], 4)
  | .shlPacked d a b t => some (packWord 523 [(d.val, 14), (a.val, 20), (b.val, 26), (t.toNat, 11)], 4)
  | .shrPacked d a b t => some (packWord 651 [(d.val, 14), (a.val, 20), (b.val, 26), (t.toNat, 11)], 4)
  | .sarPacked d a b t => some (packWord 779 [(d.val, 14), (a.val, 20), (b.val, 26), (t.toNat, 11)], 4)
  | .idot4 d a b u => some (packWord 907 [(d.val, 14), (a.val, 20), (b.val, 26), (boolNat u, 11)], 4)
  | .idot2 d a b u => some (packWord 5003 [(d.val, 14), (a.val, 20), (b.val, 26), (boolNat u, 11)], 4)
  | .iadd64 d a b => some (packWord 13 [(d.toNat, 11), (a.toNat, 18), (b.toNat, 25)], 4)
  | .isub64 d a b => some (packWord 141 [(d.toNat, 11), (a.toNat, 18), (b.toNat, 25)], 4)
  | .shl64 d a b => some (packWord 269 [(d.toNat, 11), (a.toNat, 18), (b.toNat, 25)], 4)
  | .shr64 d a b => some (packWord 397 [(d.toNat, 11), (a.toNat, 18), (b.toNat, 25)], 4)
  | .imulwI32 d a b => some (packWord 525 [(d.toNat, 11), (a.toNat, 18), (b.toNat, 25)], 4)
  | .imulwN32 d a b => some (packWord 653 [(d.toNat, 11), (a.toNat, 18), (b.toNat, 25)], 4)
  | .cmp64Eq d a b => some (packWord 781 [(d.toNat, 11), (a.toNat, 18), (b.toNat, 25)], 4)
  | .cmp64Ne d a b => some (packWord 909 [(d.toNat, 11), (a.toNat, 18), (b.toNat, 25)], 4)
  | .cmp64LtI64 d a b => some (packWord 1037 [(d.toNat, 11), (a.toNat, 18), (b.toNat, 25)], 4)
  | .cmp64LtN64 d a b => some (packWord 1165 [(d.toNat, 11), (a.toNat, 18), (b.toNat, 25)], 4)
  | .cmp64LeI64 d a b => some (packWord 1293 [(d.toNat, 11), (a.toNat, 18), (b.toNat, 25)], 4)
  | .cmp64LeN64 d a b => some (packWord 1421 [(d.toNat, 11), (a.toNat, 18), (b.toNat, 25)], 4)
  | .idivI32 d a b => some (packWord 1549 [(d.toNat, 11), (a.toNat, 18), (b.toNat, 25)], 4)
  | .idivN32 d a b => some (packWord 1677 [(d.toNat, 11), (a.toNat, 18), (b.toNat, 25)], 4)
  | .iremI32 d a b => some (packWord 1805 [(d.toNat, 11), (a.toNat, 18), (b.toNat, 25)], 4)
  | .iremN32 d a b => some (packWord 1933 [(d.toNat, 11), (a.toNat, 18), (b.toNat, 25)], 4)
  | .fadd d a b md => some (packWord 17 [(d.toNat, 11), (a.toNat, 18), (b.toNat, 25), (md.toNat, 7)], 4)
  | .fsub d a b md => some (packWord 529 [(d.toNat, 11), (a.toNat, 18), (b.toNat, 25), (md.toNat, 7)], 4)
  | .fmul d a b md => some (packWord 1041 [(d.toNat, 11), (a.toNat, 18), (b.toNat, 25), (md.toNat, 7)], 4)
  | .ffma d a b md => some (packWord 1553 [(d.toNat, 11), (a.toNat, 18), (b.toNat, 25), (md.toNat, 7)], 4)
  | .fcmpEq d a b => some (packWord 19 [(d.toNat, 11), (a.toNat, 18), (b.toNat, 25)], 4)
  | .fcmpNe d a b => some (packWord 147 [(d.toNat, 11), (a.toNat, 18), (b.toNat, 25)], 4)
  | .fcmpLt d a b => some (packWord 275 [(d.toNat, 11), (a.toNat, 18), (b.toNat, 25)], 4)
  | .fcmpLe d a b => some (packWord 403 [(d.toNat, 11), (a.toNat, 18), (b.toNat, 25)], 4)
  | .fcmpGt d a b => some (packWord 531 [(d.toNat, 11), (a.toNat, 18), (b.toNat, 25)], 4)
  | .fcmpGe d a b => some (packWord 659 [(d.toNat, 11), (a.toNat, 18), (b.toNat, 25)], 4)
  | .fcmpUn d a b => some (packWord 787 [(d.toNat, 11), (a.toNat, 18), (b.toNat, 25)], 4)
  | .fmin d a b => some (packWord 915 [(d.toNat, 11), (a.toNat, 18), (b.toNat, 25)], 4)
  | .fmax d a b => some (packWord 1043 [(d.toNat, 11), (a.toNat, 18), (b.toNat, 25)], 4)
  | .fabs d a => some (packWord 1171 [(d.toNat, 11), (a.toNat, 18)], 4)
  | .fneg d a => some (packWord 1299 [(d.toNat, 11), (a.toNat, 18)], 4)
  | .frndRn d a => some (packWord 1427 [(d.toNat, 11), (a.toNat, 18)], 4)
  | .frndRz d a => some (packWord 1555 [(d.toNat, 11), (a.toNat, 18)], 4)
  | .frndRp d a => some (packWord 1683 [(d.toNat, 11), (a.toNat, 18)], 4)
  | .frndRm d a => some (packWord 1811 [(d.toNat, 11), (a.toNat, 18)], 4)
  | .ffrac d a => some (packWord 1939 [(d.toNat, 11), (a.toNat, 18)], 4)
  | .hadd2 d a b md => some (packWord 21 [(d.toNat, 11), (a.toNat, 18), (b.toNat, 25), (md.toNat, 7)], 4)
  | .hmul2 d a b md => some (packWord 533 [(d.toNat, 11), (a.toNat, 18), (b.toNat, 25), (md.toNat, 7)], 4)
  | .hfma2 d a b md => some (packWord 1045 [(d.toNat, 11), (a.toNat, 18), (b.toNat, 25), (md.toNat, 7)], 4)
  | .badd2 d a b md => some (packWord 23 [(d.toNat, 11), (a.toNat, 18), (b.toNat, 25), (md.toNat, 7)], 4)
  | .bmul2 d a b md => some (packWord 535 [(d.toNat, 11), (a.toNat, 18), (b.toNat, 25), (md.toNat, 7)], 4)
  | .bfma2 d a b md => some (packWord 1047 [(d.toNat, 11), (a.toNat, 18), (b.toNat, 25), (md.toNat, 7)], 4)
  | .dadd d a b md => some (packWord 25 [(d.toNat, 11), (a.toNat, 18), (b.toNat, 25), (md.toNat, 7)], 4)
  | .dmul d a b md => some (packWord 537 [(d.toNat, 11), (a.toNat, 18), (b.toNat, 25), (md.toNat, 7)], 4)
  | .dfma d a b md => some (packWord 1049 [(d.toNat, 11), (a.toNat, 18), (b.toNat, 25), (md.toNat, 7)], 4)
  | .cvt d a dst src mode => some (packWord 27 [(d.toNat, 11), (a.toNat, 18), (dst.toNat, 28), (src.toNat, 25), (mode.toNat, 7)], 4)
  | .cvtPk d a dst src mode => some (packWord 2147483675 [(d.toNat, 11), (a.toNat, 18), (dst.toNat, 28), (src.toNat, 25), (mode.toNat, 7)], 4)
  | .cvtBlkPack d a f mode => some (packWord 29 [(d.toNat, 11), (a.toNat, 18), (f.val, 28), (mode.toNat, 7)], 4)
  | .cvtBlkUnpack d a f => some (packWord 33554461 [(d.toNat, 11), (a.toNat, 18), (f.val, 28)], 4)
  | .cvtBlkpPack d a f mode => some (packWord 67108893 [(d.toNat, 11), (a.toNat, 18), (f.val, 28), (mode.toNat, 7)], 4)
  | .cvtBlkpUnpack d a f => some (packWord 100663325 [(d.toNat, 11), (a.toNat, 18), (f.val, 28)], 4)
  | .frcp d a => some (packWord 31 [(d.toNat, 11), (a.toNat, 18)], 4)
  | .frsq d a => some (packWord 159 [(d.toNat, 11), (a.toNat, 18)], 4)
  | .fsqrt d a => some (packWord 287 [(d.toNat, 11), (a.toNat, 18)], 4)
  | .fexp2 d a => some (packWord 415 [(d.toNat, 11), (a.toNat, 18)], 4)
  | .flog2 d a => some (packWord 543 [(d.toNat, 11), (a.toNat, 18)], 4)
  | .fsin d a => some (packWord 671 [(d.toNat, 11), (a.toNat, 18)], 4)
  | .fcos d a => some (packWord 799 [(d.toNat, 11), (a.toNat, 18)], 4)
  | .ftanh d a => some (packWord 927 [(d.toNat, 11), (a.toNat, 18)], 4)
  | .lshfUp d a b => some (packWord 33 [(d.toNat, 11), (a.toNat, 18), (b.toNat, 25)], 4)
  | .lshfDn d a b => some (packWord 161 [(d.toNat, 11), (a.toNat, 18), (b.toNat, 25)], 4)
  | .lshfXor d a b => some (packWord 289 [(d.toNat, 11), (a.toNat, 18), (b.toNat, 25)], 4)
  | .lshfIdx d a b => some (packWord 417 [(d.toNat, 11), (a.toNat, 18), (b.toNat, 25)], 4)
  | .lshfUpW d a j => some (packWord 545 [(d.toNat, 11), (a.toNat, 18), (j.val, 25)], 4)
  | .lshfDnW d a j => some (packWord 673 [(d.toNat, 11), (a.toNat, 18), (j.val, 25)], 4)
  | .lshfXorW d a j => some (packWord 801 [(d.toNat, 11), (a.toNat, 18), (j.val, 25)], 4)
  | .lbcast d a b => some (packWord 929 [(d.toNat, 11), (a.toNat, 18), (b.toNat, 25)], 4)
  | .lred d a op => some (packWord 1057 [(d.toNat, 11), (a.toNat, 18), (op.toNat, 25)], 4)
  | .lscan d a op => some (packWord 1185 [(d.toNat, 11), (a.toNat, 18), (op.toNat, 25)], 4)
  | .lvoteAny d a => some (packWord 1313 [(d.toNat, 11), (a.toNat, 18)], 4)
  | .lvoteAll d a => some (packWord 1441 [(d.toNat, 11), (a.toNat, 18)], 4)
  | .lvoteBallot d a => some (packWord 1569 [(d.toNat, 11), (a.toNat, 18)], 4)
  | .lidx d f => some (packWord 1697 [(d.toNat, 11), (f.toNat, 25)], 4)
  | .lget d a b => some (packWord 1825 [(d.toNat, 11), (a.toNat, 18), (b.toNat, 25)], 4)
  | .join k => some (packWord 35 [(k.val, 11)], 4)
  | .leave k => some (packWord 163 [(k.val, 11)], 4)
  | .wait k => some (packWord 291 [(k.val, 18)], 4)
  | .mset k a => some (packWord 419 [(k.val, 11), (a.toNat, 18)], 4)
  | .mget d j => some (packWord 547 [(d.toNat, 11), (j.val, 18)], 4)
  | .mand d a b => some (packWord 675 [(d.val, 11), (a.val, 18), (b.val, 25)], 4)
  | .mor d a b => some (packWord 803 [(d.val, 11), (a.val, 18), (b.val, 25)], 4)
  | .mxor d a b => some (packWord 931 [(d.val, 11), (a.val, 18), (b.val, 25)], 4)
  | .mnot d a => some (packWord 1059 [(d.val, 11), (a.val, 18)], 4)
  | .mpop d j => some (packWord 1187 [(d.toNat, 11), (j.val, 18)], 4)
  | .mfirst d j => some (packWord 1315 [(d.toNat, 11), (j.val, 18)], 4)
  | .xsend slot v => some (packWord 37 [(slot.toNat, 18), (v.toNat, 25)], 4)
  | .xrecv d slot => some (packWord 165 [(d.toNat, 11), (slot.toNat, 18)], 4)
  | .qpush k q v => some (packWord 293 [(k.val, 11), (q.val, 18), (v.toNat, 25)], 4)
  | .qpop d k q => some (packWord 421 [(d.toNat, 11), (k.val, 25), (q.val, 18)], 4)
  | .qpopw d k q => some (packWord 549 [(d.toNat, 11), (k.val, 25), (q.val, 18)], 4)
  | .qlen d q => some (packWord 677 [(d.toNat, 11), (q.val, 18)], 4)
  | .iaddi d a imm => some (packWord 49 [(d.toNat, 7), (a.toNat, 14), (imm.toNat, 21)], 4)
  | .andi d a imm => some (packWord 51 [(d.toNat, 7), (a.toNat, 14), (imm.toNat, 21)], 4)
  | .ori d a imm => some (packWord 53 [(d.toNat, 7), (a.toNat, 14), (imm.toNat, 21)], 4)
  | .xori d a imm => some (packWord 55 [(d.toNat, 7), (a.toNat, 14), (imm.toNat, 21)], 4)
  | .shli d a n => some (packWord 57 [(d.toNat, 7), (a.toNat, 14), (n.toNat, 21)], 4)
  | .shri d a n => some (packWord 536870969 [(d.toNat, 7), (a.toNat, 14), (n.toNat, 21)], 4)
  | .sari d a n => some (packWord 1073741881 [(d.toNat, 7), (a.toNat, 14), (n.toNat, 21)], 4)
  | .cmpi d a c v => some (packWord 59 [(d.toNat, 7), (a.toNat, 14), (c.toNat, 28), (v.toNat, 21)], 4)
  | .imuli d a imm => some (packWord 61 [(d.toNat, 7), (a.toNat, 14), (imm.toNat, 21)], 4)
  | .movsFromScalar d n => some (packWord 63 [(d.toNat, 7), (n.val, 21)], 4)
  | .movsToScalar n a => some (packWord 134217791 [(n.val, 21), (a.toNat, 14)], 4)
  | .movl d imm => some (packWord 65 [(d.toNat, 7), (imm.toNat, 14)], 4)
  | .movh d imm => some (packWord 67 [(d.toNat, 7), (imm.toNat, 14)], 4)
  | .ld data base off size sp => some (packWord 69 [(data.toNat, 13), (base.toNat, 20), (off.val, 27), (size.toNat, 10), (sp.toNat, 7)], 4)
  | .st data base off size sp => some (packWord 71 [(data.toNat, 13), (base.toNat, 20), (off.val, 27), (size.toNat, 10), (sp.toNat, 7)], 4)
  | .stFabRel data base off size => some (packWord 585 [(data.toNat, 13), (base.toNat, 20), (off.val, 27), (size.toNat, 10)], 4)
  | .atomAdd d addr main ty sc => some (packWord 75 [(d.toNat, 16), (addr.toNat, 23), (boolNat main, 15), (ty.toNat, 13), (sc.toNat, 11)], 4)
  | .atomMin d addr main ty sc => some (packWord 203 [(d.toNat, 16), (addr.toNat, 23), (boolNat main, 15), (ty.toNat, 13), (sc.toNat, 11)], 4)
  | .atomMax d addr main ty sc => some (packWord 331 [(d.toNat, 16), (addr.toNat, 23), (boolNat main, 15), (ty.toNat, 13), (sc.toNat, 11)], 4)
  | .atomAnd d addr main ty sc => some (packWord 459 [(d.toNat, 16), (addr.toNat, 23), (boolNat main, 15), (ty.toNat, 13), (sc.toNat, 11)], 4)
  | .atomOr d addr main ty sc => some (packWord 587 [(d.toNat, 16), (addr.toNat, 23), (boolNat main, 15), (ty.toNat, 13), (sc.toNat, 11)], 4)
  | .atomXor d addr main ty sc => some (packWord 715 [(d.toNat, 16), (addr.toNat, 23), (boolNat main, 15), (ty.toNat, 13), (sc.toNat, 11)], 4)
  | .atomXchg d addr main ty sc => some (packWord 843 [(d.toNat, 16), (addr.toNat, 23), (boolNat main, 15), (ty.toNat, 13), (sc.toNat, 11)], 4)
  | .atomCas d addr main ty sc => some (packWord 971 [(d.toNat, 16), (addr.toNat, 23), (boolNat main, 15), (ty.toNat, 13), (sc.toNat, 11)], 4)
  | .atomIncw d addr main ty sc => some (packWord 1099 [(d.toNat, 16), (addr.toNat, 23), (boolNat main, 15), (ty.toNat, 13), (sc.toNat, 11)], 4)
  | .atomDecw d addr main ty sc => some (packWord 1227 [(d.toNat, 16), (addr.toNat, 23), (boolNat main, 15), (ty.toNat, 13), (sc.toNat, 11)], 4)
  | .redAdd d addr main ty sc => some (packWord 77 [(d.toNat, 16), (addr.toNat, 23), (boolNat main, 15), (ty.toNat, 13), (sc.toNat, 11)], 4)
  | .redMin d addr main ty sc => some (packWord 205 [(d.toNat, 16), (addr.toNat, 23), (boolNat main, 15), (ty.toNat, 13), (sc.toNat, 11)], 4)
  | .redMax d addr main ty sc => some (packWord 333 [(d.toNat, 16), (addr.toNat, 23), (boolNat main, 15), (ty.toNat, 13), (sc.toNat, 11)], 4)
  | .redAnd d addr main ty sc => some (packWord 461 [(d.toNat, 16), (addr.toNat, 23), (boolNat main, 15), (ty.toNat, 13), (sc.toNat, 11)], 4)
  | .redOr d addr main ty sc => some (packWord 589 [(d.toNat, 16), (addr.toNat, 23), (boolNat main, 15), (ty.toNat, 13), (sc.toNat, 11)], 4)
  | .redXor d addr main ty sc => some (packWord 717 [(d.toNat, 16), (addr.toNat, 23), (boolNat main, 15), (ty.toNat, 13), (sc.toNat, 11)], 4)
  | .redIncw d addr main ty sc => some (packWord 1101 [(d.toNat, 16), (addr.toNat, 23), (boolNat main, 15), (ty.toNat, 13), (sc.toNat, 11)], 4)
  | .redDecw d addr main ty sc => some (packWord 1229 [(d.toNat, 16), (addr.toNat, 23), (boolNat main, 15), (ty.toNat, 13), (sc.toNat, 11)], 4)
  | .cpy dst src tag dsp ssp bar len d => some (packPair (packWord 79 [(dst.toNat, 17), (src.toNat, 24), (tag.val, 11)]) (packWord 1 [(dsp.toNat, 30), (ssp.toNat, 28), (bar.toNat, 21), (len.toNat, 14), (d.toNat, 7)]), 8)
  | .cpx dst src tag dsp ssp bar len d => some (packPair (packWord 207 [(dst.toNat, 17), (src.toNat, 24), (tag.val, 11)]) (packWord 1 [(dsp.toNat, 30), (ssp.toNat, 28), (bar.toNat, 21), (len.toNat, 14), (d.toNat, 7)]), 8)
  | .cpg dst src tag dsp ssp bar len d => some (packPair (packWord 335 [(dst.toNat, 17), (src.toNat, 24), (tag.val, 11)]) (packWord 1 [(dsp.toNat, 30), (ssp.toNat, 28), (bar.toNat, 21), (len.toNat, 14), (d.toNat, 7)]), 8)
  | .cps dst src tag dsp ssp bar len d => some (packPair (packWord 463 [(dst.toNat, 17), (src.toNat, 24), (tag.val, 11)]) (packWord 1 [(dsp.toNat, 30), (ssp.toNat, 28), (bar.toNat, 21), (len.toNat, 14), (d.toNat, 7)]), 8)
  | .tagany tag => some (packWord 16777297 [(tag.val, 11)], 4)
  | .tagall tag => some (packWord 16777425 [(tag.val, 11)], 4)
  | .tagclr tag => some (packWord 16777681 [(tag.val, 11)], 4)
  | .taganyMask m => some (packWord 81 [(m.toNat, 17)], 4)
  | .tagallMask m => some (packWord 209 [(m.toNat, 17)], 4)
  | .tagclrMask m => some (packWord 465 [(m.toNat, 17)], 4)
  | .tagfirst d m => some (packWord 337 [(d.toNat, 24), (m.toNat, 17)], 4)
  | .bcbInit a sp v => some (packWord 593 [(a.toNat, 17), (boolNat sp, 11), (v.toNat, 24)], 4)
  | .bcbInitAbandon a sp => some (packWord 721 [(a.toNat, 17), (boolNat sp, 11)], 4)
  | .bcbExp a sp v => some (packWord 849 [(a.toNat, 17), (boolNat sp, 11), (v.toNat, 24)], 4)
  | .bcbArr a sp v => some (packWord 977 [(a.toNat, 17), (boolNat sp, 11), (v.toNat, 24)], 4)
  | .bcbWait d a sp rel => some (packWord 1105 [(d.val, 11), (a.toNat, 17), (boolNat sp, 27), (rel.val, 24)], 4)
  | .bcbTest d a sp => some (packWord 1233 [(d.val, 11), (a.toNat, 17), (boolNat sp, 27)], 4)
  | .sobindGrp obj base rsp len d => some (packPair (packWord 83 [(obj.toNat, 17), (base.toNat, 24), (rsp.toNat, 11)]) (packWord 1 [(len.toNat, 14), (d.toNat, 7)]), 8)
  | .sobindClu obj base rsp len d => some (packPair (packWord 211 [(obj.toNat, 17), (base.toNat, 24), (rsp.toNat, 11)]) (packWord 1 [(len.toNat, 14), (d.toNat, 7)]), 8)
  | .sobindChip obj base rsp len d => some (packPair (packWord 339 [(obj.toNat, 17), (base.toNat, 24), (rsp.toNat, 11)]) (packWord 1 [(len.toNat, 14), (d.toNat, 7)]), 8)
  | .sobindSys obj base rsp len d => some (packPair (packWord 467 [(obj.toNat, 17), (base.toNat, 24), (rsp.toNat, 11)]) (packWord 1 [(len.toNat, 14), (d.toNat, 7)]), 8)
  | .sacq a sp => some (packWord 595 [(a.toNat, 17), (sp.toNat, 11)], 4)
  | .sacqSh a sp => some (packWord 723 [(a.toNat, 17), (sp.toNat, 11)], 4)
  | .stry d a sp => some (packWord 851 [(d.toNat, 24), (a.toNat, 17), (sp.toNat, 11)], 4)
  | .srel d a sp => some (packWord 979 [(d.toNat, 24), (a.toNat, 17), (sp.toNat, 11)], 4)
  | .fenceGrp => some (packWord 1107 [], 4)
  | .fenceClu => some (packWord 1235 [], 4)
  | .fenceChip => some (packWord 1363 [], 4)
  | .fenceSys => some (packWord 1491 [], 4)
  | .hredOpen slot op timeout mask d => some (packPair (packWord 85 [(slot.toNat, 17), (op.toNat, 24)]) (packWord 1 [(timeout.toNat, 21), (mask.toNat, 14), (d.toNat, 7)]), 8)
  | .hredPut d slot => some (packWord 213 [(d.toNat, 24), (slot.toNat, 17)], 4)
  | .hredWait d slot => some (packWord 341 [(d.toNat, 24), (slot.toNat, 17)], 4)
  | .jmp disp => some (packWord 97 [(disp.toNat, 14)], 4)
  | .bz c disp => some (packWord 99 [(c.toNat, 7), (disp.toNat, 14)], 4)
  | .bnz c disp => some (packWord 101 [(c.toNat, 7), (disp.toNat, 14)], 4)
  | .bm k disp => some (packWord 103 [(k.val, 7), (disp.toNat, 14)], 4)
  | .call disp => some (packWord 105 [(disp.toNat, 14)], 4)
  | .jmpr a => some (packWord 107 [(a.toNat, 17)], 4)
  | .ret => some (packWord 235 [], 4)
  | .endLanes => some (packWord 363 [], 4)
  | .nop => some (packWord 491 [], 4)
  | .yield => some (packWord 619 [], 4)
  | .sleep a => some (packWord 747 [(a.toNat, 17)], 4)
  | .trap n => some (packWord 875 [(n.val, 11)], 4)
  | .brk n => some (packWord 1003 [(n.val, 11)], 4)
  | .rfe a => some (packWord 1131 [(a.toNat, 17)], 4)
  | .obres d a f => some (packWord 109 [(d.toNat, 24), (a.toNat, 17), (f.val, 11)], 4)
  | .obrec d a => some (packWord 237 [(d.toNat, 24), (a.toNat, 17)], 4)
  | .obrel a => some (packWord 365 [(a.toNat, 17)], 4)
  | .mload d h bar row0 => some (packPair (packWord 493 [(d.toNat, 24), (h.toNat, 17)]) (packWord 1 [(bar.toNat, 21), (row0.toNat, 7)]), 8)
  | .mswap => some (packWord 621 [], 4)
  | .mswapAuto => some (packWord 749 [], 4)
  | .mstream d t ctr bar rowbase h => some (packPair (packWord 877 [(d.toNat, 24), (t.toNat, 17)]) (packWord 1 [(ctr.val, 28), (bar.toNat, 21), (rowbase.toNat, 14), (h.toNat, 7)]), 8)
  | .mzero d t => some (packWord 1005 [(d.toNat, 24), (t.toNat, 17)], 4)
  | .mdrain d t n c => some (packPair (packWord 1133 [(d.toNat, 24), (t.toNat, 17)]) (packWord 1 [(n.toNat, 14), (c.toNat, 7)]), 8)
  | .mwait t => some (packWord 1261 [(t.toNat, 17)], 4)
  | .mpoll d t => some (packWord 1389 [(d.toNat, 24), (t.toNat, 17)], 4)
  | .accget d => some (packWord 1517 [(d.toNat, 24)], 4)
  | .accput t => some (packWord 1645 [(t.toNat, 17)], 4)
  | .mstat d => some (packWord 1773 [(d.toNat, 24)], 4)
  | .tspawn d a => some (packWord 111 [(d.toNat, 24), (a.toNat, 17)], 4)
  | .tfork d a sb => some (packWord 239 [(d.toNat, 24), (a.toNat, 17), (sb.val, 11)], 4)
  | .tsync => some (packWord 367 [], 4)
  | .tpost a n => some (packWord 495 [(a.toNat, 17), (n.toNat, 24)], 4)
  | .tdec a => some (packWord 623 [(a.toNat, 17)], 4)
  | .tself d => some (packWord 751 [(d.toNat, 24)], 4)
  | .tdone a => some (packWord 879 [(a.toNat, 17)], 4)
  | .fwait d a => some (packWord 1007 [(d.toNat, 24), (a.toNat, 17)], 4)
  | .fset a v => some (packWord 1135 [(a.toNat, 17), (v.toNat, 24)], 4)
  | .lkacq d a => some (packWord 1263 [(d.toNat, 24), (a.toNat, 17)], 4)
  | .lkrel a => some (packWord 1391 [(a.toNat, 17)], 4)
  | .gwidth d sq => some (packWord 113 [(d.toNat, 24), (sq.toNat, 17)], 4)
  | .gset d sq sw => some (packWord 241 [(d.toNat, 24), (sq.toNat, 17), (sw.val, 11)], 4)
  | .gsetX d sq sa => some (packWord 369 [(d.toNat, 24), (sq.toNat, 17), (sa.val, 11)], 4)
  | .gview d sq => some (packWord 497 [(d.toNat, 24), (sq.toNat, 17)], 4)
  | .grank d sq => some (packWord 625 [(d.toNat, 24), (sq.toNat, 17)], 4)
  | .gstep d sq sn => some (packWord 753 [(d.toNat, 24), (sq.toNat, 17), (sn.val, 11)], 4)
  | .glate d sq => some (packWord 881 [(d.toNat, 24), (sq.toNat, 17)], 4)
  | .kvx d sq va => some (packWord 1009 [(d.toNat, 24), (sq.toNat, 17), (va.val, 11)], 4)
  | .kvapp d sq sp => some (packWord 1137 [(d.toNat, 24), (sq.toNat, 17), (sp.val, 11)], 4)
  | .kvfork d sq sp => some (packWord 1265 [(d.toNat, 24), (sq.toNat, 17), (sp.val, 11)], 4)
  | .kvfree d sq sn => some (packWord 1393 [(d.toNat, 24), (sq.toNat, 17), (sn.val, 11)], 4)
  | .flpop d st => some (packWord 1521 [(d.toNat, 24), (st.toNat, 17)], 4)
  | .flpush d sb => some (packWord 1649 [(d.toNat, 24), (sb.toNat, 17)], 4)
  | .srd d r => some (packWord 115 [(d.toNat, 24), (r.toNat, 11)], 4)
  | .swr r v => some (packWord 243 [(r.toNat, 11), (v.toNat, 24)], 4)
  | .segld r a => some (packWord 371 [(r.toNat, 11), (a.toNat, 17)], 4)
  | .rgrow a => some (packWord 499 [(a.toNat, 17)], 4)
  | .rshrink a => some (packWord 627 [(a.toNat, 17)], 4)
  | .clauseHeader len fb fa wait => some (packWord 127 [(len.val, 27), (fb.val, 23), (fa.val, 19), (wait.toNat, 7)], 4)
  | .clauseTrailer sp fl d3 d2 d1 => some (packWord 125 [(boolNat sp, 31), (fl.val, 28), (d3.toNat, 21), (d2.toNat, 14), (d1.toNat, 7)], 4)
  | .rgrowGrant _ _ => none
  | .rgrowDeadlockPreempt _ _ => none
  | .parkedSubgroupReturn _ _ _ => none
  | .lateSplit _ _ => none
  | .sleepExpiry _ _ _ => none
  | .yieldTimeout _ _ => none
  | .loadReply _ => none
  | .storePerformed _ => none
  | .atomicAtHome _ => none
  | .releasePerform _ => none
  | .fabricUndeliverable _ => none
  | .fabricRequestTimeout _ => none
  | .escapeDivert _ _ => none
  | .copyCommandComplete _ => none
  | .copyCommandFail _ _ _ => none
  | .matrixGrant _ => none
  | .matrixCommandRetire _ _ => none
  | .matrixCommandFail _ _ _ _ => none
  | .hredTimeout _ => none
  | .hredSlotExpire _ => none
  | .taskDispatch _ _ _ _ => none
  | .gangWalk _ => none
  | .switchMsg _ _ => none
  | .switchReply _ _ => none
  | .cutMsg _ _ => none
  | .lapReport _ _ => none
  | .switchTimeout _ _ => none
  | .abortMsg _ _ => none
  | .abortAcknowledgement _ _ => none
  | .lapMessage _ => none
  | .lapDeadline _ => none
  | .lateArrival _ => none
  | .glateTimeout _ _ => none
  | .trapDelivery _ _ _ => none
  | .vfSliceEnd _ _ => none
  | .preemptStop _ => none
  | .groupDispatch _ _ _ _ => none
  | .groupResume _ _ => none
  | .qtail _ _ _ _ => none
  | .launchNone _ _ _ => none
  | .grid _ _ _ => none
  | .openSlot _ _ _ => none
  | .closeSlot _ _ _ => none
  | .recordComplete _ => none
  | .stealRequest _ _ _ => none
  | .map _ _ => none
  | .unmap _ _ => none
  | .protect _ _ => none
  | .settag _ _ => none
  | .move _ _ => none
  | .regq _ _ => none
  | .pageMigration _ _ _ _ => none
  | .pset => none
  | .vset => none
  | .pdel => none
  | .enroll => none
  | .kload => none
  | .kclr => none
  | .lsign => none
  | .cset => none
  | .csetTimeout => none
  | .hfree => none
  | .functionLevelReset _ _ => none
  | .replctlGo _ => none
  | .quiesceComplete => none
  | .hbeat _ => none
  | .heartbeatIntervalEnd => none
  | .imageFault => none
  | .powerOn => none
  | .powerLoss => none
  | .powerInterval _ => none
  | .coolantCritical => none
  | .usageIntervalEnd _ _ => none
  | .kvholdSample => none
  | .quotaWindow _ => none
  | .hbmChannelRetire _ _ => none
  | .quadrantRetire _ _ => none
  | .fecWindow _ _ _ => none
  | .retrainDone _ => none
  | .retrainTimeout _ => none
  | .registerWrite _ _ _ _ => none
  | .genExchange _ _ _ => none
  | .crcRetry _ => none
  | .attestationQuote _ => none
  | .hostWrite _ _ _ _ => none

/-- The words of an instruction, as bytes in memory order (R178); empty for a step that is no word. -/
def encode (i : Instr) : List Byte :=
  match encodeBits i with
  | some p => leBytes p.2 p.1
  | none => []

end Sys2Proof
end

