-- ==== Sys2Proof/Machine/Ecdsa.lean ====
section
/-! DEFINITION. Verification of an ECDSA signature over P-384 (R376, R391 to R396). The spec names the scheme; the curve and the
steps are those of the published standard (log 13). -/

namespace Sys2Proof.Machine

/-- The field's prime, the group's order, the curve's `b` and the base point of P-384. -/
def p384 : Nat := 2 ^ 384 - 2 ^ 128 - 2 ^ 96 + 2 ^ 32 - 1
def n384 : Nat := 0xFFFFFFFFFFFFFFFFFFFFFFFFFFFFFFFFFFFFFFFFFFFFFFFFC7634D81F4372DDF581A0DB248B0A77AECEC196ACCC52973
def b384 : Nat := 0xB3312FA7E23EE7E4988E056BE3F82D19181D9C6EFE8141120314088F5013875AC656398D8A2ED19D2A85C8EDD3EC2AEF
def gx384 : Nat := 0xAA87CA22BE8B05378EB1C71EF320AD746E1D3B628BA79B9859F741E082542A385502F25DBF55296C3A545E3872760AB7
def gy384 : Nat := 0x3617DE4A96262C6F5D9E98BF9292DC29F8F41DBD289A147CE9DA3113B5F0B8C00A60B1CE1D7E819D7A431D7C90EA0E5F

/-- A power modulo `m`, by the exponent's lowest `k` bits. -/
def powMod (m : Nat) : Nat → Nat → Nat → Nat
  | 0, _, _ => 1
  | k + 1, b, e => powMod m k (b * b % m) (e / 2) * (if e % 2 = 1 then b else 1) % m
/-- The inverse modulo a prime of 384 bits. -/
def invMod (m a : Nat) : Nat := powMod m 384 (a % m) (m - 2)
def subP (a b : Nat) : Nat := (a + p384 - b % p384) % p384

/-- A point (x, y) as x × z², y × z³ and z; z is 0 at infinity. -/
structure Point where
  x : Nat
  y : Nat
  z : Nat
  deriving DecidableEq, Repr

def Point.inf : Point := ⟨1, 1, 0⟩
def Point.double (a : Point) : Point :=
  let yy := a.y * a.y % p384
  let s := 4 * a.x * yy % p384
  let zz := a.z * a.z % p384
  let m := 3 * subP a.x zz * (a.x + zz) % p384
  let x := subP (m * m) (2 * s)
  ⟨x, subP (m * subP s x) (8 * yy * yy), 2 * a.y * a.z % p384⟩
def Point.add (a b : Point) : Point :=
  if a.z = 0 then b
  else if b.z = 0 then a
  else
    let za := a.z * a.z % p384
    let zb := b.z * b.z % p384
    let u := a.x * zb % p384
    let h := subP (b.x * za) u
    let s := a.y * zb * b.z % p384
    let r := subP (b.y * za * a.z) s
    if h = 0 then (if r = 0 then a.double else Point.inf)
    else
      let hh := h * h % p384
      let v := u * hh % p384
      let x := subP (r * r) (hh * h + 2 * v)
      ⟨x, subP (r * subP v x) (s * (hh * h % p384)), h * a.z * b.z % p384⟩
/-- A multiple of a point, by the factor's lowest `n` bits. -/
def Point.mul : Nat → Nat → Point → Point
  | 0, _, _ => Point.inf
  | n + 1, e, a => let h := Point.mul n (e / 2) a.double; if e % 2 = 1 then h.add a else h
/-- The x coordinate of a point that is not at infinity. -/
def Point.affineX (a : Point) : Nat := a.x * invMod p384 (a.z * a.z) % p384

/-- R376: a public key (x then y) is a point of the curve. -/
def keyPoint (key : BitVec 768) : Option Point :=
  let x := key.toNat / 2 ^ 384
  let y := key.toNat % 2 ^ 384
  if x < p384 && y < p384 && y * y % p384 == (x * x * x + (p384 - 3) * x + b384) % p384 then some ⟨x, y, 1⟩ else none

/-- R376: a signature (r then s) verifies over a digest under a public key. -/
def ecdsaOk (key : BitVec 768) (digest : BitVec 384) (sig : BitVec 768) : Bool :=
  let r := sig.toNat / 2 ^ 384
  let s := sig.toNat % 2 ^ 384
  match keyPoint key with
  | none => false
  | some q =>
    if r = 0 || n384 ≤ r || s = 0 || n384 ≤ s then false
    else
      let w := invMod n384 s
      let x := (Point.mul 384 (digest.toNat * w % n384) ⟨gx384, gy384, 1⟩).add (Point.mul 384 (r * w % n384) q)
      x.z != 0 && x.affineX % n384 == r

end Sys2Proof.Machine
end

