-- ==== Sys2Proof/Config.lean ====
section
/-! DEFINITION. What one implementation fixes, and the free values. A constant with no body stands for a value
the spec leaves open: no proof can see what it is (log 4, 6, 12, 13). -/

namespace Sys2Proof

/-- R1, R12: WARPW.WIDTH on this part. -/
def Config.warpW : Nat := 64

/-- R1: chips of the module, cores of a chip. -/
def Config.chips : Nat := 8
def Config.cores : Nat := 16

/-- Free 32-bit values, numbered by the state's counter: undefined registers (R25, R26, R335, R342), an abandoned
load's destination (R212), suppressed results (R370), the contents of a bad tile (R128). Log 4. -/
opaque Config.freeWord : Nat → Word

/-- Core cycles that pass on a core during one step of the model (R12, R13). Log 6. -/
opaque Config.cyclesPassed : Nat → Nat → Nat

/-- Hub cycles that pass during one step of the model (R2, R13). Log 6. -/
opaque Config.hubCyclesPassed : Nat → Nat

/-- R273: which of the two binary32 values next to the exact result `fsin` returns on this part. Log 12. -/
opaque Config.sinUpper : Word → Bool
/-- R273: the same for `fcos`. Log 12. -/
opaque Config.cosUpper : Word → Bool
/-- R273: the same for `ftanh`. Log 12. -/
opaque Config.tanhUpper : Word → Bool

/-- R349, R350: the `dws` window of a virtual function of a partition, by position and bytes. Log 32. -/
opaque Config.dwsWindow : Nat → Nat → Nat × Nat

/-- R148: the first-stage tables' addresses and their entries per rank, as Iluloth builds them for a slot. Log 38. -/
opaque Config.firstStage : Nat → Dword × Dword × Word

/-- R13, R155: the cycles of the home chip of a slot of another module. Log 17. -/
opaque Config.farCycles : Nat → Nat → Nat

/-- R365: the set of a walker in which the leaf entries of a page stand, by its address. Log 59. -/
opaque Config.walkerSet : Nat → Fin 2048

/-- R397: the module's serial number, fixed at manufacture. -/
opaque Config.serial : Dword

/-- R376: the security-version floor that the fuses hold for an image kind. -/
opaque Config.svnFloor : Nat → Nat

/-- R376: the Lartex public key that the boot ROM holds. Log 13. -/
opaque Config.lartexKey : BitVec 768

/-- R394: the signature that the module makes over a digest with a partition's record key, for a boot count and a
partition. Log 13. -/
opaque Config.recordSign : Nat → Nat → BitVec 384 → BitVec 768

/-- R394: the public key of a partition's record key, for a boot count and a partition. Log 13. -/
opaque Config.recordPublic : Nat → Nat → BitVec 768

/-- R378: the signature that the device key makes over what a quote reports. Log 13. -/
opaque Config.quoteSign : List Nat → BitVec 768

/-- R391: the key pair that the Hub generates, for each generation. Log 13. -/
opaque Config.generatedKey : Nat → BitVec 512

/-- R391: the unwrapping of a 576-bit wrapped key pair under the key derived from the partition's enrolled key;
none when the integrity check of the unwrapping fails. Log 13. -/
opaque Config.unwrapKey : BitVec 768 → BitVec 576 → Option (BitVec 512)

/-- R380, R381: the major and minor state-format versions of an image, by its body's digest. Log 13. -/
opaque Config.imageFormat : BitVec 384 → Nat × Nat

/-- R381: the bytes of the state block that the old image writes, by its kind and the replacement's number. Log 13. -/
opaque Config.stateBlock : Nat → Nat → List Byte

/-- R381: the offset at which it writes the block, in the memory that only Iluloth reaches, by the same. Log 13. -/
opaque Config.stateOffset : Nat → Nat → Nat

/-- R377: whether an HBM channel, by 64 × chip + channel, trains at a boot. Log 16. -/
opaque Config.channelTrains : Nat → Nat → Bool

/-- R377: whether an optical port trains at a boot. Log 16. -/
opaque Config.portTrains : Nat → Nat → Bool

end Sys2Proof
end

