-- ==== Sys2Proof/Machine/State.lean ====
section
/-! DEFINITION. The machine's state as plain data, its stops, and the state right after reset. Every piece of
state that the spec gives the module stands here (INVENTORY.md, section State). -/

namespace Sys2Proof.Machine

/-- Why the machine stops with a fault. -/
inductive Fault where
  /-- An instruction of a warp was given to `exec` while the selected warp has no run in a clause. Every meaning
  of a warp's instruction raises it; `step` never reaches it, because it executes a word of a clause only for a
  run that is in one. Safe: no hardware state corresponds to it. -/
  | noRun
  deriving DecidableEq, Repr

/-- Why an instruction has no meaning. -/
inductive Refusal where
  /-- An instruction that the model gives no meaning yet, by its mnemonic. Safe: no claim can be made of it. -/
  | notModelled (mnemonic : String)
  deriving DecidableEq, Repr

/-! ### Outstanding memory operations -/

/-- R185: the operations of the atomics and reductions. -/
inductive AOp where
  | add | min | max | and | or | xor | xchg | cas | incw | decw
  deriving DecidableEq, Repr

/-- What an outstanding piece does at its home. -/
inductive MKind where
  | load (signed : Bool) (scalar : Bool)
  | store
  | atomic (op : AOp) (ty : AType) (sc : Scope) (main : Bool) (ret : Bool)
  | release
  deriving DecidableEq, Repr

/-- R73, R83, R146: who an access is visible to besides its home: lanes of a warp, a group, a cluster of the module,
a chip; the parties of a fence's scope (0 `grp` to 3 `sys`) around the core and group of the fencing lane, each once a fence of its
own takes that lane in (R78); an object that passes visibility on (a barrier or object word by its place, a task record); an engine
command by its number in the model. -/
inductive Party where
  | lanes (gid wid : Nat) (m : LaneMask)
  | grp (gid : Nat)
  | clu (n : Nat)
  | chip (n : Nat)
  | fenced (sc core gid : Nat)
  | place (k : Nat)
  | cmd (id : Nat)
  deriving DecidableEq, Repr

/-- One lane's part of a piece: the place of each of its bytes, its operand bytes, and the parties whose later
accesses must meet it (R74, R75). -/
structure Acc where
  lane : Nat
  bytes : List Nat
  data : List Byte
  seen : List Party
  deriving DecidableEq, Repr

/-- R57 to R60: what a fabric piece carries besides: its chips, its stream, and a release's count; once it is `diverted`, the
pieces `behind` it and the units of copy commands that arrive first (R62). `born` is the piece's number as the port accepted it. -/
structure Fab where
  src : Nat
  dst : Nat
  stream : Nat
  count : Nat
  diverted : Bool
  behind : List Nat := []
  units : List (Nat × Nat) := []
  born : Nat := 0
  deriving DecidableEq, Repr

/-- R43: an outstanding piece of a load, store, atomic or release of `n` bytes for each lane. `core` is 16 × chip +
core of the issue, `va` each lane's offset or main-memory address, `reg` the code of the destination, `flag` the
flag that the trailer assigned, `lanes` the lanes it was issued for, `pc` the instruction; `deferred` after a
resolvable fault at issue (R20), `failed` the trap that the piece's lanes are to take, with TRAPA and TRAPV (R58,
R63, R234, R371), `cap` the lowest allocation since its issue: it writes no register from there on (R304), `snap` the bytes
that an atomic has read early, and what stands there now by atomics that it may overlap (R84); `part` and `vf` are those whose
work it is, also once its group has retired (R390, R392). -/
structure MemOp where
  id : Nat
  gid : Nat
  wid : Nat
  core : Nat
  kind : MKind
  n : Nat
  accs : List Acc
  lanes : LaneMask
  va : List (Nat × Nat)
  reg : Nat
  flag : Option Nat
  issued : Nat
  pc : Nat
  fab : Option Fab
  deferred : Bool
  failed : Option (Nat × Dword × Word)
  cap : Nat := 96
  snap : Option (List Byte × List Byte) := none
  part : Nat := 0
  vf : Nat := 0
  deriving DecidableEq, Repr

/-- R165, R282: a result that has come back while not all of its bytes have reached the registers: its words, each by its register's
code, its lane, its value and the bits that are still to be written, and the flag assignments that end with it; its instruction and the
code of its destination. -/
structure Landing where
  id : Nat
  gid : Nat
  wid : Nat
  flag : Option Nat
  lanes : LaneMask
  words : List (Nat × Nat × Word × Word)
  pc : Nat := 0
  reg : Nat := 127
  deriving DecidableEq, Repr

/-! ### Warps -/

/-- R14: an entry of the PC table, or any set of lanes that stand at one PC. -/
structure Sub where
  pc : Nat
  lanes : LaneMask
  deriving DecidableEq, Repr

/-- R17: lanes in the wait set of mask `k` that return at `pc`. -/
structure WaitSet where
  k : Nat
  pc : Nat
  lanes : LaneMask
  deriving DecidableEq, Repr

/-- R210: lanes asleep until the core's clock reaches `wake`. -/
structure Sleeper where
  pc : Nat
  lanes : LaneMask
  wake : Nat
  deriving DecidableEq, Repr

/-- R81, R337: an entry of a warp's hold list. `obj` is the object word's place in memory, `place` its offset with
the chip number as R337 lays it out, `sp` 1 `shr`, 2 `dws`, 3 `fab`. -/
structure Hold where
  obj : Nat
  sp : Nat
  place : Nat
  excl : Bool
  deriving DecidableEq, Repr

/-- R118, R337: a plane descriptor: 0 empty, 1 loaded, 2 failed; `busy` while its load is outstanding, `load` the number of that
command in the model (R119). -/
structure Plane where
  st : Nat
  range : Nat
  row0 : Nat
  busy : Bool
  load : Nat := 0
  deriving DecidableEq, Repr

/-- R115: a range with its record; `gone` from `obrel` until every command naming it has retired (R114); `region` that in
which it was reserved (R305). -/
structure Range where
  h : Nat
  base : Nat
  len : Nat
  fmt : Nat
  blk : Nat
  layout : Nat
  soff : Nat
  rowb : Nat
  srowb : Nat
  region : Nat
  gone : Bool
  deriving DecidableEq, Repr

/-- R31, R305, R337: what a warp records when a run executes a region's first instruction. `more` are the lanes that an adopted task
had at other addresses when it was restored, `waits` those it had in wait sets (R144, log 46). -/
structure Restart where
  pc : Nat
  lanes : LaneMask
  masks : List (Nat × Dword)
  active : Plane
  shadow : Plane
  more : List Sub := []
  waits : List WaitSet := []
  deriving DecidableEq, Repr

/-- What the trailer does with the lanes of the run, as the clause's last instruction has set it. -/
inductive Exit where
  /-- All lanes go to the fall-through (R15). -/
  | fall
  /-- Each set of lanes goes to its own address (R201, R206). -/
  | goto (ts : List Sub)
  /-- The lanes retire (R8). -/
  | retire
  /-- The lanes enter the wait set of the mask (R17). -/
  | wait (k : Nat)
  /-- The lanes sleep for `n` cycles (R210). -/
  | sleep (n : Nat)
  /-- The lanes fall through and the warp yields (R209). -/
  | yield
  /-- The given lanes have left to be served elsewhere (R54, R252); the others fall through. -/
  | block (lanes : LaneMask)
  deriving DecidableEq, Repr

/-- R20, R22: a parked subgroup: its lanes and their next PC, what the end of their clause does with them when they
return (`fall`, `wait k`, or `sleep` until a core cycle), the lanes that are also blocked to be served elsewhere (R54, R252), and
the core cycle at which its operations were found complete. -/
structure Parked where
  pc : Nat
  lanes : LaneMask
  next : Exit
  blocked : LaneMask
  back : Option Nat
  deriving DecidableEq, Repr

/-- R14, R188 to R194: a run that is in a clause. `pc` is the address of the next word, `left` the instructions
still to issue, `fall` the address after the trailer, `fa` and `fb` the header's flags, `done` the lanes that a held
instruction has already released, `faulted` the lanes whose access met a resolvable translation fault (R20), `again`
set while an instruction is executed again after cause 0x07 (R370), `entry` where `kvfork`
resumes (R162), or up to which command `mwait` waits (R127), `held` that its last word issued nothing and is to be issued again
(log 29), `parking` that the group waits only for its engine threads before it parks there (R140). -/
structure Run where
  lanes : LaneMask
  start : Nat
  pc : Nat
  left : Nat
  fall : Nat
  fa : Nat
  fb : Nat
  exit : Exit
  done : LaneMask
  faulted : LaneMask
  again : Bool
  entry : Nat
  held : Bool := false
  parking : Bool := false
  deriving DecidableEq, Repr

/-- R212: the point at which a trap was raised. -/
inductive TrapPoint where
  | beforeIssue | atIssue | afterIssue
  deriving DecidableEq, Repr

/-- R369: a trapped subgroup, with the clause it was in, the x registers it held and, for a trap after issue, the
operations that failed and the parked subgroup that it was taken from (R212). -/
structure Trapped where
  lanes : LaneMask
  pc : Nat
  at_ : Nat
  point : TrapPoint
  run : Option Run
  x : List (Nat × List Word)
  ops : List MemOp
  park : Option Parked := none
  deriving DecidableEq, Repr

/-- R209: the warps that a yielding warp lets pass, each with the clauses it had issued, and the cycle at which it
stops waiting. -/
structure Yielding where
  set : List (Nat × Nat × Nat)
  until_ : Nat
  deriving DecidableEq, Repr

/-- A warp and all that moves with it (R337). Registers are rows of 64 lanes; `flags` counts outstanding
assignments by 64 × flag + lane (R193); `resume` holds the runs that action 0 of `rfe` sends back into their clause,
each with its x registers (R212); `clauses` counts the clauses issued (R209), `spAt` holds the safe-point trailers
at which lanes have stopped (R30), `growAt` is that of the clause that asked for `grow` (R26). -/
structure Warp where
  idx : Nat
  v : List (Nat × List Word)
  s : List (Nat × Word)
  x : List (Nat × List Word)
  m : List (Nat × Dword)
  flg : List Word
  gen : List Word
  seed : Word
  late : Word
  seg : List (Nat × Dword)
  nregs : Nat
  live : LaneMask
  pcs : List Sub
  waits : List WaitSet
  parked : List Parked
  asleep : List Sleeper
  flags : List (Nat × Nat)
  run : Option Run
  stopped : LaneMask
  holds : List Hold
  restart : Option Restart
  region : Nat
  yielding : Option Yielding
  grow : Option Nat
  growAt : Nat
  trapped : Option Trapped
  resume : List (Run × List (Nat × List Word))
  clauses : Nat
  spAt : List Nat
  gone : Bool
  deriving DecidableEq, Repr

/-! ### Groups -/

/-- R329: a kernel header, read at launch, with the image that holds its code. -/
structure Kernel where
  kh : Nat
  img : Nat
  entry : Nat
  codesz : Nat
  shr : Nat
  dws : Nat
  priv : Nat
  conoff : Nat
  consz : Nat
  obwin : Nat
  widths : List Nat
  nf : Nat
  regs : Nat
  tags : Nat
  disok : Bool
  safeok : Bool
  trapen : Bool
  brken : Bool
  task : Bool
  gang : Bool
  hred : Bool
  frame : Nat
  spoff : Nat
  spcnt : Nat
  rgoff : Nat
  rgcnt : Nat
  deriving DecidableEq, Repr

/-- R51: a failed command without a barrier that no instruction has examined yet; for a matrix command `tag` is
the tile handle, or 16 + the range handle for an `mload` (R291), and `wid` the issuing warp. -/
structure CmdFail where
  tag : Nat
  code : Nat
  addr : Nat
  num : Word
  matrix : Bool
  wid : Nat
  deriving DecidableEq, Repr

/-- R252: a run that waits in `xsend` or `xrecv`: its values, or where it receives; and the run as it stood at the instruction, with
its x registers, for the case that it runs again. -/
structure Rendez where
  slot : Nat
  send : Bool
  wid : Nat
  lanes : LaneMask
  pc : Nat
  reg : Nat
  vals : List Word
  at_ : Run
  x : List (Nat × List Word)
  deriving DecidableEq, Repr

/-- R367 to R370: a trap as the trap record carries it. -/
structure TrapRec where
  gid : Nat
  wid : Nat
  cause : Nat
  repeated : Bool
  value : Word
  addr : Dword
  owner : Dword
  helper : Dword
  lanes : LaneMask
  pc : Nat
  core : Nat
  deriving DecidableEq, Repr

/-- R6, R28, R30, R374: where a group stands. -/
inductive Stand where
  | resident
  /-- Pre-emption pending in safe-point mode (R30). -/
  | stopping
  /-- Pre-empted: its context is saved and it waits to resume (R374). -/
  | saved
  deriving DecidableEq, Repr

/-- R122: a held accumulator tile: the regions that have allocated or written it (R32), its handle, and the engine's tile that it
stands for; `freed` once `accput` has made its handle invalid, `bad` after an
uncorrectable error (R128). -/
structure Tile where
  t : Nat
  p : Nat
  gid : Nat
  regions : List Nat
  freed : Bool
  bad : Bool
  deriving DecidableEq, Repr

/-- A group: what its warps share, and where it stands. `shape` is the kernel whose resources it holds (R141), `room` the
extents of its `shr`, `priv` and `con` in the shared pool, `win` its operand-buffer window, by place and bytes, and
`reserve` and `slotsKept` the registers and warp slots that it keeps for a helper (R141); `claim` those of a task that is Claimed and
has not started, with its slot (R132), `serves` set for a group of a task-launch slot (R133), `failing` set once an image has
retired lanes of the group's task (R132). `others` are its warps; while the group is selected, the
issuing warp stands in State.w and not here. -/
structure Group where
  id : Nat
  chip : Nat
  core : Nat
  part : Nat
  vf : Nat
  sys : Bool
  stand : Stand
  kern : Kernel
  shape : Kernel
  room : List (Nat × Nat)
  win : Nat × Nat
  coord : Dword
  others : List Warp
  pmode : Nat
  tags : Nat
  tagCnt : List (Nat × Nat)
  ctb : Dword
  fails : List CmdFail
  helpd : Nat
  task : Dword
  tdone : Option Dword
  relay : List Nat
  reserve : Nat
  frame : Option Nat
  slot : Nat
  trapc : Word
  trapa : Dword
  trapv : Word
  trapt : Dword
  traph : Dword
  trapHeld : Bool
  holds : Option TrapRec
  rvz : List Rendez
  ranges : List Range
  active : Plane
  shadow : Plane
  autoSwap : Option Nat
  age : Nat
  prio : Nat
  rec_ : Nat
  savedShr : List Host.Cell
  savedOb : List Host.Cell
  savedTiles : List (Tile × List (Nat × Word) × List (Nat × Nat))
  slotsKept : Nat := 0
  claim : Option (Nat × Nat × Nat) := none
  serves : Bool := false
  failing : Bool := false
  deriving DecidableEq, Repr

/-! ### Copies -/

/-- R237, R242: an endpoint of a copy: an offset of `shr`, `dws` or a chip's `dws` (`fab`) behind its segment's base, a
virtual address, or a row of an operand-buffer range behind the window's base, its data or its scales. -/
inductive End where
  | shr (base off : Nat)
  | dws (base off : Nat)
  | fab (base off chip : Nat)
  | mem (va : Nat)
  | ob (base : Nat) (range : Range) (row : Nat)
  | obs (base : Nat) (range : Range) (row : Nat)
  deriving DecidableEq, Repr

/-- R241: a `cpx` descriptor. -/
structure Desc where
  rows : Nat
  sbytes : Nat
  sstride : Nat
  dstride : Nat
  sfmt : Nat
  dfmt : Nat
  mode : Nat
  dplanar : Bool
  splanar : Bool
  kchk : Bool
  keyid : Nat
  sscale : Nat
  dscale : Nat
  deriving DecidableEq, Repr

/-- R240: what a copy command moves. -/
inductive CopyKind where
  | linear (src dst : End) (len : Nat)
  | tile (src dst : End) (d : Desc)
  | gather (srcs : List End) (dst : End) (n : Nat)
  | scatter (src : End) (dsts : List End) (n : Nat)
  deriving DecidableEq, Repr

/-- R238: the barrier that a command credits: at a position of the core's shared pool, or at an address of the chip's
`dws`. -/
inductive BarRef where
  | shr (pos : Nat)
  | dws (addr : Nat)
  deriving DecidableEq, Repr

/-- R45: an outstanding copy command; `done` holds the 16-byte units already written, `waiting` is set while a
resolvable fault of its first page parks its lane (R239), `pc` is its instruction's, `issued` the core cycle of its issue (R63);
`slices` are the 16-byte parts of units that have landed apart, by 8 × unit + part, and `snap` the results of the units that have
read their sources (R87, R88);
`stale` the pages, by first address and bytes, that were unmapped, or left their frames, while the command was in flight (R90, R364);
`spent` the core cycles that passed before its group came to the core where it stands (R63), and `diverts` the units whose packets were
diverted, each with what stood behind it (R62). -/
structure CopyCmd where
  id : Nat
  num : Word
  gid : Nat
  wid : Nat
  chip : Nat
  core : Nat
  part : Nat
  vf : Nat
  tag : Nat
  bar : Option BarRef
  region : Nat
  kind : CopyKind
  done : List Nat
  lanes : LaneMask
  waiting : Bool
  pc : Nat
  issued : Nat := 0
  slices : List Nat := []
  snap : List (Nat × List Byte) := []
  stale : List (Nat × Nat) := []
  spent : Nat := 0
  diverts : List (Nat × List Nat × List (Nat × Nat)) := []
  deriving DecidableEq, Repr

/-- R63: fabric writes of a copy command of a group that has been given up, which may still arrive at their target: places and bytes. -/
structure Stray where
  id : Nat
  dst : Nat
  bytes : List (Nat × Byte)
  gid : Nat
  part : Nat
  vf : Nat
  deriving DecidableEq, Repr

/-! ### Matrix engines -/

/-- R127: what a matrix command does. -/
inductive MatKind where
  | load (range : Range) (row0 : Nat)
  | stream (tile : Nat) (range : Range) (rowbase : Nat) (plane : Plane) (prange : Range)
  | zero (tile : Nat)
  | drain (tile : Nat) (reg c n : Nat)
  deriving DecidableEq, Repr

/-- R89: a bushel of a row, with its scale bytes. -/
abbrev Bushel := List Byte × List Byte

/-- R118, R121: the weights that a load has put into a physical plane, by 64 × row of the slice + bushel; `lost` once another group's
planes have taken its place, with the bushels that have been loaded again since (R120). -/
structure PlaneData where
  load : Nat
  gid : Nat
  range : Range
  row0 : Nat
  vals : List (Nat × Bushel)
  lost : Bool
  fresh : List (Nat × Bushel)
  deriving DecidableEq, Repr

/-- R129: an entry of an engine's reservation table; `taken` are bushels that its operand read has met early, by 64 × row + bushel
(R89), `obBase` SEGOB's base when it was issued, and `after` the number before which the passes stand that an exchange of
`mswap.auto` waits for (R119). -/
structure MatCmd where
  id : Nat
  num : Word
  gid : Nat
  wid : Nat
  core : Nat
  vf : Nat
  part : Nat
  prio : Nat
  kind : MatKind
  lanes : LaneMask
  bar : Option BarRef
  ctr : Option Dword
  reg : Nat
  flag : Option Nat
  pc : Nat
  region : Nat
  granted : Bool
  passed : Nat
  cap : Nat := 96
  taken : List (Nat × Bushel) := []
  obBase : Nat := 0
  after : Nat := 0
  deriving DecidableEq, Repr

/-- R86: a matrix command that has completed before the trailer of its clause: its number, its warp, its instruction and its
destination. -/
structure EndedCmd where
  id : Nat
  gid : Nat
  wid : Nat
  pc : Nat
  reg : Nat
  deriving DecidableEq, Repr

/-- A cluster's matrix engine. `acc` holds elements by (64 × tile + row) × 512 + column and `rowf` row flags by
64 × tile + row, with the engine's own tile numbers (R103), `deg` DEG (R105), `trips` pipeline checks by quadrant with the Hub
cycle of each (R401). -/
structure Engine where
  tiles : List Tile
  acc : List (Nat × Word)
  rowf : List (Nat × Nat)
  cmds : List MatCmd
  deg : Word
  trips : List (Nat × Nat)
  planes : List PlaneData := []
  deriving DecidableEq, Repr

/-! ### Synchronisation objects -/

/-- R79, R81: a request that waits at an object's home: the object word's place in memory, and its place as a hold
list names it. -/
structure ObjReq where
  obj : Nat
  sp : Nat
  place : Nat
  gid : Nat
  wid : Nat
  excl : Bool
  deriving DecidableEq, Repr

/-! ### Hub, queues, fabric -/

/-- R65 to R72: a Hub reduction slot that is held. `put` are the contributions by chip index. -/
structure HubSlot where
  idx : Nat
  part : Nat
  vf : Nat
  op : Nat
  mask : Nat
  timeout : Nat
  put : List (Nat × Word)
  since : Option Nat
  complete : Bool
  result : Word
  status : Word
  served : Nat
  deriving DecidableEq, Repr

/-- R69 to R71: lanes of a warp that wait in `hred.wait`, with the pair they are to receive once the slot has answered. -/
structure HubWait where
  slot : Nat
  gid : Nat
  wid : Nat
  lanes : LaneMask
  ans : Option (Word × Word)
  deriving DecidableEq, Repr

/-- R54: the lanes of one `qpopw` that wait, oldest first; and the run as it stood at the instruction, with its x registers, for the case
that it runs again. -/
structure QWait where
  gid : Nat
  wid : Nat
  lanes : LaneMask
  reg : Nat
  k : Nat
  pc : Nat
  at_ : Option Run := none
  x : List (Nat × List Word) := []
  deriving DecidableEq, Repr

/-- R52: a hardware queue of a core, kept for one virtual function. -/
structure HwQueue where
  chip : Nat
  core : Nat
  part : Nat
  vf : Nat
  q : Nat
  entries : List (Word × Dword)
  last : Dword
  blocked : List QWait
  deriving DecidableEq, Repr

/-- R59, R60: a stream of an ordered pair of chips: the source's count and the target's arrival count. -/
structure Stream where
  src : Nat
  dst : Nat
  no : Nat
  sent : Nat
  arrived : Nat
  deriving DecidableEq, Repr

/-- R398, R399: an optical port (0 to 31) or a chip port of the Hub (32 to 39). -/
structure Port where
  no : Nat
  lmask : Nat
  retired : Nat
  state : Nat
  feccor : Dword
  fecunc : Dword
  crcretry : Dword
  retrain : Word
  divert : Dword
  training : Option (Nat × Nat)
  waiting : List Nat
  failures : List (Nat × Nat)
  deriving DecidableEq, Repr

/-- R62: the packet at the head of a virtual channel of a port, by its operation, or its command and unit, blocked since a Hub cycle;
`ops` and `units` are the packets that stand behind it in the channel. -/
structure VcHead where
  port : Nat
  vc : Nat
  op : Nat
  since : Nat
  unit : Nat := 0
  ops : List Nat := []
  units : List (Nat × Nat) := []
  deriving DecidableEq, Repr

/-- R397: an entry of a circuit plan. -/
structure Circuit where
  port : Nat
  rport : Nat
  rserial : Dword
  deriving DecidableEq, Repr

/-- R397: a CSET in progress; `links` are the circuits that other modules have told of: a module's SERIAL and those at its far ends. -/
structure CsetWork where
  req : Nat
  module : Nat
  gen : Dword
  plan : List Circuit
  peers : List (Dword × Nat)
  start : Nat
  links : List (Dword × List Dword)
  deriving DecidableEq, Repr

/-! ### Tasks -/

/-- R133: an entry of a task unit's ready queue. -/
structure Ready where
  chip : Nat
  part : Nat
  vf : Nat
  prio : Nat
  rec_ : Dword
  deriving DecidableEq, Repr

/-- R139, R140: a waiter registered at an object, by the object's place in memory; for a parent that waits in `tsync`
the object is its own record. -/
structure Waiter where
  obj : Nat
  fut : Bool
  owner : Dword
  rec_ : Dword
  chip : Nat
  part : Nat
  vf : Nat
  deriving DecidableEq, Repr

/-- R136, R137, R336: a frame of a partition's pool on a chip, by its offset; `kind` 0 empty, 1 parked task, 2
pushed helper, 3 pre-empted task; `helpd` HELPD at the save and `trailer` the trailer whose LIVE mask was used;
`saved` the group it holds, `blocked` what a pushed helper waits for (R143), `vf` the virtual function of its task. -/
structure Frame where
  off : Nat
  chip : Nat
  part : Nat
  size : Nat
  task : Dword
  below : Option Nat
  kind : Nat
  helpd : Nat
  saved : List Group
  blocked : Option Waiter
  trailer : Nat := 0xFFFFFFFF
  vf : Nat := 0
  deriving DecidableEq, Repr

/-- R133, R349: an open task-launch slot of a virtual function. -/
structure TaskSlot where
  slot : Nat
  kern : Kernel
  rec_ : Nat
  maxg : Nat
  dwsBase : Nat
  fablim : Nat
  late : Word
  seed : Word
  pmode : Nat
  chips : Nat
  closed : Bool
  deriving DecidableEq, Repr

/-! ### Gangs -/

/-- R150: a first-stage entry. -/
structure FstEntry where
  rank : Nat
  blk : Nat
  chip : Nat
  tier : Nat
  block : Nat
  deriving DecidableEq, Repr

/-- R150: a second-stage entry that is in use. `chip` is the index of a chip of this module, with the partition and virtual
function the block is charged to, or 8 + the global number of a chip of another module, with the tenant's KVW as `vf`. -/
structure KvBlock where
  chip : Nat
  tier : Nat
  block : Nat
  part : Nat
  vf : Nat
  refc : Nat
  tag : Nat
  key : Nat
  frame : Nat
  deriving DecidableEq, Repr

/-- R153 to R155: a move in progress. Phase 0 walks, 1 awaits the replies to SWITCH, 2 the reports after CUT; `built` are
the entries whose blocks have been popped for it; the positions from `begun` on have been appended since it began. -/
structure Move where
  width : Nat
  pos : Nat
  phase : Nat
  built : List FstEntry
  replies : List (Nat × Nat)
  reports : List Nat
  oldCut : Nat
  cut : Nat
  since : Nat
  begun : Nat
  deriving DecidableEq, Repr

/-- R157, R160: a lane's partial triple m, l, o[0..n-1] is a list of n + 2 words; here for 64 lanes. -/
abbrev Triples := List (List Word)

/-- R154, R160: what a member, by its global chip number, keeps for a sequence: the last lap it issued and the highest it admitted, the
recorded result of the last lap that completed, and what it holds. `hold` 0 none, 1 laps above `bound` (SWITCH), 2 laps at or above it
(CUT). `older` are the results of the laps that completed before, `late` what `glate` has answered for a lap (R159), `held` the group,
warp and lap of each `gstep` that is held. -/
structure Member where
  slot : Nat
  chip : Nat
  last : Nat
  issued : Bool
  result : Option (Nat × Nat × Triples × Dword)
  hold : Nat
  bound : Nat
  older : List (Nat × Nat × Triples × Dword) := []
  late : Option (Nat × Triples × Dword) := none
  held : List (Nat × Nat × Nat) := []
  deriving DecidableEq, Repr

/-- R157: a lap that a member has admitted and that waits for the message of the rank above, at most to `due`. -/
structure Lap where
  id : Nat
  gid : Nat
  wid : Nat
  slot : Nat
  chip : Nat
  lap : Nat
  rank : Nat
  width : Nat
  reg : Nat
  n : Nat
  lanes : LaneMask
  own : Triples
  pc : Nat
  flag : Option Nat
  core : Nat
  due : Option Nat
  cap : Nat := 96
  deriving DecidableEq, Repr

/-- R157, R158: a lap message from one rank to the next, under the number of the lap that sent it. -/
structure LapMsg where
  id : Nat
  slot : Nat
  lap : Nat
  src : Nat
  dst : Nat
  n : Nat
  cover : Dword
  triples : Triples
  deriving DecidableEq, Repr

/-- R148: a sequence record, with its tables and the move in progress. `slot` is the slot's number on this module; a slot of
another module M stands at 8192 × (M + 1) + its number, and `kvw` is then its tenant (R147). `aborting` are the members that have not
acknowledged an ABORT, each with whether it has received it; `views` the views since the last one that began with no
token, newest first: number, first lap, members (R156); `queue` the group and warp of each append and truncation that is held, in
arrival order (R155). -/
structure Seq where
  slot : Nat
  part : Nat
  vf : Nat
  view : Nat
  width : Nat
  pend : Nat
  state : Nat
  policy : Nat
  gran : Nat
  lasterr : Nat
  tokens : Nat
  deadline : Nat
  tpm : Nat
  minw : Nat
  maxw : Nat
  cut : Nat
  hdim : Nat
  lbuf : Nat
  latemask : Dword
  latelap : Nat
  members : List Nat
  fst : List FstEntry
  move : Option Move
  aborting : List (Nat × Bool)
  views : List (Nat × Nat × List Nat)
  kvw : Nat := 0
  fst0 : Dword := 0
  fst1 : Dword := 0
  fstride : Word := 0
  queue : List (Nat × Nat) := []
  deriving DecidableEq, Repr

/-- R147, R151, R153: what this module knows of the virtual function that a tenant has on another module of the connected group:
its KV quota, the blocks it holds, its free blocks (global chip, tier, block) and its default KV key. -/
structure Peer where
  mod : Nat
  kvw : Nat
  kvq : Nat
  kvHeld : Nat
  freeKv : List (Nat × Nat × Nat)
  kvkey : Nat
  deriving DecidableEq, Repr

/-- R147: what the chips and the Iluloth of another module do to sequences: a tenant's virtual function there is set up or
changes, a slot there is assigned or taken back, a lane there requests a width, writes the program fields, appends, truncates, forks,
and a member there issues a lap. Slots are named as `Seq.slot` names them. -/
inductive PeerAct where
  | tenant (p : Peer)
  | assign (slot kvw : Nat)
  | unassign (slot : Nat)
  | request (slot w : Nat)
  | fields (slot : Nat) (image : List Byte)
  | append (slot : Nat)
  | cut (slot n : Nat)
  | fork (dst src : Nat)
  | lap (slot chip n : Nat) (own : Triples)
  deriving DecidableEq, Repr

/-! ### Launch, translation, partitions -/

/-- R347, R348: a registered launch queue. `again` holds from a failure of its ring until a QTAIL write finds it
enabled and without error (R347). -/
structure LaunchQ where
  q : Nat
  desc : Nat
  tail : Nat
  again : Bool := false
  deriving DecidableEq, Repr

/-- R351, R356: a launch record that has started. `todo` gives each chip's undispatched groups in ascending order, `gids` the
groups that have been dispatched. -/
structure Record where
  id : Nat
  part : Nat
  vf : Nat
  q : Nat
  proc : Nat
  prio : Nat
  addr : Nat
  kind : Nat
  slot : Nat
  notify : Bool
  done : Nat
  kern : Kernel
  ext : List Nat
  arg : Dword
  dwsBase : Nat
  fablim : Nat
  late : Word
  seed : Word
  pmode : Nat
  pin : Bool
  chips : List Nat
  todo : List (Nat × List Nat)
  gids : List Nat
  deriving DecidableEq, Repr

/-- R365: an entry of a translation look-aside buffer or of a walker: one page of a virtual function, by its first address. -/
structure TlbEntry where
  part : Nat
  vf : Nat
  va : Nat
  deriving DecidableEq, Repr

/-- R360: a leaf of a virtual function's table: `size` 0 16 KiB, 1 1 MiB, 2 64 MiB; while it migrates, `dest` is the
new frame (R366) and `req` the mailbox request plus 1, or 0 for Iluloth's own. -/
structure Leaf where
  va : Nat
  size : Nat
  pa : Nat
  w : Bool
  tc : Bool
  key : Nat
  v : Bool
  mig : Bool
  dest : Option Nat
  req : Nat
  deriving DecidableEq, Repr

/-- R362: a mailbox request that has been submitted: its number and its address. -/
structure MailReq where
  id : Nat
  addr : Nat
  deriving DecidableEq, Repr

/-- R147, R348, R354, R355, R362, R387: a virtual function. `pass` and `served` go by 16 × chip + process, `qage` by 64 × chip +
queue, `aged` by 8 × chip + priority; `msix` counts the raised interrupts of vector 0. `hbm` and `cxl` are its shares of the
grants and `kvUnits` the frames of its KV blocks, in units of 64 MiB of physical memory (log 27); `tails` the QTAIL registers of the
queues that are not registered (R348). -/
structure Vf where
  vf : Nat
  slice : Nat
  passq : Nat
  hbmsh : Nat
  cpysh : Nat
  fabq : Nat
  kvq : Nat
  seqn : Nat
  weight : List Nat
  kvkey : Nat
  kvw : Nat
  hbm : List Nat
  cxl : List Nat
  kvUnits : List Nat
  table : List Leaf
  queues : List LaunchQ
  pass : List (Nat × Nat)
  served : List (Nat × Nat)
  qage : List (Nat × Nat)
  slots : List TaskSlot
  mbreq : Dword
  mbovf : Bool
  mail : List MailReq
  kvHeld : Nat
  freeKv : List (Nat × Nat × Nat × Nat)
  msix : Nat
  passes : List (Nat × Nat)
  issue : Nat
  hbmBytes : Nat
  fabBytes : Nat
  kvhold : Nat
  opened : Nat
  aged : List (Nat × Nat)
  tails : List (Nat × Nat) := []
  deriving DecidableEq, Repr

/-- R387, R388: the settings that a new VSET changes from the next slice or window on. -/
structure Rates where
  passq : Nat
  hbmsh : Nat
  cpysh : Nat
  weight : List Nat
  deriving DecidableEq, Repr

/-- R390, R354: per chip, what a virtual function has used in its slice and window; `rates` are settings that still hold
there after a VSET (R388). -/
structure Use where
  chip : Nat
  part : Nat
  vf : Nat
  passes : Nat
  hbm : Nat
  copy : Nat
  fab : Nat
  owed : Nat
  rates : Option Rates
  deriving DecidableEq, Repr

/-- R354: which virtual function of a partition has the cores of a chip; `idle` once it has run out of work. -/
structure SliceOwner where
  chip : Nat
  part : Nat
  vf : Nat
  since : Nat
  len : Nat
  next : Option Nat
  idle : Bool := false
  deriving DecidableEq, Repr

/-- R383: an event of the event log. -/
structure LogEvent where
  event : Nat
  kind : Nat
  oldSvn : Nat
  oldVer : Nat
  newSvn : Nat
  newVer : Nat
  digest : BitVec 384
  seq : Nat
  code : Nat
  missed : Nat
  deriving DecidableEq, Repr

/-- R395: a ring of usage records in the main memory of a virtual function, with the number of records that it holds and the place of
the oldest. -/
structure Ring where
  vf : Nat
  base : Nat
  cap : Nat
  used : Nat
  oldest : Nat := 0
  deriving DecidableEq, Repr

/-- R385 to R395: a partition that has been built; its grants are units of 64 MiB of physical memory; `stopped` once its system image has
been refused (R377). -/
structure Partition where
  idx : Nat
  clumask : Word
  pool : Nat
  pmodes : Nat
  vfn : Nat
  degm : Nat
  intv : Nat
  fpool : Nat
  hbm : List Nat
  cxl : List Nat
  handler : Option Kernel
  ring : Option Ring
  vfs : List Vf
  stopped : Bool := false
  deriving DecidableEq, Repr

/-- R327, R328: a loaded image of a virtual function: its number, which names the places of its code, constants and
tables, the virtual addresses of its kernel headers, and the bytes of its safe-point and region tables' sections (R329). -/
structure Image where
  id : Nat
  part : Nat
  vf : Nat
  kh : Nat
  khLen : Nat
  spsz : Nat
  rgsz : Nat
  deriving DecidableEq, Repr

/-- R376, R377: a firmware or system image as it stands in flash: its slot (0 A, 1 B), the partition of a system image,
header bytes and body; of a system image also the kernel of the warps that boot starts and the handler kernel (log 37). -/
structure FlashImage where
  slot : Nat
  part : Nat
  header : List Byte
  body : List Byte
  start : Option Kernel
  handler : Option Kernel
  deriving DecidableEq, Repr

/-- R376, R380: an image that runs or is on trial. -/
structure Firmware where
  kind : Nat
  svn : Nat
  ver : Nat
  digest : BitVec 384
  body : BitVec 384
  seq : Nat
  deriving DecidableEq, Repr

/-- R381: the hand-over record. -/
structure HandOver where
  major : Nat
  minor : Nat
  kind : Nat
  seq : Nat
  soff : Dword
  slen : Dword
  sdig : BitVec 384
  deriving DecidableEq, Repr

/-- R379 to R383: the replacement registers and the replacement in progress; `since` is the Hub cycle at which the current
heartbeat interval began, `count` the intervals of the trial that have had their heartbeat; requests numbered below `heldTo` were held
by the last replacement (R380, R382); `handed`: the old image has written the hand-over record (R381). -/
structure Repl where
  ctlKind : Nat
  go : Bool
  code : Nat
  missed : Nat
  phase : Nat
  kind : Nat
  cur : Nat
  beat : Nat
  beaten : Bool
  count : Nat
  since : Nat
  trial : Option Firmware
  handed : Bool
  heldTo : Nat := 0
  deriving DecidableEq, Repr

/-- R391: what a 16 KiB frame holds as seen under another key pair than the first that it was mapped under stands `no` × 2^43 places
behind it (log 73). -/
structure KeyView where
  frame : Nat
  serial : Nat
  no : Nat
  deriving DecidableEq, Repr

/-- R391: a loaded key slot; `serial` is the model's own number of the key pair (log 73). -/
structure KeySlot where
  slot : Nat
  part : Nat
  vf : Nat
  key : BitVec 512
  serial : Nat := 0
  deriving DecidableEq, Repr

/-- R377, R403, R404: whether the module has power and how far it has booted. -/
inductive Power where
  | off
  /-- R377 step 1 failed in both slots for the kind. -/
  | recovery (kind : Nat)
  /-- R377 step 3, R398: the optical ports are in training. -/
  | booting
  | on
  deriving DecidableEq, Repr

/-- The clocks, each counted by its own unit (R13): steps of the model, the Hub's cycles, and each core's cycles
by 16 × chip + core. -/
structure Clocks where
  steps : Nat
  hub : Nat
  core : List Nat
  deriving DecidableEq, Repr

/-- R376, R378, R383, R393: what the Hub keeps for a partition's number from boot on, built or not: the enrolled key, MEAS1,
the event log, and the usage records' next SEQ, PREV and closed records. -/
structure PartLog where
  idx : Nat
  pubkey : BitVec 768
  meas1 : BitVec 384
  events : List LogEvent
  seq : Nat
  prev : BitVec 384
  closed : List (List Byte)
  deriving DecidableEq, Repr

/-- R377, R385: an operator request that the stored configuration keeps: PSET, VSET or ENROLL with its descriptor or key. -/
structure Stored where
  op : Nat
  part : Nat
  vf : Nat
  bytes : List Byte
  deriving DecidableEq, Repr

/-- R397: what another module's Iluloth has told of a plan: its SERIAL, GEN and MODULE, and the SERIALs at the far ends of its
circuits. -/
structure Plan where
  serial : Dword
  gen : Dword
  module : Nat
  ends : List Dword
  deriving DecidableEq, Repr

/-- R377, R403: power, boot and the module's own registers. `corrected` counts the errors that SECDED has corrected, by 64 × chip + channel
in HBM and at 512 elsewhere (R371, R372); `retired` are HBM channels by 64 × chip + channel, `failed` those that have had an
uncorrectable error, `fixed` the corrected errors by channel and Hub cycle (R402); a quote carries its signature and the key that verifies
the partition's usage records (R378, R394); `mods` and `links` are the other modules of the group by SERIAL, with their numbers and with
the SERIALs at the far ends of their circuits, `told` what others have told of plans, and `past` the SERIALs of modules of groups that
this one has left, whose chips its state may still name (R397, log 81); `keyed` is the key that a frame was last written under, and
`views` those that it is seen under besides (R391, log 73); of the channels in `short` a report says that no frame is free (R402);
`powerAt`, `sampled` and `windows` (by chip) are the Hub cycles at which the running intervals of R403, R392 and R390 began. -/
structure Module where
  power : Power
  boots : Nat
  valid : Bool
  number : Nat
  group : List Nat
  lost : List Nat
  circuits : List Circuit
  gen : Dword
  cset : Option CsetWork
  throttle : Bool
  powerAt : Nat
  sampled : Nat
  windows : List (Nat × Nat)
  reports : List (Nat × Nat)
  meas0 : BitVec 384
  firm : List Firmware
  repl : Repl
  flash : List FlashImage
  opreq : Dword
  opovf : Bool
  opmail : List MailReq
  keys : List KeySlot
  keyGen : Nat
  retired : List Nat
  stored : List Stored
  logs : List PartLog
  quote : Option (BitVec 384 × BitVec 384 × List LogEvent × BitVec 768 × BitVec 768)
  corrected : List (Nat × Nat) := []
  failed : List Nat := []
  fixed : List (Nat × Nat) := []
  mods : List (Dword × Nat) := []
  links : List (Dword × List Dword) := []
  told : List Plan := []
  keyed : List (Nat × Nat) := []
  views : List KeyView := []
  past : List Dword := []
  short : List Nat := []
  deriving DecidableEq, Repr

/-- What moves next (log 5): a warp issues its next word, at once or with its result still to come (R165), another agent takes a
step, a copy engine writes one unit early or a part of it, or reads one (R87, R88), a given-up request arrives (R63), a packet is
blocked or goes on (R62), an atomic reads before it writes (R84), a result reaches its registers in parts (R165), an engine meets
a bushel early or loads one again (R89, R121), a claimed task starts (R132), another module acts on sequences (R147), a handler
writes an entry for a `kvfork` (R162), Iluloth maps a sequence record (R148), a register of a warp cannot be corrected (R371), a
byte goes wrong unchecked, in memory or in a unit of a copy (R373), a checker or a codeword fails (R368, R372), the host loads an
image, a system image registers a ring or a reader takes records from it (R395), the fabric loses or regains a chip (R58), Iluloth
ends a system warp that trapped (R370), or has checked a staged image (R380), another module tells of its plan (R397), the optical
ports have been trained (R377), a held write of the host goes on (R353). -/
inductive Turn where
  | issue (gid wid : Nat)
  | slow (gid wid : Nat)
  | event (i : Instr)
  | copyUnit (cmd unit : Nat)
  | copySlice (cmd unit part : Nat)
  | copyRead (cmd unit : Nat)
  | stray (id : Nat)
  | blocked (h : VcHead) (on : Bool)
  | atomicRead (op : Nat)
  | tear (e : Instr)
  | landBytes (id bytes : Nat)
  | landed (id : Nat)
  | bushel (clu cmd unit : Nat)
  | reload (clu load unit : Nat)
  | start (gid : Nat)
  | peer (a : PeerAct)
  | forkEntry (slot : Nat) (e : FstEntry)
  | mapRecord (slot va : Nat)
  | badReg (gid wid : Nat) (o : Opd)
  | silent (k : Nat) (b : Byte)
  | silentUnit (cmd unit at_ : Nat) (b : Byte)
  | pipeline (gid wid checker : Nat)
  | sector (no cond : Nat)
  | image (img : Image) (bytes : List (Nat × Byte))
  | stage (img : FlashImage)
  | ring (part : Nat) (r : Ring)
  | ringRead (part n : Nat)
  | reach (chip : Nat) (ok : Bool)
  | endSys (gid : Nat)
  | verified
  | circuits (p : Plan)
  | trained
  | host
  deriving DecidableEq, Repr

/-! ### The state -/

/-- The module and what it knows of the connected group. -/
structure State where
  /-- The model's own: who moves next (log 5). -/
  agenda : List Turn
  /-- The model's own: numbers the free values (log 4). -/
  free : Nat
  /-- The model's own: numbers operations, groups and records (log 5). -/
  nextId : Nat
  clk : Clocks
  /-- Bytes of every memory, canonical: rising addresses, no byte equal to zero (log 1, 2). -/
  mem : List Host.Cell
  /-- The selected group, whose warp issues. -/
  g : Group
  /-- The selected warp of that group. -/
  w : Warp
  /-- The other groups of the module. -/
  groups : List Group
  pend : List MemOp
  copies : List CopyCmd
  engines : List (Nat × Engine)
  cmdNo : List (Nat × Word)
  objq : List ObjReq
  hub : List HubSlot
  hubw : List HubWait
  hwq : List HwQueue
  heads : List VcHead
  landing : List Landing
  strays : List Stray
  ended : List EndedCmd
  streams : List Stream
  ports : List Port
  ready : List Ready
  waiters : List Waiter
  frames : List Frame
  seqs : List Seq
  kv : List KvBlock
  members : List Member
  laps : List Lap
  msgs : List LapMsg
  gtimers : List (Nat × Nat × Nat)
  peers : List Peer
  tlbs : List (Nat × List TlbEntry)
  walkers : List (Nat × List TlbEntry)
  traps : List TrapRec
  parts : List Partition
  uses : List Use
  slices : List SliceOwner
  records : List Record
  images : List Image
  poolSz : List (Nat × Nat)
  tagHold : List (Nat × Nat × Nat × Nat)
  tagsMem : List (Nat × BitVec 4)
  ecc : List (Nat × Nat)
  md : Module
  /-- R353: writes of the host that wait behind one whose page is migrating, in order. -/
  hostq : List Instr := []
  deriving DecidableEq, Repr

/-! ### Reset -/

def Plane.empty : Plane := ⟨0, 0, 0, false, 0⟩

/-- A warp that holds nothing: the register values at reset are the model's choice (log 3). -/
def Warp.blank : Warp :=
  { idx := 0, v := [], s := [], x := [], m := [], flg := [], gen := [], seed := 1, late := 512, seg := [],
    nregs := 96, live := 0, pcs := [], waits := [], parked := [], asleep := [], flags := [], run := none,
    stopped := 0, holds := [], restart := none, region := 0, yielding := none, grow := none, growAt := 0, trapped := none,
    resume := [], clauses := 0, spAt := [], gone := false }

/-- A header of the loosest kernel: every code address, 96 registers, 64 tags. -/
def Kernel.blank : Kernel :=
  { kh := 0, img := 0, entry := 0, codesz := 2 ^ 32, shr := 0, dws := 0, priv := 0, conoff := 0, consz := 0,
    obwin := 0, widths := [6, 4], nf := 2, regs := 96, tags := 64, disok := true, safeok := true, trapen := false,
    brken := false, task := false, gang := false, hred := false, frame := 0, spoff := 0, spcnt := 0, rgoff := 0,
    rgcnt := 0 }

/-- No group: the selected group while no warp is resident has number 0. -/
def Group.blank : Group :=
  { id := 0, chip := 0, core := 0, part := 0, vf := 0, sys := false, stand := .resident, kern := Kernel.blank,
    shape := Kernel.blank, room := [], win := (0, 0), coord := 0, others := [], pmode := 2, tags := 64, tagCnt := [], ctb := BitVec.allOnes 64, fails := [],
    helpd := 0, task := 0, tdone := none, relay := [], reserve := 0, frame := none, slot := 0, trapc := 0, trapa := 0, trapv := 0,
    trapt := 0, traph := 0, trapHeld := false, holds := none, rvz := [], ranges := [], active := Plane.empty,
    shadow := Plane.empty, autoSwap := none, age := 0, prio := 0, rec_ := 0, savedShr := [], savedOb := [], savedTiles := [] }

/-- R379: the replacement registers at reset. -/
def Repl.reset : Repl :=
  { ctlKind := 0, go := false, code := 0, missed := 0, phase := 0, kind := 0, cur := 0, beat := 0, beaten := false,
    count := 0, since := 0, trial := none, handed := false }

/-- R56, R378, R385, R404: the module's registers before it boots. -/
def Module.reset : Module :=
  { power := .off, boots := 0, valid := false, number := 0, group := [], lost := [], circuits := [], gen := 0,
    cset := none, throttle := false, powerAt := 0, sampled := 0, windows := [], reports := [], meas0 := 0, firm := [], repl := Repl.reset, flash := [],
    opreq := 0, opovf := false, opmail := [], keys := [], keyGen := 0, retired := [], stored := [], logs := [], quote := none }

/-- R398: a port before it is trained. -/
def Port.reset (no : Nat) : Port :=
  { no := no, lmask := 0, retired := 0, state := 0, feccor := 0, fecunc := 0, crcretry := 0, retrain := 0,
    divert := 0, training := none, waiting := [], failures := [] }

/-- The module right after reset, before it boots (R404): no work, no partition, every register at the value the
spec gives, or at the value log 3 names. -/
def State.reset : State :=
  { agenda := [], free := 0, nextId := 1, clk := ⟨0, 0, List.replicate 128 0⟩, mem := [], g := Group.blank,
    w := Warp.blank, groups := [], pend := [], copies := [], engines := [], cmdNo := [], objq := [], hub := [], hubw := [], hwq := [], heads := [], landing := [], strays := [], ended := [],
    streams := [], ports := (List.range 40).map Port.reset, ready := [], waiters := [], frames := [], seqs := [],
    kv := [], members := [], laps := [], msgs := [], gtimers := [], peers := [], tlbs := [], walkers := [], traps := [], parts := [], uses := [],
    slices := [], records := [], images := [], poolSz := [], tagHold := [], tagsMem := [], ecc := [], md := Module.reset, hostq := [] }

end Sys2Proof.Machine
end

