-- ==== Sys2Proof/WellFormed.lean ====
section
/-! DEFINITION. What the core checks of an instruction before its clause issues: operand classes, modes and values
seen in the encoding alone (R174, R175, R181 to R196, R283), and the checks of a clause as a whole (R177, R189,
R192, R194). The spans and classes of the operands that `Instr.info` lists serve the checks at issue too (R176). -/

namespace Sys2Proof

/-- The kinds of operand that an entry allows, as a sum: 1 vector, 2 scalar, 4 clause temporary, 8 constant. -/
abbrev Cls := Nat

def Opd.kind : Opd → Nat
  | .v _ => 1 | .s _ => 2 | .x _ => 4 | .k _ => 8

/-- A register operand of an instruction: its first register, the number of registers, the kinds allowed. -/
structure Oper where
  o : Opd
  span : Nat
  cls : Cls
  deriving DecidableEq, Repr

/-- The operand is of a kind that its entry allows. -/
def Oper.clsOk (u : Oper) : Bool := u.o.kind &&& u.cls != 0

/-- R176: a pair starts at an even register, a run of four at a multiple of 4. A constant has no place. -/
def Opd.aligned (o : Opd) (span : Nat) : Bool :=
  match o with
  | .v r => if span = 1 then true else if span ≤ 2 then r.val % 2 == 0 else r.val % 4 == 0
  | .s r => if span = 1 then true else if span ≤ 2 then r.val % 2 == 0 else r.val % 4 == 0
  | .x r => if span = 1 then true else if span ≤ 2 then r.val % 2 == 0 else r.val % 4 == 0
  | .k _ => true

/-- R175: a scalar or a constant. -/
def Opd.uniform : Opd → Bool
  | .s _ => true | .k _ => true | _ => false

/-- R174: a constant is no destination. -/
def Opd.canWrite : Opd → Bool
  | .k _ => false | _ => true

/-- What the checks need to know of an instruction. `long`: in the long-latency set (R192); `last`: only as the
last instruction of its clause (R194); `uni`: R175 governs it; `cls283`: a breach of its operand classes is found
at decode (R283); `ok`: its own encoding checks; `len`: its bytes. -/
structure Info where
  srcs : List Oper
  dsts : List Oper
  long : Bool := false
  last : Bool := false
  uni : Bool := false
  cls283 : Bool := false
  ok : Bool := true
  len : Nat := 4
  deriving DecidableEq, Repr

def any1 (o : Opd) : Oper := ⟨o, 1, 15⟩
def any2 (o : Opd) : Oper := ⟨o, 2, 15⟩
def vreg (r : Fin 64) : Oper := ⟨.v ⟨r.val, by omega⟩, 1, 1⟩
/-- R283: scalar source, address pair, value pair, destination. -/
def scal (o : Opd) : Oper := ⟨o, 1, 10⟩
def apair (o : Opd) : Oper := ⟨o, 2, 2⟩
def vpair (o : Opd) : Oper := ⟨o, 2, 10⟩
def dest (o : Opd) : Oper := ⟨o, 1, 3⟩

/-- R216, R255: forms of the majors that R175 governs. -/
def iUn (d a : Opd) : Info := { srcs := [any1 a], dsts := [any1 d], uni := true }
def iBin (d a b : Opd) : Info := { srcs := [any1 a, any1 b], dsts := [any1 d], uni := true }
def iTer (d a b : Opd) : Info := { srcs := [any1 a, any1 b, any1 d], dsts := [any1 d], uni := true }
def i16 (d : Fin 64) (b : Opd16) : Info :=
  { srcs := [vreg d, any1 b.toOpd], dsts := [vreg d], uni := true, len := 2 }
def iPack (d a b : Fin 64) : Info := { srcs := [vreg a, vreg b], dsts := [vreg d], uni := true }
/-- Pairs by the spans of d, a and b (R225, R265). -/
def iPair (d a b : Opd) (sd sa sb : Nat) : Info :=
  { srcs := [⟨a, sa, 15⟩, ⟨b, sb, 15⟩], dsts := [⟨d, sd, 15⟩], uni := true }
/-- R275: a cross-lane form. -/
def iLane (d a : Opd) (more : List Oper) (sd : Nat := 1) (ok : Bool := true) : Info :=
  { srcs := any1 a :: more, dsts := [⟨d, sd, 15⟩], uni := true, long := true, ok := ok }

/-! ### Conversions (R196, R267) -/

def CFmt.wide (f : CFmt) : Nat := match f with | .f64 => 2 | _ => 1
def CFmt.isInt (f : CFmt) : Bool := match f with | .i32 => true | .n32 => true | _ => false
/-- The formats that the packing form takes on its narrow side, with its elements for each register. -/
def CFmt.packN (f : CFmt) : Nat := match f with | .f16 => 2 | .bf16 => 2 | .e4m3 => 4 | .e5m2 => 4 | _ => 0
def CFmt.isFp8 (f : CFmt) : Bool := match f with | .e4m3 => true | .e5m2 => true | _ => false

/-- R267: a conversion whose destination holds every source value. -/
def widening (dst src : CFmt) : Bool :=
  match dst with
  | .f64 => true
  | .f32 => src.packN != 0
  | .f16 => src.isFp8
  | .bf16 => src.isFp8
  | _ => false

/-- R267: the modes that a conversion allows. -/
def modeOk (dst src : CFmt) (m : CMode) : Bool :=
  if widening dst src then m == .rn
  else if dst.isInt then m.toNat < 4
  else if src.isInt then m.toNat < 4 || (4 < m.toNat && m.toNat < 9 && dst.isFp8)
  else m.toNat < 5 || dst.isFp8

/-- R98: `.rs` needs fewer fraction bits in the destination than in the source. -/
def CFmt.frac (f : CFmt) : Nat :=
  match f with | .f64 => 52 | .f32 => 23 | .f16 => 10 | .bf16 => 7 | .e4m3 => 3 | .e5m2 => 2 | _ => 0
def rsOk (dst src : CFmt) (m : CMode) : Bool := (m != .rs && m != .rsSat) || dst.frac < src.frac

def cvtOk (dst src : CFmt) (m : CMode) : Bool :=
  dst != src && !(dst.isInt && src.isInt) && modeOk dst src m && rsOk dst src m

def cvtPkOk (dst src : CFmt) (m : CMode) : Bool :=
  ((dst == .f32 && src.packN != 0) || (src == .f32 && dst.packN != 0)) && modeOk dst src m && rsOk dst src m

/-- R196: the block formats, and the planar forms of CF alone. -/
def blkOk (f : Fin 16) : Bool := 6 ≤ f.val && f.val ≤ 14
def blkpOk (f : Fin 16) : Bool := 12 ≤ f.val && f.val ≤ 14

/-! ### Memory (R184, R185, R229 to R234) -/

def MSize.bytes : MSize → Nat
  | .b8z => 1 | .b8s => 1 | .b16z => 2 | .b16s => 2 | .b32 => 4 | .b64 => 8 | .b128 => 16
def MSize.span (z : MSize) : Nat := match z with | .b64 => 2 | .b128 => 4 | _ => 1
def MSize.storable (z : MSize) : Bool := match z with | .b8s => false | .b16s => false | _ => true

/-- R184: the base of a `fab` access is an even v or s register; of another space any operand code. -/
def baseUse (sp : Space) (base : Opd) : Oper := match sp with | .fab => ⟨base, 2, 3⟩ | _ => any1 base
def fabBaseOk (sp : Space) (base : Opd) : Bool :=
  match sp with | .fab => (baseUse sp base).clsOk && base.aligned 2 | _ => true
/-- R229: the data of a store. -/
def stData (data : Opd) (z : MSize) : Oper :=
  ⟨data, z.span, match z with | .b64 => 11 | .b128 => 3 | _ => 15⟩
def iSt (data base : Opd) (z : MSize) (sp : Space) : Info :=
  { srcs := [stData data z, baseUse sp base], dsts := [], ok := z.storable && fabBaseOk sp base }

/-- R84: scopes and spaces. -/
def scopeOk (main : Bool) (sc : Scope) : Bool :=
  !main || (match sc with | .chip => true | .sys => true | _ => false)
/-- R233: operations and types; the operation by its number in R185. -/
def opTypeOk (op : Nat) (ty : AType) : Bool :=
  match ty with
  | .n32 => true
  | .i32 => op ≤ 2 || op == 6 || op == 7
  | .f32 => op ≤ 2 || op == 6
  | .n64 => op ≤ 7
/-- R234: the address operand of an atomic. -/
def atomAddr (addr : Opd) (main : Bool) (sc : Scope) : Oper :=
  if main then ⟨addr, 2, 3⟩ else match sc with | .sys => ⟨addr, 2, 3⟩ | _ => any1 addr
def AType.span (t : AType) : Nat := match t with | .n64 => 2 | _ => 1
/-- R234: the operands of `atom`; for cas the expected value and the new one. -/
def iAtom (op : Nat) (d addr : Opd) (main : Bool) (ty : AType) (sc : Scope) : Info :=
  { srcs := [⟨d, if op = 7 then 2 * ty.span else ty.span, 1⟩, atomAddr addr main sc]
    dsts := [⟨d, ty.span, 1⟩]
    long := true
    ok := scopeOk main sc && opTypeOk op ty && (op != 7 || d.aligned 2) }
def iRed (op : Nat) (d addr : Opd) (main : Bool) (ty : AType) (sc : Scope) : Info :=
  { srcs := [⟨d, ty.span, 15⟩, atomAddr addr main sc], dsts := [], ok := scopeOk main sc && opTypeOk op ty }

/-! ### Copies, barriers, objects (R237, R238, R243 to R249) -/

def endUse (sp : EndSp) (o : Opd) : Oper :=
  match sp with | .shr => any1 o | .dws => any1 o | _ => ⟨o, 2, 3⟩
def BarSel.isHeaded (b : BarSel) : Bool := match b with | .headed => true | _ => false
/-- R238: the headed form needs a `shr` or `dws` destination. -/
def headOk (dsp : EndSp) (bar : BarSel) : Bool :=
  !bar.isHeaded || (match dsp with | .shr => true | .dws => true | _ => false)
def iCopy (dst src : Opd) (dsp ssp : EndSp) (bar : BarSel) (len d : Opd) : Info :=
  { srcs := [endUse dsp dst, endUse ssp src, any1 len], dsts := [⟨d, 1, 7⟩], ok := headOk dsp bar, len := 8 }
def objUse (sp : ObjSp) (a : Opd) : Oper := match sp with | .fab => ⟨a, 2, 3⟩ | _ => any1 a
def iBind (obj : Oper) (base len d : Opd) : Info :=
  { srcs := [obj, any2 base, any1 len], dsts := [⟨d, 1, 7⟩], last := true, len := 8 }
def iBcb (a : Opd) (more : List Oper) : Info := { srcs := any1 a :: more, dsts := [] }

/-! ### Matrix, task, gang and system (R283 to R299) -/

def iSys (srcs dsts : List Oper) (last : Bool := false) (long : Bool := false) (len : Nat := 4) (ok : Bool := true) :
    Info := { srcs := srcs, dsts := dsts, last := last, long := long, cls283 := true, len := len, ok := ok }
def evenIdx (n : Fin 64) : Bool := n.val % 2 == 0

def SReg.span : SReg → Nat
  | .widf => 2 | .cyc => 2 | .ctb => 2 | .trapa => 2 | .trapt => 2 | .traph => 2 | .segpriv => 2 | .segshr => 2
  | .segdws => 2 | .segcon => 2 | .segfab => 2 | .segob => 2 | _ => 1
def SReg.isSeg : SReg → Bool
  | .segpriv => true | .segshr => true | .segdws => true | .segcon => true | .segfab => true | .segob => true
  | _ => false

/-- A step of another agent stands in no clause. -/
def iEvent : Info := { srcs := [], dsts := [], ok := false, len := 0 }

/-- What the checks need to know of each instruction. -/
def Instr.info : Instr → Info
  | .mov16 d b =>
    { srcs := [any1 b.toOpd], dsts := [vreg d], uni := true, len := 2, ok := !(d == 0 && b == .v 0) }
  | .nop16 => { srcs := [vreg 0], dsts := [vreg 0], uni := true, len := 2 }
  | .iadd16 d b | .isub16 d b | .imul16 d b | .and16 d b | .or16 d b | .xor16 d b | .shl16 d b | .shr16 d b
  | .sar16 d b | .iminI3216 d b | .imaxI3216 d b | .fadd16 d b | .fsub16 d b | .fmul16 d b | .fmax16 d b => i16 d b
  | .iadd d a b | .isub d a b | .imul d a b | .imulhI32 d a b | .imulhN32 d a b | .lea d a b | .bfe d a b
  | .and d a b | .or d a b | .xor d a b | .andn d a b | .shl d a b | .shr d a b | .sar d a b | .rol d a b
  | .cmpEqI32 d a b | .cmpNeI32 d a b | .cmpLtI32 d a b | .cmpLeI32 d a b | .cmpGtI32 d a b | .cmpGeI32 d a b
  | .cmpEqN32 d a b | .cmpNeN32 d a b | .cmpLtN32 d a b | .cmpLeN32 d a b | .cmpGtN32 d a b | .cmpGeN32 d a b
  | .iminI32 d a b | .imaxI32 d a b | .iminN32 d a b | .imaxN32 d a b
  | .idivI32 d a b | .idivN32 d a b | .iremI32 d a b | .iremN32 d a b
  | .fcmpEq d a b | .fcmpNe d a b | .fcmpLt d a b | .fcmpLe d a b | .fcmpGt d a b | .fcmpGe d a b | .fcmpUn d a b
  | .fmin d a b | .fmax d a b => iBin d a b
  | .imad d a b | .bfi d a b | .sel d a b => iTer d a b
  | .iabs d a | .mov d a | .popc d a | .clz d a | .ctz d a | .brev d a | .fabs d a | .fneg d a
  | .frndRn d a | .frndRz d a | .frndRp d a | .frndRm d a | .ffrac d a
  | .frcp d a | .frsq d a | .fsqrt d a | .fexp2 d a | .flog2 d a | .fsin d a | .fcos d a | .ftanh d a => iUn d a
  | .selMask d _ a b => iBin d a b
  | .iaddPacked d a b _ _ | .isubPacked d a b _ _ | .iminPacked d a b _ | .imaxPacked d a b _ | .shlPacked d a b _ | .shrPacked d a b _ | .sarPacked d a b _ => iPack d a b
  | .idot4 d a b _ | .idot2 d a b _ => { iPack d a b with srcs := [vreg a, vreg b, vreg d] }
  | .iadd64 d a b | .isub64 d a b => iPair d a b 2 2 2
  | .shl64 d a b | .shr64 d a b => iPair d a b 2 2 1
  | .imulwI32 d a b | .imulwN32 d a b => iPair d a b 2 1 1
  | .cmp64Eq d a b | .cmp64Ne d a b | .cmp64LtI64 d a b | .cmp64LtN64 d a b | .cmp64LeI64 d a b
  | .cmp64LeN64 d a b => iPair d a b 1 2 2
  | .fadd d a b _ | .fsub d a b _ | .fmul d a b _ | .hadd2 d a b _ | .hmul2 d a b _ | .badd2 d a b _
  | .bmul2 d a b _ => iBin d a b
  | .ffma d a b _ | .hfma2 d a b _ | .bfma2 d a b _ => iTer d a b
  | .dadd d a b _ | .dmul d a b _ => iPair d a b 2 2 2
  | .dfma d a b _ => { iPair d a b 2 2 2 with srcs := [any2 a, any2 b, any2 d] }
  | .cvt d a dst src m =>
    { srcs := [⟨a, src.wide, 15⟩], dsts := [⟨d, dst.wide, 15⟩], uni := true, ok := cvtOk dst src m }
  | .cvtPk d a dst src m =>
    { srcs := [⟨a, max dst.packN 1, 15⟩], dsts := [⟨d, max src.packN 1, 15⟩], uni := true, ok := cvtPkOk dst src m }
  | .cvtBlkPack d a f m =>
    { srcs := [⟨a, 1, 5⟩], dsts := [⟨d, 1, 5⟩], uni := true, ok := blkOk f && m.toNat ≤ 4 }
  | .cvtBlkUnpack d a f => { srcs := [⟨a, 1, 5⟩], dsts := [⟨d, 1, 5⟩], uni := true, ok := blkOk f }
  | .cvtBlkpPack d a f m =>
    { srcs := [⟨a, 1, 5⟩], dsts := [⟨d, 1, 5⟩], uni := true, ok := blkpOk f && m.toNat ≤ 4 }
  | .cvtBlkpUnpack d a f => { srcs := [⟨a, 1, 5⟩], dsts := [⟨d, 1, 5⟩], uni := true, ok := blkpOk f }
  | .lshfUp d a b | .lshfDn d a b | .lshfXor d a b | .lshfIdx d a b => iLane d a [any1 b]
  | .lshfUpW d a j | .lshfDnW d a j | .lshfXorW d a j => iLane d a [] 1 (j != 0)
  | .lbcast d a b => iLane d a [⟨b, 1, 10⟩]
  | .lred d a _ | .lscan d a _ => iLane d a []
  | .lvoteAny d a | .lvoteAll d a => iLane d a []
  | .lvoteBallot d a => iLane d a [] 2
  | .lidx d f => { srcs := [], dsts := [⟨d, match f with | .all => 2 | _ => 1, 15⟩], uni := true }
  | .lget d a b => { iLane d a [any1 b] with srcs := [⟨a, 1, 1⟩, any1 b] }
  | .join _ | .leave _ => { srcs := [], dsts := [] }
  | .wait _ => { srcs := [], dsts := [], last := true }
  | .mset _ a => { srcs := [⟨a, 2, 10⟩], dsts := [] }
  | .mget d _ => { srcs := [], dsts := [any2 d], uni := true }
  | .mand _ _ _ | .mor _ _ _ | .mxor _ _ _ | .mnot _ _ => { srcs := [], dsts := [] }
  | .mpop d _ | .mfirst d _ => { srcs := [], dsts := [any1 d], uni := true }
  | .xsend slot v => { srcs := [⟨slot, 1, 10⟩, any1 v], dsts := [], last := true }
  | .xrecv d slot => { srcs := [⟨slot, 1, 10⟩], dsts := [⟨d, 1, 1⟩], last := true, uni := true }
  | .qpush _ _ v => { srcs := [any1 v], dsts := [] }
  | .qpop d _ _ => { srcs := [], dsts := [⟨d, 1, 1⟩], long := true, uni := true }
  | .qpopw d _ _ => { srcs := [], dsts := [⟨d, 1, 1⟩], last := true, uni := true }
  | .qlen d _ => { srcs := [], dsts := [⟨d, 1, 3⟩], long := true, uni := true }
  | .iaddi d a _ | .andi d a _ | .ori d a _ | .xori d a _ | .imuli d a _ => iUn d a
  | .shli d a _ | .shri d a _ | .sari d a _ => iUn d a
  | .cmpi d a _ _ => iUn d a
  | .movsFromScalar d _ => { srcs := [], dsts := [any1 d], uni := true }
  | .movsToScalar n a =>
    { srcs := [⟨a, 1, 10⟩], dsts := if h : n.val < 16 then [⟨.s ⟨n.val, h⟩, 1, 2⟩] else [], uni := true }
  | .movl d _ => { srcs := [], dsts := [any1 d] }
  | .movh d _ => { srcs := [any1 d], dsts := [any1 d] }
  | .ld data base _ z sp =>
    { srcs := [baseUse sp base], dsts := [⟨data, z.span, 3⟩], long := true, ok := fabBaseOk sp base }
  | .st data base _ z sp => iSt data base z sp
  | .stFabRel data base _ z => iSt data base z .fab
  | .atomAdd d a m t c => iAtom 0 d a m t c
  | .atomMin d a m t c => iAtom 1 d a m t c
  | .atomMax d a m t c => iAtom 2 d a m t c
  | .atomAnd d a m t c => iAtom 3 d a m t c
  | .atomOr d a m t c => iAtom 4 d a m t c
  | .atomXor d a m t c => iAtom 5 d a m t c
  | .atomXchg d a m t c => iAtom 6 d a m t c
  | .atomCas d a m t c => iAtom 7 d a m t c
  | .atomIncw d a m t c => iAtom 8 d a m t c
  | .atomDecw d a m t c => iAtom 9 d a m t c
  | .redAdd d a m t c => iRed 0 d a m t c
  | .redMin d a m t c => iRed 1 d a m t c
  | .redMax d a m t c => iRed 2 d a m t c
  | .redAnd d a m t c => iRed 3 d a m t c
  | .redOr d a m t c => iRed 4 d a m t c
  | .redXor d a m t c => iRed 5 d a m t c
  | .redIncw d a m t c => iRed 8 d a m t c
  | .redDecw d a m t c => iRed 9 d a m t c
  | .cpy dst src _ dsp ssp bar len d => iCopy dst src dsp ssp bar len d
  | .cpx dst src _ dsp ssp bar len d =>
    let i := iCopy dst src dsp ssp bar len d
    { i with
      srcs := [match dsp with | .fab => any1 dst | _ => endUse dsp dst, endUse ssp src, ⟨len, 1, 10⟩]
      ok := headOk dsp bar && (match ssp with | .fab => false | _ => true) }
  | .cpg dst src _ dsp ssp bar len d => iCopy dst src dsp ssp bar len d
  | .cps dst src _ dsp ssp bar len d => { iCopy dst src dsp ssp bar len d with ok := !bar.isHeaded }
  | .tagany _ | .tagall _ => { srcs := [], dsts := [], last := true }
  | .tagclr _ => { srcs := [], dsts := [] }
  | .taganyMask m | .tagallMask m => { srcs := [⟨m, 2, 3⟩], dsts := [], last := true }
  | .tagclrMask m => { srcs := [⟨m, 2, 3⟩], dsts := [] }
  | .tagfirst d m => { srcs := [⟨m, 2, 3⟩], dsts := [⟨d, 1, 7⟩] }
  | .bcbInit a _ v | .bcbExp a _ v | .bcbArr a _ v => iBcb a [any1 v]
  | .bcbInitAbandon a _ => iBcb a []
  | .bcbWait d a _ rel => { srcs := [any1 a], dsts := [vreg d], last := true, ok := rel != 0 }
  | .bcbTest d a _ => { srcs := [any1 a], dsts := [vreg d], long := true }
  | .sobindGrp o b _ l d | .sobindClu o b _ l d | .sobindChip o b _ l d => iBind (any1 o) b l d
  | .sobindSys o b _ l d => iBind ⟨o, 2, 3⟩ b l d
  | .sacq a sp | .sacqSh a sp => { srcs := [objUse sp a], dsts := [], last := true }
  | .stry d a sp => { srcs := [objUse sp a], dsts := [⟨d, 1, 7⟩], long := true }
  | .srel d a sp => { srcs := [objUse sp a], dsts := [⟨d, 1, 7⟩] }
  | .fenceGrp | .fenceClu | .fenceChip | .fenceSys => { srcs := [], dsts := [] }
  | .hredOpen slot op timeout mask d =>
    { srcs := [any1 slot, any1 op, any1 timeout, any1 mask], dsts := [⟨d, 1, 3⟩], long := true, len := 8 }
  | .hredPut d slot => { srcs := [⟨d, 1, 3⟩, any1 slot], dsts := [⟨d, 1, 3⟩], long := true }
  | .hredWait d slot => { srcs := [any1 slot], dsts := [⟨d, 2, 3⟩], last := true }
  | .jmp _ => { srcs := [], dsts := [], last := true }
  | .bz c _ | .bnz c _ => { srcs := [any1 c], dsts := [], last := true }
  | .bm _ _ => { srcs := [], dsts := [], last := true }
  | .call _ => { srcs := [], dsts := [⟨.v 95, 1, 1⟩], last := true }
  | .jmpr a | .sleep a => { srcs := [any1 a], dsts := [], last := true }
  | .ret => { srcs := [⟨.v 95, 1, 1⟩], dsts := [], last := true }
  | .endLanes | .yield | .trap _ | .brk _ => { srcs := [], dsts := [], last := true }
  | .nop => { srcs := [], dsts := [] }
  | .rfe a => { srcs := [⟨a, 1, 10⟩], dsts := [], last := true }
  | .obres d a _ | .obrec d a => iSys [scal a] [dest d]
  | .obrel a | .accput a => iSys [scal a] []
  | .mload d h bar row0 => iSys [scal h, scal row0] [dest d] (len := 8) (ok := !bar.isHeaded)
  | .mswap => iSys [] [] (last := true)
  | .mswapAuto => iSys [] []
  | .mstream d t _ bar rowbase h =>
    iSys [scal t, scal rowbase, scal h] [dest d] (len := 8) (ok := !bar.isHeaded)
  | .mzero d t | .mpoll d t => iSys [scal t] [dest d]
  | .mdrain d t n c => iSys [scal t, scal n, scal c] [⟨d, 1, 1⟩] (long := true) (len := 8)
  | .mwait t => iSys [scal t] [] (last := true)
  | .accget d | .mstat d => iSys [] [dest d]
  | .tspawn d a => iSys [apair a] [dest d]
  | .tfork d a sb => iSys [vpair a] [⟨d, 2, 2⟩] (ok := evenIdx sb)
  | .tsync => iSys [] [] (last := true)
  | .tpost a n => iSys [apair a, scal n] []
  | .tdec a | .lkrel a => iSys [apair a] []
  | .tself d => iSys [] [⟨d, 2, 2⟩]
  | .tdone a => iSys [vpair a] [] (last := true)
  | .fwait d a =>
    iSys [apair a] [⟨d, 2, 2⟩] (last := true) (ok := match d with | .s r => r.val ≤ 12 | _ => false)
  | .fset a v => iSys [apair a, vpair v] []
  | .lkacq d a => iSys [apair a] [dest d] (last := true)
  | .gwidth d sq => iSys [scal sq] [dest d] (long := true)
  | .gset d sq _ | .gsetX d sq _ => iSys [scal sq] [dest d] (long := true)
  | .gview d sq => iSys [scal sq] [⟨d, 2, 3⟩] (long := true)
  | .grank d sq => iSys [scal sq] [dest d]
  | .gstep d sq _ => iSys [scal sq] [⟨d, 1, 1⟩] (long := true)
  | .glate d sq => iSys [scal sq] [⟨d, 1, 1⟩] (last := true)
  | .kvx d sq va => iSys [scal sq, vreg va] [⟨d, 2, 1⟩] (long := true)
  | .kvapp d sq _ | .kvfork d sq _ | .kvfree d sq _ => iSys [scal sq] [dest d] (long := true)
  | .flpop d tr => iSys [scal tr] [dest d] (long := true)
  | .flpush d sb => iSys [scal sb] [dest d] (long := true)
  | .srd d r => iSys [] [⟨d, r.span, 3⟩]
  | .swr r v =>
    let u : Oper := ⟨v, 1, match r with | .late => 10 | .seed => 10 | _ => 15⟩
    iSys [u] []
  | .segld r a => iSys [apair a] [] (ok := r.isSeg)
  | .rgrow a => iSys [scal a] [] (last := true)
  | .rshrink a => iSys [scal a] []
  | .clauseHeader len fb fa _ =>
    { srcs := [], dsts := []
      ok := 1 ≤ len.val && len.val ≤ 24 && (fa.val ≤ 11 || fa.val == 15) && (fb.val ≤ 11 || fb.val == 15) }
  | .clauseTrailer _ _ _ _ _ => { srcs := [], dsts := [] }
  | .rgrowGrant _ _ | .rgrowDeadlockPreempt _ _ | .parkedSubgroupReturn _ _ _ | .lateSplit _ _ | .sleepExpiry _ _ _
  | .yieldTimeout _ _ | .loadReply _ | .storePerformed _ | .atomicAtHome _ | .releasePerform _
  | .fabricUndeliverable _ | .fabricRequestTimeout _ | .escapeDivert _ _ | .copyCommandComplete _
  | .copyCommandFail _ _ _ | .matrixGrant _ | .matrixCommandRetire _ _ | .matrixCommandFail _ _ _ _ | .hredTimeout _
  | .hredSlotExpire _ | .taskDispatch _ _ _ _ | .gangWalk _ | .switchMsg _ _ | .switchReply _ _ | .cutMsg _ _
  | .lapReport _ _ | .switchTimeout _ _ | .abortMsg _ _ | .abortAcknowledgement _ _ | .lapMessage _ | .lapDeadline _
  | .lateArrival _ | .glateTimeout _ _ | .trapDelivery _ _ _ | .vfSliceEnd _ _ | .preemptStop _
  | .groupDispatch _ _ _ _ | .groupResume _ _ | .qtail _ _ _ _ | .launchNone _ _ _ | .grid _ _ _ | .openSlot _ _ _
  | .closeSlot _ _ _ | .recordComplete _ | .stealRequest _ _ _ | .map _ _ | .unmap _ _ | .protect _ _ | .settag _ _
  | .move _ _ | .regq _ _ | .pageMigration _ _ _ _ | .pset | .vset | .pdel | .enroll | .kload | .kclr | .lsign
  | .cset | .csetTimeout | .hfree | .functionLevelReset _ _ | .replctlGo _ | .quiesceComplete | .hbeat _
  | .heartbeatIntervalEnd | .imageFault | .powerOn | .powerLoss | .powerInterval _ | .coolantCritical
  | .usageIntervalEnd _ _ | .kvholdSample | .quotaWindow _ | .hbmChannelRetire _ _ | .quadrantRetire _ _
  | .fecWindow _ _ _ | .retrainDone _ | .retrainTimeout _ | .registerWrite _ _ _ _ | .genExchange _ _ _ | .crcRetry _
  | .attestationQuote _ | .hostWrite _ _ _ _ => iEvent

/-- R175: a scalar destination takes scalar and constant sources alone. -/
def Info.uniOk (f : Info) : Bool :=
  !f.uni || f.dsts.all fun d => d.o.kind != 2 || f.srcs.all fun u => u.o.uniform

/-- R283: the operand classes of majors 0x36 to 0x39, alignment of the scalar pairs included. -/
def Info.cls283Ok (f : Info) : Bool :=
  !f.cls283 || (f.srcs ++ f.dsts).all fun u => u.clsOk && (u.o.kind == 1 || u.o.aligned u.span)

/-- What the encoding alone shows of one instruction, besides what decoding refuses (R190, R197). -/
def Instr.wf (i : Instr) : Bool :=
  let f := i.info
  f.ok && f.dsts.all (fun d => d.o.canWrite) && f.uniOk && f.cls283Ok

/-- An instruction that a clause can hold and that its words stand for. -/
def WellFormed (i : Instr) : Prop := i.wf = true

/-! ### The checks of a clause -/

/-- The clause temporaries that an operand names; of a pair that starts at x7, which R176 refuses at issue, the one. -/
def Oper.xs (u : Oper) : List Nat :=
  match u.o with | .x r => ((List.range u.span).map (r.val + ·)).filter (· < 8) | _ => []

/-- The registers of an operand, numbered within its file, with the file's kind. -/
def Oper.regs (u : Oper) : Nat × List Nat :=
  let run (r : Nat) := (List.range u.span).map (r + ·)
  match u.o with
  | .v r => (1, run r.val) | .s r => (2, run r.val) | .x r => (4, run r.val) | .k _ => (8, [])

/-- R192: two destinations share a register, of a run one register at least. -/
def Oper.meets (a b : Oper) : Bool :=
  a.regs.1 == b.regs.1 && a.regs.2.any (b.regs.2.contains ·)

/-- R174: the registers that `mdrain` writes, by its n, where the encoding shows it; 1 where R124 refuses n at issue. -/
def drainSpan (n : Opd) : Nat :=
  match n with
  | .k j => let v := [0, 1, 2, 4, 8, 16].getD j.val 0; if v = 0 then 1 else v
  | _ => 1

/-- R192: the registers that an instruction of the long-latency set is seen to write before its clause issues. -/
def Instr.longDsts (i : Instr) : List Oper :=
  match i with
  | .mdrain d _ n _ => [⟨d, drainSpan n, 1⟩]
  | i => if i.info.long then i.info.dsts else []

/-- R177, R192, R194: the checks of one instruction after the `done` ones; `isLast` when no other follows. -/
def clauseWordOk (before : List Instr) (i : Instr) (isLast : Bool) : Bool :=
  let f := i.info
  let written := before.flatMap fun j => j.info.dsts.flatMap Oper.xs
  (f.srcs.flatMap Oper.xs).all (fun x => written.contains x)
  && (!f.long || f.dsts.all fun d =>
        d.o.kind != 4)
  && i.longDsts.all (fun d => before.all fun j => j.longDsts.all fun e => !d.meets e)
  && (!f.last || isLast)

/-- R189: the slots of a trailer that are used, each with its flag bit. -/
def trailerSlots (fl : Fin 8) (d1 d2 d3 : Opd) : List (Opd × Bool) :=
  [(d1, fl.val.testBit 0), (d2, fl.val.testBit 1), (d3, fl.val.testBit 2)].filter fun p => p.1 != .k 7

/-- R189, R192: the trailer's checks over the clause's instructions and its header's flags. -/
def trailerOk (body : List Instr) (fa fb : Nat) (fl : Fin 8) (d1 d2 d3 : Opd) : Bool :=
  let slots := trailerSlots fl d1 d2 d3
  let dsts := body.flatMap fun j => j.info.dsts.map Oper.o
  [(d1, fl.val.testBit 0), (d2, fl.val.testBit 1), (d3, fl.val.testBit 2)].all (fun p => p.1 != .k 7 || !p.2)
  && slots.all (fun p => (if p.2 then fb else fa) != 15 && p.1.kind != 4 && dsts.contains p.1)
  && (slots.map Prod.fst).Nodup
  && body.all fun j => !j.info.long || j.info.dsts.all fun d => (slots.map Prod.fst).contains d.o

/-- R174: a constant other than the "no destination" of code 127 stands in no slot. -/
def trailerRegsOk (d1 d2 d3 : Opd) : Bool := [d1, d2, d3].all fun d => d.kind != 8 || d == .k 7

end Sys2Proof
end

