-- ==== Sys2Proof/Machine/Ops.lean ====
section
/-! DEFINITION. The named operations over memory, registers, lanes, PC tables and warps; how an instruction of a
warp is issued; taking a trap, and the return from one. -/

namespace Sys2Proof.Machine

/-! ### Memory -/

/-- The form of a memory: rising addresses, and no entry equal to what an unlisted address reads as (log 1). -/
abbrev Memory.wf (m : List Host.Cell) : Prop := m.Pairwise (fun a b => a.1 < b.1) ∧ ∀ c ∈ m, c.2 ≠ 0

/-- What a byte that nothing has written reads as (log 1). -/
def Memory.unlisted : Byte := 0

def readByte (m : List Host.Cell) (a : Nat) : Byte := (m.lookup a).getD Memory.unlisted

def writeByte : List Host.Cell → Nat → Byte → List Host.Cell
  | [], a, b => if b = 0 then [] else [(a, b)]
  | (x, y) :: t, a, b =>
    if a < x then (if b = 0 then (x, y) :: t else (a, b) :: (x, y) :: t)
    else if a = x then (if b = 0 then t else (a, b) :: t)
    else (x, y) :: writeByte t a b

/-- Bytes written in the order of the list: a later one to the same place wins (R44). -/
def writeBytes (m : List Host.Cell) (l : List (Nat × Byte)) : List Host.Cell :=
  l.foldl (fun m p => writeByte m p.1 p.2) m

/-- The `n` places from `a` upwards. -/
def places (a n : Nat) : List Nat := (List.range n).map (a + ·)

/-- The value that the bytes at the given places hold, lowest byte first. -/
def readLE (m : List Host.Cell) (ks : List Nat) : Nat := leNat (ks.map (readByte m))

def State.rd (s : State) (a : Nat) : Byte := readByte s.mem a
def State.rdN (s : State) (a n : Nat) : Nat := readLE s.mem (places a n)
def State.rdW (s : State) (a : Nat) : Word := BitVec.ofNat 32 (s.rdN a 4)
def State.rdD (s : State) (a : Nat) : Dword := BitVec.ofNat 64 (s.rdN a 8)
/-- R391: where the bytes of a place of main memory are seen under key number `no` (log 73). -/
def viewAt (k no : Nat) : Nat := k + no * 2 ^ 43
/-- The physical address of a place of main memory, under whatever key it is seen. -/
def physAt (k : Nat) : Nat := if k < 2 ^ 53 then k % 2 ^ 43 else k
/-- The chip whose memory holds a physical address; none beyond the HBM stacks (log 2). -/
def homeChip (pa : Nat) : Option Nat := if physAt pa < 2 ^ 40 then some (physAt pa / 2 ^ 37) else none
/-- R371, R372: the codeword of a place: a 64-byte sector of main memory, a word of SRAM (log 99). -/
def eccNo (k : Nat) : Nat := if k < 2 ^ 53 then physAt k / 64 else k / 4
/-- The places of a codeword. -/
def eccPlaces (no : Nat) : List Nat := if no < 2 ^ 51 then places (64 * no) 64 else places (4 * no) 4
/-- R371, R372: a write of a whole codeword ends its condition. -/
def State.eccWritten (s : State) (ks : List Nat) : State :=
  { s with ecc := s.ecc.filter fun p => !(eccPlaces p.1).all fun q => ks.any fun k => physAt k == q }
/-- Bytes are written, and the codewords that they fill are encoded anew. -/
def State.wrs (s : State) (l : List (Nat × Byte)) : State := { s with mem := writeBytes s.mem l }.eccWritten (l.map Prod.fst)
/-- Writes the low `n` bytes of `v`, lowest first, from place `a`. -/
def State.wrN (s : State) (a n v : Nat) : State := s.wrs ((places a n).zip (leBytes n v))
def State.wrW (s : State) (a : Nat) (v : Word) : State := s.wrN a 4 v.toNat
def State.wrD (s : State) (a : Nat) (v : Dword) : State := s.wrN a 8 v.toNat

/-! ### Places: where each store keeps its bytes (log 2) -/

/-- The shared pool of a core (R40). -/
def poolKey (chip core off : Nat) : Nat := 2 ^ 53 + (16 * chip + core) * 2 ^ 24 + off

/-- R41: a byte of a chip's `dws`, in the slice of the core that holds its stripe. -/
def dwsKey (chip d : Nat) : Nat :=
  2 ^ 54 + (16 * chip + d / 4096 % 16) * 2 ^ 24 + (d / 4096 / 16 * 4096 + d % 4096)

/-- The operand buffer of a cluster, by its index within the module (R113, R300). -/
def obKey (clu off : Nat) : Nat := 2 ^ 55 + clu * 2 ^ 23 + off

/-- The code and the constants of a loaded image (R203, R327). -/
def codeKey (img off : Nat) : Nat := 2 ^ 57 + img * 2 ^ 33 + off
def State.codeAt (s : State) (img pc n : Nat) : List Byte := (places (codeKey img pc) n).map s.rd
def conKey (img off : Nat) : Nat := 2 ^ 58 + img * 2 ^ 33 + off
/-- The sections of an image's safe-point and region tables (R327, R331, R332). -/
def spKey (img off : Nat) : Nat := 2 ^ 61 + img * 2 ^ 33 + off
def rgKey (img off : Nat) : Nat := 2 ^ 62 + img * 2 ^ 33 + off

/-- A partition's frame pool on a chip (R136, R284). -/
def frameKey (part chip off : Nat) : Nat := 2 ^ 59 + (part * 8 + chip) * 2 ^ 33 + off

/-- A byte of a group's context area (R375). -/
def areaKey (part gid off : Nat) : Nat := 2 ^ 81 + 2 ^ 36 * (32 * gid + part) + off

/-- The `dws` of a chip of another module of the connected group, by its global number (log 17). -/
def farKey (gchip d : Nat) : Nat := 2 ^ 60 + gchip * 2 ^ 33 + d

/-- R55, R56: a chip's global number. -/
def State.global (s : State) (chip : Nat) : Nat := if s.md.valid then s.md.number * 8 + chip else chip

/-- The chip of this module that a global number names. -/
def State.localChip (s : State) (g : Nat) : Option Nat :=
  if s.md.valid then (if g / 8 = s.md.number then some (g % 8) else none)
  else if g < 8 then some g else none

/-- R55, R56: the chip lies in the connected group. -/
def State.reachable (s : State) (g : Nat) : Bool :=
  if s.md.valid then g / 8 == s.md.number || s.md.group.contains (g / 8) else g < 8

/-- R399: the modules at the far ends of the circuits whose port has not gone down. -/
def State.upEnds (s : State) : List Dword :=
  (s.md.circuits.filter fun c => !s.ports.any fun p => p.no == c.port && p.state == 3).map Circuit.rserial
/-- R397: a circuit joins two other modules of the group. -/
def State.joined (s : State) (a b : Dword) : Bool :=
  s.md.links.any fun l => (l.1 == a && l.2.contains b) || (l.1 == b && l.2.contains a)
/-- The other modules that lie within some more hops of those of a list. -/
def State.spread (s : State) : Nat → List Dword → List Dword
  | 0, l => l
  | n + 1, l => s.spread n (l ++ (s.md.mods.map Prod.fst).filter fun b => !l.contains b && l.any fun a => s.joined a b)
/-- R399: no path of circuits leads to a module, for ports that have gone down. One whose circuits have not been told of is cut off only
when every port with a circuit is down (log 81). -/
def State.cutOff (s : State) (m : Nat) : Bool :=
  !s.md.circuits.isEmpty
  && match s.upEnds, (s.md.mods.find? fun p => p.2 == m).map Prod.fst with
    | [], _ => true
    | _, none => false
    | l, some x =>
      let near := s.spread s.md.mods.length l
      !near.contains x && (x :: near).all fun y => s.md.links.any fun z => z.1 == y

/-- R58, R399: a request to the chip can be delivered. -/
def State.linked (s : State) (g : Nat) : Bool :=
  s.reachable g && !s.md.lost.contains g && ((s.localChip g).isSome || !s.cutOff (g / 8))

/-- A byte of the `dws` of a chip of the connected group (R42); an offset beyond the chip's slice too has a place (log 121). -/
def State.fabKey (s : State) (g d : Nat) : Nat :=
  match s.localChip g with
  | some c => dwsKey c d
  | none => farKey g d

/-! ### Lanes and association lists -/

def has (m : LaneMask) (i : Nat) : Bool := m.getLsbD i
def lanesOf (m : LaneMask) : List Nat := (List.range 64).filter (has m)
/-- The lowest lane of a set; 0 for the empty set. -/
def lowLane (m : LaneMask) : Nat := ((List.range 64).find? (has m)).getD 0
def laneBit (i : Nat) : LaneMask := BitVec.ofNat 64 (2 ^ i)
def maskOf (l : List Nat) : LaneMask := l.foldl (fun m i => m ||| laneBit i) 0
/-- The lanes of a set that satisfy a test. -/
def keepLanes (m : LaneMask) (p : Nat → Bool) : LaneMask := maskOf ((lanesOf m).filter p)

def getKey {β : Type} (l : List (Nat × β)) (k : Nat) (d : β) : β := (l.lookup k).getD d
def setKey {β : Type} (l : List (Nat × β)) (k : Nat) (v : β) : List (Nat × β) :=
  (k, v) :: l.filter fun p => p.1 != k

def mkRow (f : Nat → Word) : List Word := (List.range 64).map f

/-! ### Registers of a warp -/

def Warp.getV (w : Warp) (r i : Nat) : Word := (getKey w.v r []).getD i 0
def Warp.getX (w : Warp) (r i : Nat) : Word := (getKey w.x r []).getD i 0
def Warp.getS (w : Warp) (n : Nat) : Word := getKey w.s n 0
def Warp.getM (w : Warp) (k : Nat) : LaneMask := getKey w.m k 0
def Warp.getFlg (w : Warp) (i : Nat) : Word := w.flg.getD i 0
def Warp.getGen (w : Warp) (i : Nat) : Word := w.gen.getD i 0
def Warp.getSeg (w : Warp) (k : Nat) : Dword := getKey w.seg k 0

/-- Lanes outside the set keep their value. -/
def Warp.putV (w : Warp) (r : Nat) (m : LaneMask) (f : Nat → Word) : Warp :=
  { w with v := setKey w.v r (mkRow fun i => if has m i then f i else w.getV r i) }
def Warp.putX (w : Warp) (r : Nat) (m : LaneMask) (f : Nat → Word) : Warp :=
  { w with x := setKey w.x r (mkRow fun i => if has m i then f i else w.getX r i) }
def Warp.putS (w : Warp) (n : Nat) (v : Word) : Warp := { w with s := setKey w.s n v }
def Warp.putFlg (w : Warp) (m : LaneMask) (f : Nat → Word) : Warp :=
  { w with flg := mkRow fun i => if has m i then f i else w.getFlg i }
def Warp.putGen (w : Warp) (m : LaneMask) (f : Nat → Word) : Warp :=
  { w with gen := mkRow fun i => if has m i then f i else w.getGen i }
def Warp.putSeg (w : Warp) (k : Nat) (v : Dword) : Warp := { w with seg := setKey w.seg k v }

/-- R36: position and bytes of a segment. -/
def segBase (v : Dword) : Nat := v.toNat % 2 ^ 32
def segLimit (v : Dword) : Nat := v.toNat / 2 ^ 32

/-! ### The PC table and the wait sets -/

/-- R14, R15: lanes enter a table that is ascending by PC, and merge into an entry of the same PC. -/
def insertSub : List Sub → Nat → LaneMask → List Sub
  | [], pc, m => if m = 0 then [] else [⟨pc, m⟩]
  | e :: t, pc, m =>
    if m = 0 then e :: t
    else if pc < e.pc then ⟨pc, m⟩ :: e :: t
    else if pc = e.pc then ⟨pc, e.lanes ||| m⟩ :: t
    else e :: insertSub t pc m

/-- Lanes leave the entry of a PC. -/
def removeSub : List Sub → Nat → LaneMask → List Sub
  | [], _, _ => []
  | e :: t, pc, m =>
    if e.pc = pc then (if e.lanes &&& ~~~ m = 0 then t else ⟨e.pc, e.lanes &&& ~~~ m⟩ :: t)
    else e :: removeSub t pc m

def Warp.returnAt (w : Warp) (pc : Nat) (m : LaneMask) : Warp := { w with pcs := insertSub w.pcs pc m }

/-- R22, R54, R252: blocked lanes have been served; those of a parked subgroup go on with it. -/
def Warp.unblock (w : Warp) (pc : Nat) (m : LaneMask) : Warp :=
  let away := w.parked.foldl (fun b e => b ||| (e.blocked &&& m)) 0
  { w with parked := w.parked.map fun (e : Parked) => { e with blocked := e.blocked &&& ~~~ m } }.returnAt pc (m &&& ~~~ away)

/-- The lanes in the wait set of a mask. -/
def Warp.waiting (w : Warp) (k : Nat) : LaneMask :=
  w.waits.foldl (fun m q => if q.k = k then m ||| q.lanes else m) 0

/-- R17, R19: a wait set is released when every lane whose bit is set in its mask is in it. -/
def Warp.settle (w : Warp) (k : Nat) : Warp :=
  if w.getM k &&& ~~~ w.waiting k = 0 then
    { w with
      waits := w.waits.filter fun q => q.k != k
      pcs := w.waits.foldl (fun t q => if q.k = k then insertSub t q.pc q.lanes else t) w.pcs }
  else w

/-- R215: one update of a mask, after which its wait set is evaluated again. -/
def Warp.setM (w : Warp) (k : Nat) (v : LaneMask) : Warp := { w with m := setKey w.m k v }.settle k

/-- R8, R207: lanes retire: they leave every mask, and their flag assignments end. -/
def Warp.retire (w : Warp) (m : LaneMask) : Warp :=
  let w1 := { w with
    live := w.live &&& ~~~ m
    flags := w.flags.filter fun p => !has m (p.1 % 64) }
  (List.range 12).foldl (fun v k => v.setM k (v.getM k &&& ~~~ m)) w1

/-! ### Clause flags (R193) -/

def Warp.flagCount (w : Warp) (f i : Nat) : Nat := getKey w.flags (64 * f + i) 0
def Warp.setFlag (w : Warp) (f i n : Nat) : Warp :=
  { w with flags :=
      if n = 0 then w.flags.filter fun p => p.1 != 64 * f + i else setKey w.flags (64 * f + i) n }
def Warp.addFlag (w : Warp) (f : Nat) (lanes : List Nat) : Warp :=
  lanes.foldl (fun v i => v.setFlag f i (v.flagCount f i + 1)) w
def Warp.endFlag (w : Warp) (f : Option Nat) (lanes : List Nat) : Warp :=
  match f with
  | none => w
  | some k => lanes.foldl (fun v i => v.setFlag k i (v.flagCount k i - 1)) w
/-- R191: every flag of the wait mask is clear for every lane of the set. -/
def Warp.flagsClear (w : Warp) (wait : BitVec 12) (m : LaneMask) : Bool :=
  (List.range 12).all fun f => !wait.getLsbD f || (lanesOf m).all fun i => w.flagCount f i == 0
def Warp.allFlagsClear (w : Warp) : Bool := w.flags.isEmpty

/-! ### Groups and warps wherever they stand -/

def Group.putWarp (g : Group) (w : Warp) : Group := if w.gone then g else { g with others := w :: g.others }

/-- The selected warp and group go back among the others. -/
def State.unselect (s : State) : State :=
  { s with
    groups := if s.g.id = 0 then s.groups else s.g.putWarp s.w :: s.groups
    g := Group.blank
    w := { Warp.blank with gone := true } }

def State.isSel (s : State) (gid wid : Nat) : Bool := s.g.id == gid && s.w.idx == wid && !s.w.gone

/-- Makes a warp the one that issues. Nothing of the machine changes; a warp that does not exist changes nothing. -/
def State.select (s : State) (gid wid : Nat) : State :=
  if s.isSel gid wid then s
  else
    let u := s.unselect
    match u.groups.find? (fun g => g.id == gid) with
    | none => s
    | some g =>
      match g.others.find? (fun w => w.idx == wid) with
      | none => s
      | some w =>
        { u with
          groups := u.groups.filter fun g => g.id != gid
          g := { g with others := g.others.filter fun w => w.idx != wid }
          w := w }

/-- Every group with all its warps. -/
def State.allGroups (s : State) : List Group := s.unselect.groups
def State.group? (s : State) (gid : Nat) : Option Group := s.allGroups.find? fun g => g.id == gid
def State.warp? (s : State) (gid wid : Nat) : Option Warp :=
  if s.isSel gid wid then some s.w
  else (s.group? gid).bind fun g => g.others.find? fun w => w.idx == wid

def State.setW (s : State) (w : Warp) : State := { s with w := w }
def State.setG (s : State) (g : Group) : State := { s with g := g }

def mapIdx (ws : List Warp) (wid : Nat) (f : Warp → Warp) : List Warp :=
  ws.map fun w => if w.idx = wid then f w else w

def State.mapWarp (s : State) (gid wid : Nat) (f : Warp → Warp) : State :=
  if s.isSel gid wid then s.setW (f s.w)
  else if s.g.id = gid then s.setG { s.g with others := mapIdx s.g.others wid f }
  else { s with groups := s.groups.map fun g => if g.id = gid then { g with others := mapIdx g.others wid f } else g }

/-- Changes the fields that a group's warps share; `f` must not look at `others`. -/
def State.mapGroup (s : State) (gid : Nat) (f : Group → Group) : State :=
  if s.g.id = gid then s.setG (f s.g)
  else { s with groups := s.groups.map fun g => if g.id = gid then f g else g }

/-- A fresh number for an operation, a group or a record of the model (log 5). -/
def State.fresh (s : State) : Nat × State := (s.nextId, { s with nextId := s.nextId + 1 })

/-! ### Visibility (R73 to R75, R83) -/

/-- R73: a scope (0 `grp` to 3 `sys`) takes in the lanes of two groups on their cores. -/
def scopeMeets (sc core gid core' gid' : Nat) : Bool :=
  match sc with
  | 0 => gid == gid'
  | 1 => core / 4 == core' / 4
  | 2 => core / 16 == core' / 16
  | _ => true

/-- R73: the party takes in lanes of a warp that runs on a core. -/
def Party.covers (p : Party) (core gid wid : Nat) (m : LaneMask) : Bool :=
  match p with
  | .lanes g w l => g == gid && w == wid && l &&& m != 0
  | .grp g => g == gid
  | .clu c => c == core / 4
  | .chip c => c == core / 16
  | .fenced sc c g => scopeMeets sc c g core gid
  | .place _ => false
  | .cmd _ => false

/-- The access is visible to some of the lanes. -/
def Acc.seenBy (a : Acc) (core gid wid : Nat) (m : LaneMask) : Bool :=
  a.seen.any fun p => Party.covers p core gid wid m

/-- R78: a later access of the lanes must meet the access: a fence of the writer alone does not bind it. -/
def Acc.binds (a : Acc) (core gid wid : Nat) (m : LaneMask) : Bool :=
  a.seen.any fun p => match p with | .fenced _ _ _ => false | p => Party.covers p core gid wid m

def MKind.writes (k : MKind) : Bool := match k with | .load _ _ => false | _ => true

/-- Adds a party to every access that satisfies a test. -/
def State.show (s : State) (t : MemOp → Acc → Bool) (p : Party) : State :=
  { s with pend := s.pend.map fun o =>
      { o with accs := o.accs.map fun a => if t o a then { a with seen := p :: a.seen } else a } }

/-- R83: what is visible to lanes of a warp before an event becomes visible to a party after it. -/
def State.meet (s : State) (core gid wid : Nat) (m : LaneMask) (p : Party) : State :=
  s.show (fun o a => MKind.writes o.kind && a.seenBy core gid wid m) p

/-- R83, R146: what an object passes on becomes visible to the party. -/
def State.meetPlace (s : State) (k : Nat) (p : Party) : State :=
  s.show (fun _ a => a.seen.contains (.place k)) p

/-- What is visible to one party becomes visible to another (R87, R146). -/
def State.pass (s : State) (p q : Party) : State := s.show (fun _ a => a.seen.contains p) q

/-- An object starts afresh and passes on nothing of what came before. -/
def State.forget (s : State) (k : Nat) : State :=
  { s with pend := s.pend.map fun o =>
      { o with accs := o.accs.map fun a => { a with seen := a.seen.filter fun p => p != .place k } } }

/-- The core of the selected group, as 16 × chip + core. -/
def State.coreNo (s : State) : Nat := 16 * s.g.chip + s.g.core
/-- The lanes of the selected warp as a party. -/
def State.party (s : State) (m : LaneMask) : Party := .lanes s.g.id s.w.idx m
/-- R83: what is visible to lanes of the selected warp becomes visible to a party. -/
def State.meetSel (s : State) (m : LaneMask) (p : Party) : State := s.meet s.coreNo s.g.id s.w.idx m p

/-- R83: the lanes that a change of masks has released from a wait set see what each of them saw. `w0` is the warp
before the change. -/
def State.meetReleased (s : State) (w0 : Warp) : State :=
  (List.range 12).foldl (fun t k =>
    if w0.waiting k != 0 && s.w.waiting k == 0 then t.meetSel (w0.waiting k) (t.party (w0.waiting k)) else t) s

/-- The selected warp changes its masks. -/
def State.putMasks (s : State) (w : Warp) : State := (s.setW w).meetReleased s.w

/-! ### Free values (log 4) -/

/-- The state's next free 32-bit value, for each lane of a row. -/
def State.freeRow (s : State) : List Word × State :=
  (mkRow fun i => Config.freeWord (s.free + i), { s with free := s.free + 64 })

/-! ### Taking a trap -/

/-- R145: the record of the task at depth 0 of a group that adopted; 0 when the group adopted none. -/
def State.helperOf (s : State) (g : Group) : Dword :=
  if g.helpd = 0 then 0
  else
    match g.relay.getLast? with
    | none => 0
    | some off =>
      match s.frames.find? (fun f => f.off == off && f.chip == g.chip && f.part == g.part) with
      | some f => f.task
      | none => 0

/-- R367, R368, R145: what a trap writes into the group's trap registers. -/
def Group.trapRegs (g : Group) (cause : Nat) (rep : Bool) (addr : Dword) (value : Word) (helper : Dword) : Group :=
  { g with
    trapc := BitVec.ofNat 32 (cause + if rep then 256 else 0)
    trapa := addr
    trapv := value
    trapt := g.task
    traph := helper
    trapHeld := true }

/-- R370, R384: a trap of a system warp that has been reported to Iluloth. -/
def Turn.isReport (t : Turn) : Bool := match t with | .endSys _ => true | _ => false
/-- R367 to R370: the selected warp traps with the given trapped subgroup. While the group holds a trap the cause has
no effect and the run holds (R367). A trap inside a system warp is reported to Iluloth, which ends the system
warp and the group whose trap it held (R370). -/
def trapWith (s : State) (t : Trapped) (cause : Nat) (rep : Bool) (addr : Dword) (value : Word) : State :=
  if s.g.trapHeld then s
  else
    let helper := s.helperOf s.g
    { s with
      w := { s.w with trapped := some t, run := if t.point = .atIssue then none else s.w.run }
      g := s.g.trapRegs cause rep addr value helper
      traps :=
        if s.g.sys then s.traps
        else s.traps ++ [{ gid := s.g.id, wid := s.w.idx, cause := cause, repeated := rep, value := value, addr := addr,
                           owner := s.g.task, helper := helper, lanes := t.lanes, pc := t.pc, core := s.g.core }]
      agenda := if s.g.sys then s.agenda.takeWhile Turn.isReport ++ .endSys s.g.id :: s.agenda.dropWhile Turn.isReport else s.agenda }

/-- R212: a trap at issue, for the whole run, at the instruction that is about to issue. -/
def takeTrap (s : State) (r : Run) (cause : Nat) (addr : Dword) (value : Word) : State :=
  trapWith s { lanes := r.lanes, pc := r.pc, at_ := r.pc, point := .atIssue, run := some r, x := s.w.x, ops := [] }
    cause (r.again && cause == 7) addr value

/-- R212: a trap before issue of the clause at the head of the PC table; `pc` is the record's PC (R186). -/
def takeTrapBefore (s : State) (e : Sub) (cause : Nat) (addr : Dword) (pc : Nat) : State :=
  if s.g.trapHeld then s
  else
    trapWith (s.setW { s.w with pcs := removeSub s.w.pcs e.pc e.lanes })
      { lanes := e.lanes, pc := pc, at_ := e.pc, point := .beforeIssue, run := none, x := [], ops := [] }
      cause false addr 0

/-- R212: a trap after issue of an operation of the instruction at `pc`: the lanes leave the place where they stand, which
the caller has taken them from. -/
def takeTrapAfter (s : State) (lanes : LaneMask) (pc stand : Nat) (ops : List MemOp) (cause : Nat) (addr : Dword)
    (value : Word) : State :=
  trapWith s { lanes := lanes, pc := pc, at_ := stand, point := .afterIssue, run := none, x := [], ops := ops }
    cause false addr value

/-! ### The return from a trap -/

/-- R212: the trapped lanes of a warp go on; `act` is 0 or 1. None when the action is refused. A trap after issue that
was taken at a `fence.sys` keeps the lanes' run. -/
def Warp.endTrap (w : Warp) (t : Trapped) (act cause : Nat) (entry : Option Nat) : Option Warp :=
  let v := { w with trapped := none }
  match t.point with
  | .beforeIssue => if act = 0 then some (v.returnAt t.at_ t.lanes) else none
  | .afterIssue =>
    match t.run, t.park with
    | none, none => some (v.returnAt t.at_ t.lanes)
    | none, some p => some { v with parked := v.parked ++ [{ p with back := none }] }
    | some r, _ => some { v with resume := v.resume ++ [(r, t.x)] }
  | .atIssue =>
    match t.run with
    | none => some v
    | some r =>
      if act = 0 then
        some { v with resume := v.resume ++ [({ r with again := cause == 7, entry := entry.getD r.entry }, t.x)] }
      else some (v.returnAt r.fall t.lanes)

/-- R14, R212: a warp with no run in a clause takes up a run that `rfe` sent back into its clause. -/
def Warp.resumeRun (w : Warp) : Warp :=
  match w.run, w.resume with
  | none, (r, x) :: t => { w with run := some r, x := x, resume := t }
  | _, _ => w

/-! ### Issuing an instruction of a run -/

/-- What the block of an instruction comes to: done, with the run's next instruction to follow; a trap at issue with
TRAPA and TRAPV; or a hold, at which the run issues the same instruction again (log 14). -/
inductive Act where
  | ok (s : State)
  | trap (cause : Nat) (addr : Dword) (value : Word)
  | hold (s : State)

/-- R25, R176: every register of a pair or run lies in the warp's allocation. -/
def inAlloc (u : Oper) (w : Warp) : Bool :=
  match u.o with | .v r => r.val + u.span ≤ w.nregs | _ => true

/-- R176, R190, R285: the checks of operand classes, alignment and allocation when an instruction issues.
DEDUCED (log 117): alignment comes before the allocation. -/
def issueCheck (f : Info) (w : Warp) : Option Nat :=
  let us := f.srcs ++ f.dsts
  if us.any (fun u => !u.clsOk || !u.o.aligned u.span) then some 1
  else if us.any (fun u => !inAlloc u w) then some 5
  else none

/-- R188: the instructions of a clause from an address on, at most `n`, each with its address. -/
noncomputable def State.clauseWords (s : State) : Nat → Nat → List (Nat × Instr)
  | 0, _ => []
  | n + 1, pc =>
    match decodeAt (s.codeAt s.g.kern.img pc maxInstrBytes) with
    | some (i, len) => (pc, i) :: s.clauseWords n (pc + len)
    | none => []

/-- R192: the vector registers of a run whose length shows only at issue meet another instruction of the long-latency set in the
clause: trap 0x02 then (log 97). -/
noncomputable def State.meetsLong (s : State) (r : Run) (d : Opd) (n : Nat) : Bool :=
  (s.clauseWords 24 (r.start + 4)).any fun p =>
    p.1 != r.pc && p.1 + 4 < r.fall && p.2.longDsts.any fun e => e.meets ⟨d, n, 1⟩

/-- The run goes on behind an instruction of `n` bytes. -/
def advance (n : Nat) (s : State) : State :=
  match s.w.run with
  | none => s
  | some r => s.setW { s.w with run := some { r with pc := r.pc + n, left := r.left - 1, again := false, entry := 0,
                                                     done := 0, parking := false } }

/-- The address of the instruction as TRAPA names it. -/
def Run.addr (r : Run) : Dword := BitVec.ofNat 64 r.pc

/-- Changes the run of the selected warp. -/
def State.mapRun (s : State) (f : Run → Run) : State :=
  match s.w.run with
  | none => s
  | some r => s.setW { s.w with run := some (f r) }

/-- R190, R212: how every instruction of a warp issues: the checks, then its block, then the step to the next
instruction; a trap leaves the run at the instruction. -/
def issue (i : Instr) (s : State) (body : Run → Act) : Host.Outcome State Fault Refusal :=
  match s.w.run with
  | none => .fault .noRun
  | some r =>
    match issueCheck i.info s.w with
    | some c => .next (takeTrap s r c r.addr 0)
    | none =>
      match body r with
      | .ok t => .next (advance i.info.len t)
      | .trap c a v => .next (takeTrap s r c a v)
      | .hold t => .next t

/-- Sets what the trailer does with the run's lanes. -/
def State.setExit (s : State) (e : Exit) : State :=
  match s.w.run with
  | none => s
  | some r => s.setW { s.w with run := some { r with exit := e } }

/-- A trap at issue that names the instruction's address and no value. -/
def Act.trapAt (r : Run) (cause : Nat) : Act := .trap cause r.addr 0

end Sys2Proof.Machine
end

