-- ==== Sys2Proof/Machine/Operands.lean ====
section
/-! DEFINITION. The operand forms of R174 to R176: what an operand code reads as a source of each type, and what
writing a destination changes. -/

namespace Sys2Proof.Machine

/-! ### The constants of R174, by type -/

def intK (c : Fin 8) : Word := [0, 1, 2, 4, 8, 16, 0xFFFFFFFF, 0xFFFFFFFE].getD c.val 0
def f32K (c : Fin 8) : Word :=
  [0, 0x3F800000, 0x40000000, 0x40800000, 0x3F000000, 0x3E800000, 0xBF800000, 0xC0000000].getD c.val 0
def f64K (c : Fin 8) : Dword :=
  [0, 0x3FF0000000000000, 0x4000000000000000, 0x4010000000000000, 0x3FE0000000000000, 0x3FD0000000000000,
   0xBFF0000000000000, 0xC000000000000000].getD c.val 0
/-- Both halves carry the value. -/
def f16K (c : Fin 8) : Word :=
  [0, 0x3C003C00, 0x40004000, 0x44004400, 0x38003800, 0x34003400, 0xBC00BC00, 0xC000C000].getD c.val 0
def bf16K (c : Fin 8) : Word :=
  [0, 0x3F803F80, 0x40004000, 0x40804080, 0x3F003F00, 0x3E803E80, 0xBF80BF80, 0xC000C000].getD c.val 0
/-- Every element of a packed operand carries the value (log 19). -/
def e4m3K (c : Fin 8) : Word :=
  [0, 0x38383838, 0x40404040, 0x48484848, 0x30303030, 0x28282828, 0xB8B8B8B8, 0xC0C0C0C0].getD c.val 0
def e5m2K (c : Fin 8) : Word :=
  [0, 0x3C3C3C3C, 0x40404040, 0x44444444, 0x38383838, 0x34343434, 0xBCBCBCBC, 0xC0C0C0C0].getD c.val 0

/-! ### Sources -/

/-- R198: the value of an operand code for a lane, with the constants of the given type. -/
def Warp.get (w : Warp) (kc : Fin 8 → Word) (o : Opd) (i : Nat) : Word :=
  match o with
  | .v r => w.getV r.val i
  | .s r => w.getS r.val
  | .x r => w.getX r.val i
  | .k c => kc c

/-- Register `j` of the pair or run that an operand names; constants are handled by the callers. -/
def Warp.getAt (w : Warp) (o : Opd) (j i : Nat) : Word :=
  match o with
  | .v r => w.getV (r.val + j) i
  | .s r => w.getS (r.val + j)
  | .x r => w.getX (r.val + j) i
  | .k c => intK c

def Warp.src (w : Warp) (o : Opd) (i : Nat) : Word := w.get intK o i
def Warp.srcF (w : Warp) (o : Opd) (i : Nat) : Word := w.get f32K o i

/-- R174, R176: a 64-bit source, low word first; a constant is sign-extended. -/
def Warp.src64 (w : Warp) (o : Opd) (i : Nat) : Dword :=
  match o with
  | .k c => (intK c).signExtend 64
  | o => w.getAt o 1 i ++ w.getAt o 0 i

/-- R265: a binary64 source. -/
def Warp.srcD (w : Warp) (o : Opd) (i : Nat) : Dword :=
  match o with
  | .k c => f64K c
  | o => w.getAt o 1 i ++ w.getAt o 0 i

/-- The 16-bit form's registers (R179). -/
def vOpd (d : Fin 64) : Opd := .v ⟨d.val, by omega⟩

/-! ### Destinations -/

/-- R174, R175: writes register `j` behind the one that an operand names, in the given lanes; a scalar is written
once, with the lowest lane's value. -/
def Warp.writeAt (w : Warp) (o : Opd) (j : Nat) (m : LaneMask) (f : Nat → Word) : Warp :=
  match o with
  | .v r => w.putV (r.val + j) m f
  | .s r => w.putS (r.val + j) (f (lowLane m))
  | .x r => w.putX (r.val + j) m f
  | .k _ => w

def Warp.write (w : Warp) (o : Opd) (m : LaneMask) (f : Nat → Word) : Warp := w.writeAt o 0 m f

/-- A pair, low word first. -/
def Warp.write64 (w : Warp) (o : Opd) (m : LaneMask) (f : Nat → Dword) : Warp :=
  (w.writeAt o 0 m fun i => (f i).truncate 32).writeAt o 1 m fun i => (f i >>> 32).truncate 32

/-- A run of `n` registers. -/
def Warp.writeRun (w : Warp) (o : Opd) (n : Nat) (m : LaneMask) (f : Nat → Nat → Word) : Warp :=
  (List.range n).foldl (fun v j => v.writeAt o j m (f j)) w

/-! ### Instructions that compute each lane's result from its sources -/

/-- R198: writes `f` of the warp as it stands, in every lane of the run. -/
def laneOp (i : Instr) (s : State) (d : Opd) (f : Warp → Nat → Word) : Host.Outcome State Fault Refusal :=
  issue i s fun r => .ok (s.setW (s.w.write d r.lanes (f s.w)))

def laneOp64 (i : Instr) (s : State) (d : Opd) (f : Warp → Nat → Dword) : Host.Outcome State Fault Refusal :=
  issue i s fun r => .ok (s.setW (s.w.write64 d r.lanes (f s.w)))

/-- Integer forms of two sources (R217). -/
def binOp (i : Instr) (s : State) (d a b : Opd) (f : Word → Word → Word) : Host.Outcome State Fault Refusal :=
  laneOp i s d fun w l => f (w.src a l) (w.src b l)

/-- Integer forms of one source (R217, R220). -/
def unOp (i : Instr) (s : State) (d a : Opd) (f : Word → Word) : Host.Outcome State Fault Refusal :=
  laneOp i s d fun w l => f (w.src a l)

/-! ### Scalar operands of forms that act once for the run -/

/-- R283: a scalar source, read once for the run. -/
def Warp.scal (w : Warp) (r : Run) (o : Opd) : Word := w.src o (lowLane r.lanes)
def Warp.scal64 (w : Warp) (r : Run) (o : Opd) : Dword := w.src64 o (lowLane r.lanes)
/-- R283: an index scalar, and a pair of them. -/
def Warp.idxS (w : Warp) (n : Fin 64) : Word := w.getS n.val
def Warp.idxS64 (w : Warp) (n : Fin 64) : Dword := w.getS (n.val + 1) ++ w.getS n.val

/-- The same value in every lane of the run. -/
def State.writeAll (s : State) (r : Run) (d : Opd) (v : Word) : State :=
  s.setW (s.w.write d r.lanes fun _ => v)
def State.writeAll64 (s : State) (r : Run) (d : Opd) (v : Dword) : State :=
  s.setW (s.w.write64 d r.lanes fun _ => v)

end Sys2Proof.Machine
end

