-- ==== Sys2Proof/Machine/Flags.lean ====
section
/-! DEFINITION. The sticky exception flags of R102: their bits, how an operation ORs its exceptions into the lanes of
the run, and forms that compute a value together with its exceptions. -/

namespace Sys2Proof.Machine

/-- The exceptions that one operation raises (R102). -/
structure Exc where
  nv : Bool := false
  dz : Bool := false
  of : Bool := false
  uf : Bool := false
  nx : Bool := false
  deriving DecidableEq, Repr

def Exc.none : Exc := {}
def Exc.invalid : Exc := { nv := true }

/-- R102: FLG[4:0]. -/
def Exc.bits (e : Exc) : Word :=
  BitVec.ofNat 32 ((if e.nv then 1 else 0) + (if e.dz then 2 else 0) + (if e.of then 4 else 0)
    + (if e.uf then 8 else 0) + if e.nx then 16 else 0)

def Exc.or (a b : Exc) : Exc :=
  { nv := a.nv || b.nv, dz := a.dz || b.dz, of := a.of || b.of, uf := a.uf || b.uf, nx := a.nx || b.nx }

def Exc.all (l : List Exc) : Exc := l.foldl Exc.or Exc.none

/-- R198: FLG of each lane of the set takes in its exceptions. -/
def Warp.raise (w : Warp) (m : LaneMask) (e : Nat → Exc) : Warp :=
  w.putFlg m fun i => w.getFlg i ||| (e i).bits

/-- R198, R102: a value and its exceptions for each lane. -/
def fpOp (i : Instr) (s : State) (d : Opd) (f : Warp → Nat → Word × Exc) : Host.Outcome State Fault Refusal :=
  issue i s fun r =>
    .ok (s.setW ((s.w.write d r.lanes fun l => (f s.w l).1).raise r.lanes fun l => (f s.w l).2))

def fpOp64 (i : Instr) (s : State) (d : Opd) (f : Warp → Nat → Dword × Exc) : Host.Outcome State Fault Refusal :=
  issue i s fun r =>
    .ok (s.setW ((s.w.write64 d r.lanes fun l => (f s.w l).1).raise r.lanes fun l => (f s.w l).2))

end Sys2Proof.Machine
end

