-- ==== Sys2Proof/Machine/Fp.lean ====
section
/-! DEFINITION. The binary formats and their rounding (R91 to R93, R97, R98), and majors 0x08 to 0x0C (R254 to
R265): every result is computed exactly on integers and rounded once. -/

namespace Sys2Proof.Machine

/-! ### Formats and values -/

/-- A binary format: exponent and fraction bits, bias, the largest significand at the largest exponent field, that
field, whether it has infinities, and its canonical NaN (R91, R93, R94). -/
structure FFmt where
  ew : Nat
  fw : Nat
  bias : Nat
  top : Nat
  emaxF : Nat
  hasInf : Bool
  nan : Nat
  deriving DecidableEq, Repr

def F64 : FFmt := ⟨11, 52, 1023, 2 ^ 53 - 1, 2046, true, 0x7FF8000000000000⟩
def F32 : FFmt := ⟨8, 23, 127, 2 ^ 24 - 1, 254, true, 0x7FC00000⟩
def F16 : FFmt := ⟨5, 10, 15, 2 ^ 11 - 1, 30, true, 0x7E00⟩
def BF16 : FFmt := ⟨8, 7, 127, 255, 254, true, 0x7FC0⟩
def E4M3 : FFmt := ⟨4, 3, 7, 14, 15, false, 0x7F⟩
def E5M2 : FFmt := ⟨5, 2, 15, 7, 30, true, 0x7E⟩

/-- A value read from an encoding: a NaN, signalling or quiet, an infinity, or (-1)^neg · m · 2^e. -/
inductive FVal where
  | nan (sig : Bool)
  | inf (neg : Bool)
  | fin (neg : Bool) (m : Nat) (e : Int)
  deriving DecidableEq, Repr

/-- The exponent of the unit of a subnormal. -/
def FFmt.qmin (F : FFmt) : Int := 1 - (F.bias : Int) - F.fw
def FFmt.qmax (F : FFmt) : Int := (F.emaxF : Int) - F.bias - F.fw

/-- R91, R93: an encoding's value. The NaNs of E4M3 and E5M2 count as quiet (R267). -/
def FFmt.decode (F : FFmt) (b : Nat) : FVal :=
  let fr := b % 2 ^ F.fw
  let ex := b / 2 ^ F.fw % 2 ^ F.ew
  let neg := b / 2 ^ (F.fw + F.ew) % 2 == 1
  if F.emaxF < ex then
    (if fr = 0 then .inf neg else .nan (F.fw ≥ 7 && fr / 2 ^ (F.fw - 1) == 0))
  else if ex = F.emaxF && F.top < 2 ^ F.fw + fr then .nan false
  else if ex = 0 then .fin neg fr F.qmin
  else .fin neg (2 ^ F.fw + fr) ((ex : Int) - F.bias - F.fw)

def FFmt.signBit (F : FFmt) (neg : Bool) : Nat := if neg then 2 ^ (F.fw + F.ew) else 0
def FFmt.infBits (F : FFmt) (neg : Bool) : Nat := F.signBit neg + (2 ^ F.ew - 1) * 2 ^ F.fw
/-- The encoding of m · 2^q, for m below 2^(fw+1) and m at least 2^fw unless q is the subnormal unit. -/
def FFmt.finBits (F : FFmt) (neg : Bool) (m : Nat) (q : Int) : Nat :=
  F.signBit neg + if m < 2 ^ F.fw then m else (q + F.bias + F.fw).toNat * 2 ^ F.fw + (m - 2 ^ F.fw)
def FFmt.maxBits (F : FFmt) (neg : Bool) : Nat := F.finBits neg F.top F.qmax

/-! ### Rounding -/

/-- R97: the rounding modes; a stochastic rounding carries its draw U (R98). -/
inductive RMode where
  | nearest | zero | up | down
  | stoch (u : Nat)
  deriving DecidableEq, Repr

def RMode.ofRm : Rm → RMode
  | .rn => .nearest | .rz => .zero | .rp => .up | .rm => .down

def CMode.rmode (m : CMode) (u : Nat) : RMode :=
  match m with
  | .rn => .nearest | .rz => .zero | .rp => .up | .rm => .down | .rs => .stoch u
  | .rnSat => .nearest | .rzSat => .zero | .rpSat => .up | .rmSat => .down | .rsSat => .stoch u
def CMode.sat (m : CMode) : Bool := 5 ≤ m.toNat
def CMode.isRs (m : CMode) : Bool := match m with | .rs => true | .rsSat => true | _ => false

/-- m / 2^sh rounded to an integer, and whether it was inexact. -/
def roundShift (md : RMode) (neg : Bool) (m sh : Nat) : Nat × Bool :=
  let q := m / 2 ^ sh
  let rem := m % 2 ^ sh
  let up := match md with
    | .nearest => 2 ^ sh < 2 * rem || (2 ^ sh == 2 * rem && q % 2 == 1)
    | .zero => false
    | .up => !neg
    | .down => neg
    | .stoch u => u < rem * 2 ^ 16 / 2 ^ sh
  if rem = 0 then (q, false) else (if up then q + 1 else q, true)

/-- m · 2^e in units of 2^q. -/
def roundAt (md : RMode) (neg : Bool) (m : Nat) (e q : Int) : Nat × Bool :=
  if q ≤ e then (m * 2 ^ (e - q).toNat, false) else roundShift md neg m (q - e).toNat

/-- R97: what an overflow returns: an infinity, or the largest finite value. -/
def RMode.overInf (md : RMode) (neg : Bool) : Bool :=
  match md with | .nearest => true | .zero => false | .up => !neg | .down => neg | .stoch _ => true

/-- R97 to R99: (-1)^neg · m · 2^e rounded into a format; `sat` and formats with no infinity saturate. Tininess is
detected after rounding with the exponent unbounded. R98, R99: under `.rs` into a format that saturates, a magnitude between the
largest finite value and the next step overflows where the draw takes the step, and is the largest value, inexact, where it does
not (log 102). -/
def FFmt.round (F : FFmt) (md : RMode) (sat neg : Bool) (m : Nat) (e : Int) : Nat × Exc :=
  if m = 0 then (F.signBit neg, {})
  else
    let qu : Int := e + Nat.log2 m - F.fw
    let q := max qu F.qmin
    let (r, nx) := roundAt md neg m e q
    let ru := (roundAt md neg m e qu).1
    let tiny : Bool := if ru = 2 ^ (F.fw + 1) then qu + 1 < F.qmin else qu < F.qmin
    let (r, q) := if r = 2 ^ (F.fw + 1) then (2 ^ F.fw, q + 1) else (r, q)
    if F.qmax < q || (q == F.qmax && F.top < r) then
      (if F.hasInf && !sat && md.overInf neg then F.infBits neg else F.maxBits neg, { of := true, nx := true })
    else (F.finBits neg r q, { nx := nx, uf := nx && tiny })

/-! ### Exact sums and products -/

/-- A signed integer in units of 2^e. -/
def toUnits (neg : Bool) (m : Nat) (e e0 : Int) : Int :=
  let v : Int := (m * 2 ^ (e - e0).toNat : Nat)
  if neg then -v else v

/-- R256: a finite sum rounded; an exact zero takes its sign by IEEE 754. -/
def FFmt.addFin (F : FFmt) (md : RMode) (na : Bool) (ma : Nat) (ea : Int) (nb : Bool) (mb : Nat) (eb : Int) :
    Nat × Exc :=
  let e0 := min ea eb
  let v := toUnits na ma ea e0 + toUnits nb mb eb e0
  if v = 0 then (F.signBit (if na == nb then na else md == .down), {})
  else F.round md false (v < 0) v.natAbs e0

def FVal.isNan (a : FVal) : Bool := match a with | .nan _ => true | _ => false
def FVal.isSig (a : FVal) : Bool := match a with | .nan s => s | _ => false
/-- R92: the canonical NaN; invalid for a signalling operand. -/
def FFmt.nanOf (F : FFmt) (l : List FVal) : Nat × Exc := (F.nan, { nv := l.any FVal.isSig })
def FFmt.invalid (F : FFmt) : Nat × Exc := (F.nan, Exc.invalid)

/-- R256: x + y. -/
def FFmt.add (F : FFmt) (md : RMode) (a b : FVal) : Nat × Exc :=
  match a, b with
  | .fin na ma ea, .fin nb mb eb => F.addFin md na ma ea nb mb eb
  | .inf na, .inf nb => if na == nb then (F.infBits na, {}) else F.invalid
  | .inf na, .fin _ _ _ => (F.infBits na, {})
  | .fin _ _ _, .inf nb => (F.infBits nb, {})
  | a, b => F.nanOf [a, b]

def FVal.neg (a : FVal) : FVal :=
  match a with | .nan s => .nan s | .inf n => .inf (!n) | .fin n m e => .fin (!n) m e

/-- The exact product of two values that are not NaN; none for 0 times an infinity. -/
def FVal.mul (a b : FVal) : Option FVal :=
  match a, b with
  | .fin na ma ea, .fin nb mb eb => some (.fin (na != nb) (ma * mb) (ea + eb))
  | .inf na, .inf nb => some (.inf (na != nb))
  | .inf na, .fin nb mb _ => if mb = 0 then none else some (.inf (na != nb))
  | .fin na ma _, .inf nb => if ma = 0 then none else some (.inf (na != nb))
  | _, _ => none

def FFmt.ofVal (F : FFmt) (md : RMode) (a : FVal) : Nat × Exc :=
  match a with
  | .nan s => (F.nan, { nv := s })
  | .inf n => (F.infBits n, {})
  | .fin n m e => F.round md false n m e

/-- R256: x · y. -/
def FFmt.mul (F : FFmt) (md : RMode) (a b : FVal) : Nat × Exc :=
  if a.isNan || b.isNan then F.nanOf [a, b]
  else match FVal.mul a b with
    | none => F.invalid
    | some p => F.ofVal md p

/-- R256: x · y + z with one rounding; 0 times an infinity is invalid even with a quiet NaN z. -/
def FFmt.fma (F : FFmt) (md : RMode) (a b c : FVal) : Nat × Exc :=
  if a.isNan || b.isNan then F.nanOf [a, b, c]
  else match FVal.mul a b with
    | none => F.invalid
    | some p => F.add md p c

/-! ### binary32 helpers -/

def f32 (x : Word) : FVal := F32.decode x.toNat
def w32 (p : Nat × Exc) : Word × Exc := (BitVec.ofNat 32 p.1, p.2)
def f64 (x : Dword) : FVal := F64.decode x.toNat
def w64 (p : Nat × Exc) : Dword × Exc := (BitVec.ofNat 64 p.1, p.2)
def isNan32 (x : Word) : Bool := (f32 x).isNan
def isSig32 (x : Word) : Bool := (f32 x).isSig

def add32 (md : RMode) (x y : Word) : Word × Exc := w32 (F32.add md (f32 x) (f32 y))
def sub32 (md : RMode) (x y : Word) : Word × Exc := w32 (F32.add md (f32 x) (FVal.neg (f32 y)))
def mul32 (md : RMode) (x y : Word) : Word × Exc := w32 (F32.mul md (f32 x) (f32 y))
def fma32 (md : RMode) (x y z : Word) : Word × Exc := w32 (F32.fma md (f32 x) (f32 y) (f32 z))

/-- The order of binary32 encodings that are not NaN, -0 just below +0 (R259). -/
def ord32 (x : Word) : Int := if x.msb then -((x.toNat % 2 ^ 31 : Nat) : Int) - 1 else (x.toNat : Int)
/-- The value's order, with both zeros equal (R258). -/
def val32 (x : Word) : Int := if x.msb then -((x.toNat % 2 ^ 31 : Nat) : Int) else (x.toNat : Int)

/-- R259. -/
def minmax32 (mx : Bool) (x y : Word) : Word × Exc :=
  let e : Exc := { nv := isSig32 x || isSig32 y }
  match isNan32 x, isNan32 y with
  | true, true => (0x7FC00000, e)
  | true, false => (y, e)
  | false, true => (x, e)
  | false, false => (if (if mx then ord32 x < ord32 y else ord32 y < ord32 x) then y else x, e)

/-- The predicates of R258. -/
inductive FPred where
  | eq | ne | lt | le | gt | ge | un
  deriving DecidableEq, Repr

def FPred.quiet (p : FPred) : Bool := match p with | .eq => true | .ne => true | .un => true | _ => false

/-- R258. -/
def fcmp (p : FPred) (x y : Word) : Word × Exc :=
  let a := val32 x
  let b := val32 y
  if isNan32 x || isNan32 y then
    (match p with | .ne => 1 | .un => 1 | _ => 0, { nv := !p.quiet || isSig32 x || isSig32 y })
  else
    (if (match p with
      | .eq => a == b | .ne => a != b | .lt => a < b | .le => a ≤ b | .gt => b < a | .ge => b ≤ a | .un => false)
     then 1 else 0, {})

/-- R261: to an integral value in binary32. -/
def frnd (md : RMode) (x : Word) : Word × Exc :=
  match f32 x with
  | .nan s => (0x7FC00000, { nv := s })
  | .inf _ => (x, {})
  | .fin n m e =>
    if 0 ≤ e then (x, {})
    else (BitVec.ofNat 32 (F32.round .zero false n (roundAt md n m e 0).1 0).1, {})

/-- R262: x - floor(x), rounded toward zero. -/
def ffrac32 (x : Word) : Word × Exc :=
  match f32 x with
  | .nan s => (0x7FC00000, { nv := s })
  | .inf _ => (0x7FC00000, Exc.invalid)
  | .fin n m e =>
    if 0 ≤ e then (0, {})
    else
      let u := 2 ^ (-e).toNat
      let k := m % u
      let f := if n then (u - k) % u else k
      w32 (F32.round .zero false false f e)

/-! ### Packed halves (R263, R264) -/

def half (x : Word) (e : Nat) : Nat := x.toNat / 2 ^ (16 * e) % 2 ^ 16
def halves (F : FFmt) (f : (Nat → FVal)→ Nat × Exc) (x : Nat → Word) : Word × Exc :=
  let p (e : Nat) := f fun j => F.decode (half (x j) e)
  (BitVec.ofNat 32 ((p 0).1 + 2 ^ 16 * (p 1).1), (p 0).2.or (p 1).2)

def add2 (F : FFmt) (md : RMode) (x y : Word) : Word × Exc :=
  halves F (fun v => F.add md (v 0) (v 1)) fun j => if j = 0 then x else y
def mul2 (F : FFmt) (md : RMode) (x y : Word) : Word × Exc :=
  halves F (fun v => F.mul md (v 0) (v 1)) fun j => if j = 0 then x else y
def fma2 (F : FFmt) (md : RMode) (x y z : Word) : Word × Exc :=
  halves F (fun v => F.fma md (v 0) (v 1) (v 2)) fun j => if j = 0 then x else if j = 1 then y else z

/-! ### The meanings -/

def fpBin (i : Instr) (s : State) (d a b : Opd) (kc : Fin 8 → Word) (f : Word → Word → Word × Exc) :
    Host.Outcome State Fault Refusal :=
  fpOp i s d fun w l => f (w.get kc a l) (w.get kc b l)
def fpTer (i : Instr) (s : State) (d a b : Opd) (kc : Fin 8 → Word) (f : Word → Word → Word → Word × Exc) :
    Host.Outcome State Fault Refusal :=
  fpOp i s d fun w l => f (w.get kc a l) (w.get kc b l) (w.get kc d l)
def fpUn (i : Instr) (s : State) (d a : Opd) (f : Word → Word × Exc) : Host.Outcome State Fault Refusal :=
  fpOp i s d fun w l => f (w.get f32K a l)


/-- R256. -/
def execFadd (d a b : Opd) (md : Rm) (s : State) : Host.Outcome State Fault Refusal :=
  fpBin (.fadd d a b md) s d a b f32K (add32 (.ofRm md))

/-- R256. -/
def execFsub (d a b : Opd) (md : Rm) (s : State) : Host.Outcome State Fault Refusal :=
  fpBin (.fsub d a b md) s d a b f32K (sub32 (.ofRm md))

/-- R256. -/
def execFmul (d a b : Opd) (md : Rm) (s : State) : Host.Outcome State Fault Refusal :=
  fpBin (.fmul d a b md) s d a b f32K (mul32 (.ofRm md))

/-- R256: d is the addend. -/
def execFfma (d a b : Opd) (md : Rm) (s : State) : Host.Outcome State Fault Refusal :=
  fpTer (.ffma d a b md) s d a b f32K (fma32 (.ofRm md))

/-- R258. -/
def execFcmpEq (d a b : Opd) (s : State) : Host.Outcome State Fault Refusal :=
  fpBin (.fcmpEq d a b) s d a b f32K (fcmp .eq)

/-- R258. -/
def execFcmpNe (d a b : Opd) (s : State) : Host.Outcome State Fault Refusal :=
  fpBin (.fcmpNe d a b) s d a b f32K (fcmp .ne)

/-- R258. -/
def execFcmpLt (d a b : Opd) (s : State) : Host.Outcome State Fault Refusal :=
  fpBin (.fcmpLt d a b) s d a b f32K (fcmp .lt)

/-- R258. -/
def execFcmpLe (d a b : Opd) (s : State) : Host.Outcome State Fault Refusal :=
  fpBin (.fcmpLe d a b) s d a b f32K (fcmp .le)

/-- R258. -/
def execFcmpGt (d a b : Opd) (s : State) : Host.Outcome State Fault Refusal :=
  fpBin (.fcmpGt d a b) s d a b f32K (fcmp .gt)

/-- R258. -/
def execFcmpGe (d a b : Opd) (s : State) : Host.Outcome State Fault Refusal :=
  fpBin (.fcmpGe d a b) s d a b f32K (fcmp .ge)

/-- R258. -/
def execFcmpUn (d a b : Opd) (s : State) : Host.Outcome State Fault Refusal :=
  fpBin (.fcmpUn d a b) s d a b f32K (fcmp .un)

/-- R259. -/
def execFmin (d a b : Opd) (s : State) : Host.Outcome State Fault Refusal :=
  fpBin (.fmin d a b) s d a b f32K (minmax32 false)

/-- R259. -/
def execFmax (d a b : Opd) (s : State) : Host.Outcome State Fault Refusal :=
  fpBin (.fmax d a b) s d a b f32K (minmax32 true)

/-- R260. -/
def execFabs (d a : Opd) (s : State) : Host.Outcome State Fault Refusal :=
  fpUn (.fabs d a) s d a fun x => (x &&& 0x7FFFFFFF, {})

/-- R260. -/
def execFneg (d a : Opd) (s : State) : Host.Outcome State Fault Refusal :=
  fpUn (.fneg d a) s d a fun x => (x ^^^ 0x80000000, {})

/-- R261. -/
def execFrndRn (d a : Opd) (s : State) : Host.Outcome State Fault Refusal :=
  fpUn (.frndRn d a) s d a (frnd .nearest)

/-- R261. -/
def execFrndRz (d a : Opd) (s : State) : Host.Outcome State Fault Refusal :=
  fpUn (.frndRz d a) s d a (frnd .zero)

/-- R261. -/
def execFrndRp (d a : Opd) (s : State) : Host.Outcome State Fault Refusal :=
  fpUn (.frndRp d a) s d a (frnd .up)

/-- R261. -/
def execFrndRm (d a : Opd) (s : State) : Host.Outcome State Fault Refusal :=
  fpUn (.frndRm d a) s d a (frnd .down)

/-- R262. -/
def execFfrac (d a : Opd) (s : State) : Host.Outcome State Fault Refusal :=
  fpUn (.ffrac d a) s d a ffrac32

/-- R263, R264. -/
def execHadd2 (d a b : Opd) (md : Rm) (s : State) : Host.Outcome State Fault Refusal :=
  fpBin (.hadd2 d a b md) s d a b f16K (add2 F16 (.ofRm md))

/-- R263, R264. -/
def execHmul2 (d a b : Opd) (md : Rm) (s : State) : Host.Outcome State Fault Refusal :=
  fpBin (.hmul2 d a b md) s d a b f16K (mul2 F16 (.ofRm md))

/-- R263, R264. -/
def execHfma2 (d a b : Opd) (md : Rm) (s : State) : Host.Outcome State Fault Refusal :=
  fpTer (.hfma2 d a b md) s d a b f16K (fma2 F16 (.ofRm md))

/-- R263, R264. -/
def execBadd2 (d a b : Opd) (md : Rm) (s : State) : Host.Outcome State Fault Refusal :=
  fpBin (.badd2 d a b md) s d a b bf16K (add2 BF16 (.ofRm md))

/-- R263, R264. -/
def execBmul2 (d a b : Opd) (md : Rm) (s : State) : Host.Outcome State Fault Refusal :=
  fpBin (.bmul2 d a b md) s d a b bf16K (mul2 BF16 (.ofRm md))

/-- R263, R264. -/
def execBfma2 (d a b : Opd) (md : Rm) (s : State) : Host.Outcome State Fault Refusal :=
  fpTer (.bfma2 d a b md) s d a b bf16K (fma2 BF16 (.ofRm md))

/-- R265. -/
def execDadd (d a b : Opd) (md : Rm) (s : State) : Host.Outcome State Fault Refusal :=
  fpOp64 (.dadd d a b md) s d fun w l => w64 (F64.add (.ofRm md) (f64 (w.srcD a l)) (f64 (w.srcD b l)))

/-- R265. -/
def execDmul (d a b : Opd) (md : Rm) (s : State) : Host.Outcome State Fault Refusal :=
  fpOp64 (.dmul d a b md) s d fun w l => w64 (F64.mul (.ofRm md) (f64 (w.srcD a l)) (f64 (w.srcD b l)))

/-- R265: z is read from d. -/
def execDfma (d a b : Opd) (md : Rm) (s : State) : Host.Outcome State Fault Refusal :=
  fpOp64 (.dfma d a b md) s d fun w l =>
    w64 (F64.fma (.ofRm md) (f64 (w.srcD a l)) (f64 (w.srcD b l)) (f64 (w.srcD d l)))

/-- R179: to nearest, with a = d. -/
def execFadd16 (d : Fin 64) (b : Opd16) (s : State) : Host.Outcome State Fault Refusal :=
  fpBin (.fadd16 d b) s (vOpd d) (vOpd d) b.toOpd f32K (add32 .nearest)

/-- R179: to nearest, with a = d. -/
def execFsub16 (d : Fin 64) (b : Opd16) (s : State) : Host.Outcome State Fault Refusal :=
  fpBin (.fsub16 d b) s (vOpd d) (vOpd d) b.toOpd f32K (sub32 .nearest)

/-- R179: to nearest, with a = d. -/
def execFmul16 (d : Fin 64) (b : Opd16) (s : State) : Host.Outcome State Fault Refusal :=
  fpBin (.fmul16 d b) s (vOpd d) (vOpd d) b.toOpd f32K (mul32 .nearest)

/-- R179. -/
def execFmax16 (d : Fin 64) (b : Opd16) (s : State) : Host.Outcome State Fault Refusal :=
  fpBin (.fmax16 d b) s (vOpd d) (vOpd d) b.toOpd f32K (minmax32 true)

end Sys2Proof.Machine
end

