-- ==== Sys2Proof/Machine/Convert.lean ====
section
/-! DEFINITION. Conversions: majors 0x0D and 0x0E (R94 to R101, R266 to R272), with stochastic rounding. -/

namespace Sys2Proof.Machine

/-! ### Stochastic rounding (R98) -/

/-- The next state of a lane's generator. -/
def nextGen (x : Word) : Word :=
  let a := x ^^^ (x <<< 13)
  let b := a ^^^ (a >>> 17)
  b ^^^ (b <<< 5)
/-- The draw U that a state gives. -/
def genDraw (x : Word) : Nat := x.toNat / 2 ^ 16
/-- R98: the state that a SEED value gives a lane. -/
def seedGen (v : Word) (lane : Nat) : Word :=
  let x := v ^^^ (BitVec.ofNat 32 lane * 0x9E3779B9)
  if x = 0 then 0x6D2B79F5 else x

/-! ### Element conversions (R99, R267) -/

def CFmt.ffmt (f : CFmt) : FFmt :=
  match f with
  | .f64 => F64 | .f16 => F16 | .bf16 => BF16 | .e4m3 => E4M3 | .e5m2 => E5M2 | _ => F32
/-- The bits of an element. -/
def CFmt.bits (f : CFmt) : Nat :=
  match f with | .f64 => 64 | .f32 => 32 | .f16 => 16 | .bf16 => 16 | .e4m3 => 8 | .e5m2 => 8 | .i32 => 32 | .n32 => 32
def CFmt.consts (f : CFmt) : Fin 8 → Word :=
  match f with
  | .f16 => f16K | .bf16 => bf16K | .e4m3 => e4m3K | .e5m2 => e5m2K | .i32 => intK | .n32 => intK | _ => f32K

/-- The value of an element's bits. -/
def CFmt.value (f : CFmt) (b : Nat) : FVal :=
  match f with
  | .i32 => if 2 ^ 31 ≤ b then .fin true (2 ^ 32 - b) 0 else .fin false b 0
  | .n32 => .fin false b 0
  | f => (CFmt.ffmt f).decode b

/-- R99: to an integer format with the given bounds: rounding raises nothing, leaving the range raises invalid.
DEDUCED (log 114): so does a NaN, of E4M3 and E5M2 too, whose NaNs raise nothing by R267. -/
def toInt (lo hi : Int) (md : RMode) (v : FVal) : Int × Exc :=
  match v with
  | .nan _ => (0, Exc.invalid)
  | .inf n => (if n then lo else hi, Exc.invalid)
  | .fin n m e =>
    let r := (roundAt md n m e 0).1
    let x : Int := if n then -(r : Int) else r
    if x < lo then (lo, Exc.invalid) else if hi < x then (hi, Exc.invalid) else (x, {})

/-- R99: a value converted to an element of a format. -/
def CFmt.convert (dst : CFmt) (m : CMode) (u : Nat) (v : FVal) : Nat × Exc :=
  match dst with
  | .i32 => let p := toInt (-(2 ^ 31)) (2 ^ 31 - 1) (CMode.rmode m u) v; ((BitVec.ofInt 32 p.1).toNat, p.2)
  | .n32 => let p := toInt 0 (2 ^ 32 - 1) (CMode.rmode m u) v; (p.1.toNat, p.2)
  | dst =>
    let F := CFmt.ffmt dst
    match v with
    | .nan s => (F.nan, { nv := s })
    | .inf n => if F.hasInf && !CMode.sat m then (F.infBits n, {}) else (F.maxBits n, { of := true, nx := true })
    | .fin n a e => F.round (CMode.rmode m u) (CMode.sat m) n a e

def FVal.isFin (v : FVal) : Bool := match v with | .fin _ _ _ => true | _ => false

/-- One element with its draw: R98, an inexact finite element takes one. -/
def convertDraw (f : Nat → FVal → Nat × Exc) (m : CMode) (g : Word) (v : FVal) : Nat × Exc × Word :=
  let g' := nextGen g
  let p := f (genDraw g') v
  (p.1, p.2, if CMode.isRs m && p.2.nx && v.isFin then g' else g)

/-- Elements in ascending order, each with its own draw. -/
def convertList (f : Nat → FVal → Nat × Exc) (m : CMode) : Word → List FVal → List Nat × Exc × Word
  | g, [] => ([], {}, g)
  | g, v :: t =>
    let (b, e, g') := convertDraw f m g v
    let (bs, es, g'') := convertList f m g' t
    (b :: bs, e.or es, g'')

/-- The lanes whose generators a conversion may advance: a uniform operation computes once (R102, log 19). -/
def genLanes (d : Opd) (m : LaneMask) : LaneMask := if d.kind = 2 then laneBit (lowLane m) else m

/-- R102: the lane whose computation gives a lane's result and exceptions: a uniform operation computes once. -/
def leader (d : Opd) (m : LaneMask) (l : Nat) : Nat := if d.kind = 2 then lowLane m else l

/-- The source value of the P = 0 form: the low bits of a, or the pair. -/
def Warp.cvtSrc (w : Warp) (f : CFmt) (a : Opd) (l : Nat) : FVal :=
  match f with
  | .f64 => f64 (w.srcD a l)
  | f => CFmt.value f ((w.get (CFmt.consts f) a l).toNat % 2 ^ CFmt.bits f)

/-- R268, P = 0. With `.rs` each lane draws from its own generator, its source scalar or not (R98, R175, log 123). -/
def execCvt (d a : Opd) (dst src : CFmt) (m : CMode) (s : State) : Host.Outcome State Fault Refusal :=
  issue (.cvt d a dst src m) s fun r =>
    let p (l : Nat) := convertDraw (CFmt.convert dst m) m (s.w.getGen l) (s.w.cvtSrc src a l)
    let w1 := match dst with
      | .f64 => s.w.write64 d r.lanes fun l => BitVec.ofNat 64 (p l).1
      | _ => s.w.write d r.lanes fun l => BitVec.ofNat 32 (p l).1
    .ok (s.setW ((w1.raise r.lanes fun l => (p (leader d r.lanes l)).2.1).putGen (genLanes d r.lanes) fun l => (p l).2.2))

/-- A register from elements of `b` bits each, the first lowest. -/
def packElems (b : Nat) (l : List Nat) : Nat := l.foldr (fun x n => x + 2 ^ b * n) 0
/-- Element `e` of `b` bits. -/
def elemBits (b x e : Nat) : Nat := x / 2 ^ (b * e) % 2 ^ b

/-- R268, P = 1: packs the registers of a into d, or unpacks a into the registers of d. -/
def execCvtPk (d a : Opd) (dst src : CFmt) (m : CMode) (s : State) : Host.Outcome State Fault Refusal :=
  issue (.cvtPk d a dst src m) s fun r =>
    if dst.packN = 0 then
      let n := src.packN
      let p (e l : Nat) := CFmt.convert dst m 0 (CFmt.value src (elemBits (CFmt.bits src) (s.w.get (CFmt.consts src) a l).toNat e))
      .ok (s.setW ((s.w.writeRun d n r.lanes fun e l => BitVec.ofNat 32 (p e l).1).raise r.lanes fun l =>
        Exc.all ((List.range n).map fun e => (p e l).2)))
    else
      let n := dst.packN
      let at' (l e : Nat) : FVal :=
        f32 (match a with | .k c => f32K c | a => s.w.getAt a e l)
      let p (l : Nat) := convertList (CFmt.convert dst m) m (s.w.getGen l) ((List.range n).map (at' l))
      .ok (s.setW (((s.w.write d r.lanes fun l => BitVec.ofNat 32 (packElems (CFmt.bits dst) (p l).1)).raise r.lanes
        fun l => (p (leader d r.lanes l)).2.1).putGen (genLanes d r.lanes) fun l => (p l).2.2))

/-! ### Blocks: MX (R94, R100) -/

/-- The element formats of MXFP6 and MXFP4. -/
def E2M3 : FFmt := ⟨2, 3, 1, 15, 3, false, 0⟩
def E3M2 : FFmt := ⟨3, 2, 3, 7, 7, false, 0⟩
def E2M1 : FFmt := ⟨2, 1, 1, 3, 3, false, 0⟩

/-- R116: the code of a block format: its element format for codes 6 to 10; none for MXINT8 and CF. -/
def mxFmt (f : Nat) : Option FFmt :=
  match f with | 6 => some E4M3 | 7 => some E5M2 | 8 => some E2M3 | 9 => some E3M2 | 10 => some E2M1 | _ => none
/-- R94: the bits of an MX element. -/
def mxBits (f : Nat) : Nat := match f with | 8 => 6 | 9 => 6 | 10 => 4 | _ => 8
/-- R100: the exponent of the element format's largest normal power of two. -/
def mxEmax (f : Nat) : Int := match f with | 6 => 8 | 7 => 15 | 8 => 2 | 9 => 4 | 10 => 2 | _ => 0

/-- floor(log2) of the greatest magnitude of the finite values; none when all are zero. -/
def maxLog (l : List FVal) : Option Int :=
  l.foldl (fun o v => match v with
    | .fin _ m e =>
      if m = 0 then o
      else match o with
        | none => some (e + Nat.log2 m)
        | some x => some (max x (e + Nat.log2 m))
    | _ => o) none

def FVal.isInf (v : FVal) : Bool := match v with | .inf _ => true | _ => false
def clampI (lo hi v : Int) : Int := max lo (min hi v)

/-- R100: the block's scale X. -/
def mxScale (f : Nat) (l : List FVal) : Nat :=
  if l.any FVal.isNan then 255
  else if l.any FVal.isInf then 254
  else match maxLog l with
    | none => 0
    | some x => (clampI 0 254 (x - mxEmax f + 127)).toNat

/-- R100, step 6: one element under the scale X. A value that rounds to 0 in MXINT8 is inexact and raises no underflow (log 110). -/
def mxElem (f x : Nat) (m : CMode) (u : Nat) (v : FVal) : Nat × Exc :=
  let sh : Int := 127 - (x : Int)
  match mxFmt f, v with
  | some F, .fin n a e => F.round (CMode.rmode m u) true n a (e + sh)
  | some F, .inf n => (F.maxBits n, { of := true, nx := true })
  | none, .fin n a e =>
    let (r, nx) := roundAt (CMode.rmode m u) n a (e + sh) (-6)
    if 127 < r then (if n then 129 else 127, { of := true, nx := true })
    else (if n then (256 - r) % 256 else r, { nx := nx })
  | none, .inf n => (if n then 129 else 127, { of := true, nx := true })
  | _, .nan _ => (0, {})

/-- R272: a value in binary32, to nearest; a NaN is canonical. -/
def FVal.to32 (v : FVal) : Nat × Exc :=
  match v with
  | .nan _ => (F32.nan, {})
  | .inf n => (F32.infBits n, {})
  | .fin n m e => F32.round .nearest false n m e

/-- A value times 2^sh. -/
def FVal.scale (v : FVal) (sh : Int) : FVal := match v with | .fin n m e => .fin n m (e + sh) | v => v

/-- R94: the value of an MX element under the scale X. -/
def mxVal (f x b : Nat) : FVal :=
  if x = 255 then .nan false
  else FVal.scale (match mxFmt f with
    | none => .fin (128 ≤ b) (if 128 ≤ b then 256 - b else b) (-6)
    | some F => F.decode b) ((x : Int) - 127)

/-- R272: the value of an MX element in binary32. -/
def mxValue (f x b : Nat) : Nat × Exc := FVal.to32 (mxVal f x b)

/-! ### Blocks: CF (R95, R101) -/

/-- The magnitude width p of a CF code. -/
def cfP (f : Nat) : Nat := match f with | 12 => 7 | 13 => 4 | _ => 2

/-- The exponent of the unit of an element: E - 127 - µ - (p - 1). -/
def cfUnit (p e mu : Nat) : Int := (e : Int) - 127 - mu - (p - 1 : Nat)

/-- The magnitude of an element at a micro-exponent; an infinity is not below any bound. -/
def cfMag (p e mu : Nat) (md : RMode) (v : FVal) : Nat :=
  match v with | .fin n m x => (roundAt md n m x (cfUnit p e mu)).1 | _ => 2 ^ p

/-- R101, under `.rs` steps 6 and 7 judge by `.rn`. -/
def CMode.judge (m : CMode) : RMode := if CMode.isRs m then .nearest else CMode.rmode m 0

/-- The order of the magnitudes of finite values. -/
def FVal.magLe (v w : FVal) : Bool :=
  match v, w with
  | .fin _ a x, .fin _ b y => a * 2 ^ (x - min x y).toNat ≤ b * 2 ^ (y - min x y).toNat
  | _, _ => true

/-- R101: the elements of magnitude a, the largest of a peck of finite values. -/
def cfLargest (l : List FVal) : List FVal := l.filter fun v => l.all fun w => FVal.magLe w v

/-- R101, steps 1 to 6: E of a peck.
DEDUCED: where several elements have magnitude a, step 6 raises E when any of them rounds to 2^p (log entry 19). -/
def cfE (p : Nat) (m : CMode) (l : List FVal) : Nat :=
  if l.any FVal.isNan then 255
  else if l.any FVal.isInf then 254
  else match maxLog l with
    | none => 0
    | some x =>
      let e := (clampI 0 254 (x + 127)).toNat
      if e < 254 && 0 ≤ x + 127 && (cfLargest l).any (fun v => 2 ^ p ≤ cfMag p e 0 (CMode.judge m) v) then e + 1 else e

/-- R101, step 7: the micro-exponents; none of a NaN peck. -/
def cfMu (p e : Nat) (m : CMode) (l : List FVal) : List Nat :=
  (List.range 8).map fun j =>
    if e != 255 && [2 * j, 2 * j + 1].all (fun i => match l[i]? with
      | some v => cfMag p e 1 (CMode.judge m) v < 2 ^ p
      | none => true) then 1 else 0

/-- R101, step 8: one element, as magnitude plus sign bit at p. -/
def cfElem (p e mu : Nat) (m : CMode) (u : Nat) (v : FVal) : Nat × Exc :=
  match v with
  | .nan _ => (0, {})
  | .inf n => (2 ^ p - 1 + (if n then 2 ^ p else 0), { of := true, nx := true })
  | .fin n a x =>
    let (r, nx) := roundAt (CMode.rmode m u) n a x (cfUnit p e mu)
    let sg := if n then 2 ^ p else 0
    if e = 255 then (0, {})
    else if 2 ^ p ≤ r then (2 ^ p - 1 + sg, { of := true, nx := true })
    else (r + sg, { nx := nx, uf := nx && r == 0 && a != 0 })

/-- R95: the value of a CF element. -/
def cfVal (p e mu b : Nat) : FVal := if e = 255 then .nan false else .fin (2 ^ p ≤ b) (b % 2 ^ p) (cfUnit p e mu)
/-- R95: the value of a CF element in binary32. -/
def cfValue (p e mu b : Nat) : Nat × Exc := FVal.to32 (cfVal p e mu b)

/-! ### A block of 32 elements as R270 lays it out -/

/-- The 32 elements of a block with their exceptions and the generators they leave. -/
structure Packed where
  words : List Nat
  exc : List Exc
  gens : List Word

/-- Elements with one draw each, element k from generator k. -/
def zipDraw (fs : List (Nat → FVal → Nat × Exc)) (m : CMode) : List Word → List FVal → List (Nat × Exc × Word)
  | g :: gs, v :: vs =>
    match fs with
    | [] => []
    | f :: t => convertDraw f m g v :: zipDraw t m gs vs
  | _, _ => []

/-- The words of a block: a number's 32-bit words, the scale word at 31. -/
def blockWords (n nw : Nat) (scale : Nat) : List Nat :=
  (List.range 32).map fun j => if j < nw then n / 2 ^ (32 * j) % 2 ^ 32 else if j = 31 then scale else 0

/-- R270: the words that hold a block's string. -/
def blockNw (f : Nat) (planar : Bool) : Nat :=
  match f with
  | 8 => 6 | 9 => 6 | 10 => 4
  | 12 => if planar then 8 else 9
  | 13 => if planar then 5 else 6
  | 14 => if planar then 3 else 4
  | _ => 8

/-- R271: packs 32 values. -/
def packBlock (f : Nat) (planar : Bool) (m : CMode) (vs : List FVal) (gs : List Word) : Packed :=
  if f < 12 then
    let x := mxScale f vs
    let es :=
      if x = 255 then (vs.zip gs).map fun p => (0, ({} : Exc), p.2)
      else zipDraw (List.replicate 32 (mxElem f x m)) m gs vs
    { words := blockWords (packElems (mxBits f) (es.map Prod.fst)) (blockNw f planar) x
      exc := (es.zip vs).map fun p => p.1.2.1.or { nv := p.2.isSig }
      gens := es.map fun p => p.2.2 }
  else
    let p := cfP f
    let peck (l : List FVal) (g : List Word) :=
      let e := cfE p m l
      let mu := cfMu p e m l
      let es :=
        if e = 255 then (l.zip g).map fun q => (0, ({} : Exc), q.2)
        else zipDraw ((List.range 16).map fun i => cfElem p e (mu.getD (i / 2) 0) m) m g l
      (e, packElems 1 mu, packElems (p + 1) (es.map Prod.fst), es)
    let a := peck (vs.take 16) (gs.take 16)
    let b := peck (vs.drop 16) (gs.drop 16)
    let fb := 16 * (p + 1)
    let str :=
      if planar then a.2.2.1 + 2 ^ fb * b.2.2.1
      else (a.1 + 256 * a.2.1 + 65536 * a.2.2.1) + 2 ^ (16 + fb) * (b.1 + 256 * b.2.1 + 65536 * b.2.2.1)
    let es := a.2.2.2 ++ b.2.2.2
    { words := blockWords str (blockNw f planar)
        (if planar then a.1 + 2 ^ 8 * a.2.1 + 2 ^ 16 * b.1 + 2 ^ 24 * b.2.1 else 0)
      exc := (es.zip vs).map fun q => q.1.2.1.or { nv := q.2.isSig }
      gens := es.map fun q => q.2.2 }

/-- R94 to R96: the 32 values of a block, from its string and its scale. -/
def blockVals (f : Nat) (planar : Bool) (str sc : Nat) : List FVal :=
  if f < 12 then (List.range 32).map fun k => mxVal f (sc % 256) (elemBits (mxBits f) str k)
  else
    let p := cfP f
    let fb := 16 * (p + 1)
    (List.range 32).map fun k =>
      let g := k / 16
      let i := k % 16
      let base := if planar then fb * g else (16 + fb) * g
      let e := if planar then sc / 2 ^ (16 * g) % 256 else str / 2 ^ base % 256
      let mus := if planar then sc / 2 ^ (16 * g + 8) % 256 else str / 2 ^ (base + 8) % 256
      let el := if planar then base + i * (p + 1) else base + 16 + i * (p + 1)
      cfVal p e (mus / 2 ^ (i / 2) % 2) (str / 2 ^ el % 2 ^ (p + 1))

/-- R272: the 32 values of a block's words, in binary32. -/
def unpackBlock (f : Nat) (planar : Bool) (ws : List Nat) : List (Nat × Exc) :=
  (blockVals f planar (packElems 32 (ws.take (blockNw f planar))) (ws.getD 31 0)).map FVal.to32

/-- R271: packing, for each block group of 32 lanes that the run touches. -/
def packBlocks (i : Instr) (d a : Opd) (f : Nat) (planar : Bool) (m : CMode) (s : State) :
    Host.Outcome State Fault Refusal :=
  issue i s fun r =>
    let blk (g : Nat) := packBlock f planar m
      ((List.range 32).map fun k =>
        if has r.lanes (32 * g + k) then f32 (s.w.src a (32 * g + k)) else .fin false 0 0)
      ((List.range 32).map fun k => s.w.getGen (32 * g + k))
    let b0 := blk 0
    let b1 := blk 1
    let pick (l : Nat) := if l < 32 then b0 else b1
    .ok (s.setW (((s.w.write d r.lanes fun l => BitVec.ofNat 32 ((pick l).words.getD (l % 32) 0)).raise r.lanes
      fun l => (pick l).exc.getD (l % 32) {}).putGen r.lanes fun l => (pick l).gens.getD (l % 32) 0))

/-- R272: unpacking; every lane of the group supplies its word. -/
def unpackBlocks (i : Instr) (d a : Opd) (f : Nat) (planar : Bool) (s : State) : Host.Outcome State Fault Refusal :=
  issue i s fun r =>
    let blk (g : Nat) := unpackBlock f planar ((List.range 32).map fun k => (s.w.src a (32 * g + k)).toNat)
    let b0 := blk 0
    let b1 := blk 1
    let pick (l : Nat) := (if l < 32 then b0 else b1).getD (l % 32) (0, {})
    .ok (s.setW ((s.w.write d r.lanes fun l => BitVec.ofNat 32 (pick l).1).raise r.lanes fun l => (pick l).2))

/-- R271. -/
def execCvtBlkPack (d a : Opd) (f : Fin 16) (m : CMode) (s : State) : Host.Outcome State Fault Refusal :=
  packBlocks (.cvtBlkPack d a f m) d a f.val false m s
/-- R272. -/
def execCvtBlkUnpack (d a : Opd) (f : Fin 16) (s : State) : Host.Outcome State Fault Refusal :=
  unpackBlocks (.cvtBlkUnpack d a f) d a f.val false s
/-- R271, planar layout. -/
def execCvtBlkpPack (d a : Opd) (f : Fin 16) (m : CMode) (s : State) : Host.Outcome State Fault Refusal :=
  packBlocks (.cvtBlkpPack d a f m) d a f.val true m s
/-- R272, planar layout. -/
def execCvtBlkpUnpack (d a : Opd) (f : Fin 16) (s : State) : Host.Outcome State Fault Refusal :=
  unpackBlocks (.cvtBlkpUnpack d a f) d a f.val true s

end Sys2Proof.Machine
end

