-- ==== Sys2Proof/Machine/Space.lean ====
section
/-! DEFINITION. The memory spaces of a lane (R33 to R43): the checks of R37, where the bytes of an access live, and the
translation of main-memory addresses (R358 to R361, R365, R151). -/

namespace Sys2Proof.Machine

/-! ### Partitions and virtual functions -/

def State.part? (s : State) (p : Nat) : Option Partition := s.parts.find? fun q => q.idx == p
def State.vf? (s : State) (p v : Nat) : Option Vf := (s.part? p).bind fun q => q.vfs.find? fun x => x.vf == v
def State.mapPart (s : State) (p : Nat) (f : Partition → Partition) : State :=
  { s with parts := s.parts.map fun q => if q.idx = p then f q else q }
def State.mapVf (s : State) (p v : Nat) (f : Vf → Vf) : State :=
  s.mapPart p fun q => { q with vfs := q.vfs.map fun x => if x.vf = v then f x else x }

/-! ### Quotas and metering (R390, R392) -/

def Use.zero (chip p v : Nat) : Use := ⟨chip, p, v, 0, 0, 0, 0, 0, none⟩
def State.useOf (s : State) (chip p v : Nat) : Use :=
  (s.uses.find? fun u => u.chip == chip && u.part == p && u.vf == v).getD (Use.zero chip p v)
def State.mapUse (s : State) (chip p v : Nat) (f : Use → Use) : State :=
  { s with uses := f (s.useOf chip p v) :: s.uses.filter fun u => !(u.chip == chip && u.part == p && u.vf == v) }

/-- R390: whether a limit leaves room; 0 is no limit. -/
def roomFor (quota used n : Nat) : Bool := quota == 0 || used + n ≤ quota
/-- R390: FABQ is in MiB and counts the bytes that accesses and copies send. -/
def State.fabRoom (s : State) (chip p v n : Nat) : Bool :=
  roomFor (((s.vf? p v).map Vf.fabq).getD 0 * 2 ^ 20) (s.useOf chip p v).fab n
def Vf.rates (f : Vf) : Rates := ⟨f.passq, f.hbmsh, f.cpysh, f.weight⟩
/-- R388: the settings that hold for a virtual function on a chip. -/
def State.ratesOf (s : State) (chip p v : Nat) : Rates :=
  match (s.useOf chip p v).rates with
  | some r => r
  | none => ((s.vf? p v).map Vf.rates).getD ⟨0, 0, 0, []⟩
/-- R390: the window's allowance leaves room for `n` bytes of a chip's HBM. -/
def State.hbmRoom (s : State) (chip p v n : Nat) : Bool :=
  roomFor ((s.ratesOf chip p v).hbmsh * 250000) (s.useOf chip p v).hbm n
def State.copyRoom (s : State) (chip p v : Nat) : Bool :=
  roomFor ((s.ratesOf chip p v).cpysh * 281250) (s.useOf chip p v).copy 1
def State.meterFab (s : State) (chip p v n : Nat) : State :=
  (s.mapUse chip p v fun u => { u with fab := u.fab + n }).mapVf p v fun f => { f with fabBytes := f.fabBytes + n }
def State.meterHbm (s : State) (chip p v n : Nat) : State :=
  (s.mapUse chip p v fun u => { u with hbm := u.hbm + n }).mapVf p v fun f => { f with hbmBytes := f.hbmBytes + n }

/-- R390: a lane access that sends `n` bytes holds at issue until FABQ leaves room. -/
def State.sendFab (s : State) (n : Nat) (k : State → Act) : Act :=
  if n = 0 then k s
  else if s.fabRoom s.g.chip s.g.part s.g.vf n then k (s.meterFab s.g.chip s.g.part s.g.vf n)
  else .hold s

/-! ### The checks of R37 -/

/-- One access as R37 checks it: its space, offset, size and alignment, whether it writes, and the odd register of a
`fab` pair. -/
structure Chk where
  sp : Space
  off : Nat
  n : Nat
  al : Nat
  wr : Bool
  odd : Nat
  deriving DecidableEq, Repr

def Warp.segOf (w : Warp) (sp : Space) : Dword := w.getSeg (Space.toNat sp)

/-- R57: the odd register has a reserved bit set, or names a chip outside the connected group. -/
def State.badTarget (s : State) (odd : Nat) : Bool :=
  odd / 2 ^ 16 != 0 || odd / 2 ^ 11 % 2 != 0 || !s.reachable (odd % 2 ^ 11)
/-- R57: the stream that the odd register names. -/
def streamOf (odd : Nat) : Nat := odd / 2 ^ 12 % 16

/-- The failing access with the lowest offset. -/
def lowestChk (l : List Chk) : Option Chk :=
  l.foldl (fun o c => match o with | none => some c | some d => if c.off < d.off then some c else o) none

/-- R37: the four causes in order, each with TRAPA and TRAPV (R368). -/
def State.r37 (s : State) (l : List Chk) : Option (Nat × Dword × Word) :=
  let con := l.filter fun c => c.sp == .con && c.wr
  let mis := l.filter fun c => c.off % c.al != 0
  let lim := l.filter fun c => segLimit (s.w.segOf c.sp) < c.off + c.n
  let far := l.filter fun c => c.sp == .fab && s.badTarget c.odd
  match lowestChk con, lowestChk mis, lowestChk lim, lowestChk far with
  | some c, _, _, _ => some (5, BitVec.ofNat 64 c.off, 0)
  | _, some c, _, _ => some (0x0E, BitVec.ofNat 64 c.off, 0)
  | _, _, some c, _ => some (3, BitVec.ofNat 64 c.off, BitVec.ofNat 32 (Space.toNat c.sp))
  | _, _, _, some c => some (0x11, BitVec.ofNat 64 c.off, BitVec.ofNat 32 (c.odd % 2 ^ 11))
  | none, none, none, none => none

/-- The issue checks come first: a failure traps the run, else the block goes on. -/
def checked (c : Option (Nat × Dword × Word)) (k : Act) : Act :=
  match c with
  | some (cause, a, v) => .trap cause a v
  | none => k

/-! ### Where the bytes of an access live -/

/-- R38: byte `a` of a lane's `priv` slot, from the segment's base. -/
def privOff (a lane : Nat) : Nat := (a - a % 4) * 64 + lane * 4 + a % 4

/-- R38 to R42: the places of the `n` bytes at an offset of a space, as a lane reaches it. -/
def State.bytesAt (s : State) (sp : Space) (off n lane odd : Nat) : List Nat :=
  let base := segBase (s.w.segOf sp)
  (List.range n).map fun j =>
    match sp with
    | .priv => poolKey s.g.chip s.g.core (base + privOff (off + j) lane)
    | .shr => poolKey s.g.chip s.g.core (base + (off + j))
    | .con => poolKey s.g.chip s.g.core (base + (off + j))
    | .dws => dwsKey s.g.chip (base + (off + j))
    | .fab => s.fabKey (odd % 2 ^ 11) (base + (off + j))

/-- Adds an access to the piece of its number, or a piece behind the others. -/
def addAcc (key : Acc → Nat) (a : Acc) : List (List Acc) → List (List Acc)
  | [] => [[a]]
  | p :: ps => if (p.head?.map key) == some (key a) then (p ++ [a]) :: ps else p :: addAcc key a ps

/-- R43, R59: pieces are the accesses of one 128-byte block; here by a number for each access, in the order in which the
numbers first appear. -/
def groupAccs (key : Acc → Nat) (l : List Acc) : List (List Acc) := l.foldl (fun ps a => addAcc key a ps) []

/-- The 128-byte block of an access, from the place of its first byte. -/
def Acc.block (a : Acc) : Nat := a.bytes.headD 0 / 128
/-- An atomic's address. -/
def Acc.addr (a : Acc) : Nat := a.bytes.headD 0

/-! ### Translation -/

/-- What a main-memory access finds: a physical address, a resolvable fault, or a cause with its engine code (R365,
R51). -/
inductive Xlate where
  | ok (pa : Nat)
  | wait
  | bad (cause code : Nat)
  deriving DecidableEq, Repr

/-- R360: bytes of a page size. -/
def pageBytes (size : Nat) : Nat := if size = 0 then 2 ^ 14 else if size = 1 then 2 ^ 20 else 2 ^ 26

/-! R359, R360: the tables. `Vf.table` lists a virtual function's pages; what its tables hold, entry by entry, follows from it, as
Iluloth writes all the entries of a page as one change. Entry `n` of level `k` is the one that addresses with bits
from 14 + 11 × `k` up equal to `n` select, in the table that the level above names. -/

/-- Bytes that an entry of a level covers. -/
def levelBytes (k : Nat) : Nat := 2 ^ (14 + 11 * k)
/-- The level of a page's leaves. -/
def Leaf.level (l : Leaf) : Nat := if l.size = 2 then 1 else 0
/-- The `i`-th entry of a page. -/
def Leaf.word (l : Leaf) (i : Nat) : Nat :=
  (if l.v then 2 ^ 63 else 0) + (if l.w && !l.mig then 2 ^ 62 else 0) + l.size * 2 ^ 59 + (if l.tc then 2 ^ 58 else 0)
    + l.key * 2 ^ 50 + (if l.mig then 2 ^ 49 else 0) + (l.pa / 2 ^ 14 + i * 2 ^ (11 * l.level))
/-- An entry: one that is not valid, one with T, which names the frame of a table, or the `i`-th of a page. -/
inductive Entry where
  | none
  | table (frame : Nat)
  | page (l : Leaf) (i : Nat)
  deriving DecidableEq, Repr
/-- Its 64 bits. -/
def Entry.word (e : Entry) : Nat :=
  match e with
  | .none => 0
  | .table x => 2 ^ 63 + 2 ^ 61 + x
  | .page l i => l.word i
/-- R359: memory that the Hub reserves, at the end of the CXL tier: 2^30 bytes for the tables of each virtual function, behind two units
for the hand-over record and the state blocks, which only Iluloth reaches (R381, log 59). -/
def hubMem : Nat := 2 ^ 40 + 2 ^ 42 - 192 * 2 ^ 30
def ilulothMem : Nat := hubMem - 2 ^ 27
/-- The tables that a virtual function's pages call for, by the level and the number of the entry that names each; the root stands for
itself. -/
def Vf.tables (f : Vf) : List (Nat × Nat) :=
  (f.table.flatMap fun l => ([1, 2, 3].filter fun k => l.level < k).map fun k => (k, l.va / levelBytes k)).dedup
/-- R359, R361: the frame of the root table, and of the table that an entry names. -/
def Vf.rootFrame (f : Vf) (p : Nat) : Nat := (hubMem + (8 * p + f.vf) * 2 ^ 30) / 2 ^ 14
def Vf.tableFrame (f : Vf) (p k n : Nat) : Nat := f.rootFrame p + 1 + f.tables.idxOf (k, n)
/-- Entry `n` of a level. -/
def Vf.entry (f : Vf) (p k n : Nat) : Entry :=
  match f.table.find? fun l => l.level == k && l.va ≤ n * levelBytes k && n * levelBytes k < l.va + pageBytes l.size with
  | some l => .page l (n - l.va / levelBytes k)
  | none =>
    if f.table.any fun l => l.level < k && l.va / levelBytes k == n then .table (f.tableFrame p k n) else .none
/-- R359: the walk from a level down: the entry without T at which it ends, and its level. -/
def Vf.walk (f : Vf) (p a : Nat) : Nat → Entry × Nat
  | 0 => (f.entry p 0 (a / levelBytes 0), 0)
  | k + 1 =>
    match f.entry p (k + 1) (a / levelBytes (k + 1)) with
    | .table _ => f.walk p a k
    | e => (e, k + 1)

/-- R391: a mapping's key slot can be used: Iluloth's slot 0 (log 21), or a slot loaded for the virtual function. -/
def State.keyOk (s : State) (p v k : Nat) : Bool :=
  k == 0 || s.md.keys.any fun q => q.slot == k && q.part == p && q.vf == v

/-- R391: the number of the key pair that a slot holds; Iluloth's own is 0 (log 73). -/
def State.keySerial (s : State) (k : Nat) : Nat := ((s.md.keys.find? fun q => q.slot == k).map KeySlot.serial).getD 0
/-- The 16 KiB frames of a page. -/
def pageFrames (pa size : Nat) : List Nat := (List.range (pageBytes size / 2 ^ 14)).map (pa / 2 ^ 14 + ·)
def framePlaces (l : List Nat) : List Nat := l.flatMap fun f => places (f * 2 ^ 14) (2 ^ 14)
/-- R391: bytes are seen under another key than the one that wrote them: they are free values (log 73). -/
def State.garble (s : State) (ks : List Nat) : State :=
  if ks.isEmpty then s
  else { s with mem := writeBytes s.mem (ks.map fun a => (a, (Config.freeWord (s.free + a)).setWidth 8)), free := s.free + 2 ^ 53 }
/-- The places from `a` on come to hold what those from `b` on hold. -/
def State.copyBytes (s : State) (a b n : Nat) : State := { s with mem := writeBytes s.mem ((places a n).zip ((places b n).map s.rd)) }
/-- R391: where a frame is seen under a key pair; 0 is the frame itself (log 73). -/
def State.viewNo (s : State) (f n : Nat) : Nat := ((s.md.views.find? fun x => x.frame == f && x.serial == n).map KeyView.no).getD 0
/-- The views of a frame, itself among them. -/
def State.viewNos (s : State) (f : Nat) : List Nat := 0 :: (s.md.views.filter fun x => x.frame == f).map KeyView.no
/-- What a frame holds in a view is kept note of, 512 views further on. -/
def State.noteView (s : State) (f no : Nat) : State := s.copyBytes (viewAt (f * 2 ^ 14) (no + 512)) (viewAt (f * 2 ^ 14) no) (2 ^ 14)
def State.addView (s : State) (x : KeyView) : State := { s with md := { s.md with views := x :: s.md.views } }
/-- R391: a frame comes under a key pair, under which what another has written there is no plaintext: it holds free values (log 73). -/
def State.rekeyFrame (s : State) (n f : Nat) : State :=
  if s.md.keyed.contains (f, n) || s.md.views.any (fun x => x.frame == f && x.serial == n) then s
  else if s.md.keyed.all (fun x => x.1 != f) then { s with md := { s.md with keyed := (f, n) :: s.md.keyed } }
  else
    let no := (((List.range 512).drop 1).find? fun j => !(s.viewNos f).contains j).getD 1
    let u := (s.garble (places (viewAt (f * 2 ^ 14) no) (2 ^ 14))).addView ⟨f, n, no⟩
    (u.viewNos f).foldl (fun u j => u.noteView f j) u
/-- R391: frames come under the key of a slot. -/
def State.rekey (s : State) (fs : List Nat) (k : Nat) : State := fs.foldl (fun t f => t.rekeyFrame (s.keySerial k) f) s
/-- R391: a sector that has been written in one view since the last note of it holds free values in the others. -/
def State.syncSector (s : State) (js : List Nat) (a : Nat) : State :=
  let now (j : Nat) : List Byte := (places (viewAt a j) 64).map s.rd
  match js.find? fun j => now j != now (j + 512) with
  | none => s
  | some j =>
    let t := s.garble ((js.filter fun i => i != j).flatMap fun i => places (viewAt a i) 64)
    js.foldl (fun u i => u.copyBytes (viewAt a (i + 512)) (viewAt a i) 64) t
/-- R391: what the last turn has written under one key pair is seen under the others (log 73). -/
def State.syncViews (s : State) : State :=
  (s.md.views.map KeyView.frame).dedup.foldl (fun t f =>
    (List.range 256).foldl (fun u i => u.syncSector (s.viewNos f) (f * 2 ^ 14 + 64 * i)) t) s
/-- R391: the frame of a popped KV block comes under the key of a slot alone. -/
def State.rekeyBlock (s : State) (f k : Nat) : State :=
  let n := s.keySerial k
  let t := if s.md.keyed.any fun x => x.1 == f && x.2 != n then s.garble (framePlaces [f]) else s
  { t with md := { t.md with keyed := (f, n) :: t.md.keyed.filter (fun x => x.1 != f), views := t.md.views.filter fun x => x.frame != f } }

/-- R365: the allocation tag stored with the sector of a physical address. -/
def State.tagAt (s : State) (pa : Nat) : Nat := (getKey s.tagsMem (pa / 64) 0).toNat
/-- R361, R148: the page of a sequence record of this module: in memory that Iluloth keeps for itself, the highest 64 MiB of each
chip's HBM. -/
def recPlace (slot : Nat) : Nat := (slot / 1024 + 1) * 2 ^ 37 - 2 ^ 26 + slot % 1024 * 2 ^ 14
/-- The slot whose record's page a physical address lies in. -/
def recSlot (pa : Nat) : Option Nat :=
  let o := pa % 2 ^ 37
  if pa < 2 ^ 40 && 2 ^ 37 - 2 ^ 26 ≤ o && o < 2 ^ 37 - 2 ^ 26 + 2 ^ 24 then
    some (pa / 2 ^ 37 * 1024 + (o - (2 ^ 37 - 2 ^ 26)) / 2 ^ 14)
  else none
/-- R148: a record's 256 bytes, as its fields stand. -/
def Seq.image (q : Seq) : List Byte :=
  leBytes 2 q.view ++ [q.width, q.pend, q.state, q.policy, q.gran, q.lasterr].map (BitVec.ofNat 8) ++ leBytes 8 q.tokens
    ++ leBytes 8 q.fst0.toNat ++ leBytes 8 q.fst1.toNat ++ leBytes 4 q.fstride.toNat ++ leBytes 4 q.deadline ++ leBytes 4 q.tpm
    ++ leBytes 1 q.minw ++ leBytes 1 q.maxw ++ leBytes 2 0 ++ leBytes 4 q.cut ++ leBytes 4 q.hdim ++ leBytes 8 q.lbuf
    ++ leBytes 8 q.latemask.toNat ++ leBytes 4 q.latelap ++ leBytes 20 0 ++ q.members.flatMap (fun c => leBytes 2 (c % 2 ^ 11)) ++ leBytes 32 0
/-- A byte of main memory: of a sequence record's page, as the record's fields stand; a slot that is not assigned holds zeros (R148). -/
def State.rdMain (s : State) (k : Nat) : Byte :=
  match recSlot k with
  | none => s.rd k
  | some n =>
    match s.seqs.find? fun q => q.slot == n with
    | some q => q.image.getD (k % 2 ^ 14) 0
    | none => 0
/-- R371, R372: the condition that a place's codeword shows: 1 uncorrectable, 3 misdirected; a misdirection of one access
is kept as 4. -/
def State.eccAt (s : State) (k : Nat) : Nat :=
  let c := getKey s.ecc (eccNo k) 0
  if c = 4 then 3 else c
/-- R372: a write of part of a sector of main memory that cannot be read fails with its code. -/
def State.partial? (s : State) (ks : List Nat) : Option Nat :=
  (ks.find? fun k => k < 2 ^ 53 && s.eccAt k != 0 && !(eccPlaces (eccNo k)).all fun q => ks.any fun x => physAt x == q).map s.eccAt

/-- R358: an address's bits: tag, the 58-bit address. -/
def vaTag (va : Nat) : Nat := va / 2 ^ 60 % 16
def vaAddr (va : Nat) : Nat := va % 2 ^ 58

/-- R150: how a block's second-stage entry names a chip, by its global number. -/
def State.kvChip (s : State) (g : Nat) : Nat := match s.localChip g with | some c => c | none => 8 + g
/-- R150: the second-stage entry of a block in use. -/
def State.kvBlock (s : State) (chip tier block : Nat) : Option KvBlock :=
  s.kv.find? fun b => b.chip == s.kvChip chip && b.tier == tier && b.block == block
/-- R150: the entry as a word: V, REFC, TAG, KEYID, FRAME. -/
def KvBlock.word (b : KvBlock) : Nat := 2 ^ 63 + b.refc * 2 ^ 51 + b.tag * 2 ^ 47 + b.key * 2 ^ 39 + b.frame
/-- R151: the block belongs to the tenant of a virtual function of this module. -/
def KvBlock.tenant (b : KvBlock) (p v kvw : Nat) : Bool :=
  if b.chip < 8 then b.part == p && b.vf == v else b.vf == kvw
/-- The place of a block's position slot. Blocks of other modules have places of their own. -/
def KvBlock.pa (b : KvBlock) (slot : Nat) : Nat :=
  (if b.chip < 8 then b.frame * 2 ^ 14 else 2 ^ 71 + ((b.chip - 8) * 2 + b.tier) * 2 ^ 37 + b.block * 2 ^ 14) + 256 * slot

/-- R151: a KV address meets its block's second-stage entry on the owning chip, whose key slots on another module are that module's.
DESIGN CHOICE: the TAG is compared for blocks in HBM alone, since the CXL tier stores no tags (log 41). -/
def State.xlateKv (s : State) (p v kvw va : Nat) : Xlate :=
  let chip := va / 2 ^ 38 % 2 ^ 11
  match s.kvBlock chip (va / 2 ^ 37 % 2) (va / 2 ^ 14 % 2 ^ 23) with
  | none => .bad 4 4
  | some b =>
    if !b.tenant p v kvw then .bad 4 4
    else if !s.linked chip then .bad 0x11 6
    else if b.chip < 8 && !s.keyOk p v b.key then .bad 5 0x0A
    else if b.tier = 0 && b.tag != vaTag va then .bad 6 2
    else .ok (b.pa 0 + va % 2 ^ 14)

/-- A chip of another module. -/
def State.far (s : State) (g : Nat) : Bool := (s.localChip g).isNone

/-- R151: an address of a virtual function is a KV address on a chip of another module. -/
def State.kvFar (s : State) (p v va : Nat) : Bool :=
  match s.vf? p v with
  | some f => f.kvw != 0 && vaAddr va / 2 ^ 49 == f.kvw && s.far (va / 2 ^ 38 % 2 ^ 11)
  | none => false
/-- R358 to R361, R365, R366: one access of a virtual function. -/
def State.xlate (s : State) (p v va : Nat) (wr : Bool) : Xlate :=
  if va / 2 ^ 58 % 4 != 0 then .bad 4 4
  else
    match s.vf? p v with
    | none => .bad 4 4
    | some f =>
      let a := vaAddr va
      if f.kvw != 0 && a / 2 ^ 49 == f.kvw then s.xlateKv p v f.kvw va
      else
        let e := (f.walk p a 3).1.word
        let on (i : Nat) : Bool := e / 2 ^ i % 2 == 1
        if !on 63 then (if on 49 then .wait else .bad 4 4)
        else if wr && on 49 then .wait
        else if wr && !on 62 then .bad 5 5
        else if !s.keyOk p v (e / 2 ^ 50 % 2 ^ 8) then .bad 5 0x0A
        else
          let pa := e % 2 ^ 38 * 2 ^ 14 + a % levelBytes (f.walk p a 3).2
          if on 58 && s.tagAt pa != vaTag va then .bad 6 2
          else .ok (viewAt pa (s.viewNo (pa / 2 ^ 14) (s.keySerial (e / 2 ^ 50 % 2 ^ 8))))

/-- R360: the key slot of the page that an address names. -/
def State.pageKey (s : State) (p v va : Nat) : Option Nat :=
  match s.vf? p v with
  | none => none
  | some f =>
    let a := vaAddr va
    if f.kvw != 0 && a / 2 ^ 49 == f.kvw then
      ((s.kvBlock (va / 2 ^ 38 % 2 ^ 11) (va / 2 ^ 37 % 2) (va / 2 ^ 14 % 2 ^ 23)).filter fun b => b.tenant p v f.kvw).map KvBlock.key
    else
      let e := (f.walk p a 3).1.word
      if e / 2 ^ 63 % 2 = 1 || e / 2 ^ 49 % 2 = 1 then some (e / 2 ^ 50 % 2 ^ 8) else none

/-- R365, R372: what an access to main memory finds, the codeword's condition included. -/
def State.probe (s : State) (p v va : Nat) (wr : Bool) : Xlate :=
  match s.xlate p v va wr with
  | .ok pa => if s.eccAt pa = 0 then .ok pa else .bad 0x12 (s.eccAt pa)
  | x => x

/-! ### Look-aside buffers (R364, R365) -/

/-- The page of an address that is no KV address, by its first address. -/
def State.pageOf (s : State) (p v va : Nat) : Option Nat :=
  let a := vaAddr va
  (s.vf? p v).bind fun f =>
    if f.kvw != 0 && a / 2 ^ 49 == f.kvw then none
    else (f.table.find? fun l => l.va ≤ a && a < l.va + pageBytes l.size).map Leaf.va
/-- An entry in front of the others, most recent first: at most `n` where `near` holds of them. -/
def useEntry (near : TlbEntry → Bool) (n : Nat) (e : TlbEntry) (l : List TlbEntry) : List TlbEntry :=
  let rest := l.filter fun x => x != e
  e :: (rest.filter near).take (n - 1) ++ rest.filter fun x => !near x
/-- R365: one look-up of a page by the selected warp's core: the buffer holds 256 entries; what it misses comes from the chip's
walker, which holds 8192 leaf entries, 4 in a set. -/
def State.lookPage (s : State) (e : TlbEntry) : State :=
  let old := getKey s.tlbs s.coreNo []
  let t := { s with tlbs := setKey s.tlbs s.coreNo (useEntry (fun _ => true) 256 e old) }
  if old.contains e then t
  else
    let near (x : TlbEntry) : Bool := Config.walkerSet x.va == Config.walkerSet e.va
    { t with walkers := setKey t.walkers t.g.chip (useEntry near 4 e (getKey t.walkers t.g.chip [])) }
/-- R365: the addresses that one instruction's lanes submit: one look-up for each page. -/
def State.lookUp (s : State) (vas : List Nat) : State :=
  (vas.filterMap (s.pageOf s.g.part s.g.vf)).dedup.foldl (fun t a => t.lookPage ⟨s.g.part, s.g.vf, a⟩) s
/-- R364: a shootdown of some pages of a virtual function, on every chip. -/
def State.shoot (s : State) (p v : Nat) (pages : List Nat) : State :=
  let keep (l : List TlbEntry) := l.filter fun e => !(e.part == p && e.vf == v && pages.contains e.va)
  { s with tlbs := s.tlbs.map fun q => (q.1, keep q.2), walkers := s.walkers.map fun q => (q.1, keep q.2) }

def Xlate.spots (x : Xlate) (n : Nat) : List Nat := match x with | .ok pa => places pa n | _ => []
def Xlate.waits (x : Xlate) : Bool := match x with | .wait => true | _ => false

/-- R372, R402: an access has met the condition of a sector: a misdirection that happens once reads well the next time, and the channel
has returned an uncorrectable error. -/
def State.eccSeen (s : State) (pa : Nat) : State :=
  match getKey s.ecc (eccNo pa) 0 with
  | 4 => { s with ecc := s.ecc.filter fun p => p.1 != eccNo pa }
  | 1 => if (homeChip pa).isSome then { s with md := { s.md with failed := physAt pa / 2 ^ 31 :: s.md.failed } } else s
  | _ => s


/-- R390: the HBM bytes at each place, and whether each chip's share leaves room for them. -/
def hbmChips (ks : List Nat) : List Nat := ks.filterMap homeChip
def State.hbmRoomAll (s : State) (p v : Nat) (ks : List Nat) : Bool :=
  (hbmChips ks).dedup.all fun c => s.hbmRoom c p v ((hbmChips ks).count c)
def State.meterHbmAll (s : State) (p v : Nat) (ks : List Nat) : State :=
  (hbmChips ks).dedup.foldl (fun t c => t.meterHbm c p v ((hbmChips ks).count c)) s

end Sys2Proof.Machine
end

