-- ==== Sys2Proof/Machine/LoadStore.lean ====
section
/-! DEFINITION. Loads and stores, majors 0x22 to 0x24 (R43, R44, R59, R60, R75, R227 to R232): the pieces that an
instruction puts on their way, and what each does when it is performed. -/

namespace Sys2Proof.Machine

/-! ### When a piece may be performed (R75) -/

def overlap (a b : List Nat) : Bool := a.any fun k => b.contains k

/-- The lanes that an access of a piece answers to: all of them for a uniform load. -/
def MemOp.who (o : MemOp) (a : Acc) : LaneMask :=
  match o.kind with | .load _ true => o.lanes | _ => laneBit a.lane

/-- R75: a piece waits for every older access to its bytes that is visible to its lanes. -/
def State.mayPerform (s : State) (o : MemOp) : Bool :=
  (s.pend.takeWhile fun p => p.id != o.id).all fun p => p.accs.all fun a =>
    o.accs.all fun b => !(a.binds o.core o.gid o.wid (o.who b) && overlap a.bytes b.bytes)

/-- R75, R371: an instruction that acts at the home at once waits for the earlier accesses to its bytes that its lanes see, and
traps where it would consume an uncorrectable word (log 99). -/
def State.ordered (s : State) (m : LaneMask) (ks : List Nat) (k : Act) : Act :=
  if s.pend.any fun o => o.accs.any fun a => a.binds s.coreNo s.g.id s.w.idx m && overlap a.bytes ks then .hold s
  else match ks.find? fun p => s.eccAt p != 0 with
    | some p => .trap 0x12 (BitVec.ofNat 64 (p % 2 ^ 24)) 1
    | none => k

/-! ### Putting pieces on their way -/

/-- R13: CYC of a core. -/
def State.cyc (s : State) (core : Nat) : Nat := s.clk.core.getD core 0

/-- A piece of the selected warp, not numbered yet. -/
def State.newOp (s : State) (r : Run) (kind : MKind) (n reg : Nat) (lanes : LaneMask) (va : List (Nat × Nat))
    (accs : List Acc) : MemOp :=
  { id := 0, gid := s.g.id, wid := s.w.idx, core := s.coreNo, kind := kind, n := n, accs := accs, lanes := lanes, va := va,
    reg := reg, flag := none, issued := s.cyc s.coreNo, pc := r.pc, fab := none, deferred := false, failed := none,
    part := s.g.part, vf := s.g.vf }

def State.push (s : State) (o : MemOp) : State :=
  { s with pend := s.pend ++ [{ o with id := s.nextId }], nextId := s.nextId + 1 }

def Acc.lanesOf (p : List Acc) : LaneMask := maskOf (p.map Acc.lane)

/-- The entries of a table of lanes that lie in a set. -/
def onlyLanes {β : Type} (l : List (Nat × β)) (m : LaneMask) : List (Nat × β) := l.filter fun p => has m p.1

/-- R37, R230: one access of a lane: its offset and, for `fab`, the odd register. -/
structure Ref where
  lane : Nat
  off : Nat
  odd : Nat
  deriving DecidableEq, Repr

/-- R230, R42: what a lane's operands name; the offset is a 33-bit sum. -/
def Warp.ref (w : Warp) (fab : Bool) (base : Opd) (off i : Nat) : Ref :=
  ⟨i, (w.src base i).toNat + off, if fab then (w.getAt base 1 i).toNat else 0⟩

def Space.isFab (sp : Space) : Bool := match sp with | .fab => true | _ => false

def Ref.chk (f : Ref) (sp : Space) (n : Nat) (wr : Bool) : Chk := ⟨sp, f.off, n, n, wr, f.odd⟩

/-- The access that a reference makes. -/
def State.acc (s : State) (sp : Space) (n : Nat) (f : Ref) (data : List Byte) : Acc :=
  ⟨f.lane, s.bytesAt sp f.off n f.lane f.odd, data, [s.party (laneBit f.lane)]⟩

/-- R57: the chips and the stream of a piece, from its lowest lane's reference. -/
def State.fabOf (s : State) (sp : Space) (fs : List Ref) (p : List Acc) : Option Fab :=
  if Space.isFab sp then
    (p.head?.bind fun a => fs.find? fun f => f.lane == a.lane).map fun f =>
      { src := s.global s.g.chip, dst := f.odd % 2 ^ 11, stream := streamOf f.odd, count := 0, diverted := false }
  else none

/-- R43: the pieces of one instruction go on their way, in ascending order of their lowest lanes. -/
def State.pushPieces (s : State) (r : Run) (kind : MKind) (n reg : Nat) (sp : Space) (fs : List Ref)
    (ps : List (List Acc)) : State :=
  ps.foldl (fun t p =>
    let m := Acc.lanesOf p
    t.push { t.newOp r kind n reg m (onlyLanes (fs.map fun f => (f.lane, f.off)) m) p with
      fab := (t.fabOf sp fs p).map fun f => { f with born := t.nextId } }) s

/-! ### Loads (R229 to R231) -/

/-- R230. -/
def execLd (data base : Opd) (off : Fin 32) (size : MSize) (sp : Space) (s : State) :
    Host.Outcome State Fault Refusal :=
  issue (.ld data base off size sp) s fun r =>
    let n := size.bytes
    let uni := data.kind == 2
    if uni && (!base.uniform || sp == .priv) then Act.trapAt r 1
    else
      let ls := if uni then [lowLane r.lanes] else lanesOf r.lanes
      let fs := ls.map (s.w.ref (Space.isFab sp) base (off.val * n))
      let kind := MKind.load (size == .b8s || size == .b16s) uni
      checked (s.r37 (fs.map fun f => f.chk sp n false)) <|
        if uni then
          let p := fs.map fun f => { s.acc sp n f [] with seen := [s.party r.lanes] }
          .ok (s.push { s.newOp r kind n data.toNat r.lanes (fs.map fun f => (f.lane, f.off)) p with
            fab := s.fabOf sp fs p })
        else .ok (s.pushPieces r kind n data.toNat sp fs (groupAccs Acc.block (fs.map fun f => s.acc sp n f [])))

/-! ### Stores (R44, R231, R232) -/

/-- R229: the bytes that a lane stores. -/
def Warp.storeBytes (w : Warp) (data : Opd) (z : MSize) (i : Nat) : List Byte :=
  match z with
  | .b64 => leBytes 8 (w.src64 data i).toNat
  | .b128 => (List.range 4).flatMap fun j => leBytes 4 (w.getAt data j i).toNat
  | z => leBytes z.bytes (w.src data i).toNat

def State.mapStream (s : State) (src dst no : Nat) (f : Stream → Stream) : State :=
  match s.streams.find? (fun x => x.src == src && x.dst == dst && x.no == no) with
  | some x => { s with streams := f x :: s.streams.filter fun y => y != x }
  | none => { s with streams := f ⟨src, dst, no, 0, 0⟩ :: s.streams }

/-- R60: the source's count of a stream since its last release. -/
def State.sent (s : State) (src dst no : Nat) : Nat :=
  ((s.streams.find? fun x => x.src == src && x.dst == dst && x.no == no).map Stream.sent).getD 0

/-- R59, R60: the port accepts a piece, and sends a release of its own at 65,535. -/
def State.acceptPiece (s : State) (r : Run) (f : Fab) : State :=
  let t := s.mapStream f.src f.dst f.stream fun x => { x with sent := x.sent + 1 }
  if t.sent f.src f.dst f.stream = 65535 then
    (t.push { t.newOp r .release 0 127 0 [] [] with fab := some { f with count := 65535, born := t.nextId } }).mapStream f.src f.dst
      f.stream fun x => { x with sent := 0 }
  else t

/-- R59: the stream that a lane's reference names. -/
def laneStream (fs : List Ref) (l : Nat) : Nat := ((fs.find? fun f => f.lane == l).map fun f => streamOf f.odd).getD 0

/-- R44: what a lane stores of its bytes where lanes of one instruction name different streams: those that no higher lane stores. -/
def Acc.shown (all : List Acc) (a : Acc) : Acc :=
  let l := (a.bytes.zip a.data).filter fun p => !all.any fun b => a.lane < b.lane && b.bytes.contains p.1
  { a with bytes := l.map Prod.fst, data := l.map Prod.snd }

/-- R43, R59: the pieces of a `fab` store, one stream apart from another, in ascending lane order. -/
def State.pushStreams (s : State) (r : Run) (n : Nat) (fs : List Ref) (accs : List Acc) : State :=
  (groupAccs (fun a => 16 * a.block + laneStream fs a.lane) accs).foldl (fun u p =>
    match u.fabOf .fab fs p with
    | none => u
    | some f => (u.pushPieces r .store n 127 .fab fs [p.map (Acc.shown accs)]).acceptPiece r f) s

/-- R230. -/
def execSt (data base : Opd) (off : Fin 32) (size : MSize) (sp : Space) (s : State) :
    Host.Outcome State Fault Refusal :=
  issue (.st data base off size sp) s fun r =>
    let n := size.bytes
    let fs := (lanesOf r.lanes).map (s.w.ref (Space.isFab sp) base (off.val * n))
    let accs := fs.map fun f => s.acc sp n f (s.w.storeBytes data size f.lane)
    checked (s.r37 (fs.map fun f => f.chk sp n true)) <|
      if Space.isFab sp then s.sendFab (n * fs.length) fun t => .ok (t.pushStreams r n fs accs)
      else .ok (s.pushPieces r .store n 127 sp fs (groupAccs Acc.block accs))

/-- R60: a lane's release carries the count of its stream, which starts again. -/
def State.pushRelease (s : State) (r : Run) (n : Nat) (f : Ref) (data : List Byte) : State :=
  let p := [s.acc .fab n f data]
  match s.fabOf .fab [f] p with
  | none => s
  | some b =>
    (s.push { s.newOp r .release n 127 (laneBit f.lane) [(f.lane, f.off)] p with
      fab := some { b with count := s.sent b.src b.dst b.stream, born := s.nextId } }).mapStream b.src b.dst b.stream
        fun x => { x with sent := 0 }

/-- R232. -/
def execStFabRel (data base : Opd) (off : Fin 32) (size : MSize) (s : State) : Host.Outcome State Fault Refusal :=
  issue (.stFabRel data base off size) s fun r =>
    let n := size.bytes
    let fs := (lanesOf r.lanes).map (s.w.ref true base (off.val * n))
    checked (s.r37 (fs.map fun f => f.chk .fab n true)) <|
      s.sendFab (n * fs.length) fun u =>
        .ok (fs.foldl (fun t f => t.pushRelease r n f (s.w.storeBytes data size f.lane)) u)

/-! ### Performing a piece -/

def State.op? (s : State) (id : Nat) : Option MemOp := s.pend.find? fun o => o.id == id
def State.dropOp (s : State) (id : Nat) : State := { s with pend := s.pend.filter fun o => o.id != id }
def State.mapOp (s : State) (id : Nat) (f : MemOp → MemOp) : State :=
  { s with pend := s.pend.map fun o => if o.id = id then f o else o }

/-- R230: the words that a load's value fills, lowest first. -/
def loadWord (n : Nat) (signed : Bool) (v j : Nat) : Word :=
  if n = 1 && signed then (BitVec.ofNat 8 v).signExtend 32
  else if n = 2 && signed then (BitVec.ofNat 16 v).signExtend 32
  else BitVec.ofNat 32 (v / 2 ^ (32 * j))

/-- R304: a write at or above the allocation, or the operation's `cap`, is dropped; a retired lane's value is discarded (R207). -/
def Warp.land (w : Warp) (cap : Nat) (o : Opd) (j : Nat) (m : LaneMask) (f : Nat → Word) : Warp :=
  match o with
  | .v r => if r.val + j < min w.nregs cap then w.putV (r.val + j) (m &&& w.live) f else w
  | .s r => if m &&& w.live = 0 then w else w.putS (r.val + j) (f (lowLane m))
  | _ => w

/-- A returned run of words reaches the registers, and the assignment ends for its lanes (R193). -/
def State.landOp (s : State) (o : MemOp) (k : Nat) (f : Nat → Nat → Word) : State :=
  s.mapWarp o.gid o.wid fun w =>
    ((List.range k).foldl (fun v j => v.land o.cap (Opd.ofBits o.reg) j o.lanes (f j)) w).endFlag o.flag (lanesOf o.lanes)

/-- R231: a load's reply: the bytes as they stand at their homes now. -/
def State.replyLoad (s : State) (o : MemOp) : State :=
  match o.kind with
  | .load signed uni =>
    let vs := o.accs.map fun a => (a.lane, readLE s.mem a.bytes)
    let v (i : Nat) := if uni then (vs.head?.map Prod.snd).getD 0 else getKey vs i 0
    (s.landOp o (max (o.n / 4) 1) fun j i => loadWord o.n signed (v i) j).dropOp o.id
  | _ => s

/-- R44, R74: a store is performed, a later lane's byte over an earlier one's. -/
def State.performStore (s : State) (o : MemOp) : State :=
  let t := (s.wrs (o.accs.flatMap fun a => a.bytes.zip a.data)).dropOp o.id
  match o.fab with
  | none => t
  | some f => t.mapStream f.src f.dst f.stream fun x => { x with arrived := x.arrived + 1 }

/-- R59: two pieces belong to one stream of a pair of chips. -/
def Fab.sameStream (f q : Fab) : Bool := q.src == f.src && q.dst == f.dst && q.stream == f.stream

/-- R60, R62: the target's count has reached the release's, every store that it covers has arrived, and no earlier release of its stream
stands before it, nor one that cannot be delivered and is outstanding (log 101). -/
def State.releaseReady (s : State) (o : MemOp) (f : Fab) : Bool :=
  (((s.streams.find? fun x => x.src == f.src && x.dst == f.dst && x.no == f.stream).map Stream.arrived).getD 0
    ≥ f.count)
  && (s.pend.all fun p => match p.kind, p.fab with
      | .store, some q => !(f.sameStream q && q.born < f.born)
      | _, _ => true)
  && (s.pend.takeWhile fun p => p.id != o.id).all fun p =>
      match p.kind, p.fab with
      | .release, some q => !f.sameStream q
      | _, _ => true

def State.performRelease (s : State) (o : MemOp) (f : Fab) : State :=
  ((s.wrs (o.accs.flatMap fun a => a.bytes.zip a.data)).dropOp o.id).mapStream f.src f.dst f.stream
    fun x => { x with arrived := x.arrived - f.count }

/-- The operation that an event names, if it is of the event's kind and may be performed now (log 7). -/
def State.due (s : State) (id : Nat) (p : MemOp → Bool) : Option MemOp :=
  (s.op? id).bind fun o => if p o && o.failed.isNone && s.mayPerform o then some o else none

/-- The part of an operation that belongs to some of its lanes. -/
def MemOp.cut (o : MemOp) (m : LaneMask) : MemOp :=
  let uni := match o.kind with | .load _ u => u | _ => false
  { o with
    lanes := o.lanes &&& m
    accs := if uni then o.accs else o.accs.filter fun a => has m a.lane
    va := if uni then o.va else onlyLanes o.va m }

/-- R212: operations of the selected warp that trap some of their lanes go with them, their assignments included; what belongs to
other lanes stays. -/
def State.takeOps (s : State) (os : List MemOp) (m : LaneMask) : List MemOp × State :=
  let mine := (os.zip (List.range os.length)).map fun p => { p.1.cut m with id := s.nextId + p.2 }
  let w := mine.foldl (fun w (o : MemOp) => w.endFlag o.flag (lanesOf o.lanes)) s.w
  let rest (o : MemOp) : Option MemOp :=
    if !os.contains o then some o else if o.lanes &&& ~~~ m = 0 then none else some (o.cut (~~~ m))
  (mine, { s with pend := s.pend.filterMap rest, nextId := s.nextId + os.length, w := w })

def MKind.isStore (k : MKind) : Bool := match k with | .store => true | _ => false
def MKind.isRelease (k : MKind) : Bool := match k with | .release => true | _ => false

/-- R58: the target can still be reached. -/
def State.deliverable (s : State) (o : MemOp) : Bool :=
  match o.fab with | none => true | some f => s.linked f.dst

/-- R60, R75: an operation cannot be performed before another: it is a later piece of a release's stream, or accesses bytes of an
earlier access that its lanes see. -/
def MemOp.waitsFor (p o : MemOp) : Bool :=
  (MKind.isRelease p.kind && match p.fab, o.fab with
    | some q, some f => f.sameStream q
    | _, _ => false)
  || o.accs.any fun a => p.accs.any fun b => a.binds p.core p.gid p.wid (p.who b) && overlap a.bytes b.bytes
/-- An operation and the later ones that cannot be performed before it. -/
def State.waitersOf (s : State) (o : MemOp) : List MemOp :=
  (s.pend.filter fun p => o.id < p.id).foldl (fun l p => if l.any p.waitsFor then p :: l else l) [o]

/-- R73, R87: a party takes in a command of a chip. -/
def Party.reaches (id chip : Nat) (p : Party) : Bool :=
  match p with
  | .cmd k => k == id
  | .chip c => c == chip
  | .fenced sc c _ => 2 ≤ sc && scopeMeets sc c 0 (16 * chip) 0
  | _ => false
/-- R62: a unit of a command has landed, or its command has ended. -/
def State.unitGone (s : State) (x : Nat × Nat) : Bool := s.copies.all fun c => c.id != x.1 || c.done.contains x.2
/-- R87: a command is to see an operation before it goes on. -/
def State.copyAfter (s : State) (id : Nat) (o : MemOp) : Bool :=
  s.copies.any fun c => c.id == id && o.accs.any fun a => a.seen.any (Party.reaches c.id c.chip)
/-- R62: the packets that were behind a diverted one have arrived, but for those that wait for it (R60, R75, R87) and for failed ones. -/
def State.drained (s : State) (o : MemOp) : Bool :=
  match o.fab with
  | none => true
  | some f =>
    (f.behind.all fun k => match s.op? k with
      | none => true
      | some p => p.failed.isSome || (s.waitersOf o).any fun q => q.id == k)
    && f.units.all fun x => s.unitGone x || s.copyAfter x.1 o

/-- R57, R84: an operation that another chip's fabric port performs: every one at `sys` scope. -/
def MemOp.remote (o : MemOp) : Bool :=
  o.fab.isSome || match o.kind with | .atomic _ _ .sys _ _ => true | _ => false
/-- R63: an operation whose lanes wait for a response. -/
def MKind.asks (k : MKind) : Bool :=
  match k with | .load _ _ => true | .atomic _ _ _ _ ret => ret | _ => false
/-- R63: no response has arrived within 2^24 cycles: the source has given up, and takes none later. -/
def State.overdue (s : State) (o : MemOp) : Bool :=
  o.remote && MKind.asks o.kind && o.issued + 2 ^ 24 ≤ s.cyc o.core

/-- R371: the accesses of a piece that would consume an uncorrectable word. -/
def State.badAccs (s : State) (o : MemOp) : List Acc := o.accs.filter fun a => a.bytes.any fun k => s.eccAt k != 0
/-- R371: an uncorrectable word that a piece would consume: the lane with the lowest offset among those that meet one. -/
def State.badWord (s : State) (o : MemOp) : Option (Nat × Nat) :=
  ((s.badAccs o).map fun a => (a.lane, getKey o.va a.lane 0)).foldl
    (fun b p => match b with | none => some p | some q => if p.2 < q.2 then some p else some q) none

/-- Some lanes of a piece meet a failure, each piece of them with its trap; the others keep what is theirs. -/
def State.splitFail (s : State) (o : MemOp) (l : List (LaneMask × Nat × Dword × Word)) : State :=
  let m := l.foldl (fun m p => m ||| p.1) 0
  let bad := (l.zip (List.range l.length)).map fun p => { o.cut p.1.1 with id := s.nextId + p.2, failed := some p.1.2 }
  { s with
    nextId := s.nextId + l.length
    pend := s.pend.flatMap fun p => if p.id = o.id then (if o.lanes &&& ~~~ m = 0 then bad else p.cut (~~~ m) :: bad) else [p] }

/-- R371: the lanes of a piece that meet an uncorrectable word are to take trap 0x12, and nothing returns to them. -/
def State.failWord (s : State) (o : MemOp) (va : Nat) : State :=
  s.splitFail o [((s.badAccs o).foldl (fun m a => m ||| o.who a) 0, 0x12, BitVec.ofNat 64 va, 1)]

/-- R231, R371. -/
def execLoadReply (op : Nat) (s : State) : Host.Outcome State Fault Refusal :=
  match s.due op (fun o => !MKind.writes o.kind && s.deliverable o && s.drained o && !s.overdue o) with
  | some o => .next (match s.badWord o with | some p => s.failWord o p.2 | none => s.replyLoad o)
  | none => .next s

/-- R74. -/
def execStorePerformed (op : Nat) (s : State) : Host.Outcome State Fault Refusal :=
  match s.due op (fun o => MKind.isStore o.kind && s.deliverable o && s.drained o) with
  | some o => .next (s.performStore o)
  | none => .next s

/-- R60. -/
def execReleasePerform (op : Nat) (s : State) : Host.Outcome State Fault Refusal :=
  match s.due op (fun o => MKind.isRelease o.kind && s.deliverable o && s.drained o) with
  | some o =>
    match o.fab with
    | some f => if s.releaseReady o f then .next (s.performRelease o f) else .next s
    | none => .next s
  | none => .next s

end Sys2Proof.Machine
end

