-- ==== Sys2Proof/Machine/Atomics.lean ====
section
/-! DEFINITION. Atomics and reductions, majors 0x25 and 0x26 (R84, R85, R111, R233 to R236). An instruction puts one
piece for each address on its way; the piece's lanes are performed at the home in ascending order. Atomics of
different scopes overlap where a turn of the agenda has one of them read early (log 11). -/

namespace Sys2Proof.Machine

/-! ### The update (R235) -/

def AType.bytes (t : AType) : Nat := match t with | .n64 => 8 | _ => 4

def i32min (a b : Nat) : Nat := if (BitVec.ofNat 32 a).sle (BitVec.ofNat 32 b) then a else b
def i32max (a b : Nat) : Nat := if (BitVec.ofNat 32 a).sle (BitVec.ofNat 32 b) then b else a

/-- The value that takes the place of `old`; `y` is the new value of `cas`. -/
def AOp.update (op : AOp) (ty : AType) (old x y : Nat) : Nat :=
  match op with
  | .add =>
    match ty with
    | .f32 => (add32 .nearest (BitVec.ofNat 32 old) (BitVec.ofNat 32 x)).1.toNat
    | t => (old + x) % 256 ^ AType.bytes t
  | .min =>
    match ty with
    | .i32 => i32min old x
    | .f32 => (minmax32 false (BitVec.ofNat 32 old) (BitVec.ofNat 32 x)).1.toNat
    | _ => Nat.min old x
  | .max =>
    match ty with
    | .i32 => i32max old x
    | .f32 => (minmax32 true (BitVec.ofNat 32 old) (BitVec.ofNat 32 x)).1.toNat
    | _ => Nat.max old x
  | .and => old &&& x
  | .or => old ||| x
  | .xor => old ^^^ x
  | .xchg => x
  | .cas => if old = x then y else old
  | .incw => if x ≤ old then 0 else old + 1
  | .decw => if old = 0 || x < old then x else old - 1

/-! ### Issue (R234) -/

/-- R84: the space that a scope implies. -/
def Scope.space (sc : Scope) : Space := match sc with | .grp => .shr | .clu => .dws | .chip => .dws | .sys => .fab
def Scope.isSys (sc : Scope) : Bool := match sc with | .sys => true | _ => false

/-- R174, R234: the operand of a lane, and the new value of `cas` behind it. -/
def Warp.atomData (w : Warp) (op : AOp) (ty : AType) (d : Opd) (i : Nat) : List Byte :=
  let n := AType.bytes ty
  let x := match ty with
    | .n64 => (w.src64 d i).toNat
    | .f32 => (w.srcF d i).toNat
    | _ => (w.src d i).toNat
  let y := match op, ty with
    | .cas, .n64 => (w.getAt d 3 i ++ w.getAt d 2 i).toNat
    | .cas, _ => (w.getAt d 1 i).toNat
    | _, _ => 0
  leBytes n x ++ leBytes n y

/-- R234: the lowest address that is not aligned. -/
def misaligned (n : Nat) (vs : List (Nat × Nat)) : Option Nat :=
  ((vs.map Prod.snd).filter fun a => a % n != 0).min?

/-- Adds lanes to those of the run whose access met a resolvable fault (R20). -/
def State.addFaulted (s : State) (m : LaneMask) : State :=
  match s.w.run with
  | none => s
  | some r => s.setW { s.w with run := some { r with faulted := r.faulted ||| m } }

/-- R34: an address without its tag. -/
def untagged (va : Nat) : Nat := va % 2 ^ 60

/-- R75, R366: where the bytes of an address whose page is migrating stand: in the old frame, or in the new one once the page has been
copied. -/
def State.movingPlace (s : State) (p v va : Nat) : Option Nat :=
  let a := vaAddr va
  (s.vf? p v).bind fun f => (f.table.find? fun l => l.va ≤ a && a < l.va + pageBytes l.size).bind fun l =>
    (if l.v then some l.pa else l.dest).map (· + (a - l.va))
/-- R85, R234: a main-memory atomic, one piece for each address whatever its lanes' tags are (R34); a piece whose page is away
parks its lanes (R20). -/
def State.pushMain (s : State) (r : Run) (kind : MKind) (n reg : Nat) (vs : List (Nat × Nat)) (data : Nat → List Byte) :
    State :=
  (vs.map fun p => untagged p.2).dedup.foldl (fun t a =>
    let mine := vs.filter fun p => untagged p.2 == a
    let xs := mine.map fun p => t.xlate t.g.part t.g.vf p.2 true
    let away := if xs.any Xlate.waits then (t.movingPlace t.g.part t.g.vf a).elim [] fun k => places k n else []
    let ks := (xs.find? fun x => match x with | .ok _ => true | _ => false).elim away fun x => Xlate.spots x n
    let accs := mine.map fun p => (⟨p.1, ks, data p.1, [t.party (laneBit p.1)]⟩ : Acc)
    let m := Acc.lanesOf accs
    let u := t.push { t.newOp r kind n reg m mine accs with deferred := xs.any Xlate.waits }
    if xs.any Xlate.waits then u.addFaulted m else u) s

/-- R233 to R236: how every atomic and reduction issues. -/
def atomicOp (i : Instr) (s : State) (op : AOp) (ret : Bool) (d addr : Opd) (main : Bool) (ty : AType) (sc : Scope) :
    Host.Outcome State Fault Refusal :=
  issue i s fun r =>
    let n := AType.bytes ty
    let kind := MKind.atomic op ty sc main ret
    let reg := if ret then d.toNat else 127
    if main then
      let vs := (lanesOf r.lanes).map fun l => (l, (s.w.src64 addr l).toNat)
      match misaligned n vs with
      | some a => .trap 0x0E (BitVec.ofNat 64 a) 0
      | none =>
        s.sendFab (if Scope.isSys sc then n * vs.length else 0) fun t =>
          .ok ((t.lookUp (vs.map Prod.snd)).pushMain r kind n reg vs (s.w.atomData op ty d))
    else
      let sp := Scope.space sc
      let fs := (lanesOf r.lanes).map (s.w.ref (Scope.isSys sc) addr 0)
      checked (s.r37 (fs.map fun f => f.chk sp n true)) <|
        s.sendFab (if Scope.isSys sc then n * fs.length else 0) fun t =>
          .ok (t.pushPieces r kind n reg sp fs
            (groupAccs Acc.addr (fs.map fun f => s.acc sp n f (s.w.atomData op ty d f.lane))))

/-- R235. -/
def execAtomAdd (d addr : Opd) (main : Bool) (ty : AType) (sc : Scope) (s : State) :
    Host.Outcome State Fault Refusal :=
  atomicOp (.atomAdd d addr main ty sc) s .add true d addr main ty sc
/-- R235. -/
def execAtomMin (d addr : Opd) (main : Bool) (ty : AType) (sc : Scope) (s : State) :
    Host.Outcome State Fault Refusal :=
  atomicOp (.atomMin d addr main ty sc) s .min true d addr main ty sc
/-- R235. -/
def execAtomMax (d addr : Opd) (main : Bool) (ty : AType) (sc : Scope) (s : State) :
    Host.Outcome State Fault Refusal :=
  atomicOp (.atomMax d addr main ty sc) s .max true d addr main ty sc
/-- R235. -/
def execAtomAnd (d addr : Opd) (main : Bool) (ty : AType) (sc : Scope) (s : State) :
    Host.Outcome State Fault Refusal :=
  atomicOp (.atomAnd d addr main ty sc) s .and true d addr main ty sc
/-- R235. -/
def execAtomOr (d addr : Opd) (main : Bool) (ty : AType) (sc : Scope) (s : State) :
    Host.Outcome State Fault Refusal :=
  atomicOp (.atomOr d addr main ty sc) s .or true d addr main ty sc
/-- R235. -/
def execAtomXor (d addr : Opd) (main : Bool) (ty : AType) (sc : Scope) (s : State) :
    Host.Outcome State Fault Refusal :=
  atomicOp (.atomXor d addr main ty sc) s .xor true d addr main ty sc
/-- R235. -/
def execAtomXchg (d addr : Opd) (main : Bool) (ty : AType) (sc : Scope) (s : State) :
    Host.Outcome State Fault Refusal :=
  atomicOp (.atomXchg d addr main ty sc) s .xchg true d addr main ty sc
/-- R235. -/
def execAtomCas (d addr : Opd) (main : Bool) (ty : AType) (sc : Scope) (s : State) :
    Host.Outcome State Fault Refusal :=
  atomicOp (.atomCas d addr main ty sc) s .cas true d addr main ty sc
/-- R235. -/
def execAtomIncw (d addr : Opd) (main : Bool) (ty : AType) (sc : Scope) (s : State) :
    Host.Outcome State Fault Refusal :=
  atomicOp (.atomIncw d addr main ty sc) s .incw true d addr main ty sc
/-- R235. -/
def execAtomDecw (d addr : Opd) (main : Bool) (ty : AType) (sc : Scope) (s : State) :
    Host.Outcome State Fault Refusal :=
  atomicOp (.atomDecw d addr main ty sc) s .decw true d addr main ty sc
/-- R236. -/
def execRedAdd (d addr : Opd) (main : Bool) (ty : AType) (sc : Scope) (s : State) :
    Host.Outcome State Fault Refusal :=
  atomicOp (.redAdd d addr main ty sc) s .add false d addr main ty sc
/-- R236. -/
def execRedMin (d addr : Opd) (main : Bool) (ty : AType) (sc : Scope) (s : State) :
    Host.Outcome State Fault Refusal :=
  atomicOp (.redMin d addr main ty sc) s .min false d addr main ty sc
/-- R236. -/
def execRedMax (d addr : Opd) (main : Bool) (ty : AType) (sc : Scope) (s : State) :
    Host.Outcome State Fault Refusal :=
  atomicOp (.redMax d addr main ty sc) s .max false d addr main ty sc
/-- R236. -/
def execRedAnd (d addr : Opd) (main : Bool) (ty : AType) (sc : Scope) (s : State) :
    Host.Outcome State Fault Refusal :=
  atomicOp (.redAnd d addr main ty sc) s .and false d addr main ty sc
/-- R236. -/
def execRedOr (d addr : Opd) (main : Bool) (ty : AType) (sc : Scope) (s : State) :
    Host.Outcome State Fault Refusal :=
  atomicOp (.redOr d addr main ty sc) s .or false d addr main ty sc
/-- R236. -/
def execRedXor (d addr : Opd) (main : Bool) (ty : AType) (sc : Scope) (s : State) :
    Host.Outcome State Fault Refusal :=
  atomicOp (.redXor d addr main ty sc) s .xor false d addr main ty sc
/-- R236. -/
def execRedIncw (d addr : Opd) (main : Bool) (ty : AType) (sc : Scope) (s : State) :
    Host.Outcome State Fault Refusal :=
  atomicOp (.redIncw d addr main ty sc) s .incw false d addr main ty sc
/-- R236. -/
def execRedDecw (d addr : Opd) (main : Bool) (ty : AType) (sc : Scope) (s : State) :
    Host.Outcome State Fault Refusal :=
  atomicOp (.redDecw d addr main ty sc) s .decw false d addr main ty sc

/-! ### At the home -/

/-- R85: one lane's update: the memory after it, and what the lane receives. -/
def rmw (m : List Host.Cell) (op : AOp) (ty : AType) (n : Nat) (ks : List Nat) (data : List Byte) :
    List Host.Cell × Nat :=
  let old := readLE m ks
  (writeBytes m (ks.zip (leBytes n (AOp.update op ty old (leNat (data.take n)) (leNat (data.drop n))))), old)

/-- R85: the lanes of a piece in ascending order, at the places of its bytes; the values received by lane. -/
def rmwAll (m : List Host.Cell) (op : AOp) (ty : AType) (n : Nat) (ks : List Nat) :
    List Acc → List Host.Cell × List (Nat × Nat)
  | [] => (m, [])
  | a :: t =>
    let p := rmw m op ty n ks a.data
    let q := rmwAll p.1 op ty n ks t
    (q.1, (a.lane, p.2) :: q.2)

/-- R84: the cluster (`clu`), the chip (`chip`) or neither of two parties differs, or the scopes do: the two atomics are not
atomic with respect to each other. -/
def MemOp.unrelated (o q : MemOp) : Bool :=
  match o.kind, q.kind with
  | .atomic _ _ a _ _, .atomic _ _ b _ _ =>
    a != b || (match a with | .clu => o.core / 4 != q.core / 4 | .chip => o.core / 16 != q.core / 16 | _ => false)
  | _, _ => false

/-- R84: what an atomic that has read its places `kq` early makes of an update of `ks`: nothing where they are apart; it goes on where
it may overlap it, as with one on another location (log 11), and reads again where it may not. -/
def MemOp.overlapped (q o : MemOp) (ks kq : List Nat) (old new : List Host.Cell) : MemOp :=
  match q.snap with
  | none => q
  | some (was, now) =>
    if !overlap ks kq then q
    else if (o.unrelated q || ks != kq) && kq.map (readByte old) == now then { q with snap := some (was, kq.map (readByte new)) }
    else { q with snap := none }

/-- R84: the memory that an atomic's update starts from: what it read early, if only atomics that it may overlap have written there
since. -/
def MemOp.base (o : MemOp) (m : List Host.Cell) (ks : List Nat) : List Host.Cell :=
  match o.snap with
  | some (was, now) => if ks.map (readByte m) == now then writeBytes m (ks.zip was) else m
  | none => m

/-- The places that an atomic's piece updates; none where it cannot reach them. -/
def State.atomicPlaces (s : State) (o : MemOp) : List Nat :=
  match o.kind with
  | .atomic _ _ _ true _ =>
    match s.probe o.part o.vf ((o.va.head?.map Prod.snd).getD 0) true with | .ok pa => places pa o.n | _ => []
  | .atomic _ _ _ false _ => (o.accs.head?.map Acc.bytes).getD []
  | _ => []

/-- A `cas` that no lane carries out writes nothing. -/
def casFails (op : AOp) (n : Nat) (accs : List Acc) (got : List (Nat × Nat)) : Bool :=
  match op with | .cas => accs.all fun a => getKey got a.lane 0 != leNat (a.data.take n) | _ => false

/-- R84, R235: the update of a piece at its place, and what `atom` returns. -/
def State.performAtomic (s : State) (o : MemOp) (op : AOp) (ty : AType) (ret : Bool) (ks : List Nat) : State :=
  let q := rmwAll (o.base s.mem ks) op ty o.n ks o.accs
  let m := if o.snap.isSome && casFails op o.n o.accs q.2 then s.mem else q.1
  let t := { s with mem := m, pend := s.pend.map fun (p : MemOp) => if p.id = o.id then p else p.overlapped o ks (s.atomicPlaces p) s.mem m }
  (if ret then t.landOp o (o.n / 4) fun j i => loadWord o.n false (getKey q.2 i 0) j else t).dropOp o.id

/-- R368: the value that a failed lane's trap names. -/
def failValue (cause code va : Nat) : Word :=
  if cause = 6 then BitVec.ofNat 32 (vaTag va)
  else if cause = 0x11 then BitVec.ofNat 32 (va / 2 ^ 38 % 2 ^ 11)
  else if cause = 0x12 then BitVec.ofNat 32 code
  else 0

/-- R234: what a lane of a piece of a main-memory atomic finds at its home. -/
def State.homeLane (s : State) (o : MemOp) (l : Nat) : Xlate := s.probe o.part o.vf (getKey o.va l 0) true
/-- R234: the lanes of a piece that fail at the home, each with its trap. -/
def State.homeFails (s : State) (o : MemOp) : List (LaneMask × Nat × Dword × Word) :=
  o.accs.filterMap fun a =>
    match s.homeLane o a.lane with
    | .bad cause code =>
      let va := getKey o.va a.lane 0
      some (laneBit a.lane, cause, BitVec.ofNat 64 va, failValue cause code va)
    | _ => none
/-- The physical address of a piece of a main-memory atomic, from the lanes that reach it. -/
def State.homePa (s : State) (o : MemOp) : Option Nat :=
  o.accs.findSome? fun a => match s.homeLane o a.lane with | .ok pa => some pa | _ => none
/-- R372: the lanes of a piece meet a misdirection of one access. -/
def State.homeSeen (s : State) (o : MemOp) : State :=
  o.accs.foldl (fun t a => match s.xlate o.part o.vf (getKey o.va a.lane 0) true with | .ok pa => t.eccSeen pa | _ => t) s

/-- R234: a piece of a main-memory atomic reaches its home: lanes that meet a failure leave it, and the others are performed. -/
def State.homeMain (s : State) (o : MemOp) (op : AOp) (ty : AType) (ret : Bool) : State :=
  if o.accs.any fun a => (s.homeLane o a.lane).waits then s
  else if !(s.homeFails o).isEmpty then (s.homeSeen o).splitFail o (s.homeFails o)
  else match s.homePa o with
    | none => s
    | some pa =>
      match homeChip pa with
      | none => s.performAtomic o op ty ret (places pa o.n)
      | some c =>
        if s.hbmRoom c o.part o.vf (o.n * o.accs.length) then
          (s.performAtomic o op ty ret (places pa o.n)).meterHbm c o.part o.vf (o.n * o.accs.length)
        else s

def MKind.isAtomic (k : MKind) : Bool := match k with | .atomic _ _ _ _ _ => true | _ => false

/-- R234: the page of some lane of the piece is migrating: the request is not on its way. -/
def State.homeAway (s : State) (o : MemOp) : Bool := o.deferred && o.accs.any fun a => (s.homeLane o a.lane).waits
/-- R63: the source has given up an atomic. -/
def State.givenUp (s : State) (o : MemOp) : Bool := s.overdue o && !s.homeAway o

/-- R235. -/
def execAtomicAtHome (op : Nat) (s : State) : Host.Outcome State Fault Refusal :=
  match s.due op (fun o => MKind.isAtomic o.kind && s.deliverable o && s.drained o && !s.givenUp o) with
  | some o =>
    match o.kind with
    | .atomic a ty _ true ret => .next (s.homeMain o a ty ret)
    | .atomic a ty _ false ret =>
      .next (match s.badWord o with
        | some p => s.failWord o p.2
        | none => s.performAtomic o a ty ret ((o.accs.head?.map Acc.bytes).getD []))
    | _ => .next s
  | none => .next s

/-- R84: an atomic reads its places before it writes them, so that others that are not atomic with respect to it may come in
between (log 11). -/
def State.atomicRead (s : State) (op : Nat) : State :=
  match s.due op (fun o => MKind.isAtomic o.kind && s.deliverable o && s.drained o) with
  | some o =>
    let b := (s.atomicPlaces o).map s.rd
    if b.isEmpty || o.snap.isSome then s else s.mapOp op fun q => { q with snap := some (b, b) }
  | none => s

/-! ### Requests that are given up (R58, R63) -/

/-- The lowest address or offset of a piece. -/
def MemOp.lowest (o : MemOp) : Nat := ((o.va.map Prod.snd).min?).getD 0
/-- The global number of the chip that a request goes to: of a main-memory address the chip of its KV address, or of its frame. -/
def State.target (s : State) (o : MemOp) : Nat :=
  match o.fab with
  | some f => f.dst
  | none => if s.kvFar o.part o.vf o.lowest then o.lowest / 2 ^ 38 % 2 ^ 11 else s.global (((s.homePa o).bind homeChip).getD (o.core / 16))

def State.failFab (s : State) (o : MemOp) : State :=
  s.mapOp o.id fun q => { q with failed := some (0x11, BitVec.ofNat 64 o.lowest, BitVec.ofNat 32 (s.target o)) }

/-- R58: a request whose target stopped being reachable is not delivered. -/
def execFabricUndeliverable (op : Nat) (s : State) : Host.Outcome State Fault Refusal :=
  match s.op? op with
  | some o =>
    if o.fab.isSome && o.failed.isNone && !s.deliverable o then
      .next (if o.lanes = 0 then s.dropOp o.id else s.failFab o)
    else .next s
  | none => .next s

/-- R63: a load or atomic whose reply is 2^24 cycles late raises trap 0x11; an atomic may still be performed later,
with its reply discarded. The spec names no trap for a store, a release or a reduction that gets no response in that time: they go
on (log 100). -/
def execFabricRequestTimeout (op : Nat) (s : State) : Host.Outcome State Fault Refusal :=
  match s.op? op with
  | some o =>
    if o.failed.isNone && s.givenUp o then
      let t := s.failFab o
      match o.kind with
      | .atomic a ty sc m _ =>
        .next (t.push { o with kind := .atomic a ty sc m false, lanes := 0, flag := none, reg := 127 })
      | _ => .next t
    else .next s
  | none => .next s

/-! ### Diversion (R62) -/

/-- R62: a packet of the fabric that has not been diverted. -/
def State.inChannel (s : State) (id : Nat) : Bool := (s.op? id).any fun o => o.fab.any fun f => !f.diverted
/-- The unit of a command has not landed, nor been diverted. -/
def State.unitInChannel (s : State) (x : Nat × Nat) : Bool := !s.unitGone x && s.copies.all fun c => c.id != x.1 || (c.diverts.lookup x.2).isNone
/-- R62: the packets that stand behind a piece in its channel: those sent after it from its chip to its target, and the others of which
the channel tells (log 131). -/
def State.behindOf (s : State) (o : MemOp) (f : Fab) (h : VcHead) : List Nat :=
  (s.pend.filter fun p => p.id != o.id && s.inChannel p.id
    && (h.ops.contains p.id || o.id < p.id && match p.fab with | some q => q.src == f.src && q.dst == f.dst | none => false)).map MemOp.id

/-- R62: the packet of an operation or a command is blocked at the head of a channel from now on, or no longer; more packets may come
to stand behind it. -/
def State.setBlocked (s : State) (h : VcHead) (on : Bool) : State :=
  let same (x : VcHead) : Bool := x.port == h.port && x.vc == h.vc
  let since := ((s.heads.find? fun x => same x && x.op == h.op && x.unit == h.unit).map VcHead.since).getD s.clk.hub
  { s with heads := (if on then [{ h with since := since }] else []) ++ s.heads.filter fun x => !same x }

/-- R62: the packet of an operation or a command that has been blocked at the head of a channel of a port for 8,192 cycles of the Hub. -/
def State.blockedLong (s : State) (op port : Nat) : Option VcHead :=
  s.heads.find? fun h => h.port == port && h.op == op && h.since + 8192 ≤ s.clk.hub

/-- R62, R398: a packet that has been blocked is diverted to the escape channel, which it leaves behind those that were behind it;
the port counts it. -/
def execEscapeDivert (op port : Nat) (s : State) : Host.Outcome State Fault Refusal :=
  match s.blockedLong op port with
  | none => .next s
  | some h =>
    let t : State := { s with
      heads := s.heads.filter fun x => x != h
      ports := s.ports.map fun (p : Port) => if p.no = port then { p with divert := p.divert + 1 } else p }
    let us := h.units.filter fun x => s.unitInChannel x && x != (op, h.unit)
    match (s.op? op).bind MemOp.fab with
    | some f =>
      .next (t.mapOp op fun q => { q with fab := some { f with diverted := true, behind := s.behindOf q f h, units := us } })
    | none =>
      .next (if !s.copies.any (fun c => c.id == op) then s
        else
          { t with copies := t.copies.map fun (c : CopyCmd) =>
              if c.id = op && s.unitInChannel (op, h.unit) then
                { c with diverts := (h.unit, h.ops.filter s.inChannel, us) :: c.diverts }
              else c })

end Sys2Proof.Machine
end

