-- ==== Sys2Proof/Machine/Formats.lean ====
section
/-! DEFINITION. The storage formats of R116 (R93 to R96, R112): their sizes, the values of a row, and the rows that the
copy engine converts (R99 to R101, R241). -/

namespace Sys2Proof.Machine

/-! ### Sizes (R112, R116) -/

/-- Codes 0 to 5: no scale. -/
def fmtPlain (f : Nat) : Bool := f < 6
def fmtCF (f : Nat) : Bool := 12 ≤ f && f ≤ 14
/-- Bits of an element. -/
def fmtBits (f : Nat) : Nat := [8, 8, 8, 4, 16, 16, 8, 8, 6, 6, 4, 8, 8, 5, 3].getD f 0
/-- R115: elements for each scale. -/
def fmtBlk (f : Nat) : Nat := if fmtPlain f then 0 else if fmtCF f then 16 else 32
/-- Data bytes of 32 elements. -/
def fmtData (f : Nat) (planar : Bool) : Nat := 4 * fmtBits f + if fmtCF f && !planar then 4 else 0
/-- Bytes that 32 elements have in the scale plane. -/
def fmtScale (f : Nat) (planar : Bool) : Nat := if fmtPlain f then 0 else if fmtCF f then (if planar then 4 else 0) else 1
/-- R112: elements of a row. -/
def kSlice (f : Nat) : Nat := [512, 512, 512, 1024, 256, 256, 512, 512, 512, 512, 1024, 512, 512, 1024, 2048].getD f 0
/-- R112: data bytes and scale bytes of a row. -/
def rowData (f : Nat) (planar : Bool) : Nat := kSlice f / 32 * fmtData f planar
def rowScale (f : Nat) (planar : Bool) : Nat := kSlice f / 32 * fmtScale f planar

/-! ### The values of a row -/

/-- A plain element's value. -/
def plainVal (f b : Nat) : FVal :=
  match f with
  | 0 => CFmt.value .e4m3 b
  | 1 => CFmt.value .e5m2 b
  | 2 => .fin (128 ≤ b) (if 128 ≤ b then 256 - b else b) 0
  | 3 => .fin (8 ≤ b) (if 8 ≤ b then 16 - b else b) 0
  | 4 => CFmt.value .f16 b
  | _ => CFmt.value .bf16 b

/-- Pieces of `n` bytes. -/
def chunks (n : Nat) : Nat → List Byte → List (List Byte)
  | 0, _ => []
  | k + 1, l => l.take n :: chunks n k (l.drop n)

/-- The values of 32 elements at a time, in order. -/
def rowVals (f : Nat) (planar : Bool) (data scale : List Byte) : List FVal :=
  if fmtPlain f then
    let x := leNat data
    (List.range (data.length * 8 / fmtBits f)).map fun k => plainVal f (elemBits (fmtBits f) x k)
  else
    let n := data.length / fmtData f planar
    ((chunks (fmtData f planar) n data).zip (chunks (fmtScale f planar) n scale)).flatMap fun p =>
      blockVals f planar (leNat p.1) (leNat p.2)

/-! ### Conversion of a row (R99, R241) -/

/-- R99: binary32 to a plain element. -/
def plainElem (f : Nat) (m : CMode) (v : FVal) : Nat :=
  match f with
  | 0 => (CFmt.convert .e4m3 m 0 v).1
  | 1 => (CFmt.convert .e5m2 m 0 v).1
  | 2 => ((toInt (-128) 127 (CMode.rmode m 0) v).1 % 256).toNat
  | 3 => ((toInt (-8) 7 (CMode.rmode m 0) v).1 % 16).toNat
  | 4 => (CFmt.convert .f16 m 0 v).1
  | _ => (CFmt.convert .bf16 m 0 v).1

/-- The binary32 values of a row. -/
def vals32 (data : List Byte) : List FVal :=
  (chunks 4 (data.length / 4) data).map fun b => f32 (BitVec.ofNat 32 (leNat b))

/-- Values in groups of 32. -/
def groups32 : Nat → List FVal → List (List FVal)
  | 0, _ => []
  | k + 1, l => l.take 32 :: groups32 k (l.drop 32)

/-- Packing: the data bytes and the scale bytes of a row of binary32. -/
def packRow (f : Nat) (planar : Bool) (m : CMode) (data : List Byte) : List Byte × List Byte :=
  let vs := vals32 data
  if fmtPlain f then
    (leBytes (vs.length * fmtBits f / 8) (packElems (fmtBits f) (vs.map (plainElem f m))), [])
  else
    let bs := (groups32 (vs.length / 32) vs).map fun g =>
      let p := packBlock f planar m g (List.replicate 32 0)
      (leBytes (fmtData f planar) (packElems 32 (p.words.take (blockNw f planar))),
       leBytes (fmtScale f planar) (p.words.getD 31 0))
    (bs.flatMap Prod.fst, bs.flatMap Prod.snd)

/-- Unpacking: a row as binary32. -/
def unpackRow (f : Nat) (planar : Bool) (data scale : List Byte) : List Byte :=
  (rowVals f planar data scale).flatMap fun v => leBytes 4 (FVal.to32 v).1

end Sys2Proof.Machine
end

