-- ==== Sys2Proof/Machine/Barrier.lean ====
section
/-! DEFINITION. What commands and lanes share: where a group's SRAM stands while it is saved (R374), byte-counting
barriers (R48 to R50), command numbers (R45), and the failures of R51. -/

namespace Sys2Proof.Machine

/-! ### A group's SRAM, wherever the group stands (R374) -/

def isPool (k : Nat) : Bool := 2 ^ 53 ≤ k && k < 2 ^ 54
def isOb (k : Nat) : Bool := 2 ^ 55 ≤ k && k < 2 ^ 56

def Group.isSaved (g : Group) : Bool := match g.stand with | .saved => true | _ => false

/-- R300: the cluster of the module in which a group stands. -/
def Group.clu (g : Group) : Nat := 4 * g.chip + g.core / 4
/-- R330: a group of a kernel has 2^W1 warps. -/
def Kernel.warps (k : Kernel) : Nat := 2 ^ k.widths.getD 1 0
/-- R336: the extents of the pool that are saved: `shr` and `priv`, as long as the kernel of the group's task has them. -/
def Group.kept (g : Group) : List (Nat × Nat) :=
  (g.room.zip [g.kern.shr, 64 * g.kern.priv]).map fun p => (p.1.1, min p.1.2 p.2)
def Group.poolAt (g : Group) (off : Nat) : Nat := poolKey g.chip g.core off
/-- R336, R375: where `shr` begins in a frame or a context area. -/
def Group.imageAt (g : Group) : Nat := 0x100 + g.kern.warps * 0x6600
/-- Bytes of `shr` and `priv` together. -/
def Group.keptBytes (g : Group) : Nat := (g.kept.map Prod.snd).foldl (· + ·) 0
/-- R375: where the operand-buffer window begins in a context area, behind the tiles. -/
def Group.windowAt (g : Group) : Nat := g.imageAt + g.keptBytes + g.savedTiles.length * 131136
/-- R336, R375: a byte of a group's frame or context area. -/
def Group.savedKey (g : Group) (x : Nat) : Nat :=
  match g.frame with | some f => frameKey g.part g.chip (f + x) | none => areaKey g.part g.id x
/-- R336, R375: the place of a saved byte of the pool, in the group's frame or in its context area, by the extents one after another. -/
def Group.imageOf (g : Group) (k : Nat) : List (Nat × Nat) → Nat → Option Nat
  | [], _ => none
  | e :: t, off =>
    if g.poolAt e.1 ≤ k && k < g.poolAt e.1 + e.2 then some (g.savedKey (off + (k - g.poolAt e.1)))
    else g.imageOf k t (off + e.2)
/-- The place in the pool whose byte stands at a place of the frame or the context area. -/
def Group.imageBack (g : Group) (k : Nat) : List (Nat × Nat) → Nat → Option Nat
  | [], _ => none
  | e :: t, off =>
    if g.savedKey off ≤ k && k < g.savedKey off + e.2 then some (g.poolAt e.1 + (k - g.savedKey off))
    else g.imageBack k t (off + e.2)
/-- R374, R375: the place at which a byte of a saved group's `shr`, `priv` or operand-buffer window is kept. -/
def Group.savedAt (g : Group) (k : Nat) : Nat :=
  let w := obKey g.clu g.win.1
  if isPool k then (g.imageOf k g.kept g.imageAt).getD k
  else if isOb k && w ≤ k && k < w + g.win.2 then areaKey g.part g.id (g.windowAt + (k - w))
  else k

/-- The place of the pool or of the window whose byte a saved group keeps at a place. -/
def Group.savedBack (g : Group) (k : Nat) : Option Nat :=
  let a := areaKey g.part g.id g.windowAt
  (g.imageBack k g.kept g.imageAt).orElse fun _ => if a ≤ k && k < a + g.win.2 then some (obKey g.clu g.win.1 + (k - a)) else none
/-- R371: the conditions of codewords go with their words from the places of `f` to those that it gives. -/
def State.eccCopy (s : State) (f : Nat → Option Nat) : State :=
  { s with ecc := s.ecc.filterMap (fun p => ((eccPlaces p.1).head?.bind f).map fun k => (eccNo k, p.2)) ++ s.ecc }
/-- R371: a group's words are saved with their conditions. -/
def State.eccSaved (s : State) (g : Group) : State :=
  s.eccCopy fun k => if (isPool k || isOb k) && g.savedAt k != k then some (g.savedAt k) else none

/-- R374: the place of a byte as a command of a group meets it: in the group's saved context while the group is away. -/
def State.placeFor (s : State) (gid k : Nat) : Nat :=
  match s.group? gid with
  | some g => if Group.isSaved g then g.savedAt k else k
  | none => k

/-- A byte as a command of a group reads it. -/
def State.rdFor (s : State) (gid k : Nat) : Byte := s.rdMain (s.placeFor gid k)

/-- Bytes that a command of a group writes, in the order of the list. -/
def State.wrsFor (s : State) (gid : Nat) (l : List (Nat × Byte)) : State := s.wrs (l.map fun p => (s.placeFor gid p.1, p.2))

/-- R375: CTB and the tag counts of a saved group stand in its context area. -/
def State.areaTags (s : State) (gid : Nat) : State :=
  match s.group? gid with
  | some g =>
    if Group.isSaved g then
      (s.wrN (areaKey g.part g.id 0x20) 8 g.ctb.toNat).wrs
        ((List.range 64).map fun t => (areaKey g.part g.id (0x40 + t), BitVec.ofNat 8 (getKey g.tagCnt t 0)))
    else s
  | none => s

/-! ### Byte-counting barriers (R48 to R50) -/

/-- The fields of a barrier. -/
structure Bar where
  exp : Nat
  arr : Nat
  flags : Nat
  err : Nat
  phase : Nat
  cmd : Nat
  deriving DecidableEq, Repr

/-- R48: the 16 bytes of a barrier. -/
def Bar.ofBytes (l : List Byte) : Bar :=
  let w (j : Nat) := leNat ((l.drop (4 * j)).take 4)
  ⟨w 0, w 1, w 2 / 2 ^ 24, w 2 / 2 ^ 16 % 256, w 2 % 65536, w 3⟩
def Bar.word2 (b : Bar) : Nat := b.flags % 256 * 2 ^ 24 + b.err % 256 * 2 ^ 16 + b.phase % 65536
def Bar.toBytes (b : Bar) : List Byte := leBytes 4 b.exp ++ leBytes 4 b.arr ++ leBytes 4 b.word2 ++ leBytes 4 b.cmd

/-- R49, R50: the updates of a barrier. -/
inductive BarOp where
  | init (v : Nat)
  | abandon
  | exp (v : Nat)
  | arr (v : Nat)
  | fail (code cmd : Nat)
  deriving DecidableEq, Repr

def Bar.step (b : Bar) (op : BarOp) : Bar :=
  match op with
  | .init v => { b with exp := v, arr := 0, flags := 0, err := 0, cmd := 0 }
  | .abandon => { b with flags := b.flags ||| 4 }
  | .exp v => { b with exp := (b.exp + v) % 2 ^ 32 }
  | .arr v => if b.flags.testBit 2 then b else { b with arr := (b.arr + v) % 2 ^ 32 }
  | .fail code cmd => if b.flags.testBit 1 then b else { b with flags := b.flags ||| 2, err := code, cmd := cmd }

/-- R49: after each update. -/
def Bar.settle (b : Bar) : Bar :=
  if b.exp != 0 && b.exp ≤ b.arr && !b.flags.testBit 0 then
    { b with flags := b.flags ||| 1, phase := (b.phase + 1) % 65536 }
  else b

def Bar.update (b : Bar) (op : BarOp) : Bar := (b.step op).settle

/-- R48: the place of a barrier's first byte. -/
def BarRef.key (chip core : Nat) (b : BarRef) : Nat :=
  match b with
  | .shr p => poolKey chip core p
  | .dws a => dwsKey chip a

def State.barAt (s : State) (gid k : Nat) : Bar := Bar.ofBytes ((places k 16).map (s.rdFor gid))
/-- R48: one update at the word's home. -/
def State.barUpd (s : State) (gid k : Nat) (op : BarOp) : State :=
  s.wrsFor gid ((places k 16).zip ((s.barAt gid k).update op).toBytes)

/-! ### Command numbers and failures (R45, R51) -/

/-- R45, R288: the next command number of a core. -/
def State.takeNumber (s : State) (core : Nat) : Word × State :=
  let n := getKey s.cmdNo core 0
  (n, { s with cmdNo := setKey s.cmdNo core (n + 1) })

/-- R51: the trap of a failed command without a barrier. -/
def codeTrap (code : Nat) : Nat :=
  match code with
  | 1 => 0x12 | 2 => 6 | 3 => 0x12 | 4 => 4 | 5 => 5 | 6 => 0x11 | 7 => 0x11 | 8 => 5 | 9 => 7 | 10 => 5 | _ => 0
/-- R51: codes that name no place. -/
def codeNoPlace (code : Nat) : Bool := code == 7 || code == 9

/-- R365: the engine code of a fault at a page after the first. -/
def Xlate.code (x : Xlate) : Nat := match x with | .ok _ => 0 | .wait => 4 | .bad _ c => c

end Sys2Proof.Machine
end

