-- ==== Sys2Proof/Machine/Copies.lean ====
section
/-! DEFINITION. Copies, major 0x27 (R45, R46, R50, R51, R86 to R89, R237 to R242): the checks at issue, the commands, and
how they move their bytes (log 10). -/

namespace Sys2Proof.Machine

/-! ### The descriptor of `cpx` (R241) -/

def bits (w lo n : Nat) : Nat := w / 2 ^ lo % 2 ^ n

/-- Bytes of a destination row; of a row in the source's and in the destination's scale plane. -/
def Desc.packs (d : Desc) : Bool := d.sfmt == 0x10
def Desc.raw (d : Desc) : Bool := d.sfmt == 0xFF
def Desc.drow (d : Desc) : Nat :=
  if d.raw then d.sbytes
  else if d.packs then
    if fmtPlain d.dfmt then d.sbytes / 4 * fmtBits d.dfmt / 8 else d.sbytes / 128 * fmtData d.dfmt d.dplanar
  else if fmtPlain d.sfmt then d.sbytes * 8 / fmtBits d.sfmt * 4
  else d.sbytes / fmtData d.sfmt d.splanar * 128
def Desc.ssrow (d : Desc) : Nat :=
  if d.raw || d.packs || fmtPlain d.sfmt then 0
  else d.sbytes / fmtData d.sfmt d.splanar * fmtScale d.sfmt d.splanar
def Desc.dsrow (d : Desc) : Nat :=
  if d.packs && !fmtPlain d.dfmt then d.sbytes / 128 * fmtScale d.dfmt d.dplanar else 0

/-- The fields of the eight words of a descriptor, and whether the reserved bits are zero. -/
def Desc.ofWords (w : Nat → Nat) : Desc × Bool :=
  ({ rows := w 0, sbytes := w 1, sstride := w 2, dstride := w 3, sfmt := bits (w 4) 24 8, dfmt := bits (w 4) 16 8,
     mode := bits (w 4) 8 8, dplanar := bits (w 4) 1 1 == 1, splanar := bits (w 4) 0 1 == 1,
     kchk := bits (w 5) 8 1 == 1, keyid := bits (w 5) 0 8, sscale := w 6, dscale := w 7 },
   bits (w 4) 2 6 == 0 && bits (w 5) 9 23 == 0)

/-- SBYTES holds whole blocks of both sides. -/
def Desc.whole (d : Desc) : Bool :=
  if d.raw then true
  else if d.packs then fmtPlain d.dfmt || d.sbytes % 128 == 0
  else fmtPlain d.sfmt || d.sbytes % fmtData d.sfmt d.splanar == 0

/-- R241: the descriptor's limits; `ob` for an operand-buffer destination. -/
def Desc.ok (d : Desc) (ob : Bool) : Bool :=
  let unpacks := d.sfmt ≤ 14 && d.dfmt == 0x10
  1 ≤ d.rows && d.rows ≤ 65536
  && 16 ≤ d.sbytes && d.sbytes % 16 == 0 && d.sbytes ≤ 2 ^ 28
  && d.sstride % 16 == 0 && (d.rows == 1 || d.sbytes ≤ d.sstride)
  && ((d.sfmt == 0xFF && d.dfmt == 0xFF) || (d.sfmt == 0x10 && d.dfmt ≤ 14) || unpacks)
  && (d.mode ≤ 3 || (5 ≤ d.mode && d.mode ≤ 8 && d.dfmt ≤ 1)) && (!unpacks || d.mode == 0)
  && (!d.splanar || fmtCF d.sfmt) && (!d.dplanar || fmtCF d.dfmt)
  && d.whole && d.drow % 16 == 0
  && (ob || (d.dstride % 16 == 0 && (d.rows == 1 || d.drow ≤ d.dstride)))

/-! ### Ranges as destinations (R242, R405) -/

/-- R405: the rows of a range. -/
def Range.rows (r : Range) : Nat := r.len / (r.rowb + r.srowb)
/-- A range that the group holds. -/
def Group.range? (g : Group) (h : Nat) : Option Range := g.ranges.find? fun r => r.h == h && !r.gone

/-- R242: the range and first row of a destination operand; none for a breach. -/
def Group.obDst (g : Group) (v : Nat) (d : Desc) : Option (Range × Nat) :=
  match g.range? (bits v 24 3) with
  | none => none
  | some r =>
    if (d.dfmt == 0xFF || d.dfmt == r.fmt) && d.drow == rowData r.fmt (r.layout == 1) && bits v 0 24 + d.rows ≤ r.rows then
      some (r, bits v 0 24)
    else none

/-! ### Endpoints -/

/-- R237: what an operand names for a lane. -/
def Warp.endOf (w : Warp) (sp : EndSp) (o : Opd) (i extra : Nat) : End :=
  match sp with
  | .shr => .shr (segBase (w.segOf .shr)) ((w.src o i).toNat + extra)
  | .dws => .dws (segBase (w.segOf .dws)) ((w.src o i).toNat + extra)
  | .fab => .fab (segBase (w.segOf .fab)) ((w.src o i).toNat + extra) ((w.getAt o 1 i).toNat)
  | .mem => .mem ((w.src64 o i).toNat + extra)

/-- R239: an endpoint in an SRAM space as R37 checks it. -/
def End.chk (e : End) (n : Nat) (wr : Bool) : List Chk :=
  match e with
  | .shr _ off => [⟨.shr, off, n, 16, wr, 0⟩]
  | .dws _ off => [⟨.dws, off, n, 16, wr, 0⟩]
  | .fab _ off odd => [⟨.fab, off, n, 16, wr, odd⟩]
  | _ => []
/-- R45: a main-memory endpoint is aligned to 16 too. -/
def End.unaligned (e : End) : List Nat := match e with | .mem va => if va % 16 = 0 then [] else [va] | _ => []
/-- The endpoint `k` bytes further on. -/
def End.plus (e : End) (k : Nat) : End :=
  match e with
  | .shr b o => .shr b (o + k)
  | .dws b o => .dws b (o + k)
  | .fab b o c => .fab b (o + k) c
  | .mem va => .mem (va + k)
  | e => e

/-- R239, step 3: misalignment wherever it is, then the rest of R37. -/
def State.checkEnds (s : State) (es : List (End × Nat × Bool)) (more : List Chk) : Option (Nat × Dword × Word) :=
  let cs := es.flatMap (fun p => p.1.chk p.2.1 p.2.2) ++ more
  let mis := es.flatMap (fun p => p.1.unaligned) ++ (cs.filter fun c => c.off % c.al != 0).map Chk.off
  match mis.min? with
  | some a => some (0x0E, BitVec.ofNat 64 a, 0)
  | none => s.r37 cs

/-! ### First pages (R239, step 4; R365) -/

/-- What the first page of an endpoint meets. -/
def State.firstPageOf (s : State) (p v : Nat) (e : End) (wr : Bool) : Xlate :=
  match e with
  | .mem va => s.xlate p v va wr
  | _ => .ok 0
def State.firstPage (s : State) (e : End) (wr : Bool) : Xlate := s.firstPageOf s.g.part s.g.vf e wr
def End.va (e : End) : Nat := match e with | .mem va => va | _ => 0
/-- The trap of a first page, with its address. -/
def Xlate.pageTrap (x : Xlate) (e : End) : List (Nat × Nat) :=
  match x with
  | .bad 4 _ => [(e.va, 4)]
  | .bad 5 5 => [(e.va, 5)]
  | _ => []
def State.pageTrap (s : State) (p : End × Bool) : List (Nat × Nat) := (s.firstPage p.1 p.2).pageTrap p.1
/-- The failing address that is lowest, with its cause. -/
def lowestPair : List (Nat × Nat) → Option (Nat × Nat)
  | [] => none
  | p :: t => match lowestPair t with | none => some p | some q => if q.1 < p.1 then some q else some p

def State.pageWaits (s : State) (es : List (End × Bool)) : Bool := es.any fun p => (s.firstPage p.1 p.2).waits

/-- R365: the main-memory addresses that an instruction's commands submit. -/
def CopyKind.firstPages (k : CopyKind) : List Nat :=
  (match k with
  | .linear a b _ => [a, b]
  | .gather ss d _ => d :: ss
  | .scatter a ds _ => a :: ds
  | .tile a b _ => [a, b]).filterMap fun (e : End) => match e with | .mem va => some va | _ => none
/-- R20, R239: the endpoints whose first pages may park a command's lane. -/
def CopyCmd.pages (c : CopyCmd) : List (End × Bool) :=
  match c.kind with
  | .linear a b _ => [(a, false), (b, true)]
  | .tile a b _ => [(a, false), (b, true)]
  | _ => []
/-- A command whose lane a first page keeps away. -/
def State.copyAway (s : State) (c : CopyCmd) : Bool :=
  c.waiting && c.pages.any fun p => (s.firstPageOf c.part c.vf p.1 p.2).waits
/-- R24: the fault that a waiting command's first page has come to. -/
def State.copyLost (s : State) (c : CopyCmd) : Option (Nat × Nat) :=
  if c.waiting then lowestPair (c.pages.flatMap fun p => (s.firstPageOf c.part c.vf p.1 p.2).pageTrap p.1) else none

/-! ### Barriers -/

/-- R238: the barrier that the selector names, for a lane's destination, with its check of R37. -/
def State.barOf (s : State) (bar : BarSel) (dst : End) : Option BarRef × List Chk :=
  match bar with
  | .none => (none, [])
  | .shr k =>
    let o := (s.w.getS k.val).toNat
    (some (.shr (segBase (s.w.segOf .shr) + o)), [⟨.shr, o, 16, 16, true, 0⟩])
  | .dws k =>
    let o := (s.w.getS k.val).toNat
    (some (.dws (segBase (s.w.segOf .dws) + o)), [⟨.dws, o, 16, 16, true, 0⟩])
  | .headed =>
    match dst with
    | .shr b o => (some (.shr (b + o)), [⟨.shr, o, 16, 16, true, 0⟩])
    | .dws b o => (some (.dws (b + o)), [⟨.dws, o, 16, 16, true, 0⟩])
    | _ => (none, [])

/-! ### Issuing commands -/

/-- What one command is to be: its lanes, what it moves, its barrier, whether its lane parks. -/
structure CopyReq where
  lanes : LaneMask
  kind : CopyKind
  bar : Option BarRef
  waiting : Bool
  deriving DecidableEq, Repr

/-- R46: a command issues: its tag's bit clears and its count rises. -/
def Group.tagIssue (g : Group) (t : Nat) : Group :=
  { g with ctb := g.ctb &&& ~~~ laneBit t, tagCnt := setKey g.tagCnt t (getKey g.tagCnt t 0 + 1) }
/-- R46: the last outstanding command of a tag sets its bit. -/
def Group.tagDone (g : Group) (t : Nat) : Group :=
  let n := getKey g.tagCnt t 0 - 1
  { g with tagCnt := setKey g.tagCnt t n, ctb := if n = 0 then g.ctb ||| laneBit t else g.ctb }

/-- R45, R86, R87: a command forks from its lanes, with the next number of the core. -/
def State.forkCopy (s : State) (tag : Nat) (q : CopyReq) : Word × State :=
  let p := s.takeNumber s.coreNo
  let t := p.2
  let c : CopyCmd :=
    { id := t.nextId, num := p.1, gid := s.g.id, wid := s.w.idx, chip := s.g.chip, core := s.g.core, part := s.g.part,
      vf := s.g.vf, tag := tag, bar := q.bar, region := s.w.region, kind := q.kind, done := [], lanes := q.lanes,
      waiting := q.waiting, pc := (s.w.run.map Run.pc).getD 0, issued := s.cyc s.coreNo }
  let u := { t with copies := t.copies ++ [c], nextId := t.nextId + 1, g := t.g.tagIssue tag }
  (p.1, (u.meetSel q.lanes (.cmd c.id)).addFaulted (if q.waiting then q.lanes else 0))

/-- All commands of one instruction, with each lane's number. -/
def State.forkAll (s : State) (tag : Nat) : List CopyReq → List (Nat × Word) × State
  | [] => ([], s)
  | q :: t =>
    let p := s.forkCopy tag q
    let r := p.2.forkAll tag t
    ((lanesOf q.lanes).map (fun l => (l, p.1)) ++ r.1, r.2)

/-- R45: the outstanding copy commands of a core. -/
def State.copiesOn (s : State) (chip core : Nat) : Nat := (s.copies.filter fun c => c.chip == chip && c.core == core).length

/-- R239: the end of every form: the room of R45, then all commands at once. -/
def State.issueCopies (s : State) (r : Run) (tag : Nat) (d : Opd) (qs : List CopyReq) : Act :=
  if 64 < s.copiesOn s.g.chip s.g.core + qs.length then .hold s
  else
    let p := (s.lookUp (qs.flatMap fun q => q.kind.firstPages)).forkAll tag qs
    .ok (p.2.setW (p.2.w.write d r.lanes fun l => getKey p.1 l 0))

def badLen (n : Nat) : Bool := n % 16 != 0 || n < 16 || 2 ^ 28 < n
/-- R238: the data of the headed form stands behind its barrier. -/
def headOff (b : BarSel) : Nat := if b.isHeaded then 16 else 0

/-- R240. -/
def execCpy (dst src : Opd) (tag : Fin 64) (dsp ssp : EndSp) (bar : BarSel) (len d : Opd) (s : State) :
    Host.Outcome State Fault Refusal :=
  issue (.cpy dst src tag dsp ssp bar len d) s fun r =>
    let ls := lanesOf r.lanes
    let n (l : Nat) := (s.w.src len l).toNat
    let de (l : Nat) := s.w.endOf dsp dst l (headOff bar)
    let se (l : Nat) := s.w.endOf ssp src l 0
    let bs (l : Nat) := s.barOf bar (s.w.endOf dsp dst l 0)
    if s.g.kern.tags ≤ tag.val || ls.any (fun l => badLen (n l)) then Act.trapAt r 5
    else
      checked (s.checkEnds (ls.flatMap fun l => [(se l, n l, false), (de l, n l, true)]) (ls.flatMap fun l => (bs l).2)) <|
        match lowestPair (ls.flatMap fun l => s.pageTrap (se l, false) ++ s.pageTrap (de l, true)) with
        | some p => .trap p.2 (BitVec.ofNat 64 p.1) 0
        | none =>
          s.issueCopies r tag.val d (ls.map fun l =>
            { lanes := laneBit l, kind := .linear (se l) (de l) (n l), bar := (bs l).1,
              waiting := s.pageWaits [(se l, false), (de l, true)] })

/-- R240: a gather has one command for its lanes. -/
def execCpg (dst src : Opd) (tag : Fin 64) (dsp ssp : EndSp) (bar : BarSel) (len d : Opd) (s : State) :
    Host.Outcome State Fault Refusal :=
  issue (.cpg dst src tag dsp ssp bar len d) s fun r =>
    let ls := lanesOf r.lanes
    let n := (s.w.scal r len).toNat
    let de := s.w.endOf dsp dst (lowLane r.lanes) (headOff bar)
    let ses := ls.map fun l => s.w.endOf ssp src l 0
    let b := s.barOf bar (s.w.endOf dsp dst (lowLane r.lanes) 0)
    if s.g.kern.tags ≤ tag.val || badLen n then Act.trapAt r 5
    else
      checked (s.checkEnds ((de, n * ls.length, true) :: ses.map fun e => (e, n, false)) b.2) <|
        match lowestPair (s.pageTrap (de, true) ++ ses.flatMap fun e => s.pageTrap (e, false)) with
        | some p => .trap p.2 (BitVec.ofNat 64 p.1) 0
        | none =>
          if s.pageWaits ((de, true) :: ses.map fun e => (e, false)) then .hold s
          else s.issueCopies r tag.val d [{ lanes := r.lanes, kind := .gather ses de n, bar := b.1, waiting := false }]

/-- R240: a scatter has one command for its lanes. -/
def execCps (dst src : Opd) (tag : Fin 64) (dsp ssp : EndSp) (bar : BarSel) (len d : Opd) (s : State) :
    Host.Outcome State Fault Refusal :=
  issue (.cps dst src tag dsp ssp bar len d) s fun r =>
    let ls := lanesOf r.lanes
    let n := (s.w.scal r len).toNat
    let se := s.w.endOf ssp src (lowLane r.lanes) 0
    let des := ls.map fun l => s.w.endOf dsp dst l 0
    let b := s.barOf bar se
    if s.g.kern.tags ≤ tag.val || badLen n then Act.trapAt r 5
    else
      checked (s.checkEnds ((se, n * ls.length, false) :: des.map fun e => (e, n, true)) b.2) <|
        match lowestPair (s.pageTrap (se, false) ++ des.flatMap fun e => s.pageTrap (e, true)) with
        | some p => .trap p.2 (BitVec.ofNat 64 p.1) 0
        | none =>
          if s.pageWaits ((se, false) :: des.map fun e => (e, true)) then .hold s
          else s.issueCopies r tag.val d [{ lanes := r.lanes, kind := .scatter se des n, bar := b.1, waiting := false }]

/-- R241: the tile's endpoints with the extents that R37 checks. -/
def Desc.srcEnds (x : Desc) (e : End) : List (End × Nat × Bool) := [(e, (x.rows - 1) * x.sstride + x.sbytes, false)]
def Desc.dstEnds (x : Desc) (e : End) : List (End × Nat × Bool) := [(e, (x.rows - 1) * x.dstride + x.drow, true)]
/-- R241: the scale planes; they need no alignment. -/
def Desc.planes (x : Desc) (se de : End) : List Chk :=
  ((if x.ssrow = 0 then [] else (se.plus x.sscale).chk (x.rows * x.ssrow) false)
    ++ if x.dsrow = 0 then [] else (de.plus x.dscale).chk (x.rows * x.dsrow) true).map fun c => { c with al := 1 }

/-- R241: the descriptor's words, read once at issue. -/
def State.descWords (s : State) (off k : Nat) : Nat := leNat ((s.bytesAt .shr (off + 4 * k) 4 0 0).map s.rd)

/-- R242: the destination of a lane: an endpoint, or a row of a range. -/
def State.tileDst (s : State) (dsp : EndSp) (dst : Opd) (l extra : Nat) (x : Desc) : Option End :=
  match dsp with
  | .fab => (s.g.obDst (s.w.src dst l).toNat x).map fun p => .ob (segBase (s.w.getSeg 5)) p.1 p.2
  | sp => some (s.w.endOf sp dst l extra)

/-- R242: SEGOB bounds the writes into a range: the offset at which an operand-buffer destination passes its limit.
DEDUCED (log 106): the trap is 0x03 with TRAPV 5, and the check follows step 3 of R239. -/
def State.pastOb (s : State) (x : Desc) (e : End) : Option Nat :=
  match e with
  | .ob _ r k =>
    let last := k + x.rows - 1
    let d := r.base + last * r.rowb
    let q := r.base + r.soff + last * r.srowb
    if segLimit (s.w.getSeg 5) < d + x.drow then some d
    else if x.dsrow != 0 && segLimit (s.w.getSeg 5) < q + x.dsrow then some q else none
  | _ => none

/-- R240 to R242. -/
def execCpx (dst src : Opd) (tag : Fin 64) (dsp ssp : EndSp) (bar : BarSel) (len d : Opd) (s : State) :
    Host.Outcome State Fault Refusal :=
  issue (.cpx dst src tag dsp ssp bar len d) s fun r =>
    let ls := lanesOf r.lanes
    let a := (s.w.scal r len).toNat
    let isOb := match dsp with | .fab => true | _ => false
    let x := Desc.ofWords (s.descWords a)
    let se (l : Nat) := s.w.endOf ssp src l 0
    let de (l : Nat) := (s.tileDst dsp dst l (headOff bar) x.1).getD (.shr 0 0)
    let bs (l : Nat) := s.barOf bar (s.w.endOf dsp dst l 0)
    if s.g.kern.tags ≤ tag.val then Act.trapAt r 5
    else
      checked (s.r37 [⟨.shr, a, 32, 32, false, 0⟩]) <| s.ordered r.lanes (s.bytesAt .shr a 32 0 0) <|
        if !x.2 || !x.1.ok isOb || ls.any (fun l => (s.tileDst dsp dst l (headOff bar) x.1).isNone) then
          .trap 5 (BitVec.ofNat 64 a) 0
        else
          checked (s.checkEnds (ls.flatMap fun l => x.1.srcEnds (se l) ++ x.1.dstEnds (de l))
              (ls.flatMap fun l => x.1.planes (se l) (de l) ++ (bs l).2)) <|
          checked (((ls.filterMap fun l => s.pastOb x.1 (de l)).min?).map fun a => (3, BitVec.ofNat 64 a, 5)) <|
            match lowestPair (ls.flatMap fun l => s.pageTrap (se l, false) ++ s.pageTrap (de l, true)) with
            | some p => .trap p.2 (BitVec.ofNat 64 p.1) 0
            | none =>
              s.issueCopies r tag.val d (ls.map fun l =>
                { lanes := laneBit l, kind := .tile (se l) (de l) x.1, bar := (bs l).1,
                  waiting := s.pageWaits [(se l, false), (de l, true)] })

/-! ### The engine threads (R87 to R89) -/

/-- One unit of a command: what it reads, how it converts, what it writes; ends with offset and length. -/
structure Job where
  reads : List (End × Nat × Nat)
  conv : Option Desc
  writes : List (End × Nat × Nat)
  deriving DecidableEq, Repr

/-- Row `i` of a range behind a tile's first row. -/
def End.rowAt (e : End) (i : Nat) : End := match e with | .ob b r k => .ob b r (k + i) | e => e
/-- The scale row that belongs to a range's data row. -/
def End.scaleRow (e : End) : End := match e with | .ob b r k => .obs b r k | e => e
def End.isOb (e : End) : Bool := match e with | .ob _ _ _ => true | _ => false

/-- R88, R89: the bushels that a packed destination takes at once: as many as fill whole 16-byte units, since each bushel and each such
unit is written whole (log 134). -/
def Desc.group (x : Desc) : Nat := 16 / Nat.gcd (fmtData x.dfmt x.dplanar) 16
/-- R88, R89: source and destination bytes of one unit of a row: 16 bytes of the destination, or bushels where a side holds them. -/
def Desc.unitSrc (x : Desc) : Nat :=
  if x.raw then 16
  else if x.packs then (if fmtPlain x.dfmt then 512 / fmtBits x.dfmt else 128 * x.group)
  else if fmtPlain x.sfmt then fmtBits x.sfmt / 2
  else fmtData x.sfmt x.splanar
def Desc.unitDst (x : Desc) : Nat :=
  if x.raw then 16
  else if x.packs then (if fmtPlain x.dfmt then 16 else x.group * fmtData x.dfmt x.dplanar)
  else if fmtPlain x.sfmt then 16
  else 128
/-- The units of a row. -/
def Desc.units (x : Desc) : Nat := x.sbytes / x.unitSrc
/-- Scale bytes of a unit on either side. -/
def Desc.unitSscale (x : Desc) : Nat := x.ssrow / x.units
def Desc.unitDscale (x : Desc) : Nat := x.dsrow / x.units

/-- Unit `b` of row `i` of a tile. -/
def tileJob (src dst : End) (x : Desc) (i b : Nat) : Job :=
  let n := x.unitSrc
  let m := x.unitDst
  let p := x.unitSscale
  let q := x.unitDscale
  { reads := (src, i * x.sstride + b * n, n) :: if p = 0 then [] else [(src, x.sscale + i * x.ssrow + b * p, p)]
    conv := some { x with sbytes := n }
    writes :=
      if dst.isOb then
        (dst.rowAt i, b * m, m) :: if q = 0 then [] else [((dst.rowAt i).scaleRow, b * q, q)]
      else
        (dst, i * x.dstride + b * m, m) :: if q = 0 then [] else [(dst, x.dscale + i * x.dsrow + b * q, q)] }

/-- R88, R89, R240: a command as units, in the order in which they land. -/
def CopyKind.jobs (k : CopyKind) : List Job :=
  match k with
  | .linear src dst len => (List.range (len / 16)).map fun u => ⟨[(src, 16 * u, 16)], none, [(dst, 16 * u, 16)]⟩
  | .gather srcs dst n =>
    (List.range srcs.length).flatMap fun j => (List.range (n / 16)).map fun u =>
      ⟨[(srcs.getD j dst, 16 * u, 16)], none, [(dst, j * n + 16 * u, 16)]⟩
  | .scatter src dsts n =>
    (List.range dsts.length).flatMap fun j => (List.range (n / 16)).map fun u =>
      ⟨[(src, j * n + 16 * u, 16)], none, [(dsts.getD j src, 16 * u, 16)]⟩
  | .tile src dst x => (List.range x.rows).flatMap fun i => (List.range x.units).map (tileJob src dst x i)

/-- Where bytes are, or the engine code and the address at which they cannot be reached (R51). -/
inductive Spots where
  | ok (ks : List Nat)
  | bad (code addr : Nat)
  deriving DecidableEq, Repr

def Spots.join : List Spots → Spots
  | [] => .ok []
  | .bad c a :: _ => .bad c a
  | .ok ks :: t => match Spots.join t with | .ok js => .ok (ks ++ js) | .bad c a => .bad c a

/-- R242: the key slot that a command insists on. -/
def CopyKind.wantKey (k : CopyKind) : Option Nat := match k with | .tile _ _ x => if x.kchk then some x.keyid else none | _ => none

/-- R364, R365, R372: one byte of main memory for a command; a read meets the codeword's condition, and a page that was unmapped
while the command was in flight is gone for it. -/
def State.memSpot (s : State) (c : CopyCmd) (va : Nat) (wr : Bool) : Spots :=
  let away := c.stale.any fun p => p.1 ≤ vaAddr va && vaAddr va < p.1 + p.2
  match if away then .bad 4 4 else if wr then s.xlate c.part c.vf va true else s.probe c.part c.vf va false with
  | .ok pa =>
    match c.kind.wantKey with
    | some k => if s.pageKey c.part c.vf va == some k then .ok [pa] else .bad 0x0A (va - va % 16)
    | none => .ok [pa]
  | .wait => .bad 4 (va - va % 16)
  | .bad _ code => .bad code (va - va % 16)

/-- R371, R374: one place of SRAM for a command of a group, by its offset; a read meets the condition of its word, where the group keeps
it. -/
def State.sramSpot (s : State) (gid : Nat) (wr : Bool) (off : Nat) (k : Nat) : Spots :=
  if !wr && s.eccAt (s.placeFor gid k) != 0 then .bad 1 (off - off % 16) else .ok [k]
def State.sramSpots (s : State) (gid : Nat) (wr : Bool) (off n : Nat) (f : Nat → Nat) : Spots :=
  Spots.join ((List.range n).map fun j => s.sramSpot gid wr (off + j) (f j))

/-- The places of an end's bytes. -/
def State.spots (s : State) (c : CopyCmd) (wr : Bool) (p : End × Nat × Nat) : Spots :=
  let off := p.2.1
  let n := p.2.2
  match p.1 with
  | .shr b o => s.sramSpots c.gid wr (o + off) n fun j => poolKey c.chip c.core (b + o + off + j)
  | .dws b o => s.sramSpots c.gid wr (o + off) n fun j => dwsKey c.chip (b + o + off + j)
  | .fab b o odd =>
    if s.linked (odd % 2 ^ 11) then s.sramSpots c.gid wr (o + off) n fun j => s.fabKey (odd % 2 ^ 11) (b + o + off + j)
    else .bad 6 (o + off - (o + off) % 16)
  | .mem va => Spots.join ((List.range n).map fun j => s.memSpot c (va + off + j) wr)
  | .ob b r row =>
    let o := r.base + row * r.rowb + off
    s.sramSpots c.gid wr o n fun j => obKey (4 * c.chip + c.core / 4) (b + o + j)
  | .obs b r row =>
    let o := r.base + r.soff + row * r.srowb + off
    s.sramSpots c.gid wr o n fun j => obKey (4 * c.chip + c.core / 4) (b + o + j)

def Spots.places (x : Spots) : List Nat := match x with | .ok ks => ks | .bad _ _ => []
def Spots.fault (x : Spots) : Option (Nat × Nat) := match x with | .ok _ => none | .bad c a => some (c, a)

def State.readSpots (s : State) (c : CopyCmd) (j : Job) : Spots := Spots.join (j.reads.map (s.spots c false))
def State.writeSpots (s : State) (c : CopyCmd) (j : Job) : Spots := Spots.join (j.writes.map (s.spots c true))

/-- The bytes that a unit writes, from those it reads. -/
def Job.result (j : Job) (data : List Byte) : List Byte :=
  match j.conv with
  | none => data
  | some x =>
    if x.raw then data
    else if x.packs then
      let p := packRow x.dfmt x.dplanar ((CMode.ofBits? x.mode).getD .rn) data
      p.1 ++ p.2
    else unpackRow x.sfmt x.splanar (data.take x.sbytes) (data.drop x.sbytes)

/-- R87: what a unit writes: from the sources as they stand now, or as they stood when the unit read them (log 10). -/
def State.jobResult (s : State) (c : CopyCmd) (j : Job) (u : Nat) : List Byte :=
  match c.snap.lookup u with
  | some bs => bs
  | none => j.result ((s.readSpots c j).places.map (s.rdFor c.gid))
/-- R240: the places that later units of a command write: there a unit leaves nothing. -/
def State.laterPlaces (s : State) (c : CopyCmd) (u : Nat) : List Nat :=
  match c.kind with
  | .scatter _ _ _ => (c.kind.jobs.drop (u + 1)).flatMap fun j => (s.writeSpots c j).places
  | _ => []
/-- The writes of a unit that have not landed apart, 16 bytes a part. -/
def State.jobWrites (s : State) (c : CopyCmd) (j : Job) (u : Nat) : List (Nat × Byte) :=
  let l := (s.writeSpots c j).places.zip (s.jobResult c j u)
  let gone := s.laterPlaces c u
  ((l.zip (List.range l.length)).filter fun p => !c.slices.contains (8 * u + p.2 / 16) && !gone.contains p.1.1).map Prod.fst

/-- R87: every write visible to the command stands at its home. -/
def State.engineSees (s : State) (id chip : Nat) (ks : List Nat) : Bool :=
  s.pend.all fun o => o.accs.all fun a =>
    !(MKind.writes o.kind && (a.seen.any (Party.reaches id chip)) && overlap a.bytes ks)

/-- The units that have not landed, with their numbers and what they still read. -/
def CopyCmd.units (c : CopyCmd) : List (Job × Nat) :=
  ((c.kind.jobs.zip (List.range c.kind.jobs.length)).filter fun p => !c.done.contains p.2).map fun p =>
    if (c.snap.lookup p.2).isSome then ({ p.1 with reads := [] }, p.2) else p
def CopyCmd.unit? (c : CopyCmd) (u : Nat) : Option Job := (c.units.find? fun p => p.2 == u).map Prod.fst
/-- The engine has begun a command. -/
def CopyCmd.begun (c : CopyCmd) : Bool := !c.done.isEmpty || !c.snap.isEmpty
def CopyCmd.todo (c : CopyCmd) : List Job := c.units.map Prod.fst

/-- The first unit of a list that cannot be read or written: its code and address. -/
def State.firstBad (s : State) (c : CopyCmd) (js : List Job) : Option (Nat × Nat) :=
  js.findSome? fun j => match (s.readSpots c j).fault with | some p => some p | none => (s.writeSpots c j).fault

/-- The chip, by its global number, to which a command's access to an end goes over the fabric: that of a `fab` pair, or another chip
whose main memory holds the address. -/
def State.over? (s : State) (c : CopyCmd) (p : End × Nat × Nat) : Option Nat :=
  match p.1 with
  | .fab _ _ odd => some (odd % 2 ^ 11)
  | .mem va =>
    if s.kvFar c.part c.vf (va + p.2.1) then some ((va + p.2.1) / 2 ^ 38 % 2 ^ 11)
    else match s.xlate c.part c.vf (va + p.2.1) false with
      | .ok pa => ((homeChip pa).filter fun x => x != c.chip).map s.global
      | _ => none
  | _ => none
/-- R390: the bytes that a command sends to other chips. -/
def State.fabBytes (s : State) (c : CopyCmd) : Nat :=
  (c.kind.jobs.map fun j => (j.writes.map fun p => if (s.over? c p).isSome then p.2.2 else 0).sum).sum
/-- R63: a command has a fabric request outstanding. -/
def State.usesFab (s : State) (c : CopyCmd) : Bool := c.todo.any fun j => (j.reads ++ j.writes).any fun p => (s.over? c p).isSome
/-- R63: no response has arrived within 2^24 cycles of the core's clock. -/
def State.copyLate (s : State) (c : CopyCmd) : Bool := s.usesFab c && c.issued + 2 ^ 24 ≤ s.cyc (16 * c.chip + c.core) + c.spent
/-- R62: what stood behind the diverted packets of some units of a command has arrived. -/
def State.unitsDrained (s : State) (c : CopyCmd) (us : List Nat) : Bool :=
  c.diverts.all fun d => !us.contains d.1
    || d.2.1.all (fun k => match s.op? k with | none => true | some o => o.failed.isSome) && d.2.2.all fun x => (x.1 == c.id && us.contains x.2) || s.unitGone x

/-- R49: the destination bytes of a command, data and scales. -/
def CopyCmd.bytes (c : CopyCmd) : Nat := (c.kind.jobs.map fun j => (j.writes.map fun p => p.2.2).sum).sum

def State.copy? (s : State) (id : Nat) : Option CopyCmd := s.copies.find? fun c => c.id == id

/-- R46: the tags of a group that has retired return when its last command has ended. -/
def State.freeTags (s : State) (gid : Nat) : State :=
  if s.copies.any fun c => c.gid == gid then s else { s with tagHold := s.tagHold.filter fun q => q.1 != gid }

/-- A command leaves the core, and its tag counts it no longer. -/
def State.endCopy (s : State) (c : CopyCmd) : State :=
  ((({ s with copies := s.copies.filter fun q => q.id != c.id }).mapGroup c.gid fun g => g.tagDone c.tag).areaTags c.gid).freeTags c.gid

/-- R86, R87: what a finished command has seen passes to those who join it, through its tag and its barrier. -/
def tagPlace (gid tag : Nat) : Nat := 2 ^ 65 + 64 * gid + tag
def State.passOn (s : State) (id gid tag chip core : Nat) (b : Option BarRef) : State :=
  let t := s.pass (.cmd id) (.place (tagPlace gid tag))
  match b with | none => t | some b => t.pass (.cmd id) (.place (b.key chip core))

/-- R49: a barrier takes the credit of a command, after the command's bytes. -/
def State.credit (s : State) (gid chip core : Nat) (b : Option BarRef) (n : Nat) : State :=
  match b with | none => s | some b => s.barUpd gid (b.key chip core) (.arr n)

/-- What keeps some units of a command from being read or written now, quotas of the fabric aside. -/
def State.copyHeld (s : State) (c : CopyCmd) (js : List Job) (rs ws : List Nat) : Bool :=
  s.copyAway c || (s.firstBad c js).isSome || (s.partial? ws).isSome || !s.engineSees c.id c.chip (rs ++ ws)
    || !(c.begun || s.copyRoom c.chip c.part c.vf) || !s.hbmRoomAll c.part c.vf (rs ++ ws)
/-- R390: the command would send more to the fabric than FABQ leaves. -/
def State.fabOver (s : State) (c : CopyCmd) : Bool := s.fabBytes c != 0 && !s.fabRoom c.chip c.part c.vf (s.fabBytes c)

/-- R46, R49, R87: every unit lands, then the barrier and the tag. None while something stands in the way. -/
def State.landCopy (s : State) (c : CopyCmd) : Option State :=
  let js := c.todo
  let ws := js.flatMap fun j => (s.writeSpots c j).places
  let rs := js.flatMap fun j => (s.readSpots c j).places
  if s.copyHeld c js rs ws || s.fabOver c || !s.unitsDrained c (c.units.map Prod.snd) then none
  else
    let t := s.wrsFor c.gid (c.units.flatMap fun p => s.jobWrites c p.1 p.2)
    let u := (t.meterHbmAll c.part c.vf (rs ++ ws)).mapUse c.chip c.part c.vf fun u => { u with copy := u.copy + c.bytes }
    let v := if s.fabBytes c = 0 then u else u.meterFab c.chip c.part c.vf (s.fabBytes c)
    some (((v.passOn c.id c.gid c.tag c.chip c.core c.bar).credit c.gid c.chip c.core c.bar c.bytes).endCopy c)

/-- The address of a byte of an end. -/
def End.addr (e : End) (off : Nat) : Nat :=
  match e with
  | .shr _ o => o + off | .dws _ o => o + off | .fab _ o _ => o + off | .mem va => va + off
  | .ob _ r k => r.base + k * r.rowb + off | .obs _ r k => r.base + r.soff + k * r.srowb + off
/-- R51: the address of the aligned 16-byte unit in which a byte of an end lies. -/
def End.unitAt (e : End) (off : Nat) : Nat := e.addr off - e.addr off % 16
/-- R51: the 16-byte units that a command reads, by their addresses, in the order of its units. -/
def CopyCmd.srcUnits (c : CopyCmd) : List Nat :=
  (c.kind.jobs.flatMap fun j => j.reads.flatMap fun p => (List.range p.2.2).map fun k => p.1.unitAt (p.2.1 + k)).dedup
/-- R51: the address of one of them, by a number (log 16). -/
def CopyCmd.unitAddr (c : CopyCmd) (u : Nat) : Nat := c.srcUnits.getD (u % c.srcUnits.length) 0
/-- R51: the address of the first 16-byte unit of the destination in which a place satisfies a test. -/
def State.dstAddr (s : State) (c : CopyCmd) (js : List Job) (t : Nat → Bool) : Nat :=
  let at_ (j : Job) := ((s.writeSpots c j).places.zip (j.writes.flatMap fun p => (List.range p.2.2).map fun k =>
    p.1.unitAt (p.2.1 + k))).find? fun p => t p.1
  ((js.findSome? at_).map Prod.snd).getD 0

/-- R51: the code and address with which a command may fail now: what its next unit meets, a sector that cannot be
written in part, a spent quota; or an error that the event brings in (log 16). -/
def State.copyFault (s : State) (c : CopyCmd) (code unit : Nat) : Option Nat :=
  let js := c.todo
  match s.firstBad c js with
  | some p => if p.1 = code then some p.2 else if code = 1 || code = 9 then some (c.unitAddr unit) else none
  | none =>
    let ws := js.flatMap fun j => (s.writeSpots c j).places
    if s.partial? ws == some code then
      some (s.dstAddr c js fun k => k < 2 ^ 53 && s.eccAt k != 0 && !(eccPlaces (eccNo k)).all fun q => ws.any fun x => physAt x == q)
    else if code = 8 && s.fabOver c then some (s.dstAddr c js fun _ => true)
    else if code = 1 || code = 3 || code = 9 || (code = 7 && s.copyLate c) then
      some (c.unitAddr unit)
    else none

/-- R63: giving up does not withdraw the requests that write to another chip: they may still arrive. -/
def State.strayUnits (s : State) (c : CopyCmd) : List Stray :=
  c.units.filterMap fun p =>
    (p.1.writes.head?.bind fun w => s.over? c w).map fun g => ⟨s.nextId + p.2, g, s.jobWrites c p.1 p.2, c.gid, c.part, c.vf⟩
def State.giveUp (s : State) (c : CopyCmd) (code : Nat) : State :=
  if code = 7 then { s with strays := s.strays ++ s.strayUnits c, nextId := s.nextId + c.kind.jobs.length } else s
/-- R58, R63: such a request arrives at its target after all, or is not delivered. -/
def State.strayLands (s : State) (id : Nat) : State :=
  match s.strays.find? fun q => q.id == id with
  | some q => { (if s.linked q.dst then s.wrs q.bytes else s) with strays := s.strays.filter fun p => p.id != id }
  | none => s

/-- R372: the place in main memory of a sector that a command meets at an address, and whose codeword is bad. -/
def State.onceAt (s : State) (c : CopyCmd) (addr : Nat) : Option Nat :=
  (List.range 16).findSome? fun k =>
    match s.xlate c.part c.vf (addr + k) false with
    | .ok pa => if s.eccAt pa != 0 then some pa else none
    | _ => none
/-- R372, R402: what a command has met of a sector is noted. -/
def State.copyMet (s : State) (c : CopyCmd) (code addr : Nat) : State :=
  if code = 3 || code = 1 then (match s.onceAt c addr with | some pa => s.eccSeen pa | none => s) else s

/-- R50, R51: a command fails: its barrier takes the code, or the group keeps the failure for its tag. -/
def State.failCopy (s : State) (c : CopyCmd) (code addr : Nat) : State :=
  let t := match c.bar with
    | some b => s.barUpd c.gid (b.key c.chip c.core) (.fail code c.num.toNat)
    | none => s.mapGroup c.gid fun g => { g with fails := g.fails ++ [CmdFail.mk c.tag code addr c.num false c.wid] }
  ((t.copyMet c code addr).giveUp c code).endCopy c

/-- R46, R390: the command completes, or fails where FABQ leaves it no room. -/
def execCopyCommandComplete (cmd : Nat) (s : State) : Host.Outcome State Fault Refusal :=
  match s.copy? cmd with
  | some c =>
    let ws := c.todo.flatMap fun j => (s.writeSpots c j).places
    let rs := c.todo.flatMap fun j => (s.readSpots c j).places
    .next (match s.landCopy c with
      | some t => t
      | none => if s.fabOver c && !s.copyHeld c c.todo rs ws then s.failCopy c 8 (s.dstAddr c c.todo fun _ => true) else s)
  | none => .next s

/-- R50. -/
def execCopyCommandFail (cmd code unit : Nat) (s : State) : Host.Outcome State Fault Refusal :=
  match s.copy? cmd with
  | some c =>
    let alive := match s.warp? c.gid c.wid with | some w => w.live &&& c.lanes != 0 | none => false
    if s.copyAway c || ((s.copyLost c).isSome && alive) then .next s
    else match s.copyFault c code unit with
      | some a => .next (s.failCopy c code a)
      | none => .next s
  | none => .next s

/-- R88, R89: one unit of a command, 16 bytes of its destination or a bushel, lands before the others (log 10). -/
def State.landUnit (s : State) (id u : Nat) : State :=
  match (s.copy? id).bind fun c => (c.unit? u).map fun j => (c, j) with
  | none => s
  | some (c, j) =>
    let ws := (s.writeSpots c j).places
    let rs := (s.readSpots c j).places
    if s.copyHeld c [j] rs ws || s.fabOver c || !s.unitsDrained c [u] then s
    else
      let t := (s.wrsFor c.gid (s.jobWrites c j u)).meterHbmAll c.part c.vf (rs ++ ws)
      { t with copies := t.copies.map fun q => if q.id = id then { q with done := u :: q.done } else q }

/-- R87: a unit reads its sources some time before it lands (log 10). -/
def State.copyRead (s : State) (id u : Nat) : State :=
  match (s.copy? id).bind fun c => (c.unit? u).map fun j => (c, j) with
  | none => s
  | some (c, j) =>
    let rs := (s.readSpots c j).places
    if j.reads.isEmpty || s.copyHeld c [{ j with writes := [] }] rs [] then s
    else
      let t := s.meterHbmAll c.part c.vf rs
      { t with copies := t.copies.map fun q => if q.id = id then { q with snap := setKey q.snap u (s.jobResult c j u) } else q }

/-- R88: 16 bytes of a unit that unpacks a bushel land before the rest of it; the unit has then read its source. -/
def State.landSlice (s0 : State) (id u k : Nat) : State :=
  let s := s0.copyRead id u
  match (s.copy? id).bind fun c => (c.unit? u).map fun j => (c, j) with
  | none => s
  | some (c, j) =>
    let ws := ((s.writeSpots c j).places.drop (16 * k)).take 16
    let slices := match j.conv with | some x => !x.raw && !x.packs && j.writes.length == 1 | none => false
    if !slices || ws.length != 16 || c.slices.contains (8 * u + k) || !j.reads.isEmpty || s.copyHeld c [j] [] ws || s.fabOver c
      || !s.unitsDrained c [u] then s
    else
      let t := (s.wrsFor c.gid (ws.zip (((s.jobResult c j u).drop (16 * k)).take 16))).meterHbmAll c.part c.vf ws
      { t with copies := t.copies.map fun q => if q.id = id then { q with slices := (8 * u + k) :: q.slices } else q }

end Sys2Proof.Machine
end

