-- ==== Sys2Proof/Machine/Sync.lean ====
section
/-! DEFINITION. Copy tags and byte-counting barriers as instructions see them, synchronisation objects and fences: majors
0x28 and 0x29 (R46 to R51, R77 to R83, R243 to R248). -/

namespace Sys2Proof.Machine

/-! ### Tags (R243) -/

/-- The lanes' tag masks. -/
def Warp.sel (w : Warp) (m : Opd) (l : Nat) : Dword := w.src64 m l
/-- R243: a tag at or above T traps with TRAPA 0. -/
def badTags (s : State) (r : Run) (f : Nat → Dword) : Bool :=
  (lanesOf r.lanes).any fun l => (f l).toNat / 2 ^ s.g.kern.tags != 0

/-- R51: the failure that an examination of the lanes' tags meets first, in ascending tag order. -/
def tagFail (s : State) (r : Run) (f : Nat → Dword) : Option CmdFail :=
  (List.range 64).findSome? fun t =>
    if (lanesOf r.lanes).any fun l => (f l).getLsbD t then s.g.fails.find? fun q => !q.matrix && q.tag == t else none

/-- R51: the failure's trap is raised once; while the group holds another trap the run holds (R367). -/
def tagTrap (s : State) (r : Run) (q : CmdFail) : Act :=
  if s.g.trapHeld then .hold s
  else
    .hold (takeTrap (s.setG { s.g with fails := s.g.fails.filter fun p => p != q }) r (codeTrap q.code)
      (if codeNoPlace q.code then r.addr else BitVec.ofNat 64 q.addr) (BitVec.ofNat 32 q.tag))

/-- The examination that `tagany`, `tagall` and `tagfirst` begin with. -/
def examine (s : State) (r : Run) (f : Nat → Dword) (k : Act) : Act :=
  if badTags s r f then .trap 5 0 0
  else match tagFail s r f with
    | some q => tagTrap s r q
    | none => k

/-- R86: lanes join the finished commands of the tags that they find set. -/
def joinTags (s : State) (lanes : LaneMask) (f : Nat → Dword) : State :=
  (List.range 64).foldl (fun t k =>
    let m := keepLanes lanes fun l => (f l).getLsbD k
    if m != 0 && s.g.ctb.getLsbD k then t.meetPlace (tagPlace s.g.id k) (t.party m) else t) s

/-- R243: lanes are held one by one until their test has been met; a lane joins the finished tags of its mask when it releases. -/
def holdLanes (s : State) (r : Run) (f : Nat → Dword) (ok : Nat → Bool) : Act :=
  let now := keepLanes (r.lanes &&& ~~~ r.done) ok
  let t := joinTags s now f
  if r.lanes &&& ~~~ (r.done ||| now) = 0 then .ok t else .hold (t.mapRun fun q => { q with done := q.done ||| now })

def tagAnyOp (i : Instr) (s : State) (f : Warp → Nat → Dword) : Host.Outcome State Fault Refusal :=
  issue i s fun r =>
    examine s r (f s.w) (holdLanes s r (f s.w) fun l => f s.w l == 0 || f s.w l &&& s.g.ctb != 0)
def tagAllOp (i : Instr) (s : State) (f : Warp → Nat → Dword) : Host.Outcome State Fault Refusal :=
  issue i s fun r =>
    examine s r (f s.w) (holdLanes s r (f s.w) fun l => f s.w l &&& s.g.ctb == f s.w l)

/-- R46: bits of tags with no outstanding command clear. -/
def Group.tagClear (g : Group) (m : Dword) : Group :=
  { g with ctb := keepLanes g.ctb fun t => !(m.getLsbD t && getKey g.tagCnt t 0 == 0) }
def tagClrOp (i : Instr) (s : State) (f : Warp → Nat → Dword) : Host.Outcome State Fault Refusal :=
  issue i s fun r =>
    if badTags s r (f s.w) then .trap 5 0 0
    else .ok (s.setG (s.g.tagClear ((lanesOf r.lanes).foldl (fun m l => m ||| f s.w l) 0)))

def one (tag : Fin 64) (_ : Warp) (_ : Nat) : Dword := laneBit tag.val

/-- R243. -/
def execTagany (tag : Fin 64) (s : State) : Host.Outcome State Fault Refusal := tagAnyOp (.tagany tag) s (one tag)
/-- R243. -/
def execTagall (tag : Fin 64) (s : State) : Host.Outcome State Fault Refusal := tagAllOp (.tagall tag) s (one tag)
/-- R243. -/
def execTagclr (tag : Fin 64) (s : State) : Host.Outcome State Fault Refusal := tagClrOp (.tagclr tag) s (one tag)
/-- R243. -/
def execTaganyMask (m : Opd) (s : State) : Host.Outcome State Fault Refusal :=
  tagAnyOp (.taganyMask m) s fun w l => w.sel m l
/-- R243. -/
def execTagallMask (m : Opd) (s : State) : Host.Outcome State Fault Refusal :=
  tagAllOp (.tagallMask m) s fun w l => w.sel m l
/-- R243. -/
def execTagclrMask (m : Opd) (s : State) : Host.Outcome State Fault Refusal :=
  tagClrOp (.tagclrMask m) s fun w l => w.sel m l
/-- R243: the lowest finished tag of each lane's mask, whose commands the lane joins. -/
def execTagfirst (d m : Opd) (s : State) : Host.Outcome State Fault Refusal :=
  issue (.tagfirst d m) s fun r =>
    let v (l : Nat) := s.w.sel m l &&& s.g.ctb
    let first (l : Nat) : Dword := if v l = 0 then 0 else laneBit (lowLane (v l))
    examine s r (s.w.sel m) <| .ok ((joinTags s r.lanes first).setW (s.w.write d r.lanes fun l =>
      if v l = 0 then 0xFFFFFFFF else BitVec.ofNat 32 (lowLane (v l))))

/-! ### Barriers (R244, R245) -/

/-- R244: the space bit. -/
def barSpace (dws : Bool) : Space := if dws then .dws else .shr
/-- The place of a lane's barrier. -/
def State.barPlace (s : State) (dws : Bool) (off : Nat) : Nat := ((s.bytesAt (barSpace dws) off 16 0 0).head?).getD 0
def State.barChecks (s : State) (lanes : LaneMask) (dws : Bool) (a : Opd) : List Chk :=
  (lanesOf lanes).map fun l => ⟨barSpace dws, (s.w.src a l).toNat, 16, 16, true, 0⟩

/-- The bytes of the lanes' barriers. -/
def State.barBytes (s : State) (lanes : LaneMask) (dws : Bool) (a : Opd) : List Nat :=
  (lanesOf lanes).flatMap fun l => s.bytesAt (barSpace dws) (s.w.src a l).toNat 16 0 0

/-- R245: each lane's update in ascending lane order, as one step each. R86: an initialised barrier joins only what
credits it from then on. -/
def barOp (i : Instr) (s : State) (a : Opd) (dws : Bool) (f : Nat → BarOp) (sync init : Bool) :
    Host.Outcome State Fault Refusal :=
  issue i s fun r =>
    checked (s.r37 (s.barChecks r.lanes dws a)) <| s.ordered r.lanes (s.barBytes r.lanes dws a) <|
      .ok ((lanesOf r.lanes).foldl (fun t l =>
        let k := s.barPlace dws (s.w.src a l).toNat
        let u := if sync then t.meetSel (laneBit l) (.place k) else if init then t.forget k else t
        u.barUpd s.g.id k (f l)) s)

/-- R49. -/
def execBcbInit (a : Opd) (sp : Bool) (v : Opd) (s : State) : Host.Outcome State Fault Refusal :=
  barOp (.bcbInit a sp v) s a sp (fun l => .init (s.w.src v l).toNat) false true
/-- R49. -/
def execBcbInitAbandon (a : Opd) (sp : Bool) (s : State) : Host.Outcome State Fault Refusal :=
  barOp (.bcbInitAbandon a sp) s a sp (fun _ => .abandon) false false
/-- R49. -/
def execBcbExp (a : Opd) (sp : Bool) (v : Opd) (s : State) : Host.Outcome State Fault Refusal :=
  barOp (.bcbExp a sp v) s a sp (fun l => .exp (s.w.src v l).toNat) false false
/-- R49, R83: what the crediting lane sees, lanes that observe completion see. -/
def execBcbArr (a : Opd) (sp : Bool) (v : Opd) (s : State) : Host.Outcome State Fault Refusal :=
  barOp (.bcbArr a sp v) s a sp (fun l => .arr (s.w.src v l).toNat) true false

/-- R83, R86: lanes that observe a barrier's complete bit. -/
def State.observe (s : State) (dws : Bool) (a : Opd) (ls : List Nat) : State :=
  ls.foldl (fun t l =>
    let k := s.barPlace dws (s.w.src a l).toNat
    if (s.barAt s.g.id k).flags.testBit 0 then t.meetPlace k (s.party (laneBit l)) else t) s

/-- R245: word 2 of a lane's barrier. -/
def State.barWord (s : State) (dws : Bool) (a : Opd) (l : Nat) : Nat :=
  (s.barAt s.g.id (s.barPlace dws (s.w.src a l).toNat)).word2

/-- R50, R245: a lane is held until FLAGS and the release mask meet, and then receives word 2, which may be where its address
stood: a lane that has been released is not looked at again. -/
def execBcbWait (d : Fin 64) (a : Opd) (sp : Bool) (rel : Fin 8) (s : State) : Host.Outcome State Fault Refusal :=
  issue (.bcbWait d a sp rel) s fun r =>
    let ask := r.lanes &&& ~~~ r.done
    checked (s.r37 (s.barChecks ask sp a)) <| s.ordered ask (s.barBytes ask sp a) <|
      let now := keepLanes ask fun l => s.barWord sp a l / 2 ^ 24 &&& rel.val != 0
      let t := (s.observe sp a (lanesOf now)).setW (s.w.write (vOpd d) now fun l => BitVec.ofNat 32 (s.barWord sp a l))
      if r.lanes &&& ~~~ (r.done ||| now) = 0 then .ok t
      else .hold (t.mapRun fun q => { q with done := q.done ||| now })

/-- R245. -/
def execBcbTest (d : Fin 64) (a : Opd) (sp : Bool) (s : State) : Host.Outcome State Fault Refusal :=
  issue (.bcbTest d a sp) s fun r =>
    checked (s.r37 (s.barChecks r.lanes sp a)) <| s.ordered r.lanes (s.barBytes r.lanes sp a) <|
      .ok ((s.observe sp a (lanesOf r.lanes)).setW
        (s.w.write (vOpd d) r.lanes fun l => BitVec.ofNat 32 (s.barWord sp a l)))

/-! ### Synchronisation objects (R79 to R82, R246 to R248) -/

def ObjSp.space (sp : ObjSp) : Space := match sp with | .shr => .shr | .dws => .dws | .fab => .fab
/-- R337: the space code of a hold. -/
def ObjSp.code (sp : ObjSp) : Nat := match sp with | .shr => 1 | .dws => 2 | .fab => 3

/-- R246: the object that the run's lowest lane names. -/
structure Obj where
  key : Nat
  sp : ObjSp
  off : Nat
  odd : Nat
  deriving DecidableEq, Repr

def State.objOf (s : State) (r : Run) (sp : ObjSp) (a : Opd) : Obj :=
  let f := s.w.ref (match sp with | .fab => true | _ => false) a 0 (lowLane r.lanes)
  ⟨((s.bytesAt (ObjSp.space sp) f.off 16 0 f.odd).head?).getD 0, sp, f.off, f.odd⟩
def Obj.chk (o : Obj) : Chk := ⟨ObjSp.space o.sp, o.off, 16, 16, true, o.odd⟩
/-- R337: the object's place as the hold list keeps it. -/
def Obj.place (o : Obj) : Nat := o.off + (match o.sp with | .fab => o.odd % 2 ^ 11 * 2 ^ 32 | _ => 0)

/-- R79: word 3 of an object. -/
def State.word3 (s : State) (k : Nat) : Nat := s.rdN (k + 12) 4
def w3Excl (w : Nat) : Bool := w.testBit 27
def w3Shared (w : Nat) : Nat := w % 65536
def w3Scope (w : Nat) : Nat := w / 2 ^ 30
def State.setWord3 (s : State) (k w : Nat) : State := s.wrN (k + 12) 4 w

/-- R79, R247: the word's scope disagrees with its space, its reserved bits are not zero, or the lanes lie outside a
`clu` object's cluster. -/
def State.objBad (s : State) (o : Obj) : Bool :=
  let w := s.word3 o.key
  w / 2 ^ 16 % 2 ^ 11 != 0
  || (match o.sp with
      | .shr => w3Scope w != 0
      | .dws => w3Scope w != 1 && w3Scope w != 2
      | .fab => w3Scope w != 3)
  || (w3Scope w == 1 && (segBase (s.w.segOf .dws) + o.off) / 4096 % 16 / 4 != s.g.core / 4)

def Warp.holdOf (w : Warp) (o : Obj) : Option Hold := w.holds.find? fun h => h.sp == ObjSp.code o.sp && h.place == o.place

/-- R81: a request is granted at the home. -/
def State.grant (s : State) (q : ObjReq) : State :=
  let w := s.word3 q.obj
  let t := s.setWord3 q.obj (if q.excl then w ||| 2 ^ 27 else w - w % 65536 + (w + 1) % 65536)
  (t.meetPlace q.obj (.lanes q.gid q.wid (BitVec.allOnes 64))).mapWarp q.gid q.wid fun v =>
    { v with holds := v.holds ++ [⟨q.obj, q.sp, q.place, q.excl⟩] }

/-- R81: whether a request can be granted now, with nobody before it. -/
def objFree (w : Nat) (excl : Bool) : Bool := !w3Excl w && (!excl || w3Shared w == 0)

/-- R81: the home serves the waiting requests of an object in the order they arrived. -/
def State.serveObj : List ObjReq → Nat → State → State
  | [], _, s => s
  | q :: t, k, s =>
    if q.obj = k then
      if objFree (s.word3 k) q.excl then
        State.serveObj t k ({ s with objq := s.objq.filter fun p => p != q }.grant q)
      else s
    else State.serveObj t k s

/-- R81: a hold ends at the home, and what waits is served. -/
def State.release (s : State) (h : Hold) : State :=
  let w := s.word3 h.obj
  let t := s.setWord3 h.obj (if h.excl then w - (if w3Excl w then 2 ^ 27 else 0) else if w3Shared w = 0 then w else w - 1)
  State.serveObj t.objq h.obj t

/-- R81, R248: waiting requests are withdrawn, and the homes serve those that waited behind them. -/
def State.withdrawReqs (s : State) (t : ObjReq → Bool) : State :=
  let gone := (s.objq.filter t).map ObjReq.obj
  gone.foldl (fun u k => State.serveObj u.objq k u) { s with objq := s.objq.filter fun q => !t q }
/-- R248: a warp's waiting request is withdrawn. -/
def State.withdraw (s : State) (gid wid : Nat) : State := s.withdrawReqs fun q => q.gid == gid && q.wid == wid

/-- R81, R247: the acquire forms. `wait` for those that hold the run until granted. -/
def acquire (s : State) (r : Run) (o : Obj) (excl wait : Bool) (done : Bool → State → Act) : Act :=
  checked (s.r37 [o.chk]) <| s.ordered r.lanes (places o.key 16) <|
    if s.objBad o then .trap 5 (BitVec.ofNat 64 o.off) 0
    else if (s.w.holdOf o).isSome then done true (s.meetPlace o.key (s.party r.lanes))
    else if 4 ≤ s.w.holds.length then .trap 5 (BitVec.ofNat 64 o.off) 0
    else
      let q : ObjReq := ⟨o.key, ObjSp.code o.sp, o.place, s.g.id, s.w.idx, excl⟩
      let waits := s.objq.any fun p => p.obj == o.key && (excl || !wait || p.excl) && !(p.gid == q.gid && p.wid == q.wid)
      if s.objq.contains q then .hold s
      else if !waits && objFree (s.word3 o.key) excl then done true (s.grant q)
      else if wait then .hold { s with objq := s.objq ++ [q] }
      else done false s

/-- R81. -/
def execSacq (a : Opd) (sp : ObjSp) (s : State) : Host.Outcome State Fault Refusal :=
  issue (.sacq a sp) s fun r => acquire s r (s.objOf r sp a) true true fun _ t => .ok t
/-- R81. -/
def execSacqSh (a : Opd) (sp : ObjSp) (s : State) : Host.Outcome State Fault Refusal :=
  issue (.sacqSh a sp) s fun r => acquire s r (s.objOf r sp a) false true fun _ t => .ok t
/-- R81. -/
def execStry (d a : Opd) (sp : ObjSp) (s : State) : Host.Outcome State Fault Refusal :=
  issue (.stry d a sp) s fun r =>
    acquire s r (s.objOf r sp a) true false fun b t => .ok (t.writeAll r d (if b then 1 else 0))

/-- R41: the chip, by its global number, and the offset of a place of `dws`. -/
def State.dwsOff (s : State) (k : Nat) : Option (Nat × Nat) :=
  if 2 ^ 54 ≤ k && k < 2 ^ 54 + 128 * 2 ^ 24 then
    let x := k - 2 ^ 54
    let o := x % 2 ^ 24
    some (s.global (x / 2 ^ 28), (o / 4096 * 16 + x / 2 ^ 24 % 16) * 4096 + o % 4096)
  else if 2 ^ 60 ≤ k && k < 2 ^ 61 then some ((k - 2 ^ 60) / 2 ^ 33, (k - 2 ^ 60) % 2 ^ 33)
  else none
/-- R79: the chip in whose `dws` a `sys` object's region lies; its own for every other. -/
def State.regionChip (s : State) (sc : Nat) (place : Nat) : Nat := if sc = 3 then place / 2 ^ 32 else s.global s.g.chip
/-- R79, R82: an access touches the region that the word of a held object binds. An unbound word binds none (R80). -/
def State.inRegion (s : State) (h : Hold) (o : MemOp) (a : Acc) : Bool :=
  let w := s.word3 h.obj
  let b := s.rdN h.obj 8
  let n := s.rdN (h.obj + 8) 4
  let within (lo k : Nat) : Bool := lo ≤ k && k < lo + n
  match w / 2 ^ 28 % 4 with
  | 1 => a.bytes.any (within (poolKey s.g.chip s.g.core (segBase (s.w.segOf .shr) + b)))
  | 2 =>
    let base := segBase (s.w.segOf (if w3Scope w = 3 then .fab else .dws))
    a.bytes.any fun k => match s.dwsOff k with
      | some x => x.1 == s.regionChip (w3Scope w) h.place && within (base + b) x.2
      | none => false
  | 3 => match o.kind with
    | .atomic _ _ _ true _ => o.va.any fun x => x.1 == a.lane && within (b % 2 ^ 58) (vaAddr x.2)
    | _ => false
  | _ => false

/-- R82: the writes to the region that lanes of the selected warp see pass on to later holders; those of a warp that holds the object
shared too (log 122). -/
def State.passRegion (s : State) (m : LaneMask) (h : Hold) : State :=
  s.show (fun o a => MKind.writes o.kind && a.seenBy s.coreNo s.g.id s.w.idx m && s.inRegion h o a) (.place h.obj)

/-- R81, R82, R83: what a warp has written to the region becomes visible, whether it held the object exclusively or shared (log 122). -/
def execSrel (d a : Opd) (sp : ObjSp) (s : State) : Host.Outcome State Fault Refusal :=
  issue (.srel d a sp) s fun r =>
    let o := s.objOf r sp a
    checked (s.r37 [o.chk]) <| s.ordered r.lanes (places o.key 16) <|
      if s.objBad o then .trap 5 (BitVec.ofNat 64 o.off) 0
      else match s.w.holdOf o with
        | none => .ok (s.writeAll r d 0)
        | some h =>
          let t := (s.setW { s.w with holds := s.w.holds.filter fun q => q != h }).passRegion r.lanes h
          .ok ((t.release h).writeAll r d 1)

/-- R79, R80: the region is allowed for the scope and ends within its segment. -/
def State.regionOk (s : State) (sc : Nat) (rsp : RSpace) (base len : Nat) : Bool :=
  let dws := if sc = 3 then s.w.segOf .fab else s.w.segOf .dws
  match rsp with
  | .none => true
  | .shr => sc == 0 && base + len ≤ segLimit (s.w.segOf .shr)
  | .dws => sc != 0 && base + len ≤ segLimit dws
  | .mem => sc != 0

/-- R80: the region, which lies in a chip's space, overlaps that of an object which the warp holds. -/
def State.regionMeets (s : State) (chip : Nat) (rsp : RSpace) (base len : Nat) : Bool :=
  s.w.holds.any fun h =>
    let b := s.rdN h.obj 8
    let n := s.rdN (h.obj + 8) 4
    s.word3 h.obj / 2 ^ 28 % 4 == RSpace.toNat rsp && (rsp != .dws || s.regionChip (w3Scope (s.word3 h.obj)) h.place == chip) && 0 < n && 0 < len && b % 2 ^ 58 < base % 2 ^ 58 + len
      && base % 2 ^ 58 < b % 2 ^ 58 + n

/-- R80, R246. -/
def bindOp (i : Instr) (s : State) (sc : Nat) (sp : ObjSp) (obj base : Opd) (rsp : RSpace) (len d : Opd) :
    Host.Outcome State Fault Refusal :=
  issue i s fun r =>
    let o := s.objOf r sp obj
    let b := (s.w.scal64 r base).toNat
    let n := (s.w.scal r len).toNat
    let w := s.word3 o.key
    checked (s.r37 [o.chk]) <| s.ordered r.lanes (places o.key 16) <|
      if w3Excl w || w3Shared w != 0 || !s.regionOk sc rsp b n || (rsp != .none && s.regionMeets (s.regionChip sc o.place) rsp b n) then
        .trap 5 (BitVec.ofNat 64 o.off) 0
      else
        .ok ((((s.wrN o.key 8 b).wrN (o.key + 8) 4 n).setWord3 o.key (sc * 2 ^ 30 + RSpace.toNat rsp * 2 ^ 28)).writeAll r d
          (BitVec.ofNat 32 w))

/-- R80. -/
def execSobindGrp (obj base : Opd) (rsp : RSpace) (len d : Opd) (s : State) : Host.Outcome State Fault Refusal :=
  bindOp (.sobindGrp obj base rsp len d) s 0 .shr obj base rsp len d
/-- R80. -/
def execSobindClu (obj base : Opd) (rsp : RSpace) (len d : Opd) (s : State) : Host.Outcome State Fault Refusal :=
  bindOp (.sobindClu obj base rsp len d) s 1 .dws obj base rsp len d
/-- R80. -/
def execSobindChip (obj base : Opd) (rsp : RSpace) (len d : Opd) (s : State) : Host.Outcome State Fault Refusal :=
  bindOp (.sobindChip obj base rsp len d) s 2 .dws obj base rsp len d
/-- R80. -/
def execSobindSys (obj base : Opd) (rsp : RSpace) (len d : Opd) (s : State) : Host.Outcome State Fault Refusal :=
  bindOp (.sobindSys obj base rsp len d) s 3 .fab obj base rsp len d

/-! ### Fences (R77) -/

/-- The outstanding pieces of lanes of the selected warp. -/
def State.mine (s : State) (m : LaneMask) : List MemOp :=
  s.pend.filter fun o => o.gid == s.g.id && o.wid == s.w.idx && o.lanes &&& m != 0

def MemOp.isLoad (o : MemOp) : Bool := match o.kind with | .load _ _ => true | _ => false

/-- R77: an earlier load of the lanes has not returned. -/
def State.loading (s : State) (m : LaneMask) : Bool :=
  (s.mine m).any (fun o => o.isLoad && o.failed.isNone)
  || s.landing.any fun l => l.gid == s.g.id && l.wid == s.w.idx && l.lanes &&& m != 0

/-- R78: a fence of the lanes takes in what a fence of another lane has shown to a scope that they lie in, where its own scope takes
in that lane. -/
def State.takeFenced (s : State) (sc : Nat) (m : LaneMask) : State :=
  s.show (fun _ a => a.seen.any fun p =>
    match p with
    | .fenced b c g => scopeMeets b c g s.coreNo s.g.id && scopeMeets sc s.coreNo s.g.id c g
    | _ => false) (s.party m)

/-- R78, R82: what the lanes see by their own writes and by what they have joined passes on to whom a later fence joins with them. -/
def State.showFenced (s : State) (sc : Nat) (m : LaneMask) : State :=
  s.show (fun o a => MKind.writes o.kind && a.binds s.coreNo s.g.id s.w.idx m) (.fenced sc s.coreNo s.g.id)

/-- R77, R78: earlier loads have returned; earlier writes become visible to the parties of the scope, and theirs to the lanes. -/
def fence (i : Instr) (s : State) (sc : Nat) : Host.Outcome State Fault Refusal :=
  issue i s fun r =>
    if s.loading r.lanes then .hold s else .ok ((s.takeFenced sc r.lanes).showFenced sc r.lanes)

/-- R77. -/
def execFenceGrp (s : State) : Host.Outcome State Fault Refusal := fence .fenceGrp s 0
/-- R77. -/
def execFenceClu (s : State) : Host.Outcome State Fault Refusal := fence .fenceClu s 1
/-- R77. -/
def execFenceChip (s : State) : Host.Outcome State Fault Refusal := fence .fenceChip s 2

/-- A failure that lanes are to take (R24, R58, R63, R234): the instruction, the lanes, cause, TRAPA and TRAPV; the operation itself,
but for a copy. -/
structure Lost where
  pc : Nat
  lanes : LaneMask
  cause : Nat
  addr : Dword
  value : Word
  op : Option MemOp
  deriving DecidableEq, Repr

/-- R58, R234: the failure of an operation as some of its lanes take it: TRAPA is the lowest address or offset among theirs. -/
def MemOp.lostBy (o : MemOp) (m : LaneMask) : Option Lost :=
  o.failed.map fun f =>
    let a := (o.cut m).lowest
    ⟨o.pc, o.lanes &&& m, f.1, BitVec.ofNat 64 a, if f.1 = 6 then BitVec.ofNat 32 (vaTag a) else f.2.2, some o⟩
/-- R58, R77: a failed operation that its lanes take at a header; a store's is taken at a `fence.sys`. -/
def MemOp.lost (o : MemOp) (m : LaneMask) : Option Lost :=
  if MKind.isStore o.kind || MKind.isRelease o.kind then none else o.lostBy m

/-- The failures of the earliest instruction. -/
def firstLost (l : List Lost) : List Lost := l.filter fun x => l.all fun y => x.pc ≤ y.pc
/-- R234: the failure at the lowest address. -/
def lowestLost (l : List Lost) : Option Lost :=
  l.foldl (fun b x => match b with | none => some x | some y => if x.addr.toNat < y.addr.toNat then some x else some y) none
def lostLanes (l : List Lost) : LaneMask := l.foldl (fun m x => m ||| x.lanes) 0

/-- R58, R212: stores that could not be delivered trap their lanes at the fence; the other lanes stay in the run, and a piece's lanes
outside the run keep their part of it. -/
def trapFence (s : State) (r : Run) (fs : List MemOp) : State :=
  let l := firstLost (fs.filterMap fun o => o.lostBy r.lanes)
  match lowestLost l with
  | none => s
  | some x =>
    if s.g.trapHeld then s
    else
      let m := lostLanes l
      let rest := r.lanes &&& ~~~ m
      let p := s.takeOps (l.filterMap Lost.op) m
      let t := p.2.setW { s.w with run := if rest = 0 then none else some { r with lanes := rest } }
      trapWith t { lanes := m, pc := x.pc, at_ := r.pc, point := .afterIssue, run := some { r with lanes := m }, x := s.w.x, ops := p.1 }
        x.cause false x.addr x.value

/-- R58, R77: every earlier load has returned and every earlier write is performed, but for one that is deferred, which does not stop
its clause (R20): whom the fence shows it to meets it (log 133). -/
def execFenceSys (s : State) : Host.Outcome State Fault Refusal :=
  issue .fenceSys s fun r =>
    let m := r.lanes
    let fs := (s.mine m).filter fun o => o.failed.isSome && (MKind.isStore o.kind || MKind.isRelease o.kind)
    if !fs.isEmpty then .hold (trapFence s r fs)
    else if s.loading m || (s.mine m).any fun o => o.failed.isNone && !o.deferred then .hold s
    else .ok ((s.takeFenced 3 m).showFenced 3 m)

end Sys2Proof.Machine
end

