-- ==== Sys2Proof/Machine/Hub.lean ====
section
/-! DEFINITION. Hub reductions, major 0x2A, and the end of a slot (R65 to R72, R249, R250). Timeouts that are due when a
request reaches the Hub have taken effect before it. -/

namespace Sys2Proof.Machine

/-! ### The combination (R66, R67) -/

def hubFold (f : Word → Word → Word) : List Word → Word
  | [] => 0
  | x :: t => t.foldl f x

/-- R66, R67: contributions in ascending chip index: the result and NANCNT. -/
def hubCombine (op : Nat) (vs : List Word) : Word × Nat :=
  let nans := (vs.filter isNan32).length
  let ok := vs.filter fun v => !isNan32 v
  let pick (f : Word → Word → Word) (l : List Word) := if l.isEmpty then 0x7FC00000 else hubFold f l
  match op with
  | 0 => (pick (fun a b => (minmax32 true a b).1) ok, nans)
  | 1 => (pick (fun a b => (minmax32 false a b).1) ok, nans)
  | 2 => (pick (fun a b => (minmax32 true a b).1) (ok.map fun v => v &&& 0x7FFFFFFF), nans)
  | 3 => (if nans = 0 then hubFold (fun a b => (add32 .nearest a b).1) vs else 0x7FC00000, nans)
  | 4 => (hubFold (· + ·) vs, 0)
  | 5 => (hubFold (· &&& ·) vs, 0)
  | _ => (hubFold (· ||| ·) vs, 0)

/-- R72: the status word. -/
def hubStatus (slot missing nans code : Nat) : Word :=
  BitVec.ofNat 32 (slot % 64 * 2 ^ 16 + missing * 2 ^ 8 + nans * 2 ^ 4 + code)

/-! ### A slot's life (R69 to R71) -/

def State.hub? (s : State) (k : Nat) : Option HubSlot := s.hub.find? fun h => h.idx == k
def State.putHub (s : State) (h : HubSlot) : State := { s with hub := h :: s.hub.filter fun q => q.idx != h.idx }

/-- R86: the place that stands for a slot where visibility is passed on. -/
def hubPlace (k : Nat) : Nat := 2 ^ 61 + k

/-- Contributions by chip index, in ascending order, and the members without one. -/
def HubSlot.present (h : HubSlot) : List Word := (List.range 8).filterMap fun c => h.put.lookup c
def HubSlot.missing (h : HubSlot) : Nat :=
  ((List.range 8).filter fun c => h.mask.testBit c && (h.put.lookup c).isNone).foldl (fun n c => n + 2 ^ c) 0

/-- The chips of the warps that wait on a slot. -/
def State.hubChips (s : State) (k : Nat) : Nat :=
  (s.hubw.filter fun q => q.slot == k && q.ans.isNone).foldl
    (fun n q => match s.group? q.gid with | some g => n ||| 2 ^ g.chip | none => n) 0

/-- R86, R87: every warp that waits on a slot has its answer, and joins what the slot has seen. -/
def State.answerHub (s : State) (k : Nat) (a : Word × Word) : State :=
  let t := (s.hubw.filter fun q => q.slot == k && q.ans.isNone).foldl
    (fun t q => t.meetPlace (hubPlace k) (.lanes q.gid q.wid q.lanes)) s
  { t with hubw := s.hubw.map fun q => if q.slot = k && q.ans.isNone then { q with ans := some a } else q }

/-- R70, R71: a slot is free. -/
def State.freeHub (s : State) (k : Nat) : State :=
  ({ s with hub := s.hub.filter fun h => h.idx != k }).answerHub k (0, hubStatus k 0 0 3)

/-- R70: chips have been served; once all members have, the slot is free. -/
def State.serveHub (s : State) (h : HubSlot) (chips : Nat) : State :=
  let q := { h with served := h.served ||| chips }
  if q.mask &&& q.served == q.mask then s.freeHub h.idx else s.putHub q

/-- R69: a slot completes, at a Hub cycle. -/
def State.completeHub (s : State) (h : HubSlot) (at_ : Nat) : State :=
  let p := hubCombine h.op h.present
  let st := hubStatus h.idx h.missing p.2 (if h.missing = 0 then 0 else 1)
  let q := { h with complete := true, result := p.1, status := st, since := if h.timeout = 0 then none else some at_ }
  ((s.putHub q).answerHub h.idx (p.1, st)).serveHub q (s.hubChips h.idx)

/-- R69: the timeout of an incomplete slot is due. -/
def HubSlot.dueAt (h : HubSlot) (now : Nat) : Option Nat :=
  match h.since with
  | some t => if h.timeout != 0 && t + h.timeout ≤ now then some (t + h.timeout) else none
  | none => none

/-- R69: an incomplete slot's timeout. -/
def State.hubTimeout (s : State) (k : Nat) : State :=
  match s.hub? k with
  | some h =>
    match h.complete, h.dueAt s.clk.hub with
    | false, some t => s.completeHub h t
    | _, _ => s
  | none => s
/-- R70: a complete slot's second timeout. -/
def State.hubExpire (s : State) (k : Nat) : State :=
  match s.hub? k with
  | some h =>
    match h.complete, h.dueAt s.clk.hub with
    | true, some _ => s.freeHub k
    | _, _ => s
  | none => s

/-- R69. -/
def execHredTimeout (slot : Nat) (s : State) : Host.Outcome State Fault Refusal := .next (s.hubTimeout slot)
/-- R70. -/
def execHredSlotExpire (slot : Nat) (s : State) : Host.Outcome State Fault Refusal := .next (s.hubExpire slot)

/-! ### The requests (R250) -/

/-- One request after another, with each lane's status. -/
def eachLane (f : State → Nat → Word × State) : List Nat → State → List (Nat × Word) × State
  | [], s => ([], s)
  | l :: t, s =>
    let p := f s l
    let q := eachLane f t p.2
    ((l, p.1) :: q.1, q.2)

/-- The slot's due timeouts take effect. -/
def State.hubNow (s : State) (k : Nat) : State := (s.hubTimeout k).hubExpire k

def State.hubOpen (s : State) (k op timeout mask : Nat) : Word × State :=
  if 63 < k then (hubStatus k 0 0 7, s)
  else
    let t := s.hubNow k
    match t.hub? k with
    | some _ => (hubStatus k 0 0 4, t)
    | none =>
      if mask = 0 || 255 < mask || 6 < op || 2 ^ 24 ≤ timeout then (hubStatus k 0 0 7, t)
      else
        (hubStatus k 0 0 0,
         (t.forget (hubPlace k)).putHub
           { idx := k, part := t.g.part, vf := t.g.vf, op := op, mask := mask, timeout := timeout, put := [],
             since := none, complete := false, result := 0, status := 0, served := 0 })

/-- R249: a scalar d stands with scalar and constant sources alone. -/
def hubDestOk (d : Opd) (srcs : List Opd) : Bool := d.kind != 2 || srcs.all Opd.uniform

/-- R249, R250: each lane asks; a scalar d takes the lowest lane's status (log 132). -/
def execHredOpen (slot op timeout mask d : Opd) (s : State) : Host.Outcome State Fault Refusal :=
  issue (.hredOpen slot op timeout mask d) s fun r =>
    let v (o : Opd) (l : Nat) := (s.w.src o l).toNat
    let p := eachLane (fun t l => t.hubOpen (v slot l) (v op l) (v timeout l) (v mask l)) (lanesOf r.lanes) s
    if !hubDestOk d [slot, op, timeout, mask] then Act.trapAt r 1
    else .ok (p.2.setW (p.2.w.write d r.lanes fun l => getKey p.1 l 0))

/-- R68: the first rule that applies. -/
def State.hubPut (s : State) (k l : Nat) (v : Word) : Word × State :=
  if 63 < k then (hubStatus k 0 0 3, s)
  else
    let t := s.hubNow k
    match t.hub? k with
    | none => (hubStatus k 0 0 3, t)
    | some h =>
      if h.part != t.g.part || h.vf != t.g.vf then (hubStatus k 0 0 3, t)
      else if !h.mask.testBit t.g.chip then (hubStatus k 0 0 5, t)
      else if h.complete then (hubStatus k 0 0 2, t.serveHub h (2 ^ t.g.chip))
      else if (h.put.lookup t.g.chip).isSome then (hubStatus k 0 0 6, t)
      else
        let q := { h with put := (t.g.chip, v) :: h.put, since := some (h.since.getD t.clk.hub) }
        let u := t.meetSel (laneBit l) (.place (hubPlace k))
        (hubStatus k 0 0 0, if q.missing = 0 then u.completeHub q t.clk.hub else u.putHub q)

/-- A slot has not completed. -/
def State.hubIncomplete (s : State) (k : Nat) : Bool := match s.hub? k with | some h => !h.complete | none => false

/-- R250: the lanes' puts one after another; `done` are the slots that an earlier one of them has completed: a later put finds such a
slot complete even where it has served every chip by then. -/
def putLanes (slot : Nat → Nat) (v : Nat → Word) : List Nat → List Nat → State → List (Nat × Word) × State
  | [], _, s => ([], s)
  | l :: t, done, s =>
    let k := slot l
    let s := s.hubNow k
    let p := if done.contains k && (s.hub? k).isNone then (hubStatus k 0 0 2, s) else s.hubPut k l (v l)
    let q := putLanes slot v t (if s.hubIncomplete k && !p.2.hubIncomplete k then k :: done else done) p.2
    ((l, p.1) :: q.1, q.2)

/-- R249, R250: each lane puts; a scalar d takes the lowest lane's status (log 132). -/
def execHredPut (d slot : Opd) (s : State) : Host.Outcome State Fault Refusal :=
  issue (.hredPut d slot) s fun r =>
    let p := putLanes (fun l => (s.w.src slot l).toNat) (s.w.src d) (lanesOf r.lanes) [] s
    if !hubDestOk d [slot] then Act.trapAt r 1
    else .ok (p.2.setW (p.2.w.write d r.lanes fun l => getKey p.1 l 0))

/-- R86: `hred.wait` returns: the lanes join, and receive the pair. -/
def State.hubReturn (s : State) (r : Run) (d : Opd) (k : Nat) (a : Word × Word) : Act :=
  .ok ((s.meetPlace (hubPlace k) (s.party r.lanes)).writeAll64 r d (a.2 ++ a.1))

/-- R69, R70, R250. -/
def execHredWait (d slot : Opd) (s : State) : Host.Outcome State Fault Refusal :=
  issue (.hredWait d slot) s fun r =>
    let k := (s.w.scal r slot).toNat
    match s.hubw.find? (fun q => q.gid == s.g.id && q.wid == s.w.idx && q.slot == k && q.lanes &&& r.lanes != 0) with
    | some q =>
      match q.ans with
      | some a => ({ s with hubw := s.hubw.filter fun x => x != q }).hubReturn r d q.slot a
      | none => .hold (s.hubNow q.slot)
    | none =>
      if 63 < k then s.hubReturn r d k (0, hubStatus k 0 0 3)
      else
        let t := s.hubNow k
        match t.hub? k with
        | none => t.hubReturn r d k (0, hubStatus k 0 0 3)
        | some h =>
          if h.part != t.g.part || h.vf != t.g.vf then t.hubReturn r d k (0, hubStatus k 0 0 3)
          else if h.complete then (t.serveHub h (2 ^ t.g.chip &&& h.mask)).hubReturn r d k (h.result, h.status)
          else .hold { t with hubw := t.hubw ++ [HubWait.mk k s.g.id s.w.idx r.lanes none] }

end Sys2Proof.Machine
end

