-- ==== Sys2Proof/Machine/Groups.lean ====
section
/-! DEFINITION. Groups: what a core can supply (R6, R40, R46, R113), how a group starts (R7, R36, R133, R335), how its
state is saved and put back (R30, R374, R375), and what returns when it retires (R8, R9). -/

namespace Sys2Proof.Machine

/-! ### Engines -/

def Engine.empty : Engine := { tiles := [], acc := [], rowf := [], cmds := [], deg := 0, trips := [] }
/-- The engine of a cluster of the module. -/
def State.engine (s : State) (clu : Nat) : Engine := getKey s.engines clu Engine.empty
def State.putEngine (s : State) (clu : Nat) (e : Engine) : State := { s with engines := setKey s.engines clu e }
def State.mapEngine (s : State) (clu : Nat) (f : Engine → Engine) : State := s.putEngine clu (f (s.engine clu))

/-! ### What a core can supply -/

/-- R40: the shared pool of every core of a chip, and the chip's `dws`. -/
def State.poolSize (s : State) (chip : Nat) : Nat := getKey s.poolSz chip (2 ^ 19)
def State.dwsSize (s : State) (chip : Nat) : Nat := 16 * (2 ^ 23 - s.poolSize chip)
/-- R300: bytes of a cluster's operand buffer. -/
def obSize : Nat := 2 ^ 22

/-- R6: the groups that stand on a core; the selected group is among them. -/
def State.onCore (s : State) (chip core : Nat) : List Group :=
  s.allGroups.filter fun g => g.chip == chip && g.core == core && !g.isSaved

/-- R8, R132, R141: warp slots and registers of a group: those of its warps, at least those that a helper below it keeps and those
of a task that it has claimed. -/
def Group.slots (g : Group) : Nat := max (max g.slotsKept g.others.length) ((g.claim.map fun c => c.1).getD 0)
def Group.regs (g : Group) : Nat := max (max g.reserve (g.others.map Warp.nregs).sum) ((g.claim.map fun c => c.2.1).getD 0)

def slotsUsed (gs : List Group) : Nat := (gs.map Group.slots).sum
def regsUsed (gs : List Group) : Nat := (gs.map Group.regs).sum
/-- R6, R8: the core has so many warp slots and registers for a group that stands there. -/
def State.roomFor (s : State) (g : Group) (slots regs : Nat) : Bool :=
  let gs := (s.onCore g.chip g.core).filter fun x => x.id != g.id
  slotsUsed gs + max slots g.slots ≤ 32 && regsUsed gs + max regs g.regs ≤ 2048
/-- R46: the tags of a core that are taken. -/
def State.tagsUsed (s : State) (chip core : Nat) : Nat :=
  ((s.onCore chip core).map Group.tags).sum
    + ((s.tagHold.filter fun q => q.2.1 == chip && q.2.2.1 == core).map fun q => q.2.2.2).sum

/-- An extent of `n` bytes at `b` avoids the used ones. -/
def fitsAt (n lim : Nat) (used : List (Nat × Nat)) (b : Nat) : Bool :=
  b + n ≤ lim && used.all fun u => u.2 == 0 || b + n ≤ u.1 || u.1 + u.2 ≤ b
/-- The lowest place of `n` bytes (log 22). -/
def firstFit (n lim : Nat) (used : List (Nat × Nat)) : Option Nat :=
  if n = 0 then some 0
  else ((0 :: used.map fun u => (u.1 + u.2 + 255) / 256 * 256).filter (fitsAt n lim used)).min?

/-- Places in the pool for several sizes, one after another. -/
def fitAll (lim : Nat) : List Nat → List (Nat × Nat) → Option (List (Nat × Nat))
  | [], _ => some []
  | n :: t, used =>
    match firstFit n lim used with
    | none => none
    | some b => (fitAll lim t ((b, n) :: used)).map fun l => (b, n) :: l

/-- R113: the parts of an engine's operand buffer that are taken; what commands of retired groups still name is not
given away. -/
def State.winUsed (s : State) (clu : Nat) : List (Nat × Nat) :=
  ((s.allGroups.filter fun g => g.clu == clu && !g.isSaved).map Group.win)
  ++ (s.engine clu).cmds.flatMap fun c =>
      match c.kind with
      | .load r _ => [(r.base, r.len)]
      | .stream _ r _ _ q => [(r.base, r.len), (q.base, q.len)]
      | _ => []

/-- Where a group can stand on a core. -/
structure Seat where
  room : List (Nat × Nat)
  win : Nat × Nat
  deriving DecidableEq, Repr

/-- R6, R46, R113: a core supplies everything at once, or nothing. -/
def State.seat? (s : State) (chip core : Nat) (k : Kernel) (slots regs tiles : Nat) : Option Seat :=
  let gs := s.onCore chip core
  let clu := 4 * chip + core / 4
  if 32 < slotsUsed gs + slots || 2048 < regsUsed gs + regs || 64 < s.tagsUsed chip core + k.tags
    || 16 < (s.engine clu).tiles.length + tiles then none
  else
    match fitAll (s.poolSize chip) [k.shr, 64 * k.priv, k.consz] (gs.flatMap Group.room),
        firstFit k.obwin obSize (s.winUsed clu) with
    | some room, some b => some ⟨room, (b, k.obwin)⟩
    | _, _ => none

/-- R377, R386: the partition holds the core's cluster; a stopped one runs nothing there. -/
def Partition.holds (q : Partition) (chip core : Nat) : Bool := q.clumask.getLsbD (4 * chip + core / 4)
def State.partCore (s : State) (p chip core : Nat) : Bool :=
  core < 16 && chip < 8 && match s.part? p with | some q => q.holds chip core && !q.stopped | none => false
/-- The chips on which a partition holds cores (R356). -/
def Partition.chips (q : Partition) : List Nat :=
  (List.range 8).filter fun c => (List.range 4).any fun k => q.clumask.getLsbD (4 * c + k)

/-! ### Starting warps -/

/-- Rows of registers whose contents are undefined (log 4). -/
def freeRows (f n : Nat) : List (Nat × List Word) :=
  (List.range n).map fun r => (r, mkRow fun i => Config.freeWord (f + 64 * r + i))

/-- Free values that one warp's registers take. -/
def warpFree : Nat := 64 * 105

def seg64 (base limit : Nat) : Dword := BitVec.ofNat 64 (limit % 2 ^ 32 * 2 ^ 32 + base % 2 ^ 32)

/-- What every warp of a group starts with. -/
structure Start where
  kern : Kernel
  entry : Nat
  arg : Dword
  late : Word
  seed : Word
  seg : List (Nat × Dword)
  deriving DecidableEq, Repr

/-- R7, R98, R133, R335, R349: warp `idx` as it starts. -/
def Warp.start (f idx : Nat) (b : Start) : Warp :=
  let w : Warp :=
    { Warp.blank with
      idx := idx
      v := freeRows f b.kern.regs
      s := (List.range 64).map fun n => (n, Config.freeWord (f + 64 * 104 + n))
      x := freeRows (f + 64 * 96) 8
      flg := mkRow fun _ => 0
      gen := mkRow (seedGen b.seed)
      seed := b.seed
      late := b.late
      seg := b.seg
      nregs := b.kern.regs
      live := BitVec.allOnes 64
      pcs := [⟨b.entry, BitVec.allOnes 64⟩] }
  let u := (w.putS 2 (b.arg.truncate 32)).putS 3 ((b.arg >>> 32).truncate 32)
  if b.kern.priv = 0 || b.kern.regs < 95 then u
  else u.putV 94 (BitVec.allOnes 64) fun _ => BitVec.ofNat 32 b.kern.priv

/-- All warps of a group. -/
def startWarps (f n : Nat) (b : Start) : List Warp := (List.range n).map fun k => Warp.start (f + warpFree * k) k b
def State.spend (s : State) (n : Nat) : State := { s with free := s.free + n }

/-- R36, R40, R349: the segment registers of a group. -/
def segsOf (k : Kernel) (seat : Seat) (dwsBase fablim : Nat) : List (Nat × Dword) :=
  let r (j : Nat) := (seat.room.getD j (0, 0)).1
  [(0, seg64 (r 1) k.priv), (1, seg64 (r 0) k.shr), (2, seg64 dwsBase k.dws), (3, seg64 (r 2) k.consz),
   (4, seg64 dwsBase fablim), (5, seg64 seat.win.1 k.obwin)]

/-- R40: the constants are staged into the pool. -/
def State.stage (s : State) (chip core : Nat) (k : Kernel) (room : List (Nat × Nat)) : State :=
  s.wrs ((List.range k.consz).map fun j =>
    (poolKey chip core ((room.getD 2 (0, 0)).1 + j), s.rd (conKey k.img (k.conoff + j))))

/-- What makes a group. -/
structure NewGroup where
  chip : Nat
  core : Nat
  part : Nat
  vf : Nat
  kern : Kernel
  coord : Dword
  entry : Nat
  arg : Dword
  dwsBase : Nat
  fablim : Nat
  late : Word
  seed : Word
  pmode : Nat
  prio : Nat
  rec_ : Nat
  slot : Nat
  warps : Nat
  deriving DecidableEq, Repr

/-- R6, R7, R46, R118: a group becomes resident. Its number in the model is its age too (R26). -/
def State.reside (s : State) (q : NewGroup) (seat : Seat) : State :=
  let t := s.stage q.chip q.core q.kern seat.room
  let b : Start := ⟨q.kern, q.entry, q.arg, q.late, q.seed, segsOf q.kern seat q.dwsBase q.fablim⟩
  let g : Group :=
    { Group.blank with
      id := t.nextId, chip := q.chip, core := q.core, part := q.part, vf := q.vf, kern := q.kern, shape := q.kern
      room := seat.room, win := seat.win, coord := q.coord, others := startWarps t.free q.warps b, pmode := q.pmode
      tags := q.kern.tags, ctb := BitVec.ofNat 64 (2 ^ q.kern.tags - 1), slot := q.slot, age := t.nextId, prio := q.prio, rec_ := q.rec_ }
  { t.spend (warpFree * q.warps) with groups := t.groups ++ [g], nextId := t.nextId + 1 }

/-! ### Saving and restoring -/

/-- Registers that were not live hold undefined values after a restore (R337). -/
def Warp.loseDead (w : Warp) (f : Nat) (live : BitVec 96) : Warp :=
  { w with v := w.v.map fun p =>
      if live.getLsbD p.1 then p else (p.1, mkRow fun i => Config.freeWord (f + 64 * p.1 + i)) }

/-- R331: the LIVE mask of the safe-point trailer at a code address; all registers without an entry (R29). -/
def State.liveAt (s : State) (k : Kernel) (pc : Nat) : BitVec 96 :=
  match (List.range k.spcnt).find? fun j => s.rdN (spKey k.img (k.spoff + 16 * j)) 4 == pc with
  | some j => BitVec.ofNat 96 (s.rdN (spKey k.img (k.spoff + 16 * j + 4)) 12)
  | none => BitVec.allOnes 96

/-- The registers that are live at one of several trailers at least. -/
def State.liveAll (s : State) (k : Kernel) (pcs : List Nat) : BitVec 96 :=
  if pcs.isEmpty then BitVec.allOnes 96 else pcs.foldl (fun m p => m ||| s.liveAt k p) 0

/-- Memory without the bytes of an extent. -/
def clearMem (m : List Host.Cell) (lo n : Nat) : List Host.Cell := m.filter fun c => c.1 < lo || lo + n ≤ c.1
def cutMem (m : List Host.Cell) (lo n : Nat) : List Host.Cell := m.filter fun c => lo ≤ c.1 && c.1 < lo + n

/-- R30, R375: `shr` and `priv` as they stand. -/
def State.shrImage (s : State) (g : Group) : List Host.Cell :=
  s.mem.filter fun c => g.kept.any fun e => g.poolAt e.1 ≤ c.1 && c.1 < g.poolAt e.1 + e.2
def State.obImage (s : State) (g : Group) : List Host.Cell := cutMem s.mem (obKey g.clu g.win.1) g.win.2

/-- A place moves with its extent from one home to another. -/
def shiftCell (old new : List (Nat × Nat)) (k : Nat) : Nat :=
  match (old.zip new).find? fun p => p.1.1 ≤ k && k < p.1.1 + p.1.2 with
  | some p => k - p.1.1 + p.2.1
  | none => k

/-- R336, R375: the bytes of a saved group's `shr` and `priv`, as its frame or its context area holds them, by their places. -/
def State.imageBytes (s : State) (g : Group) : List Host.Cell :=
  (g.kept.flatMap fun e => places (g.poolAt e.1) e.2).map fun k => (k, s.rd (g.savedAt k))
/-- R375: the bytes of a saved group's operand-buffer window. -/
def State.windowBytes (s : State) (g : Group) : List Host.Cell :=
  (places (obKey g.clu g.win.1) g.win.2).map fun k => (k, s.rd (g.savedAt k))

/-- Bytes saved from `old` extents are put into `new` ones of the same sizes, whose words are encoded anew (R371). -/
def State.putImage (s : State) (img : List Host.Cell) (old new : List (Nat × Nat)) : State :=
  let m := new.foldl (fun m e => clearMem m e.1 e.2) s.mem
  let inside (k : Nat) : Bool := new.any fun e => e.1 ≤ k && k < e.1 + e.2
  { s with
    mem := writeBytes m (img.map fun c => (shiftCell old new c.1, c.2))
    ecc := s.ecc.filter fun p => !(eccPlaces p.1).all inside }

/-- R375: the tiles of a group leave its engine: each with its elements and its row flags. -/
def Engine.tileRows (e : Engine) (p : Nat) : List (Nat × Word) × List (Nat × Nat) :=
  ((e.acc.filter fun x => x.1 / 32768 == p).map fun x => (x.1 % 32768, x.2),
   (e.rowf.filter fun x => x.1 / 64 == p).map fun x => (x.1 % 64, x.2))
def Engine.dropTile (e : Engine) (p : Nat) : Engine :=
  { e with tiles := e.tiles.filter fun t => t.p != p, acc := e.acc.filter fun x => x.1 / 32768 != p
           rowf := e.rowf.filter fun x => x.1 / 64 != p }
def Engine.putTile (e : Engine) (t : Tile) (d : List (Nat × Word) × List (Nat × Nat)) : Engine :=
  { e with tiles := t :: e.tiles, acc := (d.1.map fun x => (t.p * 32768 + x.1, x.2)) ++ e.acc
           rowf := (d.2.map fun x => (t.p * 64 + x.1, x.2)) ++ e.rowf }
/-- The tiles of an engine that are free. -/
def Engine.freeTiles (e : Engine) : List Nat := (List.range 16).filter fun p => e.tiles.all fun t => t.p != p
def Engine.tilesOf (e : Engine) (gid : Nat) : List Tile := e.tiles.filter fun t => t.gid == gid

/-- The tiles come back, each under its handle. -/
def Engine.putTiles (e : Engine) : List (Tile × List (Nat × Word) × List (Nat × Nat)) → Engine
  | [] => e
  | x :: t =>
    match e.freeTiles with
    | [] => e
    | p :: _ => (e.putTile { x.1 with p := p } x.2).putTiles t

/-! ### The bytes of a frame (R336, R337, log 88) -/

/-- R337: a hold-list entry and a plane descriptor. -/
def Hold.bytes (h : Hold) : List Byte := leBytes 8 (h.place % 2 ^ 43) ++ leBytes 1 h.sp ++ leBytes 1 (if h.excl then 1 else 2) ++ leBytes 6 0
def Plane.bytes (p : Plane) : List Byte := leBytes 1 p.st ++ leBytes 1 p.range ++ leBytes 2 0 ++ leBytes 4 p.row0

/-- A register of 64 lanes, and m0 to m11. -/
def rowBytes (f : Nat → Word) : List Byte := (List.range 64).flatMap fun i => leBytes 4 (f i).toNat
def maskBytes (m : List (Nat × Dword)) : List Byte := (List.range 12).flatMap fun k => leBytes 8 (getKey m k 0).toNat

/-- The runs of a warp that are in a clause: its own, those that are to go on there, and a trapped one. -/
def Warp.runs (w : Warp) : List Run := w.run.toList ++ w.resume.map Prod.fst ++ (w.trapped.bind Trapped.run).toList
/-- R337: where a lane goes on: where it stands in the PC table, behind its wait set or its sleep, at the head of its clause, or where
it has trapped; 0 for a retired lane (log 130). -/
def Warp.nextPc (w : Warp) (i : Nat) : Nat :=
  (((w.pcs.find? fun e => has e.lanes i).map Sub.pc).orElse fun _ =>
    ((w.waits.find? fun e => has e.lanes i).map WaitSet.pc).orElse fun _ =>
      ((w.asleep.find? fun e => has e.lanes i).map Sleeper.pc).orElse fun _ =>
        ((w.runs.find? fun r => has r.lanes i).map Run.start).orElse fun _ => w.trapped.map Trapped.at_).getD 0
def Warp.laneState (w : Warp) (i : Nat) : Nat :=
  if !has w.live i then 255 else match w.waits.find? fun e => has e.lanes i with | some e => 1 + e.k | none => 0

/-- R337: a warp's block: bytes by their offsets; of the registers only the live ones. -/
def Warp.block (w : Warp) (live : BitVec 96) : List (Nat × List Byte) :=
  let q := w.restart
  [(0x000, (List.range 64).flatMap fun i => leBytes 4 (w.nextPc i)), (0x100, (List.range 64).flatMap fun i => leBytes 1 (w.laneState i)),
   (0x140, maskBytes w.m), (0x1A0, (List.range 6).flatMap fun k => leBytes 8 (w.getSeg k).toNat),
   (0x1D0, leBytes 4 w.nregs ++ leBytes 4 w.late.toNat ++ leBytes 4 w.seed.toNat ++ leBytes 36 0),
   (0x200, rowBytes w.getFlg), (0x300, rowBytes w.getGen), (0x400, rowBytes w.getS)]
  ++ ((List.range 96).filter fun k => live.getLsbD k).map (fun k => (0x500 + 256 * k, rowBytes (w.getV k)))
  ++ [(0x6500, ((w.holds.flatMap Hold.bytes) ++ leBytes 64 0).take 64),
      (0x6540, leBytes 4 ((q.map Restart.pc).getD 0xFFFFFFFF) ++ leBytes 4 0 ++ leBytes 8 ((q.map Restart.lanes).getD 0).toNat
        ++ maskBytes ((q.map Restart.masks).getD []) ++ Plane.bytes ((q.map Restart.active).getD Plane.empty)
        ++ Plane.bytes ((q.map Restart.shadow).getD Plane.empty) ++ leBytes 64 0)]

/-- R336: the header of a frame that holds a saved task; BELOW is an address of KIND 2 (log 129). -/
def Frame.header (f : Frame) : List Byte :=
  leBytes 8 f.task.toNat ++ leBytes 8 ((f.below.map fun b => 2 ^ 59 + b).getD 0) ++ leBytes 4 f.kind ++ leBytes 4 f.helpd ++ leBytes 4 f.trailer

/-- Bytes of a frame, by their offsets in it. -/
def State.wrFrame (s : State) (f : Frame) (l : List (Nat × List Byte)) : State :=
  l.foldl (fun t p => t.wrs ((places (frameKey f.part f.chip (f.off + p.1)) p.2.length).zip p.2)) s

/-- R337: the blocks of a saved group's warps, by their offsets; a warp that has retired holds nothing but lanes that have (log 130). -/
def Group.blocks (g : Group) (live : Nat → BitVec 96) : List (Nat × List Byte) :=
  (List.range g.kern.warps).flatMap fun i =>
    let w := (g.others.find? fun w => w.idx == i).getD Warp.blank
    (w.block (if w.live = 0 then 0 else live i)).map fun p => (0x100 + i * 0x6600 + p.1, p.2)
/-- R336: a frame's memory as the save of a group fills it: header, warps with their live registers, `shr` and `priv`. -/
def State.fillFrame (s : State) (f : Frame) (g : Group) (live : Nat → BitVec 96) : State :=
  let t := s.wrFrame f ((0, f.header) :: g.blocks live)
  (g.kept.foldl (fun (q : State × Nat) e =>
    (q.1.wrFrame f [(q.2, (places (g.poolAt e.1) e.2).map fun k => readByte g.savedShr k)], q.2 + e.2)) (t, g.imageAt)).1

/-! ### What returns at the end -/

/-- R9, R122: a tile is released: free at once, or when its last command retires. -/
def Engine.releaseTile (e : Engine) (t : Tile) : Engine :=
  let busy := e.cmds.any fun c =>
    c.gid == t.gid && match c.kind with
      | .stream x _ _ _ _ => x == t.t | .zero x => x == t.t | .drain x _ _ _ => x == t.t | .load _ _ => false
  if busy then { e with tiles := e.tiles.map fun x => if x = t then { x with freed := true } else x } else e.dropTile t.p

/-- R8, R9, R46: a group leaves for good. Its copies, commands and stores go on; the tags return when its last copy has
ended. -/
def State.dropGroup (s : State) (gid : Nat) : State :=
  match s.unselect.groups.find? fun g => g.id == gid with
  | none => s
  | some g =>
    let t := { s.unselect with groups := s.unselect.groups.filter (fun x => x.id != gid), landing := s.landing.filter fun l => l.gid != gid }
    let u := t.mapEngine g.clu fun e => (e.tilesOf gid).foldl Engine.releaseTile e
    if u.copies.any fun c => c.gid == gid then { u with tagHold := (gid, g.chip, g.core, g.tags) :: u.tagHold } else u

end Sys2Proof.Machine
end

