-- ==== Sys2Proof/Machine/Slices.lean ====
section
/-! DEFINITION. Which virtual function of a partition has a chip's cores (R354, level 1), and how a group is asked to
stop (R28, R30). A chip's cores count their cycles together as its first core does (R13). -/

namespace Sys2Proof.Machine

/-- R354: the cycles of a chip's cores. -/
def State.chipCyc (s : State) (chip : Nat) : Nat := s.cyc (16 * chip)

/-- The groups of a virtual function that stand on a chip. System warps belong to the partition. -/
def State.standing (s : State) (chip p v : Nat) : List Group :=
  s.allGroups.filter fun g => g.chip == chip && g.part == p && g.vf == v && !g.sys && !g.isSaved

/-- R354: a virtual function has work on a chip. -/
def State.hasWork (s : State) (chip p v : Nat) : Bool :=
  !(s.standing chip p v).isEmpty
  || s.allGroups.any (fun g => g.chip == chip && g.part == p && g.vf == v && g.isSaved)
  || s.ready.any (fun q => q.chip == chip && q.part == p && q.vf == v)
  || s.records.any fun r => r.part == p && r.vf == v && r.todo.any fun t => t.1 == chip && !t.2.isEmpty

/-- The virtual functions of a partition, in ascending order. -/
def State.vfsOf (s : State) (p : Nat) : List Nat :=
  (List.range 8).filter fun v => (s.vf? p v).isSome
/-- R354: round robin: the next virtual function with work behind `v`, `v` itself last. -/
def State.nextVf (s : State) (chip p v : Nat) : Option Nat :=
  (((s.vfsOf p).filter fun x => v < x) ++ (s.vfsOf p).filter fun x => x ≤ v).find? fun x => s.hasWork chip p x

def State.owner? (s : State) (chip p : Nat) : Option SliceOwner := s.slices.find? fun o => o.chip == chip && o.part == p
def State.putOwner (s : State) (o : SliceOwner) : State :=
  { s with slices := o :: s.slices.filter fun q => !(q.chip == o.chip && q.part == o.part) }

/-- R388: SLICE and WEIGHT of a VSET hold from the next slice on. -/
def Rates.atSlice (r : Rates) (f : Vf) : Rates := { r with weight := f.weight }
/-- R388, R390: the rate quotas of a VSET, PASSQ, HBMSH and CPYSH, hold from the next window on. -/
def Rates.atWindow (r : Rates) (f : Vf) : Rates := { r with passq := f.passq, hbmsh := f.hbmsh, cpysh := f.cpysh }
/-- A setting is taken over from the virtual function's descriptor. -/
def State.renew (s : State) (p v : Nat) (f : Rates → Vf → Rates) (r : Option Rates) : Option Rates :=
  match r, s.vf? p v with | some x, some y => some (f x y) | _, _ => none

/-- R354, R390: a virtual function's slice starts: what it owes shortens it, and its quotas of the slice are whole. -/
def State.startSlice (s : State) (chip p v : Nat) : State :=
  let len := ((s.vf? p v).map Vf.slice).getD 85000
  let owed := (s.useOf chip p v).owed
  (s.mapUse chip p v fun u =>
      { u with owed := 0, passes := 0, fab := 0, rates := s.renew p v Rates.atSlice u.rates }).putOwner
    ⟨chip, p, v, s.chipCyc chip, len - owed, none, false⟩

/-- R354: the groups that stood have stopped: the next virtual function starts, and the time beyond the slice is owed. -/
def State.finishSwitch (s : State) (chip p : Nat) : State :=
  match s.owner? chip p with
  | some o =>
    match o.next with
    | some v =>
      if (s.standing chip p o.vf).isEmpty then
        (s.mapUse chip p o.vf fun u => { u with owed := s.chipCyc chip - (o.since + o.len) }).startSlice chip p v
      else s
    | none => s
  | none => s

/-- R354: the state in which a virtual function has the chip's cores; none while another has them. One that has run out of
work ends its slice at once. -/
def State.takeSlice (s : State) (chip p v : Nat) : Option State :=
  let t := s.finishSwitch chip p
  match t.owner? chip p with
  | none => some (t.startSlice chip p v)
  | some o =>
    if o.next.isSome then none
    else if o.idle || !t.hasWork chip p o.vf then (if t.nextVf chip p o.vf == some v then some (t.startSlice chip p v) else none)
    else if o.vf = v then some t
    else none
/-- R354: a slice whose owner has no work is over. -/
def State.endIdle (s : State) : State :=
  { s with slices := s.slices.map fun (o : SliceOwner) =>
    if o.next.isNone && !o.idle && !s.hasWork o.chip o.part o.vf then { o with idle := true } else o }

/-- R30: a group is to stop. -/
def Group.stop (g : Group) : Group := if g.isSaved then g else { g with stand := .stopping }

/-- R354: a slice ends, or its owner has run out of work. What the next slice owes is the time that the stop takes from here on. -/
def execVfSliceEnd (chip part : Nat) (s : State) : Host.Outcome State Fault Refusal :=
  let t := s.finishSwitch chip part
  match t.owner? chip part with
  | none => .next t
  | some o =>
    if o.next.isSome || (t.chipCyc chip < o.since + o.len && !o.idle && t.hasWork chip part o.vf) then .next t
    else
      match t.nextVf chip part o.vf with
      | none => .next t
      | some v =>
        if v = o.vf then .next (t.startSlice chip part v)
        else
          let u := (t.standing chip part o.vf).foldl (fun u g => u.mapGroup g.id Group.stop)
            (t.putOwner { o with since := t.chipCyc chip, len := 0, next := some v })
          .next (u.finishSwitch chip part)

end Sys2Proof.Machine
end

