-- ==== Sys2Proof/Machine/Objects.lean ====
section
/-! DEFINITION. Task records, dependence counters, futures, lock words and frames, and what the task unit does with them
(R131 to R140, R146, R284, R293, R336, R355). -/

namespace Sys2Proof.Machine

/-! ### Object addresses (R284) -/

def objKind (a : Dword) : Nat := a.toNat / 2 ^ 58 % 4
def objDws (off : Nat) : Dword := BitVec.ofNat 64 (2 ^ 58 + off)
def objFrame (off : Nat) : Dword := BitVec.ofNat 64 (2 ^ 59 + off)

/-- What an object address leads to: its first byte, a fault that can be resolved, or a trap with TRAPV. -/
inductive ObjAt where
  | ok (k : Nat)
  | wait
  | bad (cause : Nat) (v : Word)
  deriving DecidableEq, Repr

/-- R284: main memory of the chip's two stacks. -/
def State.objMem (s : State) (chip p v : Nat) (a : Dword) (n : Nat) : ObjAt :=
  match s.probe p v a.toNat true with
  | .ok pa =>
    if homeChip pa != some chip then .bad 5 0 else if a.toNat % n != 0 then .bad 0x0E 0 else .ok pa
  | .wait => if a.toNat % n != 0 then .bad 0x0E 0 else .wait
  | .bad c code => if a.toNat % n != 0 then .bad 0x0E 0 else .bad c (failValue c code a.toNat)

/-- R284: an object of `n` bytes, as an instruction names it. -/
def State.objAt (s : State) (chip p v : Nat) (a : Dword) (n : Nat) : ObjAt :=
  match objKind a with
  | 0 => s.objMem chip p v a n
  | 1 =>
    if a.toNat / 2 ^ 32 % 2 ^ 26 != 0 || s.dwsSize chip ≤ a.toNat % 2 ^ 32 then .bad 5 0
    else if a.toNat % n != 0 then .bad 0x0E 0
    else .ok (dwsKey chip (a.toNat % 2 ^ 32))
  | _ => .bad 5 0

/-- As the task unit reaches it: a forked child's record too (R136, R336). -/
def State.unitAt (s : State) (chip p v : Nat) (a : Dword) (n : Nat) : ObjAt :=
  if objKind a = 2 then .ok (frameKey p chip (a.toNat % 2 ^ 32 + 0x40)) else s.objAt chip p v a n

/-- R390: HBMSH leaves room for an access to an object of `n` bytes in main memory. -/
def State.objRoom (s : State) (chip p v : Nat) (a : Dword) (n : Nat) : Bool := objKind a != 0 || s.hbmRoom chip p v n
/-- R392: the HBM bytes of an access to an object: its `n` bytes, where it lies in main memory (log 137). -/
def State.meterObj (s : State) (chip p v : Nat) (a : Dword) (n : Nat) : State := if objKind a = 0 then s.meterHbm chip p v n else s
/-- What is done besides, where an instruction completes. -/
def Act.besides (f : State → State) (x : Act) : Act := match x with | .ok t => .ok (f t) | y => y

/-- R372: an access to an object in main memory has met a misdirection of one access. -/
def State.objSeen (s : State) (a : Dword) : State :=
  match if objKind a = 0 then s.xlate s.g.part s.g.vf a.toNat true else .wait with | .ok pa => s.eccSeen pa | _ => s
/-- R284: the trap of an object that cannot be used. -/
def objTrap (s : State) (r : Run) (a : Dword) (c : Nat) (v : Word) : Act := if c = 0x12 then .hold (takeTrap (s.objSeen a) r c a v) else .trap c a v

/-- R75, R284, R390: an instruction acts on an object. -/
def withObj (s : State) (r : Run) (a : Dword) (n : Nat) (k : Nat → Act) : Act :=
  match s.objAt s.g.chip s.g.part s.g.vf a n with
  | .ok x =>
    if s.objRoom s.g.chip s.g.part s.g.vf a n then
      (s.ordered r.lanes (places x n) (k x)).besides fun t => t.meterObj s.g.chip s.g.part s.g.vf a n
    else .hold s
  | .wait => .hold s
  | .bad c v => objTrap s r a c v

/-- R284: an owner's record, as `fwait`, `lkacq` and `qpopw` read it: it may lie with another chip of the module (R141). -/
def State.ownerAt (s : State) (chip p v : Nat) (a : Dword) : ObjAt :=
  if objKind a = 0 then
    match s.probe p v a.toNat true with
    | .ok pa => if (homeChip pa).isNone then .bad 5 0 else if a.toNat % 64 != 0 then .bad 0x0E 0 else .ok pa
    | .wait => if a.toNat % 64 != 0 then .bad 0x0E 0 else .wait
    | .bad c code => if a.toNat % 64 != 0 then .bad 0x0E 0 else .bad c (failValue c code a.toNat)
  else s.unitAt chip p v a 64

/-- R284: an object address without its tag. -/
def untag (a : Dword) : Nat := a.toNat % 2 ^ 60
/-- R284: two object addresses, as two chips of the module use them, name one record: a main-memory address whatever its tag or its
page, an offset in `dws` or in a frame pool only on one chip. -/
def State.sameRec (s : State) (p v c : Nat) (a : Dword) (d : Nat) (b : Dword) : Bool :=
  (untag a == untag b && (objKind a == 0 || c == d))
  || match s.ownerAt c p v a, s.ownerAt d p v b with
    | .ok i, .ok j => i == j
    | _, _ => false

/-! ### The fields of a task record (R131) -/

def State.recState (s : State) (k : Nat) : Nat := s.rdN (k + 40) 1 % 16
def State.setRecState (s : State) (k x : Nat) : State := s.wrN (k + 40) 1 (s.rdN (k + 40) 1 / 16 * 16 + x)
def State.recFlag (s : State) (k b : Nat) : Bool := (s.rdN (k + 40) 1).testBit b
/-- PREDFAIL is bit 7, ADOPTED bit 6, FORKED bit 5. -/
def State.setRecFlag (s : State) (k b : Nat) (on : Bool) : State :=
  let x := s.rdN (k + 40) 1
  s.wrN (k + 40) 1 (if x.testBit b then (if on then x else x - 2 ^ b) else if on then x + 2 ^ b else x)
def State.nchild (s : State) (k : Nat) : Nat := s.rdN (k + 41) 1
def State.setNchild (s : State) (k n : Nat) : State := s.wrN (k + 41) 1 n
def State.recPrio (s : State) (k : Nat) : Nat := s.rdN (k + 44) 1 % 8
def State.recSlot (s : State) (k : Nat) : Nat := s.rdN (k + 45) 1 % 16

/-- R146: the places under which a record passes visibility on: to its task's lanes, from them, and to its parent. -/
def taskStart (k : Nat) : Nat := 2 ^ 62 + k
def taskLanes (k : Nat) : Nat := 2 ^ 63 + k
def taskKids (k : Nat) : Nat := 2 ^ 64 + k

/-! ### Slots and ready queues (R133, R355) -/

def State.slot? (s : State) (p v n : Nat) : Option TaskSlot := (s.vf? p v).bind fun f => f.slots.find? fun x => x.slot == n

def State.ofChip (s : State) (chip p v : Nat) : List Ready :=
  s.ready.filter fun q => q.chip == chip && q.part == p && q.vf == v

/-- R355: the age of a priority's head task on a chip. -/
def State.taskAge (s : State) (chip p v prio : Nat) : Nat := ((s.vf? p v).map fun f => getKey f.aged (8 * chip + prio) 0).getD 0
def State.taskEff (s : State) (chip p v prio : Nat) : Nat := min 7 (prio + s.taskAge chip p v prio / 64)

/-- R133, R355: the priority whose head is dispatched next, of a list of ready tasks. -/
def State.bestPrio (s : State) (chip p v : Nat) (l : List Ready) : Option Nat :=
  (List.range 8).foldl (fun b q =>
    if l.any fun x => x.prio == q then
      match b with
      | none => some q
      | some c => if s.taskEff chip p v c ≤ s.taskEff chip p v q then some q else b
    else b) none

/-- R355: a task leaves its queue for a group; the heads of the other priorities age. -/
def State.takeReady (s : State) (q : Ready) : State :=
  let t := { s with ready := s.ready.filter fun x => x != q }
  t.mapVf q.part q.vf fun f =>
    { f with aged := (List.range 8).foldl (fun l pr =>
        setKey l (8 * q.chip + pr)
          (if pr = q.prio || (t.ofChip q.chip q.part q.vf).all fun x => x.prio != pr then 0
           else getKey l (8 * q.chip + pr) 0 + 1)) f.aged }

/-- R131, R133: a record is posted to its chip's task unit, at the tail of its priority's queue. The unit writes its fields: LINK with
FORKED, PREDFAIL, no child and no adoption yet (log 103), CHIP, and NEXT (log 23). -/
def State.post (s : State) (chip p v : Nat) (a : Dword) (k : Nat) (link : Dword) (failed : Bool) : State :=
  let status := 1 + (if link = 0 then 0 else 32) + if failed then 128 else 0
  let t := ((s.wrD (k + 32) link).wrN (k + 40) 4 status).wrN (k + 46) 1 (s.rdN (k + 46) 1 / 8 * 8 + chip)
  let u := (t.wrD (k + 56) (Config.freeWord (t.free + 1) ++ Config.freeWord t.free)).spend 2
  { u with ready := u.ready ++ [⟨chip, p, v, s.recPrio k, a⟩] }

/-! ### Dependence counters (R135) -/

/-- A step of the task unit: none while a page that it needs is migrating (R284). -/
abbrev UnitStep := State → Option State

def cntFlag (w b : Nat) : Bool := w.testBit b

/-- The state with FLAGS bits of a counter set. -/
def State.orFlags (s : State) (k m : Nat) : State := s.wrN (k + 4) 4 (s.rdN (k + 4) 4 ||| m)

/-- `check` of R135. -/
def counterCheck (chip p v k : Nat) : UnitStep := fun s =>
  let fl := s.rdN (k + 4) 4
  let c := s.rdN k 4
  if fl.testBit 31 && !fl.testBit 30 && (c = 0 || 2 ^ 31 ≤ c) then
    let t := s.orFlags k (2 ^ 30)
    let a := s.rdD (k + 8)
    match s.objAt chip p v a 64 with
    | .wait => none
    | .bad _ _ => some (t.orFlags k (2 ^ 29))
    | .ok x =>
      if t.recState x = 0 then
        some ((((t.meetPlace k (.place (taskStart x))).forget k).post chip p v a x 0 (fl.testBit 29)).meterObj chip p v a 64)
      else some (t.orFlags k (2 ^ 29))
  else some s

/-- `decrement` of R135. -/
def counterDec (chip p v k : Nat) (fail : Bool) : UnitStep := fun s =>
  let c := s.rdN k 4
  let t := if c = 2 ^ 31 then s.orFlags k (2 ^ 29) else s.wrN k 4 ((c + 2 ^ 32 - 1) % 2 ^ 32)
  counterCheck chip p v k (if fail then t.orFlags k (2 ^ 29) else t)

/-- `arm` of R135, for a counter that is not armed. -/
def counterArm (chip p v k n : Nat) : UnitStep := fun s =>
  counterCheck chip p v k ((s.wrN k 4 ((s.rdN k 4 + n) % 2 ^ 32)).orFlags k (2 ^ 31))

/-- A decrement by address; an address that cannot be used leaves everything unchanged (R284). -/
def decrementAt (chip p v : Nat) (a : Dword) (fail : Bool) (q : Party) : UnitStep := fun s =>
  match s.objAt chip p v a 16 with
  | .wait => none
  | .bad _ _ => some s
  | .ok k => if s.objRoom chip p v a 16 then counterDec chip p v k fail ((s.pass q (.place k)).meterObj chip p v a 16) else none

/-! ### Frames (R136, R137) -/

/-- R330: the frame of a kernel's group. -/
def frameSize (warps shr priv : Nat) : Nat := (256 + warps * 26112 + shr + 64 * priv + 255) / 256 * 256

def State.framesOf (s : State) (p chip : Nat) : List Frame := s.frames.filter fun f => f.part == p && f.chip == chip
def State.frame? (s : State) (p chip off : Nat) : Option Frame := (s.framesOf p chip).find? fun f => f.off == off
def State.mapFrame (s : State) (p chip off : Nat) (f : Frame → Frame) : State :=
  { s with frames := s.frames.map fun x => if x.part = p && x.chip = chip && x.off = off then f x else x }
def State.dropFrame (s : State) (p chip off : Nat) : State :=
  { s with frames := s.frames.filter fun x => !(x.part == p && x.chip == chip && x.off == off) }

/-- R137: a free run of the pool, at its lowest place (log 22). -/
def State.takeFrame (s : State) (p v chip size : Nat) (task : Dword) : Option (Nat × State) :=
  let lim := ((s.part? p).map Partition.fpool).getD 0 * 2 ^ 20
  if size = 0 then none
  else (firstFit size lim ((s.framesOf p chip).map fun f => (f.off, f.size))).map fun off =>
    let f : Frame := { off := off, chip := chip, part := p, size := size, task := task, below := none, kind := 0, helpd := 0, saved := [],
                       blocked := none, vf := v }
    (off, { s.wrFrame f [(0, List.replicate 256 0)] with frames := s.frames ++ [f] })
/-- R336: a restore reads a frame and empties it. -/
def State.emptyFrame (s : State) (p chip off : Nat) : State :=
  (s.mapFrame p chip off fun f => { f with kind := 0, saved := [] }).wrN (frameKey p chip (off + 16)) 4 0
/-- R336: a save fills a frame, and its bytes. -/
def State.saveFrame (s : State) (p chip off : Nat) (live : Nat → BitVec 96) (f : Frame → Frame) : State :=
  let t := s.mapFrame p chip off f
  match t.frame? p chip off with
  | none => t
  | some x =>
    match x.saved with
    | [] => t.wrFrame x [(0, x.header)]
    | g :: _ => t.fillFrame x g live

/-- R140, R336: the frame in which a task stands parked. -/
def State.frameOfTask (s : State) (p v chip : Nat) (a : Dword) : Option Frame :=
  (s.framesOf p chip).find? fun f => f.vf == v && f.kind == 1 && !f.saved.isEmpty && s.sameRec p v chip f.task chip a

/-! ### Waiters (R140) -/

/-- R139: a future counts its parked waiters. -/
def State.waiterGone (s : State) (w : Waiter) : State :=
  let t := { s with waiters := s.waiters.filter fun x => x != w }
  if w.fut then t.wrN (w.obj + 20) 4 (t.rdN (w.obj + 20) 4 - 1) else t

/-- A parked task comes back to its queue, at its own priority. -/
def State.repost (s : State) (w : Waiter) : State :=
  let prio := (((s.frameOfTask w.part w.vf w.chip w.rec_).bind fun f => f.saved.head?).map Group.prio).getD 0
  let t := s.waiterGone w
  { t with ready := t.ready ++ [⟨w.chip, w.part, w.vf, prio, w.rec_⟩] }

/-- R140: all waiters of an object. -/
def State.wakeObj (s : State) (k : Nat) : State := (s.waiters.filter fun w => w.obj == k).foldl State.repost s
/-- R139: the owner of a waiter's object as it stands: a future's from its bytes, a lock's as the last hand-over has left it. -/
def State.ownerNow (s : State) (w : Waiter) : Dword := if w.fut then s.rdD (w.obj + 8) else w.owner
/-- R138, step 6: all waiters on objects that a task of a chip owns. -/
def State.wakeOwner (s : State) (p v chip : Nat) (a : Dword) : State :=
  (s.waiters.filter fun w =>
    w.part == p && w.vf == v && s.ownerNow w != 0 && a != 0 && s.sameRec p v w.chip (s.ownerNow w) chip a).foldl State.repost s

/-- R139, R143: a parked task of a chip that goes on is registered no longer.
DESIGN CHOICE (log 118): its priority keeps its age. -/
def State.unregister (s : State) (p v chip : Nat) (a : Dword) : State :=
  let mine (q u c : Nat) (b : Dword) : Bool := q == p && u == v && c == chip && s.sameRec p v chip b chip a
  let t := (s.waiters.filter fun w => mine w.part w.vf w.chip w.rec_).foldl State.waiterGone s
  { t with ready := t.ready.filter fun q => !mine q.part q.vf q.chip q.rec_ }

/-! ### Futures (R139) -/

def State.futState (s : State) (k : Nat) : Nat := s.rdN (k + 16) 4
/-- R138, R139: a future that is Empty takes its value and state, and its waiters go on. -/
def State.resolve (s : State) (k : Nat) (v : Dword) (st : Nat) : State :=
  (((s.wrD k v).wrN (k + 16) 4 st).wakeObj k).wrN (k + 20) 4 0

end Sys2Proof.Machine
end

