-- ==== Sys2Proof/Machine/Helping.lean ====
section
/-! DEFINITION. Parking, helping and the end of a task (R133, R138, R140 to R146): a group's state goes into a frame and comes
back. What a group has outstanding is complete before it parks or helps (log 24). -/

namespace Sys2Proof.Machine

/-! ### A group's run state -/

/-- The selected group with all its warps. -/
def State.whole (s : State) : Group := s.g.putWarp s.w
/-- The selected group leaves residency. -/
def State.leave (s : State) : State := { s with g := Group.blank, w := { Warp.blank with gone := true } }

/-- A sleeping lane is saved at the address after its clause (R337). -/
def Warp.wakeAll (w : Warp) : Warp :=
  { w with pcs := w.asleep.foldl (fun t e => insertSub t e.pc e.lanes) w.pcs, asleep := [] }

/-- R140, R141: an engine thread of the group is outstanding. -/
def State.threads (s : State) (g : Group) : Bool :=
  s.copies.any (fun c => c.gid == g.id) || (s.engine g.clu).cmds.any (fun c => c.gid == g.id) || s.laps.any fun l => l.gid == g.id

/-- R140: nothing that the group has issued is outstanding. -/
def State.quiet (s : State) (g : Group) : Bool :=
  !s.threads g
  && s.pend.all (fun o => o.gid != g.id)
  && s.landing.all (fun l => l.gid != g.id)
  && s.hubw.all (fun q => q.gid != g.id || q.ans.isNone)
  && g.others.all fun w => w.parked.isEmpty && w.flags.isEmpty && w.trapped.isNone

/-- R138, R140, R141: the group holds a tile, a range or an entry of a hold list. -/
def State.holdsAny (s : State) (g : Group) : Bool :=
  !((s.engine g.clu).tilesOf g.id).isEmpty || g.ranges.any (fun x => !x.gone) || g.others.any fun w => !w.holds.isEmpty

/-- R331: a code address has an entry in the kernel's safe-point table. -/
def State.isSafe (s : State) (k : Kernel) (pc : Nat) : Bool :=
  (List.range k.spcnt).any fun j => s.rdN (spKey k.img (k.spoff + 16 * j)) 4 == pc

/-- R336: the trailer whose LIVE mask the save at a run uses. -/
def State.trailerOf (s : State) (r : Run) : Nat := if s.isSafe s.g.kern (r.fall - 4) then r.fall - 4 else 0xFFFFFFFF

/-- R54, R252: the runs of a warp whose lanes wait in a rendezvous or in `qpopw`: withdrawn, they run the instruction again. -/
def State.blockedRuns (s : State) (g : Group) (wid : Nat) : List (Run × List (Nat × List Word)) :=
  (g.rvz.filter fun z => z.wid == wid).map (fun z => ({ z.at_ with lanes := z.lanes }, z.x))
  ++ s.hwq.flatMap fun q => (q.blocked.filter fun b => b.gid == g.id && b.wid == wid).filterMap fun b =>
      b.at_.map fun r => ({ r with lanes := b.lanes, done := 0 }, b.x)
/-- A group's lanes wait in no queue any more. -/
def State.leaveQueues (s : State) (gid : Nat) : State :=
  { s with hwq := s.hwq.map fun q => { q with blocked := q.blocked.filter fun b => b.gid != gid } }
/-- R69, R159, R248: what a group's warps wait for is withdrawn, and asked for again on resumption. -/
def State.withdrawAll (s : State) (gid : Nat) : State :=
  { s.withdrawReqs fun q => q.gid == gid with
    hubw := s.hubw.filter fun q => q.gid != gid || q.ans.isSome
    gtimers := s.gtimers.filter fun q => q.1 != gid }
/-- R140, R154: the places of a group's warps in the orders of sequences and laps are given up. -/
def State.leaveTurns (s : State) (gid : Nat) : State :=
  { s with
    seqs := s.seqs.map fun (q : Seq) => { q with queue := q.queue.filter fun p => p.1 != gid }
    members := s.members.map fun (m : Member) => { m with held := m.held.filter fun p => p.1 != gid } }
/-- R30, R140, R210: a warp as a save keeps it: sleeping lanes behind their clause, blocked ones before their instruction, whose look at
its object begins anew. -/
def State.saveWarp (s : State) (g : Group) (w : Warp) : Warp :=
  let afresh (r : Run) : Run := { r with parking := false }
  { w.wakeAll with run := w.run.map afresh, resume := w.resume ++ (s.blockedRuns g w.idx).map fun p => (afresh p.1, p.2) }

/-- R140: the selected group as a frame keeps it: of each warp the registers that are live by the mask of the clause of the run `r`. -/
def State.pack (s : State) (r : Run) : Group × State :=
  let live := s.liveAt s.g.kern (r.fall - 4)
  let ws := (s.w :: s.g.others).zip (List.range (s.g.others.length + 1))
  let g := { s.g with
    others := ws.map fun p => s.saveWarp s.g (p.1.loseDead (s.free + 64 * 96 * p.2) live)
    rvz := []
    savedShr := s.shrImage s.g }
  (g, (((s.leaveQueues s.g.id).withdrawAll s.g.id).leaveTurns s.g.id).spend (64 * 96 * ws.length))

/-- A segment register moves with the extents of its store. -/
def rebaseSeg (old new : Nat × Nat) (v : Dword) : Dword :=
  if old.1 ≤ segBase v && segBase v ≤ old.1 + old.2 then seg64 (segBase v - old.1 + new.1) (segLimit v) else v
def Warp.rebase (ro rn : List (Nat × Nat)) (wo wn : Nat × Nat) (w : Warp) : Warp :=
  let e (l : List (Nat × Nat)) (j : Nat) := l.getD j (0, 0)
  { w with seg := w.seg.map fun p =>
      (p.1, match p.1 with
        | 0 => rebaseSeg (e ro 1) (e rn 1) p.2
        | 1 => rebaseSeg (e ro 0) (e rn 0) p.2
        | 3 => rebaseSeg (e ro 2) (e rn 2) p.2
        | 5 => rebaseSeg wo wn p.2
        | _ => p.2) }

/-- The extents of a group's `shr` and `priv` as places, with the sizes of another group. -/
def Group.extents (g o : Group) : List (Nat × Nat) :=
  (g.room.zip o.kept).map fun p => (g.poolAt p.1.1, p.2.2)

/-- R137, R143, R336: a saved group's run state is put into a resident group, `shr` and `priv` from the frame `off`. -/
def State.install (s : State) (gid : Nat) (o : Group) (off : Nat) : State :=
  match s.group? gid with
  | none => s
  | some g =>
    let q : Group := { o with frame := some off }
    let t := ((s.putImage (s.imageBytes q) (o.extents o) (g.extents o)).eccCopy fun k =>
      (q.savedBack k).map (shiftCell (o.extents o) (g.extents o))).stage g.chip g.core o.kern g.room
    { t.unselect with groups := t.unselect.groups.map fun x =>
        if x.id = gid then
          { x with kern := o.kern, coord := o.coord, task := o.task, tdone := o.tdone, frame := o.frame, prio := o.prio
                   failing := o.failing, claim := none
                   others := o.others.map (Warp.rebase o.room x.room o.win x.win) }
        else x }

/-! ### Starting and resuming a task in a resident group -/

/-- R132, R133: a resident group claims a Posted task; its warps are to start (log 104). -/
def State.claimTask (s : State) (gid : Nat) (a : Dword) (k : Nat) (x : TaskSlot) (frame : Option Nat) : State :=
  let t := (s.setRecState k 2).unselect
  { t with groups := t.groups.map fun q =>
      if q.id = gid then
        { q with kern := x.kern, task := a, tdone := none, failing := false, frame := frame, prio := s.recPrio k, others := []
                 claim := some (x.kern.warps, x.kern.warps * x.kern.regs, x.slot) }
      else q }

/-- R144: an adopted task begins a region where each of its warps stands: lanes that are blocked in a clause at its header, lanes at
several addresses each at its own, lanes in wait sets where they wait (log 46). -/
def State.beginRegions (s : State) (gid : Nat) : State :=
  let n := s.nextId
  let f (g : Group) (w : Warp) : Warp :=
    let subs := (w.run.toList ++ w.resume.map Prod.fst).foldl (fun t r => insertSub t r.start r.lanes) w.pcs
    let head : Sub := subs.headD ⟨((w.waits.head?).map WaitSet.pc).getD 0, 0⟩
    if subs.isEmpty && w.waits.isEmpty then w
    else { w with restart := some ⟨head.pc, head.lanes, w.m, g.active, g.shadow, subs.tail, w.waits⟩, region := n + w.idx }
  { s with
    nextId := n + 16
    groups := s.groups.map fun g => if g.id = gid then { g with others := g.others.map (f g) } else g }

/-- R132, R133: the warps of a group that has claimed a task start at the task's ENTRY. -/
def State.beginTask (s : State) (g : Group) (k : Nat) (x : TaskSlot) : State :=
  let b : Start := ⟨x.kern, s.rdN k 8, s.rdD (k + 8), x.late, x.seed, segsOf x.kern ⟨g.room, g.win⟩ x.dwsBase x.fablim⟩
  let t := ((s.stage g.chip g.core x.kern g.room).setRecState k 3).unselect
  let u : State := { t.spend (warpFree * x.kern.warps) with groups := t.groups.map fun q =>
      if q.id = g.id then
        { q with coord := s.rdD (k + 16), claim := none, others := startWarps t.free x.kern.warps b }
      else q }
  let v := (u.meetPlace (taskStart k) (.grp g.id)).forget (taskStart k)
  if 0 < g.helpd then v.beginRegions g.id else v

/-- R132: a Claimed task starts, once its record can be reached. -/
def State.startTask (s : State) (gid : Nat) : State :=
  match s.group? gid with
  | none => s
  | some g =>
    match g.claim, g.isSaved, s.unitAt g.chip g.part g.vf g.task 64 with
    | some c, false, .ok k =>
      match s.slot? g.part g.vf c.2.2 with
      | some x => s.beginTask g k x
      | none => s
    | _, _, _ => s

/-- R132, R336: a parked task goes on in a resident group: it is registered nowhere, and its frame is empty. -/
def State.resumeTask (s : State) (gid : Nat) (p v : Nat) (a : Dword) (k : Nat) (f : Frame) : State :=
  match f.saved with
  | [] => s
  | o :: _ =>
    let t := ((s.unregister p v f.chip a).setRecState k 3).install gid o f.off
    ((t.emptyFrame p f.chip f.off).meetPlace (taskStart k) (.grp gid)).forget (taskStart k)

/-- R136: the frame of a task that is to start: a forked child's own, or one taken from the pool. -/
def State.startFrame (s : State) (p v chip : Nat) (a : Dword) (kern : Kernel) : Option (Nat × State) :=
  if objKind a = 2 then some (a.toNat % 2 ^ 32, s) else s.takeFrame p v chip kern.frame a

/-! ### Parking (R140, R143) -/

/-- What every lane of a group sees is visible to a party. -/
def State.meetGroup (s : State) (g : Group) (q : Party) : State :=
  g.others.foldl (fun t w => t.meet (16 * g.chip + g.core) g.id w.idx (BitVec.allOnes 64) q) s

/-- R140, R284: a task stands Parked in its own frame, registered at its object; a record that cannot be reached is left as it is.
`from_` is the helper frame that held it until then. -/
def State.parkIn (s : State) (o : Group) (from_ : Option Nat) (live : Nat → BitVec 96) (trailer : Nat) (w : Waiter) : State :=
  match o.frame with
  | none => s
  | some off =>
    let r := match s.unitAt o.chip o.part o.vf o.task 64 with
      | .ok k => (s.meetGroup o (.place (taskStart k))).setRecState k 4
      | _ => s
    let v := r.saveFrame o.part o.chip off live fun f =>
      { f with kind := 1, helpd := o.helpd, trailer := trailer, saved := [{ o with relay := [], helpd := 0, reserve := 0, slotsKept := 0 }] }
    let t := match from_ with
      | none => v.eccSaved o
      | some x => v.eccCopy fun k => (({ o with frame := some x } : Group).savedBack k).map o.savedAt
    let u := { t with waiters := t.waiters ++ [w] }
    if w.fut then u.wrN (w.obj + 20) 4 ((u.rdN (w.obj + 20) 4 + 1) % 2 ^ 32) else u

/-- An object that changed while its waiter was a helper (R140). -/
def State.changed (s : State) (w : Waiter) : Bool :=
  if w.fut then s.futState w.obj != 0
  else if s.unitAt w.chip w.part w.vf w.rec_ 64 = .ok w.obj then s.nchild w.obj == 0
  else match s.rdN (w.obj + 8) 4 with
    | 0 => true
    | 2 => true
    | 3 => s.rdD w.obj == w.rec_
    | _ => false

/-- The owner of a waiter's object has ended. -/
def State.ownerEnded (s : State) (w : Waiter) : Bool :=
  s.ownerNow w != 0 && match s.ownerAt w.chip w.part w.vf (s.ownerNow w) with
    | .ok k => 5 ≤ s.recState k && s.recState k ≤ 6
    | _ => false

/-- A group that a frame holds, with the bytes of `shr` and `priv` as they stand there. -/
def State.shrBack (s : State) (o : Group) (off : Nat) : Group :=
  { o with savedShr := (s.imageBytes { o with frame := some off }).filter fun c => c.2 != 0 }

/-- R143: the relay below a task that parks: each helper parks too, but for one that cannot (R54, R140): it goes on
resident. `g` is the resident group; the result tells whether it stays. -/
def State.parkRelay (s : State) (g : Group) : List Nat → State
  | [] => s
  | off :: rest =>
    match s.frame? g.part g.chip off with
    | none => s
    | some f =>
      match f.saved, f.blocked with
      | o :: _, some w =>
        let t := (s.parkIn (s.shrBack o off) (some off) (fun _ => s.liveAt o.kern f.trailer) f.trailer w).dropFrame g.part g.chip off
        (if t.changed w || t.ownerEnded w then t.repost w else t).parkRelay g rest
      | o :: _, none =>
        let t := { s.unselect with groups :=
          { g with others := [], helpd := f.helpd, relay := rest, reserve := o.reserve, slotsKept := o.slotsKept } :: s.unselect.groups }
        (t.install g.id o off).dropFrame g.part g.chip off
      | [], _ => s

/-- R284: the record of a helper of the group's relay cannot be reached now. -/
def State.relayWaits (s : State) (g : Group) : Bool :=
  g.relay.any fun off => match s.frame? g.part g.chip off with
    | some f => s.unitAt g.chip g.part g.vf f.task 64 = .wait
    | none => false

/-- R140: the selected group parks at the run `r`, or holds until it can. It has made up its mind: nothing but its threads keeps it
(R141). -/
def parkAt (s : State) (r : Run) (w : Waiter) : Act :=
  if s.g.task = 0 || s.g.trapHeld then .hold s
  else if !s.quiet s.whole then .hold (s.mapRun fun z => { z with parking := true })
  else if s.holdsAny s.whole then Act.trapAt r 5
  else match s.unitAt s.g.chip s.g.part s.g.vf s.g.task 64 with
    | .wait => .hold s
    | .bad c v => .trap c s.g.task v
    | .ok _ =>
      if s.relayWaits s.g then .hold s
      else
        let p := s.pack r
        let t := (p.2.meetGroup p.1 (.grp s.g.id)).leave
        .hold ((t.parkIn p.1 none (fun _ => s.liveAt s.g.kern (r.fall - 4)) (s.trailerOf r) w).parkRelay p.1 s.g.relay)

/-! ### Helping (R141) -/

/-- R46, R133, R141: what a kernel needs beside warps and registers is no more than the group has. -/
def Group.supplies (g : Group) (k : Kernel) : Bool :=
  k.shr ≤ g.shape.shr && k.priv ≤ g.shape.priv && k.tags ≤ g.shape.tags && k.obwin ≤ g.shape.obwin
/-- R141: a slot's shape fits the group (log 25). -/
def Group.fits (g : Group) (k : Kernel) : Bool :=
  k.warps == g.shape.warps && g.others.all (fun w => k.regs ≤ w.nregs) && k.regs ≤ g.shape.regs && g.supplies k
/-- R40: the extents of a group with room for a kernel's constants: those that it has, or another one for them; none where the core's
pool has none (log 25). -/
def State.roomCon (s : State) (g : Group) (k : Kernel) : Option (List (Nat × Nat)) :=
  if k.consz ≤ (g.room.getD 2 (0, 0)).2 then some g.room
  else
    let own := g.room.take 2
    (firstFit k.consz (s.poolSize g.chip) (own ++ ((s.onCore g.chip g.core).filter fun x => x.id != g.id).flatMap Group.room)).map fun b =>
      own ++ [(b, k.consz)]
/-- R40: the group's extents become those. -/
def State.setRoom (s : State) (gid : Nat) (room : List (Nat × Nat)) : State := s.mapGroup gid fun g => { g with room := room }

/-- R141: what does not depend on the owner's state. -/
def State.mayHelp (s : State) (g : Group) : Bool := g.helpd < 4 && !s.holdsAny g && !s.threads g

/-- R141: the helper's state goes into a frame of the pool; the group is empty for the owner's task. -/
def State.pushHelper (s : State) (r : Run) (below : Nat) (w : Option Waiter) : Option State :=
  let g := s.whole
  match s.takeFrame g.part g.vf g.chip (frameSize g.shape.warps g.shape.shr g.shape.priv) g.task with
  | none => none
  | some q =>
    let p := (q.2.meetGroup g (.grp g.id)).pack r
    let t := (p.2.saveFrame g.part g.chip q.1 (fun _ => s.liveAt s.g.kern (r.fall - 4)) fun f =>
      { f with kind := 2, below := some below, helpd := g.helpd, trailer := s.trailerOf r, saved := [p.1], blocked := w }).eccSaved
        { p.1 with frame := some q.1 }
    let u := t.leave
    some { u with groups :=
      { g with others := [], rvz := [], helpd := g.helpd + 1, relay := q.1 :: g.relay, reserve := g.regs, slotsKept := g.slots } :: u.groups }

/-- R141: adopts a Posted owner. None when the pool is empty. -/
def State.adoptPosted (s : State) (r : Run) (a : Dword) (k : Nat) (x : TaskSlot) (w : Option Waiter) (room : List (Nat × Nat)) :
    Option State :=
  let g := s.g
  match s.startFrame g.part g.vf g.chip a x.kern with
  | none => none
  | some q =>
    (q.2.pushHelper r q.1 w).map fun t =>
      (((t.unregister g.part g.vf g.chip a).setRecFlag k 6 true).setRoom g.id room).claimTask g.id a k x (some q.1)

/-- The kernel of the task that a frame holds. -/
def Frame.kernOr (f : Frame) (k : Kernel) : Kernel := (f.saved.head?.map Group.kern).getD k
/-- R141: adopts a Parked owner. -/
def State.adoptParked (s : State) (r : Run) (a : Dword) (k : Nat) (f : Frame) (w : Option Waiter) (room : List (Nat × Nat)) : Option State :=
  let g := s.whole
  (s.pushHelper r f.off w).map fun t =>
    (((t.setRecFlag k 6 true).setRoom g.id room).resumeTask g.id g.part g.vf a k f).beginRegions g.id

/-- R8: there is room for a parked task's warps and registers, which must fit into those that the group holds (log 25). -/
def State.roomSaved (s : State) (g o : Group) : Bool := o.regs ≤ max g.regs (g.shape.warps * g.shape.regs) && s.roomFor g o.slots o.regs

/-- R141: the group's current task and those below it in its relay. -/
def State.relayTasks (s : State) (g : Group) : List Dword :=
  (g.task :: g.relay.filterMap fun off => (s.frame? g.part g.chip off).map Frame.task).filter fun a => a != 0

/-- R132, R141: a Posted record stands in the virtual function's queue of the chip. -/
def State.postedHere (s : State) (g : Group) (k : Nat) : Bool :=
  (s.ofChip g.chip g.part g.vf).any fun q => s.unitAt g.chip g.part g.vf q.rec_ 64 = .ok k
/-- A claimed record leaves its queue, under whatever address it stands there. -/
def State.leaveReady (s : State) (g : Group) (k : Nat) : State :=
  { s with ready := s.ready.filter fun q =>
      !(q.chip == g.chip && q.part == g.part && q.vf == g.vf && s.unitAt g.chip g.part g.vf q.rec_ 64 = .ok k) }

/-- R140, R141: what `fwait`, `lkacq` and `qpopw` do when their object is not ready. `addr` is the object's address for a trap,
`gone` the case of an owner that has ended, `park` the case of "Park": once a group has come to it, it looks only whether the owner
has ended, until it is registered. -/
def helpOn (s : State) (r : Run) (owner addr : Dword) (w : Option Waiter) (gone park : Act) : Act :=
  if owner = 0 then park
  else if r.parking then
    match s.ownerAt s.g.chip s.g.part s.g.vf owner with
    | .ok k => if s.recState k = 5 || s.recState k = 6 then gone else park
    | .wait => .hold s
    | .bad _ _ => park
  else if (s.relayTasks s.g).any fun a => s.sameRec s.g.part s.g.vf s.g.chip a s.g.chip owner then .trap 5 addr 0
  else
    match s.ownerAt s.g.chip s.g.part s.g.vf owner with
    | .wait => .hold s
    | .bad c v => objTrap s r owner c v
    | .ok k =>
      let g := s.whole
      let here := s.unitAt g.chip g.part g.vf owner 64 = .ok k
      let adopt (t : Option State) : Act := if !s.quiet g then .hold s else match t with | some u => .hold u | none => park
      match s.recState k, s.slot? g.part g.vf (s.recSlot k) with
      | 1, some x =>
        match s.roomCon g x.kern with
        | some room =>
          if here && s.postedHere g k && s.mayHelp g && g.fits x.kern && s.roomFor g x.kern.warps (x.kern.warps * x.kern.regs) then
            adopt ((s.leaveReady g k).adoptPosted r owner k x w room)
          else park
        | none => park
      | 4, some x =>
        match (s.frameOfTask g.part g.vf g.chip owner).bind fun f => (s.roomCon g (f.kernOr x.kern)).map fun room => (f, room) with
        | some (f, room) =>
          if here && s.mayHelp g && g.fits (f.kernOr x.kern) && f.saved.all (s.roomSaved g) then adopt (s.adoptParked r owner k f w room)
          else park
        | none => park
      | 5, _ => gone
      | 6, _ => gone
      | _, _ => park

/-! ### The end of a task (R138, R143, R133) -/

/-- R143: the helper comes back into the group and goes on with its blocking instruction. -/
def State.unwind (s : State) (g : Group) : State :=
  match g.relay with
  | [] => s
  | off :: rest =>
    match s.frame? g.part g.chip off with
    | none => s
    | some f =>
      match f.saved with
      | [] => s
      | o :: _ =>
        (((s.mapGroup g.id fun x =>
          { x with helpd := f.helpd, relay := rest, reserve := o.reserve, slotsKept := o.slotsKept }).install g.id o off).dropFrame g.part
          g.chip off)

/-- R132: a ready entry whose record is neither Posted nor Parked is no task any more: it was claimed elsewhere. -/
def State.staleReady (s : State) (q : Ready) : Bool :=
  match s.unitAt q.chip q.part q.vf q.rec_ 64 with
  | .ok k => s.recState k != 1 && s.recState k != 4
  | _ => false
/-- R133, R284: an entry may be the group's next task: a task of its slot, or a record that cannot be reached now. -/
def State.nextFor (s : State) (g : Group) (q : Ready) : Bool :=
  match s.unitAt g.chip g.part g.vf q.rec_ 64 with
  | .ok k => s.recSlot k == g.slot
  | .wait => true
  | .bad _ _ => false

/-- R133, R138: the next ready task of the same slot, in the group as it stands where that has what the task needs; none while its
record cannot be reached. -/
def State.nextTask (s0 : State) (g : Group) : Option State :=
  let s := { s0 with ready := s0.ready.filter fun q => !s0.staleReady q }
  let mine := (s.ofChip g.chip g.part g.vf).filter (s.nextFor g)
  match (s.bestPrio g.chip g.part g.vf mine).bind fun pr => mine.find? fun q => q.prio == pr with
  | none => some (s.dropGroup g.id)
  | some q =>
    match s.unitAt g.chip g.part g.vf q.rec_ 64, s.slot? g.part g.vf g.slot with
    | .wait, _ => none
    | .ok k, some x =>
      if !s.objRoom g.chip g.part g.vf q.rec_ 64 then none
      else if s.recState k = 4 then
        match (s.frameOfTask g.part g.vf g.chip q.rec_).bind fun f => (s.roomCon g (f.kernOr x.kern)).map fun room => (f, room) with
        | some (f, room) =>
          if g.supplies (f.kernOr x.kern) && f.saved.all (s.roomSaved g) then
            some ((((s.takeReady q).meterObj g.chip g.part g.vf q.rec_ 64).setRoom g.id room).resumeTask g.id g.part g.vf q.rec_ k f)
          else some (s.dropGroup g.id)
        | none => some (s.dropGroup g.id)
      else if g.supplies x.kern && s.roomFor g x.kern.warps (x.kern.warps * x.kern.regs) then
        match s.roomCon g x.kern, s.startFrame g.part g.vf g.chip q.rec_ x.kern with
        | some room, some t => some ((((t.2.takeReady q).meterObj g.chip g.part g.vf q.rec_ 64).setRoom g.id room).claimTask g.id q.rec_ k x (some t.1))
        | _, _ => some (s.dropGroup g.id)
      else some (s.dropGroup g.id)
    | _, _ => some (s.dropGroup g.id)

/-- R138, R146: steps 1 to 4, and what a helper sees when the relay unwinds; none while a page that a step needs is migrating. -/
def endRecord (g : Group) (k : Nat) (fail : Bool) : UnitStep := fun s =>
  let c := g.chip; let p := g.part; let v := g.vf
  let lanes : Party := .place (taskLanes k)
  let fut := s.rdD (k + 48)
  let s1 : Option State :=
    if fut = 0 then some s
    else match s.objAt c p v fut 32 with
      | .wait => none
      | .bad _ _ => some s
      | .ok f =>
        if !s.objRoom c p v fut 32 then none
        else if s.futState f != 0 then some s
        else match fail, g.tdone with
          | false, some x => some (((s.pass lanes (.place f)).resolve f x 1).meterObj c p v fut 32)
          | _, _ => some (((s.pass lanes (.place f)).resolve f 0 2).meterObj c p v fut 32)
  let s2 := s1.bind fun t =>
    let succ := t.rdD (k + 24)
    if succ = 0 then some t else decrementAt c p v succ fail lanes t
  let s3 := s2.bind fun t =>
    if !t.recFlag k 5 then some t
    else match t.unitAt c p v (t.rdD (k + 32)) 64 with
      | .wait => none
      | .bad _ _ => some t
      | .ok q =>
        let u := (t.pass lanes (.place (taskKids q))).setNchild q (t.nchild q - 1)
        some (if u.nchild q = 0 then u.wakeObj q else u)
  s3.map fun t => ((if 0 < g.helpd then t.pass lanes (.grp g.id) else t).setRecState k (if fail then 6 else 5)).forget (taskLanes k)

/-- R9: what lanes of a group have outstanding goes on without them: a result that comes back reaches no register and ends no flag. -/
def State.orphan (s : State) (g : Group) : State :=
  let op (o : MemOp) : Option MemOp :=
    if o.gid != g.id then some o
    else if !MKind.writes o.kind || o.failed.isSome then none
    else some { o with lanes := 0, flag := none, reg := 127 }
  let lap (l : Lap) : Lap := if l.gid = g.id then { l with lanes := 0, flag := none } else l
  let cmd (c : MatCmd) : MatCmd := if c.gid = g.id then { c with lanes := 0, flag := none } else c
  let copy (c : CopyCmd) : CopyCmd := if c.gid = g.id then { c with lanes := 0 } else c
  { s with pend := s.pend.filterMap op, landing := s.landing.filter fun l => l.gid != g.id, laps := s.laps.map lap
           copies := s.copies.map copy }.mapEngine g.clu
    fun e => { e with cmds := e.cmds.map cmd }

/-- R146: the lanes of a group's next task see nothing yet by what those before them saw. -/
def State.unseen (s : State) (gid : Nat) : State :=
  let mine (p : Party) : Bool := match p with | .lanes g _ _ => g == gid | .grp g => g == gid | .fenced sc _ g => sc == 0 && g == gid | _ => false
  { s with pend := s.pend.map fun o => { o with accs := o.accs.map fun a => { a with seen := a.seen.filter fun p => !mine p } } }

/-- R138: a group's task ends, all its lanes having retired. The group goes on with its helper or its slot's next task, or
retires. -/
def State.endTask (s : State) (gid : Nat) (fail : Bool) : Option State :=
  match s.unselect.groups.find? fun g => g.id == gid with
  | none => some s
  | some g =>
    let t : Option State :=
      match s.unitAt g.chip g.part g.vf g.task 64 with
      | .wait => none
      | .bad _ _ => some s.unselect
      | .ok k =>
        if s.objRoom g.chip g.part g.vf g.task 64 then endRecord g k fail (s.unselect.meterObj g.chip g.part g.vf g.task 64) else none
    t.bind fun u =>
      let u5 := (match g.frame with | some off => u.dropFrame g.part g.chip off | none => u).orphan g
      let u6 := u5.wakeOwner g.part g.vf g.chip g.task
      if 0 < g.helpd then some (u6.unwind g) else (u6.unseen g.id).nextTask g

/-- R8, R133, R138: the last warp of a group has retired. None while the task unit cannot finish. -/
def State.retireGroup (s : State) (gid : Nat) (fail : Bool) : Option State :=
  match s.unselect.groups.find? fun g => g.id == gid with
  | none => some s
  | some g => if g.task = 0 then some (s.dropGroup gid) else s.endTask gid fail

end Sys2Proof.Machine
end

