-- ==== Sys2Proof/Machine/Tasks.lean ====
section
/-! DEFINITION. Task instructions, major 0x37, and the dispatch of a task (R133 to R140, R146, R292 to R294). -/

namespace Sys2Proof.Machine

/-- R285, R293: what follows the object checks in a form that needs a task. -/
def inTask (s : State) (r : Run) (k : Act) : Act := if s.g.task = 0 then Act.trapAt r 5 else k

/-- The home of the selected group as the task unit names it. -/
def State.dec (s : State) (k : Nat) (fail : Bool) : Option State := counterDec s.g.chip s.g.part s.g.vf k fail s

/-- A step of the task unit waits for a page by holding the run (R284). -/
def orHold (s : State) (t : Option State) (k : State → Act) : Act :=
  match t with
  | some u => k u
  | none => .hold s

/-- R134: the writes that the lanes have issued are released at `chip` scope. -/
def State.releaseChip (s : State) (m : LaneMask) : State :=
  s.show (fun o a => MKind.writes o.kind && o.gid == s.g.id && o.wid == s.w.idx && has m a.lane) (.chip s.g.chip)

/-- R134. -/
noncomputable def execTspawn (d a : Opd) (s : State) : Host.Outcome State Fault Refusal :=
  issue (.tspawn d a) s fun r =>
    let x := s.w.scal64 r a
    withObj s r x 64 fun k =>
      let opened := match s.slot? s.g.part s.g.vf (s.recSlot k) with | some t => !t.closed | none => false
      if s.recState k != 0 || !opened then .trap 5 x 0
      else
        let t := (s.releaseChip r.lanes).meetSel r.lanes (.place (taskStart k))
        .ok ((t.post s.g.chip s.g.part s.g.vf x k 0 false).writeAll r d 1)

/-- R136: what `tfork` writes into the record of a child before it posts it. -/
def State.childRecord (s : State) (k : Nat) (entry arg : Dword) (parent : Nat) : State :=
  let t := (((s.wrD k entry).wrD (k + 8) arg).wrD (k + 16) (s.rdD (parent + 16))).wrD (k + 24) 0
  (t.wrN (k + 44) 4 (s.recSlot parent * 2 ^ 8 + s.recPrio parent)).wrD (k + 48) 0

/-- R136, R293. -/
noncomputable def execTfork (d a : Opd) (sb : Fin 64) (s : State) : Host.Outcome State Fault Refusal :=
  issue (.tfork d a sb) s fun r =>
    inTask s r <|
      let entry := s.w.scal64 r a
      let g := s.g
      match s.unitAt g.chip g.part g.vf g.task 64 with
      | .wait => .hold s
      | .bad c v => .trap c g.task v
      | .ok par =>
        let bad := entry.toNat % 2 != 0 || entry.toNat < g.kern.entry || g.kern.entry + g.kern.codesz ≤ entry.toNat
          || s.nchild par == 255
        match if bad then none else s.takeFrame g.part g.vf g.chip g.kern.frame 0 with
        | none => .ok (s.writeAll64 r d 0)
        | some q =>
          let child := objFrame q.1
          let k := frameKey g.part g.chip (q.1 + 0x40)
          let t := (q.2.mapFrame g.part g.chip q.1 fun f => { f with task := child }).setNchild par (s.nchild par + 1)
          let u := (t.childRecord k entry (s.w.idxS64 sb) par).post g.chip g.part g.vf child k g.task false
          .ok (u.writeAll64 r d child)

/-- R136, R140. -/
noncomputable def execTsync (s : State) : Host.Outcome State Fault Refusal :=
  issue .tsync s fun r =>
    inTask s r <|
      let g := s.g
      match s.unitAt g.chip g.part g.vf g.task 64 with
      | .wait => .hold s
      | .bad c v => .trap c g.task v
      | .ok k =>
        if s.nchild k = 0 then .ok ((s.meetPlace (taskKids k) (s.party r.lanes)).forget (taskKids k))
        else parkAt s r ⟨k, false, 0, g.task, g.chip, g.part, g.vf⟩

/-- R135, R293. -/
noncomputable def execTpost (a n : Opd) (s : State) : Host.Outcome State Fault Refusal :=
  issue (.tpost a n) s fun r =>
    let x := s.w.scal64 r a
    let v := (s.w.scal r n).toNat
    withObj s r x 16 fun k =>
      inTask s r <|
        if (s.rdN (k + 4) 4).testBit 31 || 2 ^ 31 ≤ v then .trap 5 x 0
        else orHold s (counterArm s.g.chip s.g.part s.g.vf k v (s.meetSel r.lanes (.place k))) .ok

/-- R135. -/
noncomputable def execTdec (a : Opd) (s : State) : Host.Outcome State Fault Refusal :=
  issue (.tdec a) s fun r =>
    withObj s r (s.w.scal64 r a) 16 fun k =>
      inTask s r <| orHold s ((s.meetSel r.lanes (.place k)).dec k false) .ok

/-- R134. -/
noncomputable def execTself (d : Opd) (s : State) : Host.Outcome State Fault Refusal :=
  issue (.tself d) s fun r => .ok (s.writeAll64 r d s.g.task)

/-- R138: the run's lanes are the last of the group's task, and the group still holds something. -/
def State.endsHolding (s : State) (r : Run) : Bool :=
  s.g.task != 0 && s.w.live &&& ~~~ r.lanes == 0 && s.g.others.isEmpty && s.holdsAny s.whole

/-- R138, R294. -/
noncomputable def execTdone (a : Opd) (s : State) : Host.Outcome State Fault Refusal :=
  issue (.tdone a) s fun r =>
    inTask s r <|
      if s.endsHolding r then Act.trapAt r 5
      else .ok ((s.setG { s.g with tdone := some (s.g.tdone.getD (s.w.scal64 r a)) }).setExit .retire)

/-- R139: the value pair and the status behind it. -/
def State.writeFut (s : State) (r : Run) (d : Opd) (v : Dword) (st : Word) : State :=
  (s.writeAll64 r d v).setW ((s.writeAll64 r d v).w.writeAt d 2 r.lanes fun _ => st)

/-- R139, R141, R294. -/
noncomputable def execFwait (d a : Opd) (s : State) : Host.Outcome State Fault Refusal :=
  issue (.fwait d a) s fun r =>
    let x := s.w.scal64 r a
    let g := s.g
    withObj s r x 32 fun k =>
      inTask s r <|
        match s.futState k with
        | 0 =>
          let o := s.rdD (k + 8)
          let w : Waiter := ⟨k, true, o, g.task, g.chip, g.part, g.vf⟩
          helpOn s r o x (some w) (.ok (s.writeFut r d 0 3)) (parkAt s r w)
        | 1 => .ok ((s.meetPlace k (s.party r.lanes)).writeFut r d (s.rdD k) 1)
        | 2 => .ok ((s.meetPlace k (s.party r.lanes)).writeFut r d 0 2)
        | _ => .trap 5 x 0

/-- R139. -/
noncomputable def execFset (a v : Opd) (s : State) : Host.Outcome State Fault Refusal :=
  issue (.fset a v) s fun r =>
    let x := s.w.scal64 r a
    withObj s r x 32 fun k =>
      if s.futState k != 0 then .trap 5 x 0
      else .ok ((s.meetSel r.lanes (.place k)).resolve k (s.w.scal64 r v) 1)

/-- R139: the fields of a lock word. -/
def State.lockState (s : State) (k : Nat) : Nat := s.rdN (k + 8) 4
/-- A lock changes hands: those who wait for it, helpers below another task included, wait for its new owner (R138, R140, R143). -/
def State.setLock (s : State) (k : Nat) (o : Dword) (st n : Nat) : State :=
  let own (w : Waiter) : Waiter := if w.obj = k && !w.fut then { w with owner := o } else w
  { ((s.wrD k o).wrN (k + 8) 4 st).wrN (k + 12) 4 n with
    waiters := s.waiters.map own
    frames := s.frames.map fun f => { f with blocked := f.blocked.map own } }

/-- R139, R146: the current task holds the lock. -/
def State.takeLock (s : State) (r : Run) (d : Opd) (k : Nat) (old : Word) : Act :=
  .ok (((s.setLock k s.g.task 1 1).meetPlace k (s.party r.lanes)).writeAll r d old)

/-- R139, R141. -/
noncomputable def execLkacq (d a : Opd) (s : State) : Host.Outcome State Fault Refusal :=
  issue (.lkacq d a) s fun r =>
    let x := s.w.scal64 r a
    let g := s.g
    withObj s r x 16 fun k =>
      inTask s r <|
        let st := s.lockState k
        let o := s.rdD k
        let n := s.rdN (k + 12) 4
        if st = 0 then s.takeLock r d k 0
        else if st = 2 then s.takeLock r d k 2
        else if st = 3 && o == g.task then s.takeLock r d k 3
        else if st = 1 && o == g.task then
          if n = 2 ^ 32 - 1 then .trap 5 x 0 else .ok ((s.wrN (k + 12) 4 (n + 1)).writeAll r d 1)
        else if 4 ≤ st then .trap 5 x 0
        else
          let w : Waiter := ⟨k, false, o, g.task, g.chip, g.part, g.vf⟩
          helpOn s r o x (some w) (s.takeLock r d k 2) (parkAt s r w)

/-- R139, R146. -/
noncomputable def execLkrel (a : Opd) (s : State) : Host.Outcome State Fault Refusal :=
  issue (.lkrel a) s fun r =>
    let x := s.w.scal64 r a
    withObj s r x 16 fun k =>
      inTask s r <|
        let n := s.rdN (k + 12) 4
        if s.lockState k != 1 || s.rdD k != s.g.task then .trap 5 x 0
        else
          let t := s.meetSel r.lanes (.place k)
          if 1 < n then .ok (t.wrN (k + 12) 4 (n - 1))
          else
            match t.waiters.find? fun w => w.obj == k with
            | some w => .ok ((t.waiterGone w).setLock k w.rec_ 3 0 |>.repost w)
            | none => .ok (t.setLock k 0 0 0)

/-! ### Dispatch (R133, R355) -/

/-- R349: groups of a slot that stand on a chip. -/
def State.slotGroups (s : State) (chip p v n : Nat) : Nat :=
  ((s.standing chip p v).filter fun g => g.serves && g.slot == n).length
/-- R349: MAXG lets another group of a slot become resident on a chip. -/
def State.slotRoom (s : State) (chip : Nat) (x : TaskSlot) (p v : Nat) : Bool := x.maxg == 0 || s.slotGroups chip p v x.slot < x.maxg

/-- R6, R133: an empty group of a slot becomes resident on a core. -/
def State.resideTask (s : State) (chip p v core : Nat) (x : TaskSlot) (warps regs : Nat) : Option (Nat × State) :=
  (s.seat? chip core x.kern warps regs 0).map fun seat =>
    (s.nextId, (s.reside
      { chip := chip, core := core, part := p, vf := v, kern := x.kern, coord := 0, entry := x.kern.entry, arg := 0,
        dwsBase := x.dwsBase, fablim := x.fablim, late := x.late, seed := x.seed, pmode := x.pmode, prio := 0,
        rec_ := x.rec_, slot := x.slot, warps := 0 } seat).mapGroup s.nextId fun g => { g with serves := true })

/-- R132, R133: the head of the best queue of a virtual function gets a group on a core; a Posted one is Claimed by it. -/
def State.dispatchTask (s : State) (chip p v core : Nat) : State :=
  match (s.bestPrio chip p v (s.ofChip chip p v)).bind fun pr => (s.ofChip chip p v).find? fun q => q.prio == pr with
  | none => s
  | some q =>
    match s.unitAt chip p v q.rec_ 64 with
    | .ok k =>
      match s.slot? p v (s.recSlot k) with
      | none => s
      | some x =>
        if !x.chips.testBit chip || !s.slotRoom chip x p v || !s.objRoom chip p v q.rec_ 64 then s
        else if s.recState k = 4 then
          match s.frameOfTask p v chip q.rec_ with
          | none => s
          | some f =>
            match s.resideTask chip p v core { x with kern := f.kernOr x.kern } ((f.saved.map Group.slots).sum) ((f.saved.map Group.regs).sum) with
            | none => s
            | some t => ((t.2.takeReady q).meterObj chip p v q.rec_ 64).resumeTask t.1 p v q.rec_ k f
        else if s.recState k = 1 then
          match s.resideTask chip p v core x x.kern.warps (x.kern.warps * x.kern.regs) with
          | none => s
          | some t =>
            match t.2.startFrame p v chip q.rec_ x.kern with
            | none => s
            | some u => ((u.2.takeReady q).meterObj chip p v q.rec_ 64).claimTask t.1 q.rec_ k x (some u.1)
        else { s with ready := s.ready.filter fun y => y != q }
    | _ => s

/-- R133. -/
def execTaskDispatch (chip part vf core : Nat) (s : State) : Host.Outcome State Fault Refusal :=
  if !s.partCore part chip core then .next s
  else match s.takeSlice chip part vf with
    | none => .next s
    | some t => .next (t.dispatchTask chip part vf core)

end Sys2Proof.Machine
end

