-- ==== Sys2Proof/Machine/Queues.lean ====
section
/-! DEFINITION. Cross-warp rendezvous and hardware queues, major 0x12 (R52 to R54, R251 to R253). Lanes that wait leave the
run at its trailer and come back at the address after the clause. -/

namespace Sys2Proof.Machine

/-! ### Rendezvous (R252) -/

/-- The lanes of a run that leave it to wait; those that have left before stay away. -/
def State.block (s : State) (m : LaneMask) : State := s.setExit (.block m)

/-- Lanes that have waited come back behind their clause; those of the run that is still in its clause simply go on. -/
def State.comeBack (s : State) (gid wid pc : Nat) (m : LaneMask) : State :=
  s.mapWarp gid wid fun w =>
    match w.run with
    | some r =>
      match r.exit with
      | .block b =>
        if r.fall = pc && b &&& m != 0 then
          { w with run := some { r with exit := if b &&& ~~~ m = 0 then .fall else .block (b &&& ~~~ m) } }
        else w.unblock pc (m &&& w.live)
      | _ => w.unblock pc (m &&& w.live)
    | none => w.unblock pc (m &&& w.live)

/-- R252: the receiving lanes take the sending lanes' values, 0 where there was none. -/
def State.receive (s : State) (gid wid reg : Nat) (m from_ : LaneMask) (vals : List Word) : State :=
  s.mapWarp gid wid fun w => w.land 96 (Opd.ofBits reg) 0 m fun i => if has from_ i then vals.getD i 0 else 0

/-- R83, R252: a sending and a receiving run meet. -/
def State.rendezvous (s : State) (snd rcv : Rendez) : State :=
  let t := s.meet s.coreNo s.g.id snd.wid snd.lanes (.lanes s.g.id rcv.wid rcv.lanes)
  t.receive s.g.id rcv.wid rcv.reg rcv.lanes snd.lanes snd.vals

/-- The oldest waiting run of a kind at a slot. -/
def Group.partner (g : Group) (slot : Nat) (send : Bool) : Option Rendez := g.rvz.find? fun z => z.slot == slot && z.send == send
def Group.dropRvz (g : Group) (z : Rendez) : Group := { g with rvz := g.rvz.filter fun y => y != z }

/-- R252. -/
def execXsend (slot v : Opd) (s : State) : Host.Outcome State Fault Refusal :=
  issue (.xsend slot v) s fun r =>
    let k := (s.w.scal r slot).toNat
    let me : Rendez := ⟨k, true, s.w.idx, r.lanes, r.fall, 127, mkRow (s.w.src v), r, s.w.x⟩
    if 31 < k then Act.trapAt r 5
    else match s.g.partner k false with
      | some z => .ok (((s.rendezvous me z).mapGroup s.g.id fun g => g.dropRvz z).comeBack s.g.id z.wid z.pc z.lanes)
      | none => .ok ((s.setG { s.g with rvz := s.g.rvz ++ [me] }).block r.lanes)

/-- R252. -/
def execXrecv (d slot : Opd) (s : State) : Host.Outcome State Fault Refusal :=
  issue (.xrecv d slot) s fun r =>
    let k := (s.w.scal r slot).toNat
    let me : Rendez := ⟨k, false, s.w.idx, r.lanes, r.fall, d.toNat, [], r, s.w.x⟩
    if 31 < k then Act.trapAt r 5
    else match s.g.partner k true with
      | some z => .ok (((s.rendezvous z me).mapGroup s.g.id fun g => g.dropRvz z).comeBack s.g.id z.wid z.pc z.lanes)
      | none => .ok ((s.setG { s.g with rvz := s.g.rvz ++ [me] }).block r.lanes)

/-! ### Queues (R52 to R54, R253) -/

/-- R52: the selected group's queue. -/
def State.queue (s : State) (q : Nat) : HwQueue :=
  (s.hwq.find? fun x => x.chip == s.g.chip && x.core == s.g.core && x.part == s.g.part && x.vf == s.g.vf && x.q == q).getD
    ⟨s.g.chip, s.g.core, s.g.part, s.g.vf, q, [], 0, []⟩
def HwQueue.same (x y : HwQueue) : Bool :=
  x.chip == y.chip && x.core == y.core && x.part == y.part && x.vf == y.vf && x.q == y.q
def State.putQueue (s : State) (x : HwQueue) : State := { s with hwq := x :: s.hwq.filter fun y => !x.same y }

/-- R215: bits of lanes in a mask of a warp, as one update. -/
def State.maskBits (s : State) (gid wid k : Nat) (m on : LaneMask) : State :=
  if s.isSel gid wid then s.putMasks (s.w.setM k ((s.w.getM k &&& ~~~ m ||| on) &&& s.w.live))
  else s.mapWarp gid wid fun w => w.setM k ((w.getM k &&& ~~~ m ||| on) &&& w.live)

/-- R54: the oldest waiting lane receives a value. -/
def State.serveWait (s : State) (x : HwQueue) (v : Word) : Option State :=
  match x.blocked with
  | [] => none
  | b :: t =>
    let m := laneBit (lowLane b.lanes)
    let rest := b.lanes &&& ~~~ m
    let y := { x with blocked := if rest = 0 then t else { b with lanes := rest } :: t }
    let u := (s.putQueue y).mapWarp b.gid b.wid fun w => w.land 96 (Opd.ofBits b.reg) 0 m fun _ => v
    some ((u.maskBits b.gid b.wid b.k m m).comeBack b.gid b.wid b.pc m)

/-- R53, R54: one lane's push: whether its value was taken. -/
def State.pushLane (s : State) (q : Nat) (v : Word) : Bool × State :=
  let x := { s.queue q with last := s.g.task }
  match s.serveWait x v with
  | some t => (true, t)
  | none =>
    if x.entries.length < 64 then (true, s.putQueue { x with entries := x.entries ++ [(v, s.g.task)] })
    else (false, s)

/-- The lanes of a run push in ascending order: those whose value was taken. -/
def pushLanes (q : Nat) (v : Nat → Word) : List Nat → State → List Nat × State
  | [], s => ([], s)
  | l :: t, s =>
    let p := s.pushLane q (v l)
    let r := pushLanes q v t p.2
    (if p.1 then l :: r.1 else r.1, r.2)

/-- R53. -/
def execQpush (k : Fin 12) (q : Fin 8) (v : Opd) (s : State) : Host.Outcome State Fault Refusal :=
  issue (.qpush k q v) s fun r =>
    let p := pushLanes q (s.w.src v) (lanesOf r.lanes) s
    .ok (p.2.maskBits s.g.id s.w.idx k r.lanes (maskOf p.1))

/-- R53: entries from the head go to the lanes in ascending order; the lanes served, with their values. -/
def takeEntries : List Nat → List (Word × Dword) → List (Nat × Word)
  | l :: t, e :: es => (l, e.1) :: takeEntries t es
  | _, _ => []

/-- R53. -/
def execQpop (d : Opd) (k : Fin 12) (q : Fin 8) (s : State) : Host.Outcome State Fault Refusal :=
  issue (.qpop d k q) s fun r =>
    let x := s.queue q
    let got := takeEntries (lanesOf r.lanes) x.entries
    let t := s.putQueue { x with entries := x.entries.drop got.length }
    let u := t.setW (t.w.write d r.lanes fun l => (got.lookup l).getD 0xFFFFFFFF)
    .ok (u.maskBits s.g.id s.w.idx k r.lanes (maskOf (got.map Prod.fst)))

/-- R54: the unserved lanes leave to wait. -/
def State.blockPop (s : State) (r : Run) (d : Opd) (k q : Nat) (m : LaneMask) : State :=
  let x := s.queue q
  (s.putQueue { x with blocked := x.blocked ++ [⟨s.g.id, s.w.idx, m, d.toNat, k, r.fall, some r, s.w.x⟩] }).block m

/-- R54, R141: lanes that are served go on; before the others block, the group looks at the last producer. Lanes served
before the group helped stay served. -/
def execQpopw (d : Opd) (k : Fin 12) (q : Fin 8) (s : State) : Host.Outcome State Fault Refusal :=
  issue (.qpopw d k q) s fun r =>
    let x := s.queue q
    let ask := lanesOf (r.lanes &&& ~~~ r.done)
    let got := takeEntries ask x.entries
    let gm := maskOf (got.map Prod.fst)
    let t := s.putQueue { x with entries := x.entries.drop got.length }
    let u := (t.setW (t.w.write d gm fun l => (got.lookup l).getD 0)).maskBits s.g.id s.w.idx k gm gm
    let rest := maskOf ask &&& ~~~ gm
    if rest = 0 then .ok u
    else
      let v := u.mapRun fun z => { z with done := z.done ||| gm }
      let stay := Act.ok (u.blockPop r d k q rest)
      helpOn v { r with done := r.done ||| gm } x.last r.addr none stay stay

/-- R53. -/
def execQlen (d : Opd) (q : Fin 8) (s : State) : Host.Outcome State Fault Refusal :=
  issue (.qlen d q) s fun r => .ok (s.writeAll r d (BitVec.ofNat 32 (s.queue q).entries.length))

end Sys2Proof.Machine
end

