-- ==== Sys2Proof/Machine/Matrix.lean ====
section
/-! DEFINITION. The matrix engine: ranges, planes, tiles and commands, major 0x36 (R103 to R106, R112 to R130, R286 to R291),
and the grants and ends of commands (R127, R128, R357). The exchange of `mswap.auto` shows in the descriptors at once: what
was issued before it carries its own plane (log 26). -/

namespace Sys2Proof.Machine

/-! ### Arithmetic (R104, R106) -/

/-- The exact sum of finite products; a zero is negative only when every product is.
DESIGN CHOICE (log 115): a zero product of integer elements has the sign of its factors. -/
def sumFin (l : List FVal) : FVal :=
  let e0 := (l.map fun v => match v with | .fin _ _ e => e | _ => 0).min?.getD 0
  let t : Int := (l.map fun v => match v with | .fin n m e => toUnits n m e e0 | _ => 0).sum
  if t = 0 then .fin (l.all fun v => match v with | .fin n _ _ => n | _ => false) 0 e0 else .fin (t < 0) t.natAbs e0

def FVal.isInfOf (n : Bool) (v : FVal) : Bool := match v with | .inf m => m == n | _ => false

/-- R104: one chunk into an accumulator element. An infinite product and an accumulator that is the infinity of the other sign add up
to an invalid operation (log 111). -/
def chunkStep (acc : Word) (a b : List FVal) : Word × Exc :=
  if (f32 acc).isNan || a.any FVal.isNan || b.any FVal.isNan then (0x7FC00000, {})
  else
    let ps := (a.zip b).map fun p => FVal.mul p.1 p.2
    let vs := ps.filterMap id
    let pos := vs.any (FVal.isInfOf false)
    let neg := vs.any (FVal.isInfOf true)
    if ps.any Option.isNone || (pos && neg) then (0x7FC00000, Exc.invalid)
    else w32 (F32.add .nearest (f32 acc) (if pos then .inf false else if neg then .inf true else sumFin vs))

/-- All chunks of one element, in order. -/
def chunksInto : List (List FVal) → List (List FVal) → Word → Exc → Word × Exc
  | a :: as, b :: bs, acc, e =>
    let p := chunkStep acc a b
    chunksInto as bs p.1 (e.or p.2)
  | _, _, acc, e => (acc, e)

/-- R106: the formats that narrow mode rounds to CF4. -/
def narrows (f : Nat) : Bool := f == 0 || f == 1 || f == 6 || f == 7 || f == 12
def narrow32 (l : List FVal) : List FVal :=
  let p := packBlock 13 false .rn l (List.replicate 32 0)
  blockVals 13 false (packElems 32 (p.words.take (blockNw 13 false))) 0

/-- A row's chunks, as the array sees them. -/
def rowChunks (mode f : Nat) (vs : List FVal) : List (List FVal) :=
  (groups32 (vs.length / 32) vs).map fun l => if mode = 2 && narrows f then narrow32 l else l

/-! ### Ranges (R114, R115) -/

def planar (r : Range) : Bool := r.layout == 1
/-- R405, R117: a row of a range whose BASE counts from the operand buffer's start. -/
def State.rowBytes (s : State) (clu : Nat) (r : Range) (i : Nat) : List Byte × List Byte :=
  ((places (obKey clu (r.base + i * r.rowb)) (rowData r.fmt (planar r))).map s.rd,
   (places (obKey clu (r.base + r.soff + i * r.srowb)) (rowScale r.fmt (planar r))).map s.rd)
def State.rowOf (s : State) (clu mode : Nat) (r : Range) (i : Nat) : List (List FVal) :=
  let b := s.rowBytes clu r i
  rowChunks mode r.fmt (rowVals r.fmt (planar r) b.1 b.2)

/-- R89, R112: 32 elements of a row with their scale bytes, and how many such a row has. -/
def bushels (f : Nat) : Nat := kSlice f / 32
/-- Where the elements and the scale bytes of a bushel stand. -/
def bushelPlaces (clu : Nat) (r : Range) (i b : Nat) : List Nat × List Nat :=
  let d := fmtData r.fmt (planar r)
  let q := fmtScale r.fmt (planar r)
  (places (obKey clu (r.base + i * r.rowb + b * d)) d, places (obKey clu (r.base + r.soff + i * r.srowb + b * q)) q)
def State.bushel (s : State) (clu : Nat) (r : Range) (i b : Nat) : Bushel :=
  ((bushelPlaces clu r i b).1.map s.rd, (bushelPlaces clu r i b).2.map s.rd)
/-- R371: what a row's bushels that have not been met yet are read from. -/
def rowPlaces (clu : Nat) (r : Range) (taken : List (Nat × Bushel)) (u i : Nat) : List Nat :=
  (List.range (bushels r.fmt)).flatMap fun b =>
    if (taken.lookup (64 * u + b)).isSome then [] else (bushelPlaces clu r i b).1 ++ (bushelPlaces clu r i b).2
/-- R371: some place's codeword cannot be corrected. -/
def State.anyBad (s : State) (ks : List Nat) : Bool := s.ecc.any fun p => ks.any fun k => eccNo k == p.1
/-- R89: a row of which some bushels have been met early, by 64 × `u` + bushel; the others are met now. -/
def State.rowNow (s : State) (clu : Nat) (r : Range) (taken : List (Nat × Bushel)) (u i : Nat) : List (Nat × Bushel) :=
  (List.range (bushels r.fmt)).map fun b => (64 * u + b, (taken.lookup (64 * u + b)).getD (s.bushel clu r i b))
/-- The values of a row, by its bushels. -/
def bushelRow (mode : Nat) (r : Range) (l : List (Nat × Bushel)) : List (List FVal) :=
  rowChunks mode r.fmt (rowVals r.fmt (planar r) (l.flatMap fun p => p.2.1) (l.flatMap fun p => p.2.2))

/-- A range as a command keeps it: by its place in the operand buffer. -/
def Range.at_ (r : Range) (base : Nat) : Range := { r with base := base + r.base }
def State.obBase (s : State) : Nat := segBase (s.w.getSeg 5)

/-- The lowest free handle below a bound. -/
def freeHandle (n : Nat) (used : List Nat) : Option Nat := (List.range n).find? fun h => !used.contains h
def Group.held (g : Group) : List Range := g.ranges.filter fun x => !x.gone

def Range.default (h base len f region : Nat) : Range :=
  let rb := rowData f false
  let sb := rowScale f false
  { h := h, base := base, len := len, fmt := f, blk := fmtBlk f, layout := 0
    soff := if fmtPlain f then 0 else len / (rb + sb) * rb, rowb := rb, srowb := sb, region := region, gone := false }

/-- R113: a group without a window uses no instruction of the major. -/
def inWindow (s : State) (r : Run) (k : Act) : Act := if s.g.kern.obwin = 0 then Act.trapAt r 5 else k

def noHandle : Word := 0xFFFFFFFF
def word (n : Nat) : Word := BitVec.ofNat 32 n

/-- A command names a range: as source, as plane or as destination. -/
def Range.inCmd (x : Range) (gid : Nat) (c : MatCmd) : Bool :=
  let is (y : Range) := y.h == x.h && y.base == c.obBase + x.base
  c.gid == gid && match c.kind with
    | .load y _ => is y
    | .stream _ y _ _ z => is y || is z
    | _ => false
def Range.inCopy (x : Range) (gid : Nat) (c : CopyCmd) : Bool :=
  c.gid == gid && match c.kind with
    | .tile _ (.ob _ y _) _ => y.h == x.h && y.base == x.base
    | _ => false

/-- R114: bytes of released ranges return when nothing names them; what a copy was the last to name is found when a range is next
wanted. -/
def State.reapRanges (s : State) (gid : Nat) : State :=
  match s.group? gid with
  | none => s
  | some g =>
    let busy (x : Range) := (s.engine g.clu).cmds.any (x.inCmd gid) || s.copies.any (x.inCopy gid)
    s.mapGroup gid fun q => { q with ranges := q.ranges.filter fun x => !x.gone || busy x }

/-- R114, R289. -/
noncomputable def execObres (d a : Opd) (f : Fin 64) (s : State) : Host.Outcome State Fault Refusal :=
  issue (.obres d a f) s fun r =>
    inWindow s r <|
      let len := ((s.w.scal r a).toNat + 4095) / 4096 * 4096
      let old := (s.reapRanges s.g.id).g.ranges
      let base := firstFit len s.g.kern.obwin (old.map fun x => (x.base, x.len))
      match freeHandle 8 (s.g.held.map Range.h), if len = 0 || 14 < f.val then none else base with
      | some h, some b => .ok ((s.setG { s.g with ranges := old ++ [Range.default h b len f s.w.region] }).writeAll r d (word h))
      | _, _ => .ok (s.writeAll r d noHandle)

/-- R114, R115, R405: the record at words `w`. -/
def Range.ofWords (w : Nat → Nat) (h region : Nat) : Range :=
  { h := h, base := w 0, len := w 1, fmt := bits (w 2) 24 8, blk := bits (w 2) 16 8, layout := bits (w 2) 8 8, soff := w 3
    rowb := w 4, srowb := w 5, region := region, gone := false }
/-- R114, R115: the record breaks no rule; each plane is one region of rows times pitch, gaps included (log 125). -/
def Range.ok (x : Range) (w : Nat → Nat) (win : Nat) (others : List Range) : Bool :=
  let rows := x.len / (x.rowb + x.srowb)
  let sb := rowScale x.fmt (planar x)
  x.base % 4096 == 0 && x.len % 4096 == 0 && x.base + x.len ≤ win && x.fmt ≤ 14 && x.blk == fmtBlk x.fmt
  && (x.layout == 0 || (x.layout == 1 && fmtCF x.fmt)) && bits (w 2) 0 8 == 0 && w 6 == 0 && w 7 == 0
  && x.soff % 16 == 0 && (!fmtPlain x.fmt || x.soff == 0)
  && x.rowb % 16 == 0 && rowData x.fmt (planar x) ≤ x.rowb
  && x.srowb % 16 == 0 && (sb != 0 || x.srowb == 0) && (sb == 0 || x.srowb != 0)
  && rows * x.rowb ≤ x.len && x.soff + rows * x.srowb ≤ x.len
  && (rows * x.srowb == 0 || rows * x.rowb ≤ x.soff)
  && others.all fun y => x.len == 0 || y.len == 0 || x.base + x.len ≤ y.base || y.base + y.len ≤ x.base

/-- R114, R289. The header's window size bounds the range, SEGOB's base places it (log 106). -/
noncomputable def execObrec (d a : Opd) (s : State) : Host.Outcome State Fault Refusal :=
  issue (.obrec d a) s fun r =>
    inWindow s r <|
      let off := (s.w.scal r a).toNat
      checked (s.r37 [⟨.shr, off, 32, 32, false, 0⟩]) <| s.ordered r.lanes (s.bytesAt .shr off 32 0 0) <|
        let w := s.descWords off
        let h := freeHandle 8 (s.g.held.map Range.h)
        let x := Range.ofWords w (h.getD 0) s.w.region
        let old := (s.reapRanges s.g.id).g.ranges
        if !x.ok w s.g.kern.obwin old then .trap 5 (BitVec.ofNat 64 off) 0
        else match h with
          | none => .ok (s.writeAll r d noHandle)
          | some k => .ok ((s.setG { s.g with ranges := old ++ [x] }).writeAll r d (word k))

/-- The trap of a handle that is not held. -/
def badHandle (h : Nat) : Act := .trap 5 (BitVec.ofNat 64 h) 0

/-- R290: a descriptor that names a range is empty. -/
def Plane.without (p : Plane) (h : Nat) : Plane := if p.st != 0 && p.range == h then Plane.empty else p
def Group.freeRange (g : Group) (h : Nat) : Group :=
  { g with
    ranges := g.ranges.map fun x => if x.h = h then { x with gone := true } else x
    active := g.active.without h, shadow := g.shadow.without h }

/-- R114, R290. -/
noncomputable def execObrel (a : Opd) (s : State) : Host.Outcome State Fault Refusal :=
  issue (.obrel a) s fun r =>
    inWindow s r <|
      let h := (s.w.scal r a).toNat
      match s.g.range? h with
      | none => badHandle h
      | some _ => .ok ((s.setG (s.g.freeRange h)).reapRanges s.g.id)

/-! ### Tiles (R122) -/

def State.myEngine (s : State) : Engine := s.engine s.g.clu
/-- A tile that the group holds under a handle. -/
def Engine.tile? (e : Engine) (gid h : Nat) : Option Tile := e.tiles.find? fun t => t.gid == gid && t.t == h && !t.freed

/-- R122, R130. -/
noncomputable def execAccget (d : Opd) (s : State) : Host.Outcome State Fault Refusal :=
  issue (.accget d) s fun r =>
    inWindow s r <|
      let e := s.myEngine
      let mine := (e.tilesOf s.g.id).map Tile.t
      match e.freeTiles with
      | [] => .ok (s.writeAll r d noHandle)
      | p :: _ =>
        let h := if mine.contains p then (freeHandle 16 mine).getD p else p
        .ok ((s.putEngine s.g.clu ((e.dropTile p).putTile ⟨h, p, s.g.id, [s.w.region], false, false⟩ ([], []))).writeAll r d (word h))

/-- R122. -/
noncomputable def execAccput (t : Opd) (s : State) : Host.Outcome State Fault Refusal :=
  issue (.accput t) s fun r =>
    inWindow s r <|
      let h := (s.w.scal r t).toNat
      match s.myEngine.tile? s.g.id h with
      | none => badHandle h
      | some x => .ok (s.mapEngine s.g.clu fun e => e.releaseTile x)

/-! ### Issuing commands (R124, R129) -/

/-- R129: the outstanding commands of a group in its engine. -/
def Engine.ofGroup (e : Engine) (gid : Nat) : List MatCmd := e.cmds.filter fun c => c.gid == gid

/-- R86, R129: a command enters the reservation table, or the run holds until there is room. -/
def sendCmd (s : State) (r : Run) (kind : MatKind) (bar : Option BarRef) (ctr : Option Dword) (reg : Nat)
    (k : Word → State → Act) : Act :=
  let e := s.myEngine
  if 32 ≤ e.cmds.length || 8 ≤ (e.ofGroup s.g.id).length then .hold s
  else
    let p := s.takeNumber s.coreNo
    let t := p.2
    let c : MatCmd :=
      { id := t.nextId, num := p.1, gid := t.g.id, wid := t.w.idx, core := t.g.core, vf := t.g.vf, part := t.g.part, prio := t.g.prio
        kind := kind, lanes := r.lanes, bar := bar, ctr := ctr, reg := reg, flag := none, pc := r.pc, region := t.w.region
        granted := false, passed := 0, obBase := t.obBase
        after := match kind with | .stream _ _ _ _ _ => t.g.autoSwap.getD 0 | _ => 0 }
    let mark (x : Tile) : Tile :=
      let wrote := match kind with | .stream t _ _ _ _ => x.t == t | .zero t => x.t == t | _ => false
      if wrote && x.gid = t.g.id && !x.regions.contains t.w.region then { x with regions := t.w.region :: x.regions } else x
    let u := ({ t with nextId := t.nextId + 1 }).mapEngine t.g.clu fun e =>
      { e with cmds := e.cmds ++ [c], tiles := e.tiles.map mark }
    k p.1 (u.meetSel r.lanes (.cmd c.id))

/-- R238: the barrier of a matrix command, with its check. -/
def withBar (s : State) (bar : BarSel) (k : Option BarRef → Act) : Act :=
  let b := s.barOf bar (.shr 0 0)
  checked (s.r37 b.2) (k b.1)

/-- Passes that were issued before the group's pending exchange are outstanding (R119, R290). -/
def State.swapWaits (s : State) : Bool :=
  match s.g.autoSwap with
  | none => false
  | some n => (s.myEngine.ofGroup s.g.id).any fun c => c.id < n && match c.kind with | .stream _ _ _ _ _ => true | _ => false

/-- R118, R124, R290. The checks of R124 come before those of a named barrier (R37), here and in `mstream` (log 107). -/
noncomputable def execMload (d h : Opd) (bar : BarSel) (row0 : Opd) (s : State) : Host.Outcome State Fault Refusal :=
  issue (.mload d h bar row0) s fun r =>
    inWindow s r <|
      let hd := (s.w.scal r h).toNat
      let r0 := (s.w.scal r row0).toNat
      match s.g.range? hd with
      | none => badHandle hd
      | some x =>
        if x.rows < r0 + 512 then badHandle hd
        else withBar s bar fun b =>
          if s.swapWaits then .hold s
          else sendCmd s r (.load (x.at_ s.obBase) r0) b none d.toNat fun n t =>
            .ok ((t.setG { t.g with shadow := ⟨1, hd, r0, true, t.nextId - 1⟩, autoSwap := none }).writeAll r d n)

/-- R120: an exchange. -/
def Group.swap (g : Group) : Group := { g with active := g.shadow, shadow := g.active }

/-- R51, R128, R291: the first failure of a kind that nothing has examined. -/
def State.matFail (s : State) (p : CmdFail → Bool) : Option CmdFail := s.g.fails.find? fun q => q.matrix && p q
/-- Its trap is raised once; while the group holds another trap the run holds (R367). -/
def matTrap (s : State) (r : Run) (q : CmdFail) : Act :=
  if s.g.trapHeld then .hold s
  else
    .hold (takeTrap (s.setG { s.g with fails := s.g.fails.filter fun p => p != q }) r (codeTrap q.code)
      (BitVec.ofNat 64 (q.tag % 16)) q.num)

/-- What both forms of `mswap` begin with; an empty shadow descriptor is found before a load that has failed (log 124). -/
def swapChecks (s : State) (r : Run) (k : Act) : Act :=
  if s.g.shadow.st = 0 then Act.trapAt r 5
  else match s.matFail fun q => 16 ≤ q.tag with
    | some q => matTrap s r q
    | none => k

/-- R119, R290: plain `mswap` waits for a pending exchange and for the shadow load. -/
noncomputable def execMswap (s : State) : Host.Outcome State Fault Refusal :=
  issue .mswap s fun r =>
    inWindow s r <|
      if s.g.shadow.st != 0 && (s.swapWaits || s.g.shadow.busy) then .hold s
      else swapChecks s r <| .ok (s.setG { s.g.swap with autoSwap := none })

/-- R119. -/
noncomputable def execMswapAuto (s : State) : Host.Outcome State Fault Refusal :=
  issue .mswapAuto s fun r =>
    inWindow s r <| swapChecks s r <| .ok (s.setG { s.g.swap with autoSwap := some s.nextId })

/-- R124: formats that may meet in a pass. -/
def mixes (a b : Nat) : Bool := a == b || (a ≤ 1 && b ≤ 1) || (6 ≤ a && a ≤ 7 && 6 ≤ b && b ≤ 7)
/-- The highest lane of a run. -/
def highLane (m : LaneMask) : Nat := (lanesOf m).getLast?.getD 0

/-- R287: the address pair of a counter. -/
def ctrOf (w : Warp) (k : Fin 16) : Option Dword :=
  if k.val = 0 then none else some (w.getS (2 * k.val + 1) ++ w.getS (2 * k.val))
/-- R284, R285: the counter's checks come before those of the entry. -/
def withCtr (s : State) (r : Run) (c : Option Dword) (k : Act) : Act :=
  match c with
  | none => k
  | some a => withObj s r a 16 fun _ => k

/-- R123, R124 (log 107). -/
noncomputable def execMstream (d t : Opd) (ctr : Fin 16) (bar : BarSel) (rowbase h : Opd) (s : State) :
    Host.Outcome State Fault Refusal :=
  issue (.mstream d t ctr bar rowbase h) s fun r =>
    withCtr s r (ctrOf s.w ctr) <| inWindow s r <|
      let hd := (s.w.scal r h).toNat
      let tl := (s.w.scal r t).toNat
      let rb := (s.w.scal r rowbase).toNat
      let a := s.g.active
      match s.g.range? hd, s.myEngine.tile? s.g.id tl with
      | none, _ => badHandle hd
      | _, none => badHandle tl
      | some x, some _ =>
        if x.rows < rb + highLane r.lanes + 1 then badHandle hd
        else match if a.st = 0 then none else s.g.range? a.range with
          | none => badHandle hd
          | some y =>
            if !mixes x.fmt y.fmt then badHandle hd
            else withBar s bar fun b =>
              sendCmd s r (.stream tl (x.at_ s.obBase) rb a (y.at_ s.obBase)) b (ctrOf s.w ctr) d.toNat fun n u =>
                .ok (u.writeAll r d n)

/-- R122, R289. -/
noncomputable def execMzero (d t : Opd) (s : State) : Host.Outcome State Fault Refusal :=
  issue (.mzero d t) s fun r =>
    inWindow s r <|
      let tl := (s.w.scal r t).toNat
      match s.myEngine.tile? s.g.id tl with
      | none => badHandle tl
      | some _ => sendCmd s r (.zero tl) none none d.toNat fun n u => .ok (u.writeAll r d n)

/-- R124, R126, R192. -/
noncomputable def execMdrain (d t n c : Opd) (s : State) : Host.Outcome State Fault Refusal :=
  issue (.mdrain d t n c) s fun r =>
    inWindow s r <|
      let tl := (s.w.scal r t).toNat
      let k := (s.w.scal r n).toNat
      let col := (s.w.scal r c).toNat
      match s.myEngine.tile? s.g.id tl with
      | none => badHandle tl
      | some _ =>
        if k = 0 || 32 < k || 512 < col + k || s.w.nregs < d.toNat + k then badHandle tl
        else if s.meetsLong r d k then Act.trapAt r 2
        else sendCmd s r (.drain tl d.toNat col k) none none d.toNat fun _ u => .ok u

/-! ### Waiting (R127, R291) -/

/-- The tile that a command works on. -/
def MatCmd.tile (c : MatCmd) : Option Nat :=
  match c.kind with
  | .load _ _ => none
  | .stream t _ _ _ _ => some t
  | .zero t => some t
  | .drain t _ _ _ => some t

/-- R86: the place that stands for a tile's finished commands. -/
def tilePlace (gid t : Nat) : Nat := 2 ^ 66 + 64 * gid + t
/-- R86: the place of a clause flag of a warp. -/
def flagPlace (gid wid f : Nat) : Nat := 2 ^ 69 + 256 * gid + 16 * wid + f

def Engine.rowFlags (e : Engine) (p row : Nat) : Nat := getKey e.rowf (64 * p + row) 0

/-- R103, R127: the lanes are held until the commands sent before have retired, then take in the row flags. -/
noncomputable def execMwait (t : Opd) (s : State) : Host.Outcome State Fault Refusal :=
  issue (.mwait t) s fun r =>
    inWindow s r <|
      let tl := (s.w.scal r t).toNat
      match s.myEngine.tile? s.g.id tl with
      | none => badHandle tl
      | some x =>
        let upto := if r.entry = 0 then s.nextId else r.entry
        if (s.myEngine.ofGroup s.g.id).any (fun c => c.tile == some tl && decide (c.id < upto)) then
          .hold (s.mapRun fun q => { q with entry := upto })
        else match s.matFail fun q => q.tag == tl && q.wid == s.w.idx with
          | some q => matTrap s r q
          | none =>
            let w := s.w.putFlg r.lanes fun i => s.w.getFlg i ||| word (s.myEngine.rowFlags x.p i)
            .ok ((s.setW w).meetPlace (tilePlace s.g.id tl) (s.party r.lanes))

/-- R127, R291. -/
noncomputable def execMpoll (d t : Opd) (s : State) : Host.Outcome State Fault Refusal :=
  issue (.mpoll d t) s fun r =>
    inWindow s r <|
      let tl := (s.w.scal r t).toNat
      match s.myEngine.tile? s.g.id tl with
      | none => badHandle tl
      | some _ =>
        match s.matFail fun q => q.tag == tl && q.wid == s.w.idx with
        | some q => matTrap s r q
        | none =>
          if ((s.myEngine.ofGroup s.g.id).any fun c => c.tile == some tl) then .ok (s.writeAll r d 0)
          else .ok ((s.meetPlace (tilePlace s.g.id tl) (s.party r.lanes)).writeAll r d 1)

/-- R130. -/
noncomputable def execMstat (d : Opd) (s : State) : Host.Outcome State Fault Refusal :=
  issue (.mstat d) s fun r =>
    inWindow s r <|
      let e := s.myEngine
      let v := (e.ofGroup s.g.id).length * 2 ^ 28 + e.freeTiles.length * 2 ^ 23
        + ((e.tilesOf s.g.id).filter fun t => !t.freed).length * 2 ^ 18 + s.g.held.length * 2 ^ 14
        + e.cmds.length * 2 ^ 8 + e.deg.toNat % 64
      .ok (s.writeAll r d (word v))

/-! ### Grants (R129, R357, R390) -/

def MatCmd.isPass (c : MatCmd) : Bool := match c.kind with | .stream _ _ _ _ _ => true | _ => false

/-- R390: a virtual function's pass quota is not spent. -/
def State.passRoom (s : State) (chip p v : Nat) : Bool :=
  let q := (s.ratesOf chip p v).passq
  q == 0 || (s.useOf chip p v).passes < q

/-- The requests that wait for a grant. -/
def State.requests (s : State) (clu : Nat) : List MatCmd :=
  (s.engine clu).cmds.filter fun c => c.isPass && !c.granted && s.passRoom (clu / 4) c.part c.vf

/-- R357: the oldest overdue request, else the oldest of the highest priority. -/
def chooseGrant (l : List MatCmd) : Option MatCmd :=
  match l.find? fun c => 33 ≤ c.passed with
  | some c => some c
  | none => l.foldl (fun b c => match b with | none => some c | some x => if x.prio < c.prio then some c else some x) none

/-- R392: passes are counted by the streamed format. -/
def MatCmd.fmt (c : MatCmd) : Nat := match c.kind with | .stream _ x _ _ _ => x.fmt | _ => 0

/-- R401, R402: some time at which `n` of a list of times lie within the last 2^32 Hub cycles. -/
def windowFull (n : Nat) (l : List Nat) : Bool := l.any fun t => n ≤ (l.filter fun u => u ≤ t && t < u + 2 ^ 32).length
/-- R401: 16 pipeline checks of a quadrant within 2^32 Hub cycles (DEDUCED, log 83). -/
def Engine.worn (e : Engine) (quad : Nat) : Bool := windowFull 16 ((e.trips.filter fun t => t.1 == quad).map Prod.snd)
/-- R401: a quadrant is to be retired: nothing new is granted until DEG has changed. -/
def Engine.due (e : Engine) : Bool := !e.deg.getLsbD 3 && [0, 1, 2, 3].any e.worn

/-- R357, R401. -/
def execMatrixGrant (clu : Nat) (s : State) : Host.Outcome State Fault Refusal :=
  let l := if (s.engine clu).due then [] else s.requests clu
  match chooseGrant l with
  | none => .next s
  | some c =>
    let ids := l.map MatCmd.id
    let f (x : MatCmd) : MatCmd :=
      if x.id = c.id then { x with granted := true }
      else if ids.contains x.id then { x with passed := x.passed + 1 } else x
    let t := s.mapEngine clu fun e => { e with cmds := e.cmds.map f }
    .next ((t.mapUse (clu / 4) c.part c.vf fun u => { u with passes := u.passes + 1 }).mapVf c.part c.vf fun f =>
      { f with passes := setKey f.passes c.fmt (getKey f.passes c.fmt 0 + 1) })

/-! ### Performing commands (R123, R125 to R127) -/

/-- The element of a tile. -/
def Engine.elem (e : Engine) (p row col : Nat) : Word := getKey e.acc ((64 * p + row) * 512 + col) 0

/-- R123: one row of a pass: its new elements and the exceptions of all roundings. -/
def Engine.passRow (e : Engine) (p row : Nat) (a : List (List FVal)) (ws : List (List (List FVal))) :
    List (Nat × Word) × Exc :=
  let es := (ws.zip (List.range 512)).map fun q => (q.2, chunksInto a q.1 (e.elem p row q.2) {})
  (es.map fun x => ((64 * p + row) * 512 + x.1, x.2.1), Exc.all (es.map fun x => x.2.2))

/-- Rows take new elements, and their flags the exceptions. -/
def Engine.putRows (e : Engine) (p : Nat) (rows : List (Nat × List (Nat × Word) × Exc)) : Engine :=
  { e with
    acc := (rows.flatMap fun x => x.2.1) ++ e.acc.filter fun y => !rows.any fun x => y.1 / 512 == 64 * p + x.1
    rowf := rows.foldl (fun l x => setKey l (64 * p + x.1) (getKey l (64 * p + x.1) 0 ||| x.2.2.bits.toNat)) e.rowf }

/-- R105: DEG.MODE. -/
def Engine.mode (e : Engine) : Nat := e.deg.toNat % 4

/-- R118: the rows of a slice, by bushels. -/
def State.sliceNow (s : State) (clu : Nat) (y : Range) (row0 : Nat) (taken : List (Nat × Bushel)) : List (Nat × Bushel) :=
  (List.range 512).flatMap fun j => s.rowNow clu y taken j (row0 + j)

def Engine.plane? (e : Engine) (load : Nat) : Option PlaneData := e.planes.find? fun d => d.load == load
def Engine.mapPlane (e : Engine) (load : Nat) (f : PlaneData → PlaneData) : Engine :=
  { e with planes := e.planes.map fun d => if d.load = load then f d else d }

/-- R120, R121: a descriptor of the group still names the plane, so that it can be loaded again. -/
def State.named (s : State) (d : PlaneData) : Bool :=
  match s.group? d.gid with | some g => g.active.load == d.load || g.shadow.load == d.load | none => false

/-- R118: the group's planes are loaded again before its pass where those of another group have taken their place; a plane that no
descriptor names any more is not. -/
def State.freshen (s : State) (clu : Nat) (pl : Plane) : State :=
  match (s.engine clu).plane? pl.load with
  | none => s
  | some d =>
    if d.lost && s.named d then
      let v := s.sliceNow clu d.range d.row0 d.fresh
      s.mapEngine clu fun e => e.mapPlane pl.load fun x => { x with vals := v, lost := false, fresh := [] }
    else s

/-- R123: the weights of a pass: what its plane holds, or what stands in the range where the engine has not loaded it (R118). -/
def State.weights (s : State) (clu : Nat) (pl : Plane) (y : Range) : List (Nat × Bushel) :=
  match (s.engine clu).plane? pl.load with
  | some d => d.vals
  | none => s.sliceNow clu y pl.row0 []
def State.weightRow (s : State) (clu : Nat) (pl : Plane) (y : Range) (j : Nat) : List (List FVal) :=
  bushelRow (s.engine clu).mode y (((s.weights clu pl y).drop (bushels y.fmt * j)).take (bushels y.fmt))
/-- R123: the row that a pass streams for a lane. -/
def State.streamRow (s : State) (clu : Nat) (c : MatCmd) (x : Range) (rb i : Nat) : List (List FVal) :=
  bushelRow (s.engine clu).mode x (s.rowNow clu x c.taken i (rb + i))

/-- R118: the planes of other groups have lost their place to those of a group. -/
def Engine.displace (e : Engine) (gid : Nat) : Engine :=
  { e with planes := e.planes.map fun d => if d.gid = gid then d else { d with lost := true } }

/-- R123: a pass over the rows of its lanes. -/
def State.runPass (s0 : State) (clu p : Nat) (c : MatCmd) (x : Range) (rb : Nat) (pl : Plane) (y : Range) : State :=
  let s := s0.freshen clu pl
  let e := s.engine clu
  let ws := (List.range 512).map fun j => s.weightRow clu pl y j
  s.putEngine clu ((e.displace c.gid).putRows p ((lanesOf c.lanes).map fun i => (i, e.passRow p i (s.streamRow clu c x rb i) ws)))

/-- R118, R121: a load puts its slice into a physical plane. -/
def State.fillPlane (s : State) (clu : Nat) (c : MatCmd) (x : Range) (r0 : Nat) : State :=
  let d : PlaneData := ⟨c.id, c.gid, x, r0, s.sliceNow clu x r0 c.taken, false, []⟩
  s.mapEngine clu fun e => { e.displace c.gid with planes := d :: e.planes }

/-- R371: what a slice that is still to be loaded is read from. -/
def slicePlaces (clu : Nat) (r : Range) (row0 : Nat) (taken : List (Nat × Bushel)) : List Nat :=
  (List.range 512).flatMap fun j => rowPlaces clu r taken j (row0 + j)
/-- R118, R371: what a pass reads its weights from, where its plane does not hold them. -/
def State.weightPlaces (s : State) (clu : Nat) (pl : Plane) (y : Range) : List Nat :=
  match (s.engine clu).plane? pl.load with
  | some d => if d.lost && s.named d then slicePlaces clu d.range d.row0 d.fresh else []
  | none => slicePlaces clu y pl.row0 []
/-- R371: the places of the operand buffer that a command still has to read. -/
def State.cmdPlaces (s : State) (clu : Nat) (c : MatCmd) : List Nat :=
  match c.kind with
  | .load x r0 => slicePlaces clu x r0 c.taken
  | .stream _ x rb pl y => ((lanesOf c.lanes).flatMap fun i => rowPlaces clu x c.taken i (rb + i)) ++ s.weightPlaces clu pl y
  | _ => []

/-- R89: a command meets a bushel of its operand before the others; one that cannot be read waits (R128). -/
def State.meetBushel (s : State) (clu : Nat) (c : MatCmd) (unit : Nat) : State :=
  let good (x : Range) (i : Nat) : Option Bushel :=
    let p := bushelPlaces clu x i (unit % 64)
    if unit % 64 < bushels x.fmt && !s.anyBad (p.1 ++ p.2) then some (s.bushel clu x i (unit % 64)) else none
  let now : Option Bushel := match c.kind with
    | .load x r0 => if unit / 64 < 512 then good x (r0 + unit / 64) else none
    | .stream _ x rb _ _ => if has c.lanes (unit / 64) then good x (rb + unit / 64) else none
    | _ => none
  match now, c.taken.lookup unit with
  | some b, none =>
    s.mapEngine clu fun e => { e with cmds := e.cmds.map fun (q : MatCmd) => if q.id = c.id then { q with taken := (unit, b) :: q.taken } else q }
  | _, _ => s

/-- R120, R121: a plane that has lost its place is loaded again, bushel by bushel. -/
def State.reload (s : State) (clu load unit : Nat) : State :=
  match (s.engine clu).plane? load with
  | none => s
  | some d =>
    let p := bushelPlaces clu d.range (d.row0 + unit / 64) (unit % 64)
    if d.lost && s.named d && !(s.group? d.gid).any Group.isSaved && unit / 64 < 512 && unit % 64 < bushels d.range.fmt
      && !s.anyBad (p.1 ++ p.2) then
      let b := s.bushel clu d.range (d.row0 + unit / 64) (unit % 64)
      s.mapEngine clu fun e => e.mapPlane load fun x => { x with fresh := (unit, b) :: x.fresh }
    else s

/-- What no descriptor and no command names any more leaves the planes. -/
def State.reapPlanes (s : State) (clu : Nat) : State :=
  let used (d : PlaneData) : Bool := s.named d || (s.engine clu).cmds.any fun c =>
    match c.kind with | .stream _ _ _ pl _ => pl.load == d.load | _ => false
  s.mapEngine clu fun e => { e with planes := e.planes.filter used }

/-- The tile of a command, released or not. -/
def Engine.tileOf (e : Engine) (c : MatCmd) : Option Tile :=
  e.tiles.find? fun t => t.gid == c.gid && c.tile == some t.t

/-- R118, R119, R125: what a command waits for: the group's earlier commands on its tile, the load of its plane, the passes before an
exchange that it was issued after, its grant. -/
def Engine.ready (e : Engine) (c : MatCmd) : Bool :=
  ((e.ofGroup c.gid).takeWhile fun q => q.id != c.id).all (fun q =>
    (c.tile.isNone || q.tile != c.tile)
    && match q.kind, c.kind with
      | .load _ _, .stream _ _ _ pl _ => q.id != pl.load
      | .stream _ _ _ _ _, .stream _ _ _ _ _ => c.after ≤ q.id
      | _, _ => true)
  && (!c.isPass || c.granted)

/-- R128: the code with which a command must fail. -/
def Engine.mustFail (e : Engine) (c : MatCmd) : Bool :=
  let bad := match e.tileOf c with | some t => t.bad | none => false
  match c.kind with
  | .stream _ _ _ pl _ => bad || pl.st == 2
  | .drain _ _ _ _ => bad
  | _ => false

/-- R127: the bytes that a command credits. -/
def MatCmd.bytes (c : MatCmd) : Nat :=
  match c.kind with
  | .load x _ => 512 * (rowData x.fmt (planar x) + rowScale x.fmt (planar x))
  | .stream _ _ _ _ _ => (lanesOf c.lanes).length * 2048
  | _ => 0

/-- R89: a command that is outstanding in an engine meets a bushel early, once it can run. -/
def State.earlyBushel (s : State) (clu cmd unit : Nat) : State :=
  match (s.engine clu).cmds.find? fun c => c.id == cmd with
  | some c => if (s.engine clu).ready c then s.meetBushel clu c unit else s
  | none => s

/-- The effect of a command on its tile, its plane or its registers. -/
def State.perform (s : State) (clu : Nat) (c : MatCmd) : State :=
  let e := s.engine clu
  match c.kind, e.tileOf c with
  | .load x r0, _ =>
    let f (p : Plane) : Plane := if p.load = c.id then { p with busy := false } else p
    (s.fillPlane clu c x r0).mapGroup c.gid fun g => { g with active := f g.active, shadow := f g.shadow }
  | .stream _ x rb pl y, some t => s.runPass clu t.p c x rb pl y
  | .zero _, some t => s.putEngine clu ((e.dropTile t.p).putTile { t with bad := false } ([], []))
  | .drain _ reg col n, some t =>
    s.mapWarp c.gid c.wid fun w =>
      (List.range n).foldl (fun v j => v.land c.cap (Opd.ofBits reg) j c.lanes fun i => e.elem t.p i (col + j)) w
  | _, none => s

/-- A command leaves the table: its flag ends, and what it kept returns. -/
def State.retireCmd (s : State) (clu : Nat) (c : MatCmd) : State :=
  let t := s.mapEngine clu fun e =>
    let e1 := { e with cmds := e.cmds.filter fun q => q.id != c.id }
    (e1.tiles.filter fun x => x.freed && x.gid == c.gid).foldl Engine.releaseTile e1
  ((t.mapWarp c.gid c.wid fun w => w.endFlag c.flag (lanesOf c.lanes)).reapRanges c.gid).reapPlanes clu

/-- R86: a command that completes before its trailer has no flag yet: the trailer passes on what it has seen. -/
def State.noteEnded (s : State) (c : MatCmd) : State :=
  if c.flag.isSome || c.lanes = 0 then s else { s with ended := ⟨c.id, c.gid, c.wid, c.pc, c.reg⟩ :: s.ended }

/-- R51, R128: a command fails. -/
def State.failCmd (s : State) (clu : Nat) (c : MatCmd) (code : Nat) : State :=
  let tag := match c.kind with | .load x _ => 16 + x.h | _ => c.tile.getD 0
  let t := match c.bar with
    | some b => s.barUpd c.gid (b.key (clu / 4) c.core) (.fail code c.num.toNat)
    | none => s.mapGroup c.gid fun g => { g with fails := g.fails ++ [CmdFail.mk tag code 0 c.num true c.wid] }
  let u := match c.kind with
    | .load _ _ =>
      let f (p : Plane) : Plane := if p.load = c.id then { p with busy := false, st := 2 } else p
      (t.mapGroup c.gid fun g => { g with active := f g.active, shadow := f g.shadow }).mapEngine clu fun e =>
        { e with cmds := e.cmds.map fun (q : MatCmd) =>
            match q.kind with
            | .stream a b rb pl y => if q.gid == c.gid then { q with kind := .stream a b rb (f pl) y } else q
            | _ => q }
    | .drain _ reg _ n =>
      let v := t.free
      (t.mapWarp c.gid c.wid fun w =>
        (List.range n).foldl (fun w j => w.land c.cap (Opd.ofBits reg) j c.lanes fun i => Config.freeWord (v + 64 * j + i)) w).spend
          (64 * 32)
    | _ => t
  u.retireCmd clu c

/-- R127: a command completes: its effect, its credit, its counter. None while the counter's page is migrating. -/
def State.completeCmd (s : State) (clu : Nat) (c : MatCmd) : Option State :=
  let t := s.perform clu c
  let k := match c.tile with | some x => tilePlace c.gid x | none => tilePlace c.gid 32
  let u0 := t.pass (.cmd c.id) (.place k)
  let u := match c.flag with | some f => u0.pass (.cmd c.id) (.place (flagPlace c.gid c.wid f)) | none => u0
  let v := match c.bar with
    | none => u
    | some b => (u.pass (.cmd c.id) (.place (b.key (clu / 4) c.core))).credit c.gid (clu / 4) c.core c.bar c.bytes
  let w : Option State := match c.ctr with
    | none => some v
    | some a => decrementAt (clu / 4) c.part c.vf a false (.cmd c.id) v
  w.map fun x => (x.retireCmd clu c).noteEnded c

def State.cmd? (s : State) (clu id : Nat) : Option MatCmd := (s.engine clu).cmds.find? fun c => c.id == id

/-- R127, R128, R371: a command that would consume an uncorrectable word of the operand buffer fails. -/
def execMatrixCommandRetire (clu cmd : Nat) (s : State) : Host.Outcome State Fault Refusal :=
  match s.cmd? clu cmd with
  | none => .next s
  | some c =>
    if !(s.engine clu).ready c then .next s
    else if (s.engine clu).mustFail c || s.anyBad (s.cmdPlaces clu c) then .next (s.failCmd clu c 1)
    else .next ((s.completeCmd clu c).getD s)

/-- R401: a pipeline check is attributed to a quadrant, which the spec does not choose (log 4). -/
def State.trip (s : State) (clu : Nat) : State :=
  (s.mapEngine clu fun e => { e with trips := e.trips ++ [((Config.freeWord s.free).toNat % 4, s.clk.hub)] }).spend 1

/-- R128: an error that the event brings in (log 16): code 1 of the operand buffer or (`acc`) of the accumulators, code 9 of
the array. -/
def execMatrixCommandFail (clu cmd code : Nat) (acc : Bool) (s : State) : Host.Outcome State Fault Refusal :=
  match s.cmd? clu cmd with
  | none => .next s
  | some c =>
    if !(s.engine clu).ready c then .next s
    else if code = 9 && c.isPass then .next ((s.trip clu).failCmd clu c 9)
    else if code = 1 && acc && c.tile.isSome then
      let f (t : Tile) : Tile := if t.gid == c.gid && c.tile == some t.t then { t with bad := true } else t
      .next ((s.mapEngine clu fun e => { e with tiles := e.tiles.map f }).failCmd clu c 1)
    else if code = 1 && !acc && (c.isPass || c.tile.isNone) then .next (s.failCmd clu c 1)
    else .next s

end Sys2Proof.Machine
end

