-- ==== Sys2Proof/Machine/Special.lean ====
section
/-! DEFINITION. The special functions of major 0x0F (R273, R274). The correctly rounded ones are computed to far more
bits than their rounding needs; of the faithful ones both neighbours of the exact result are computed, and Config
says which of the two this part returns (log 12). -/

namespace Sys2Proof.Machine

/-! ### Integer arithmetic to many bits -/

/-- The integer square root, bit by bit from bit `n` - 1 downwards. -/
def isqrtAux (x : Nat) : Nat → Nat → Nat
  | 0, r => r
  | n + 1, r => isqrtAux x n (if (r + 2 ^ n) * (r + 2 ^ n) ≤ x then r + 2 ^ n else r)
def isqrt (x : Nat) : Nat := isqrtAux x (Nat.log2 x / 2 + 1) 0

/-- Rounds to nearest a value that lies at m · 2^e, or strictly between it and (m + 1) · 2^e. -/
def roundSticky (md : RMode) (neg : Bool) (m : Nat) (e : Int) (exact : Bool) : Nat × Exc :=
  F32.round md false neg (2 * m + if exact then 0 else 1) (e - 1)

/-- Fixed point: the bits behind the point for the correctly rounded functions, and ln 2. -/
def fixP : Nat := 192
def ln2Fix : Nat := 0xb17217f7d1cf79abc9e3b39803f2f6af40f343267298b62d

/-- The bits behind the point for the faithful functions, and half of pi. -/
def fixQ : Nat := 640
def halfPiFix : Nat := 0x1921fb54442d18469898cc51701b839a252049c1114cf98e804177d4c76273644a29410f31c6809bbdf2a33679a748636605614dbe4be286e9fc26adadaa3848bc90b6aecc4bcfd8de89885d34c6fdad6

/-- The sum of t^n / n! for n from `n` upwards, `k` terms, from a term in fixed point of `p` bits; `sg` alternates
the signs of the terms that it steps over. -/
def expSeries (p : Nat) (t : Int) : Nat → Nat → Int → Int
  | 0, _, _ => 0
  | k + 1, n, term => term + expSeries p t k (n + 1) (term * t / ((n + 1) * 2 ^ p : Nat))

/-- The sums of the sine and cosine series: x^n / n! with alternating signs, in steps of two. -/
def trigSeries (p : Nat) (x2 : Int) : Nat → Nat → Int → Int
  | 0, _, _ => 0
  | k + 1, n, term => term + trigSeries p x2 k (n + 2) (-(term * x2 / ((n + 1) * (n + 2) * 2 ^ (2 * p) : Nat)))

/-- The sum of z^(2j+1) / (2j+1). -/
def atanhSeries (p : Nat) (z2 : Nat) : Nat → Nat → Nat → Nat
  | 0, _, _ => 0
  | k + 1, n, pw => pw / n + atanhSeries p z2 k (n + 2) (pw * z2 / 2 ^ p)

/-! ### The correctly rounded functions -/

def nan32 (sig : Bool) : Nat × Exc := (F32.nan, { nv := sig })

/-- R273, R274: 1/x. -/
def rcpV (v : FVal) : Nat × Exc :=
  match v with
  | .nan s => nan32 s
  | .inf n => (F32.signBit n, {})
  | .fin n m e =>
    if m = 0 then (F32.infBits n, { dz := true })
    else roundSticky .nearest n (2 ^ 64 / m) (-e - 64) (2 ^ 64 % m = 0)

/-- R273, R274: 1/√x. -/
def rsqV (v : FVal) : Nat × Exc :=
  match v with
  | .nan s => nan32 s
  | .inf n => if n then F32.invalid else (0, {})
  | .fin n m e =>
    if m = 0 then (F32.infBits n, { dz := true })
    else if n then F32.invalid
    else
      let num := 2 ^ (256 - e).toNat
      let r := isqrt (num / m)
      roundSticky .nearest false r (-128) (r * r * m = num)

/-- R273, R274: √x. -/
def sqrtV (v : FVal) : Nat × Exc :=
  match v with
  | .nan s => nan32 s
  | .inf n => if n then F32.invalid else (F32.infBits false, {})
  | .fin n m e =>
    if m = 0 then (F32.signBit n, {})
    else if n then F32.invalid
    else
      let x := m * 2 ^ (e + 256).toNat
      let r := isqrt x
      roundSticky .nearest false r (-128) (r * r = x)

/-- R273, R274: 2^x. Between the integers the result is irrational, so no exact case arises there. -/
def exp2V (v : FVal) : Nat × Exc :=
  match v with
  | .nan s => nan32 s
  | .inf n => if n then (0, {}) else (F32.infBits false, {})
  | .fin n m e =>
    if m = 0 then (0x3F800000, {})
    else if 0 ≤ e + Nat.log2 m - 8 then
      (if n then F32.round .nearest false false 1 (-1000) else F32.round .nearest false false 1 1000)
    else
      let x : Int := toUnits n m e (min e (-(fixP : Int)))
      let x := x * 2 ^ (fixP - (-(min e (-(fixP : Int)))).toNat)
      let k := x / 2 ^ fixP
      let f := x % 2 ^ fixP
      if f = 0 then F32.round .nearest false false 1 k
      else
        let t := f * ln2Fix / 2 ^ fixP
        roundSticky .nearest false (expSeries fixP t 48 0 (2 ^ fixP)).toNat (k - fixP) false

/-- R273, R274: log2 x. -/
def log2V (v : FVal) : Nat × Exc :=
  match v with
  | .nan s => nan32 s
  | .inf n => if n then F32.invalid else (F32.infBits false, {})
  | .fin n m e =>
    if m = 0 then (F32.infBits true, { dz := true })
    else if n then F32.invalid
    else
      let l := Nat.log2 m
      let k : Int := e + l
      if m = 2 ^ l then F32.round .nearest false (k < 0) k.natAbs 0
      else
        let z := (m - 2 ^ l) * 2 ^ fixP / (m + 2 ^ l)
        let ln := 2 * atanhSeries fixP (z * z / 2 ^ fixP) 70 1 z
        let y : Int := k * 2 ^ fixP + (ln * 2 ^ fixP / ln2Fix : Nat)
        roundSticky .nearest (y < 0) y.natAbs (-(fixP : Int)) false

/-! ### The faithful functions -/

/-- The neighbour of an inexact result that this part returns, from the result's truncation (R273). -/
def faithful (upper : Bool) (neg : Bool) (m : Nat) : Nat × Exc :=
  let lo := (roundSticky .zero neg m (-(fixQ : Int)) false).1
  let r := if upper then lo + 1 else lo
  (r, { nx := true, uf := r % 2 ^ 31 < 0x00800000 })

/-- |x| in fixed point. -/
def absFix (m : Nat) (e : Int) : Nat := m * 2 ^ (e + fixQ).toNat

def sinFix (r : Nat) : Nat := (trigSeries fixQ ((r * r : Nat) : Int) 60 1 r).toNat
def cosFix (r : Nat) : Nat := (trigSeries fixQ ((r * r : Nat) : Int) 60 0 (2 ^ fixQ : Nat)).toNat

/-- Sine of |x| advanced by `q0` quarter turns: sign and magnitude. -/
def sinQuarter (m : Nat) (e : Int) (q0 : Nat) : Bool × Nat :=
  let x := absFix m e
  let q := x / halfPiFix + q0
  let r := x % halfPiFix
  (2 ≤ q % 4, if q % 2 = 0 then sinFix r else cosFix r)

/-- R273, R274: sin x. -/
def sinV (upper : Bool) (v : FVal) : Nat × Exc :=
  match v with
  | .nan s => nan32 s
  | .inf _ => F32.invalid
  | .fin n m e =>
    if m = 0 then (F32.signBit n, {})
    else let p := sinQuarter m e 0; faithful upper (n != p.1) p.2

/-- R273, R274: cos x. -/
def cosV (upper : Bool) (v : FVal) : Nat × Exc :=
  match v with
  | .nan s => nan32 s
  | .inf _ => F32.invalid
  | .fin _ m e =>
    if m = 0 then (0x3F800000, {})
    else let p := sinQuarter m e 1; faithful upper p.1 p.2

/-- exp(-2x) for 0 < x < 64, in fixed point: the 256th power of exp(-x/128). -/
def expNeg2 (x : Nat) : Nat :=
  let y := (expSeries fixQ (-((x / 128 : Nat) : Int)) 110 0 (2 ^ fixQ)).toNat
  (List.range 8).foldl (fun a _ => a * a / 2 ^ fixQ) y

/-- R273, R274: tanh x. -/
def tanhV (upper : Bool) (v : FVal) : Nat × Exc :=
  match v with
  | .nan s => nan32 s
  | .inf n => (if n then 0xBF800000 else 0x3F800000, {})
  | .fin n m e =>
    if m = 0 then (F32.signBit n, {})
    else if 64 * 2 ^ fixQ ≤ absFix m e then faithful upper n (2 ^ fixQ - 1)
    else
      let t := expNeg2 (absFix m e)
      faithful upper n ((2 ^ fixQ - t) * 2 ^ fixQ / (2 ^ fixQ + t))

/-! ### The meanings -/

def spUn (i : Instr) (s : State) (d a : Opd) (f : FVal → Nat × Exc) : Host.Outcome State Fault Refusal :=
  fpUn i s d a fun x => w32 (f (f32 x))

/-- R273. -/
def execFrcp (d a : Opd) (s : State) : Host.Outcome State Fault Refusal := spUn (.frcp d a) s d a rcpV
/-- R273. -/
def execFrsq (d a : Opd) (s : State) : Host.Outcome State Fault Refusal := spUn (.frsq d a) s d a rsqV
/-- R273. -/
def execFsqrt (d a : Opd) (s : State) : Host.Outcome State Fault Refusal := spUn (.fsqrt d a) s d a sqrtV
/-- R273. -/
def execFexp2 (d a : Opd) (s : State) : Host.Outcome State Fault Refusal := spUn (.fexp2 d a) s d a exp2V
/-- R273. -/
def execFlog2 (d a : Opd) (s : State) : Host.Outcome State Fault Refusal := spUn (.flog2 d a) s d a log2V
/-- R273, log 12. -/
noncomputable def execFsin (d a : Opd) (s : State) : Host.Outcome State Fault Refusal :=
  fpUn (.fsin d a) s d a fun x => w32 (sinV (Config.sinUpper x) (f32 x))
/-- R273, log 12. -/
noncomputable def execFcos (d a : Opd) (s : State) : Host.Outcome State Fault Refusal :=
  fpUn (.fcos d a) s d a fun x => w32 (cosV (Config.cosUpper x) (f32 x))
/-- R273, log 12. -/
noncomputable def execFtanh (d a : Opd) (s : State) : Host.Outcome State Fault Refusal :=
  fpUn (.ftanh d a) s d a fun x => w32 (tanhV (Config.tanhUpper x) (f32 x))

end Sys2Proof.Machine
end

