-- ==== Sys2Proof/Machine/Gang.lean ====
section
/-! DEFINITION. Gangs, sequences and KV blocks, major 0x38, and the messages of the gang units (R147 to R164, R296, R297).
Members, first-stage entries and messages name a chip by its global number. The sequences, blocks and members of other modules of the
connected group are held beside this module's; what those modules do comes as turns (log 17). -/

namespace Sys2Proof.Machine

/-! ### Sequences (R147, R148) -/

def State.seq? (s : State) (k : Nat) : Option Seq := s.seqs.find? fun q => q.slot == k
def State.putSeq (s : State) (q : Seq) : State := { s with seqs := q :: s.seqs.filter fun x => x.slot != q.slot }
def State.mapSeq (s : State) (k : Nat) (f : Seq → Seq) : State :=
  { s with seqs := s.seqs.map fun q => if q.slot = k then f q else q }

/-- The partition number that a slot or a block of another module carries. -/
def noPart : Nat := 2 ^ 32
/-- R147: how a slot of another module is named here. -/
def slotKey (m n : Nat) : Nat := 8192 * (m + 1) + n

/-- R148: a record as Iluloth writes it at assignment; the tables' addresses are Iluloth's (log 38). -/
def Seq.fresh (slot p v home : Nat) : Seq :=
  let fst := Config.firstStage slot
  { slot := slot, fst0 := fst.1, fst1 := fst.2.1, fstride := fst.2.2, part := p, vf := v, view := 0, width := 1, pend := 0,
    state := 1, policy := 0, gran := 6, lasterr := 0,
    tokens := 0, deadline := 8500, tpm := 65536, minw := 1, maxw := 64, cut := 0, hdim := 1, lbuf := 0, latemask := 0,
    latelap := 0, members := home :: List.replicate 63 0, fst := [], move := none, aborting := [],
    views := [(0, 0, [home])] }

/-- R147: the home chip of a slot, on this module. -/
def homeOf (slot : Nat) : Nat := slot / 1024

/-- R147, R151: the KV window of a slot's tenant. -/
def State.kvwOf (s : State) (q : Seq) : Nat := if q.slot < 8192 then ((s.vf? q.part q.vf).map Vf.kvw).getD 0 else q.kvw
/-- R147: the virtual function of a tenant on this module, as partition and number. -/
def State.tenantVf (s : State) (kvw : Nat) : Option (Nat × Nat) :=
  s.parts.findSome? fun p => (p.vfs.find? fun f => f.kvw == kvw && kvw != 0).map fun f => (p.idx, f.vf)
/-- R147: the virtual function on this module that belongs to a slot's tenant. -/
def State.ownerVf (s : State) (q : Seq) : Option (Nat × Nat) :=
  if q.slot < 8192 then some (q.part, q.vf) else s.tenantVf q.kvw
/-- The home chip's global number. -/
def State.homeNo (s : State) (k : Nat) : Nat :=
  if k < 8192 then s.global (homeOf k) else (k / 8192 - 1) * 8 + homeOf (k % 8192)

/-- R147: the number here of the slot that a sequence operand names: none for reserved bits, or a module outside the group. -/
def State.slotOf (s : State) (x : Word) : Option Nat :=
  let n := x.toNat
  let m := n / 2 ^ 13 % 256
  let mine := if s.md.valid then m == s.md.number else m == 0
  if n / 2 ^ 21 != 0 then none
  else if mine then some (n % 2 ^ 13)
  else if s.md.valid && s.md.group.contains m then some (slotKey m (n % 2 ^ 13))
  else none
/-- R147: a slot belongs to the KV tenant of the selected group's virtual function. -/
def State.ownsSeq (s : State) (q : Seq) : Bool :=
  if q.slot < 8192 then q.part = s.g.part && q.vf = s.g.vf
  else q.kvw != 0 && (s.vf? s.g.part s.g.vf).map Vf.kvw == some q.kvw
/-- R147: the slot that a sequence operand names for the selected group. -/
def State.seqOf (s : State) (x : Word) : Option Seq := (s.slotOf x).bind fun k => (s.seq? k).filter s.ownsSeq

/-- R296: the sequence that an instruction names. -/
def withMember (s : State) (r : Run) (sq : Opd) (k : Seq → Act) : Act :=
  match s.seqOf (s.w.scal r sq) with
  | some q => k q
  | none => Act.trapAt r 5
/-- R147, R296: an instruction that the home gang unit performs. DESIGN CHOICE: a home that cannot be reached raises trap 0x11, as
R161 has it for an owner (log 17). -/
def withSeq (s : State) (r : Run) (sq : Opd) (k : Seq → Act) : Act :=
  withMember s r sq fun q =>
    if s.linked (s.homeNo q.slot) then k q
    else .trap 0x11 ((s.w.scal r sq).setWidth 64) (BitVec.ofNat 32 (s.homeNo q.slot))

/-- The issuing chip's global number. -/
def State.myChip (s : State) : Nat := s.global s.g.chip
/-- The rank of a chip in a list of members. -/
def rankIn (ms : List Nat) (c : Nat) : Option Nat := if ms.contains c then some (ms.idxOf c) else none
def Seq.current (q : Seq) : List Nat := q.members.take q.width
/-- The members of the view that is being moved to. -/
def Seq.next (q : Seq) : List Nat := match q.move with | some m => q.members.take m.width | none => []
/-- R154: every member of the old and of the new view. -/
def Seq.both (q : Seq) : List Nat := (q.current ++ q.next).dedup
/-- R156: the members of the view under which a lap runs; of views whose CUT does not rise, the newest (DEDUCED, log 116). -/
def Seq.viewOf (q : Seq) (lap : Nat) : List Nat :=
  ((q.views.find? fun v => v.2.1 ≤ lap).map fun v => v.2.2).getD q.current

/-- R154: from the moment CUT is set, appends and truncations hold. -/
def Seq.held (q : Seq) : Bool := match q.move with | some m => m.phase == 2 | none => false
/-- A warp still stands at an instruction that is held. -/
def State.stands (s : State) (gid wid : Nat) : Bool :=
  (s.group? gid).any (fun g => !Group.isSaved g) && (s.warp? gid wid).any fun w => w.run.isSome
/-- R155: an append or a truncation of the selected warp holds: from CUT on, and behind those that arrived before it. -/
def State.waitsAt (s : State) (q : Seq) : Bool :=
  q.held || (q.queue.find? fun p => s.stands p.1 p.2).any fun p => p != (s.g.id, s.w.idx)
/-- It takes its place behind the others. -/
def State.queueAt (s : State) (q : Seq) : State :=
  if q.queue.contains (s.g.id, s.w.idx) then s else s.putSeq { q with queue := q.queue ++ [(s.g.id, s.w.idx)] }
/-- It goes on: the sequence without it in the queue. -/
def State.unqueued (s : State) (q : Seq) : Seq := { q with queue := q.queue.filter fun p => p != (s.g.id, s.w.idx) }

/-! ### The layout of positions (R149) -/

/-- Rank, local block and slot of a position. -/
def place (w gran p : Nat) : Nat × Nat × Nat :=
  let g := 2 ^ gran
  let u := p / g
  let l := u / w * g + p % g
  (u % w, l / 64, l % 64)

/-- The position in a slot of a rank's local block. -/
def placeInv (w gran rank blk slot : Nat) : Nat :=
  let g := 2 ^ gran
  let l := blk * 64 + slot
  (l / g * w + rank) * g + l % g

/-- R149: the address of the entry of a rank's local block, in the table of the current view. -/
def Seq.entryAddr (q : Seq) (rank blk : Nat) : Nat :=
  (if q.view % 2 = 0 then q.fst0 else q.fst1).toNat + (rank * q.fstride.toNat + blk) * 8
/-- R150: the entry as a word: V, CHIP, TIER, BLOCK. -/
def FstEntry.word (e : FstEntry) : Nat := 2 ^ 63 + e.chip % 2 ^ 11 * 2 ^ 24 + e.tier * 2 ^ 23 + e.block
/-- R149, R150: the word at an address of the current first-stage table: 0 is an entry that is not valid. -/
def Seq.entryWord (q : Seq) (a : Nat) : Nat :=
  ((q.fst.find? fun e => q.entryAddr e.rank e.blk == a).map FstEntry.word).getD 0

def Seq.entry (q : Seq) (rank blk : Nat) : Option FstEntry := q.fst.find? fun e => e.rank == rank && e.blk == blk
def putEntry (l : List FstEntry) (e : FstEntry) : List FstEntry :=
  e :: l.filter fun x => !(x.rank == e.rank && x.blk == e.blk)

/-- Entries in ascending rank and block order. -/
def entryKey (e : FstEntry) : Nat := e.rank * 2 ^ 33 + e.blk
def insertEntry (e : FstEntry) : List FstEntry → List FstEntry
  | [] => [e]
  | x :: t => if entryKey e ≤ entryKey x then e :: x :: t else x :: insertEntry e t
def sortEntries (l : List FstEntry) : List FstEntry := l.foldr insertEntry []

/-! ### Blocks and free lists (R150, R151, R160) -/

/-- The second-stage entry that a first-stage entry names. -/
def State.blockOf (s : State) (e : FstEntry) : Option KvBlock := s.kvBlock e.chip e.tier e.block
def State.mapBlock (s : State) (b : KvBlock) (f : KvBlock → KvBlock) : State :=
  { s with kv := s.kv.map fun x => if x = b then f x else x }

/-- R153, R160, R390: a block of a chip, by its global number, for a virtual function: its block number. The free list's
order is the model's choice (log 27). -/
def State.popBlock (s : State) (p v chip tier : Nat) : Option (Nat × State) :=
  match s.vf? p v, s.localChip chip with
  | some f, some c =>
    if f.kvq ≤ f.kvHeld then none
    else (f.freeKv.find? fun x => x.1 == c && x.2.1 == tier).map fun x =>
      (x.2.2.1,
       ({ s with kv := ⟨c, tier, x.2.2.1, p, v, 1, 0, f.kvkey, x.2.2.2⟩ :: s.kv }.rekeyBlock x.2.2.2 f.kvkey).mapVf p v fun f =>
          { f with kvHeld := f.kvHeld + 1, freeKv := f.freeKv.erase x })
  | _, _ => none

/-- What is known of a tenant's virtual function on another module. -/
def State.peer? (s : State) (m kvw : Nat) : Option Peer := s.peers.find? fun p => p.mod == m && p.kvw == kvw
def State.putPeer (s : State) (p : Peer) : State :=
  { s with peers := p :: s.peers.filter fun x => !(x.mod == p.mod && x.kvw == p.kvw) }
/-- R153: a block of a chip of another module, charged to the tenant's virtual function there. -/
def State.popAway (s : State) (kvw chip tier : Nat) : Option (Nat × State) :=
  match s.peer? (chip / 8) kvw with
  | none => none
  | some p =>
    if p.kvq ≤ p.kvHeld then none
    else (p.freeKv.find? fun x => x.1 == chip && x.2.1 == tier).map fun x =>
      (x.2.2, { s with kv := ⟨8 + chip, tier, x.2.2, noPart, kvw, 1, 0, p.kvkey, 0⟩ :: s.kv }.putPeer
        { p with kvHeld := p.kvHeld + 1, freeKv := p.freeKv.erase x })

/-- A block goes back to the free list and to the quota. -/
def State.pushBlock (s : State) (b : KvBlock) : State :=
  let t := { s with kv := s.kv.filter fun x => x != b }
  if b.chip < 8 then
    t.mapVf b.part b.vf fun f =>
      { f with kvHeld := f.kvHeld - 1, freeKv := (b.chip, b.tier, b.block, b.frame) :: f.freeKv }
  else match s.peer? ((b.chip - 8) / 8) b.vf with
    | none => t
    | some p => t.putPeer { p with kvHeld := p.kvHeld - 1, freeKv := (b.chip - 8, b.tier, b.block) :: p.freeKv }

/-- A reference to a block ends. -/
def State.unref (s : State) (e : FstEntry) : State :=
  match s.blockOf e with
  | none => s
  | some b => if b.refc ≤ 1 then s.pushBlock b else s.mapBlock b fun x => { x with refc := x.refc - 1 }

/-- R372: whole sectors move: those written lose their conditions, and a sector that cannot be read makes its copy one that cannot
be read either (DESIGN CHOICE, log 39). -/
def State.moveSectors (s : State) (a b n : Nat) : State :=
  let t := s.wrs ((places b (64 * n)).zip ((places a (64 * n)).map s.rd))
  let bad := (List.range n).filterMap fun i =>
    if s.eccAt (a + 64 * i) = 0 then none else some (eccNo (b + 64 * i), s.eccAt (a + 64 * i))
  if bad.isEmpty then t else (List.range n).foldl (fun u i => u.eccSeen (a + 64 * i)) { t with ecc := bad ++ t.ecc }
/-- Whom copies between two blocks count for: the holder of the block that they go to, or where another module holds that, of the one
that they come from; and the chip whose engines they take (log 135). -/
def KvBlock.payer (a b : KvBlock) : Nat × Nat × Nat := if b.chip < 8 then (b.chip, b.part, b.vf) else (a.chip, a.part, a.vf)
/-- R390: the shares of a virtual function leave room for copies of positions from a block to a block now: CPYSH and HBMSH, and FABQ
where the blocks are on two chips. -/
def State.copyFits (s : State) (src dst : FstEntry) (ps : List (Nat × Nat)) : Bool :=
  match s.blockOf src, s.blockOf dst with
  | some a, some b =>
    let q := a.payer b
    s.copyRoom q.1 q.2.1 q.2.2
    && s.hbmRoomAll q.2.1 q.2.2 (ps.flatMap fun p => places (a.pa p.1) 256 ++ places (b.pa p.2) 256)
    && (a.chip == b.chip || 8 ≤ a.chip || s.fabRoom a.chip q.2.1 q.2.2 (256 * ps.length))
  | _, _ => true
/-- R390, R392: copy engines move one position's 256 bytes. -/
def State.copyPos (s : State) (src : FstEntry) (ss : Nat) (dst : FstEntry) (ds : Nat) : State :=
  match s.blockOf src, s.blockOf dst with
  | some a, some b =>
    let q := a.payer b
    let t := ((s.moveSectors (a.pa ss) (b.pa ds) 4).meterHbmAll q.2.1 q.2.2 (places (a.pa ss) 256 ++ places (b.pa ds) 256)).mapUse
      q.1 q.2.1 q.2.2 fun u => { u with copy := u.copy + 256 }
    if a.chip = b.chip || 8 ≤ a.chip then t else t.meterFab a.chip q.2.1 q.2.2 256
  | _, _ => s

/-- R151: a KV address. -/
def State.kvAddr (s : State) (q : Seq) (e : FstEntry) (slot : Nat) : Dword :=
  let tag := ((s.blockOf e).map KvBlock.tag).getD 0
  let w := s.kvwOf q
  BitVec.ofNat 64 (tag * 2 ^ 60 + w * 2 ^ 49 + e.chip % 2 ^ 11 * 2 ^ 38 + e.tier * 2 ^ 37 + e.block * 2 ^ 14 + slot * 256)

/-! ### Width requests (R152, R153) -/

/-- R152: KVQ of the tenant's virtual function on a chip's module. -/
def State.kvqAt (s : State) (q : Seq) (c : Nat) : Nat :=
  match s.localChip c with
  | some _ => (((s.ownerVf q).bind fun o => s.vf? o.1 o.2).map Vf.kvq).getD 0
  | none => ((s.peer? (c / 8) (s.kvwOf q)).map Peer.kvq).getD 0
/-- R152: a chip qualifies for a sequence. -/
def State.qualifies (s : State) (q : Seq) (c : Nat) : Bool := s.reachable c && s.kvqAt q c != 0

/-- R153: the record of a view that begins. -/
def Seq.enter (q : Seq) (w cut : Nat) (keep : Bool) : Seq :=
  { q with view := (q.view + 1) % 65536, width := w, pend := 0, state := 1, cut := cut, move := none
           views := ((q.view + 1) % 65536, cut, q.members.take w) :: if keep then q.views else [] }

/-- R152, R153, R160: a request, with the code that `gset` writes. DESIGN CHOICE: LASTERR keeps the last abandoned move's cause, since
R153 and R155 say only when it is set (log 39). -/
def State.request (s : State) (q : Seq) (w : Nat) : Nat × State :=
  let ms := q.members.take w
  if q.state != 1 then (2, s)
  else if w = 0 || 64 < w then (3, s)
  else if w = q.width then (1, s)
  else if ms.dedup.length != w || !(ms.drop 1).all (s.qualifies q) then (4, s)
  else if q.tokens = 0 then (0, s.putSeq (q.enter w 0 false))
  else (0, s.putSeq { q with pend := w, state := 2, move := some ⟨w, 0, 0, [], [], [], q.cut, 0, 0, q.tokens⟩ })

/-- R152: the chips that widening may take, in order: the home module's, then the other modules' in ascending global number. -/
def State.candidates (s : State) (q : Seq) : List Nat :=
  let own := s.homeNo q.slot / 8
  let of (m : Nat) := (List.range 8).map (8 * m + ·)
  let mods := (List.range 256).filter fun m =>
    m != own && (s.peers.any (fun p => p.mod == m) || (s.md.valid && m == s.md.number))
  (of own ++ mods.flatMap of).filter fun c => s.qualifies q c && !q.current.contains c

/-- R152: basic policy. -/
def State.policy (s : State) (k : Nat) : State :=
  match s.seq? k with
  | none => s
  | some q =>
    let t := max 1 (min (max ((q.tokens + q.tpm - 1) / q.tpm) q.minw) q.maxw)
    if q.policy != 1 || q.state != 1 || t = q.width then s
    else if t < q.width then (s.request q t).2
    else
      let add := (s.candidates q).take (t - q.width)
      let u := { q with members := q.current ++ add ++ q.members.drop (q.width + add.length) }
      ((s.putSeq u).request u (q.width + add.length)).2

/-! ### Instructions on a record (R160) -/

/-- Once for the run, a scalar result. -/
def seqRead (i : Instr) (s : State) (d sq : Opd) (f : Seq → Word) : Host.Outcome State Fault Refusal :=
  issue i s fun r => withSeq s r sq fun q => .ok (s.writeAll r d (f q))

/-- R160. -/
noncomputable def execGwidth (d sq : Opd) (s : State) : Host.Outcome State Fault Refusal :=
  seqRead (.gwidth d sq) s d sq fun q =>
    BitVec.ofNat 32 (q.width + q.pend * 2 ^ 8 + q.state * 2 ^ 16 + q.lasterr * 2 ^ 24)

/-- R160. -/
noncomputable def execGview (d sq : Opd) (s : State) : Host.Outcome State Fault Refusal :=
  issue (.gview d sq) s fun r => withSeq s r sq fun q =>
    .ok (s.writeAll64 r d (BitVec.ofNat 64 (q.view + q.cut * 2 ^ 32)))

/-- R160. -/
noncomputable def execGrank (d sq : Opd) (s : State) : Host.Outcome State Fault Refusal :=
  seqRead (.grank d sq) s d sq fun q =>
    match rankIn q.current s.myChip with | some k => BitVec.ofNat 32 k | none => 0xFFFFFFFF

/-- R160. -/
noncomputable def execGset (d sq : Opd) (sw : Fin 64) (s : State) : Host.Outcome State Fault Refusal :=
  issue (.gset d sq sw) s fun r => withSeq s r sq fun q =>
    let p := s.request q (s.w.idxS sw).toNat
    .ok (p.2.writeAll r d (BitVec.ofNat 32 p.1))

/-- R148: the program fields of an image; `none` where R160 refuses it. -/
def Seq.ofImage (q : Seq) (b : Nat → Nat → Nat) : Option Seq :=
  let ms := (List.range 64).map fun k => if k < max q.width q.pend then q.members.getD k 0 else b (96 + 2 * k) 2 % 2 ^ 11
  if 1 < b 5 1 || 6 < b 6 1 || (b 6 1 != q.gran && q.tokens != 0) || b 40 4 = 0 || b 44 1 = 0 || 64 < b 45 1
    || b 45 1 < b 44 1 || b 52 4 = 0 || 16 < b 52 4 || b 56 8 % 64 != 0 then none
  else
    some { q with policy := b 5 1, gran := b 6 1, deadline := b 36 4, tpm := b 40 4, minw := b 44 1, maxw := b 45 1
                  hdim := b 52 4, lbuf := b 56 8, members := ms }

/-- R160: an image is written to a record, with the code that `gset.x` writes. -/
def State.writeImage (s : State) (q : Seq) (img : List Byte) : Nat × State :=
  let b (o n : Nat) := leNat ((img.drop o).take n)
  match q.ofImage b with
  | none => (3, s)
  | some u => if b 2 1 = u.width then (0, s.putSeq u) else (s.putSeq u).request u (b 2 1)

/-- R160. -/
noncomputable def execGsetX (d sq : Opd) (sa : Fin 64) (s : State) : Host.Outcome State Fault Refusal :=
  issue (.gsetX d sq sa) s fun r => withSeq s r sq fun q =>
    let a := (s.w.idxS sa).toNat
    let ks := s.bytesAt .shr a 256 0 0
    checked (s.r37 [⟨.shr, a, 256, 16, false, 0⟩]) <| s.ordered r.lanes ks <|
      let p := s.writeImage q (ks.map s.rd)
      .ok (p.2.writeAll r d (BitVec.ofNat 32 p.1))

/-! ### Positions and blocks (R161 to R163, R297) -/

/-- R297. -/
noncomputable def execKvx (d sq : Opd) (va : Fin 64) (s : State) : Host.Outcome State Fault Refusal :=
  issue (.kvx d sq va) s fun r => withSeq s r sq fun q =>
    .ok (s.setW (s.w.write64 d r.lanes fun l =>
      let p := (s.w.src (vOpd va) l).toNat
      let x := place q.width q.gran p
      if q.tokens ≤ p then 0
      else match q.entry x.1 x.2.1 with
        | some e => s.kvAddr q e x.2.2
        | none => 0))

/-- What a pop for a position comes to: a block's entry, an empty list, an owner that cannot be reached, a share that leaves no room for
the copies (R390). -/
inductive Popped where
  | ok (e : FstEntry) (s : State)
  | empty
  | away
  | wait

def State.popFor (s : State) (q : Seq) (ms : List Nat) (rank blk tier : Nat) : Popped :=
  let c := ms.getD rank 0
  let got :=
    match s.localChip c with
    | some _ => (s.ownerVf q).bind fun o => s.popBlock o.1 o.2 c tier
    | none => s.popAway (s.kvwOf q) c tier
  if !s.linked c then .away
  else match got with
    | some x => .ok ⟨rank, blk, c, tier, x.1⟩ x.2
    | none => .empty

/-- R161: an append of position TOKENS: the block and the entry that it needs. -/
def State.room (s : State) (q : Seq) : Option Popped :=
  let x := place q.width q.gran q.tokens
  if x.2.2 = 0 then some (s.popFor q q.current x.1 x.2.1 0)
  else
    match q.entry x.1 x.2.1 with
    | none => none
    | some o =>
      if ((s.blockOf o).map KvBlock.refc).getD 0 ≤ 1 then none
      else match s.popFor q q.current x.1 x.2.1 o.tier with
        | .ok e t =>
          let ks := List.range x.2.2
          some (if t.copyFits o e (ks.map fun k => (k, k)) then .ok e ((ks.foldl (fun t k => t.copyPos o k e k) t).unref o) else .wait)
        | y => some y
/-- R161, R152: the position is held, in a block that was popped for it or in the one that it has. -/
def State.hold1 (s : State) (q : Seq) (e : Option FstEntry) : State :=
  let u := s.putSeq { q with fst := (e.map (putEntry q.fst)).getD q.fst, tokens := q.tokens + 1 }
  if (place q.width q.gran q.tokens).2.2 = 0 then u.policy q.slot else u
/-- R161: `kvapp` for position TOKENS. -/
def State.append (s : State) (q : Seq) (sq : Word) (r : Run) (d : Opd) : Act :=
  let owner := BitVec.ofNat 32 (q.members.getD (place q.width q.gran q.tokens).1 0)
  let fin (t : State) (e : Option FstEntry) : Act := .ok ((t.hold1 q e).writeAll r d (BitVec.ofNat 32 q.tokens))
  match s.room q with
  | none => fin s none
  | some (.ok e t) => fin t (some e)
  | some .empty => .trap 8 (BitVec.ofNat 64 (q.slot % 8192)) owner
  | some .away => .trap 0x11 (sq.setWidth 64) owner
  | some .wait => .hold s

/-- R154, R155: an append or a truncation waits its turn, or goes on. -/
def inTurn (s : State) (q : Seq) (k : State → Seq → Act) : Act :=
  if s.waitsAt q then .hold (s.queueAt q)
  else if q.queue.contains (s.g.id, s.w.idx) then k (s.putSeq (s.unqueued q)) (s.unqueued q)
  else k s q

/-- R161. -/
noncomputable def execKvapp (d sq : Opd) (sp : Fin 64) (s : State) : Host.Outcome State Fault Refusal :=
  issue (.kvapp d sq sp) s fun r => withSeq s r sq fun q => inTurn s q fun s q =>
    let p := (s.w.idxS sp).toNat
    if p < q.tokens then .ok (s.writeAll r d (BitVec.ofNat 32 p))
    else if q.tokens < p || q.tokens = 0xFFFFFFFF then Act.trapAt r 5
    else s.append q (s.w.scal r sq) r d

/-- R162: entries from an index on are shared: those that were, and the first whose REFC is full. -/
def State.share (s : State) : List FstEntry → Nat → List FstEntry × Option (Nat × FstEntry) × State
  | [], _ => ([], none, s)
  | e :: t, k =>
    match s.blockOf e with
    | some b =>
      if 4095 ≤ b.refc then ([], some (k, e), s)
      else
        let x := (s.mapBlock b fun y => { y with refc := y.refc + 1 }).share t (k + 1)
        (e :: x.1, x.2.1, x.2.2)
    | none =>
      let x := s.share t (k + 1)
      (e :: x.1, x.2.1, x.2.2)

/-- R162: what a fork copies to its destination, whose entries are then `l`. -/
def Seq.forked (q o : Seq) (l : List FstEntry) : Seq :=
  { q with fst := l, width := o.width, gran := o.gran, members := o.members, tokens := o.tokens, view := 0
           views := [(0, q.cut, o.current)] }

/-- R162: a slot of this module that belongs to the selected group's virtual function. -/
def State.ownSlot (s : State) (q : Seq) : Bool := q.slot < 8192 && q.part = s.g.part && q.vf = s.g.vf
/-- R162: the entries of a table that name blocks of another. -/
def sharedIn (l o : List FstEntry) : List FstEntry :=
  l.filter fun e => o.any fun x => x.chip == e.chip && x.tier == e.tier && x.block == e.block

/-- R162. The index in TRAPV counts the source's valid entries (log 126). -/
noncomputable def execKvfork (d sq : Opd) (sp : Fin 64) (s : State) : Host.Outcome State Fault Refusal :=
  issue (.kvfork d sq sp) s fun r => withSeq s r sq fun q =>
    match (s.seqOf (s.w.idxS sp)).filter s.ownSlot with
    | none => Act.trapAt r 5
    | some o =>
      if !s.ownSlot q || q.tokens != 0 || q.state != 1 || o.state != 1 then Act.trapAt r 5
      else
        let old := if r.entry = 0 then [] else q.fst
        let x := s.share ((sortEntries o.fst).drop r.entry) r.entry
        match x.2.1 with
        | some y =>
          let t := x.2.2.putSeq { q with fst := old ++ x.1 }
          if s.g.trapHeld then .hold s
          else .hold (takeTrap t r 9 (s.kvAddr o y.2 0) (BitVec.ofNat 32 y.1))
        | none =>
          let u := q.forked o (old ++ x.1)
          .ok ((x.2.2.putSeq u).writeAll r d (BitVec.ofNat 32 (sharedIn u.fst o.fst).length))

/-- R163: the entries of a table that no position below `n` keeps. -/
def cutEntries (w gran n : Nat) (l : List FstEntry) : List FstEntry :=
  l.filter fun e => n ≤ placeInv w gran e.rank e.blk 0

/-- R163: a truncation to `n` positions. -/
def State.truncate (s : State) (q : Seq) (n : Nat) : State :=
  let old := cutEntries q.width q.gran n q.fst
  let new := match q.move with | some m => cutEntries m.width q.gran n m.built | none => []
  let t := (old ++ new).foldl State.unref s
  let u : Seq := { q with tokens := n, fst := q.fst.filter fun e => !old.contains e
                          move := q.move.map fun m =>
                            { m with built := m.built.filter (fun e => !new.contains e), pos := min m.pos n, begun := min m.begun n } }
  (t.putSeq u).policy q.slot

/-- R163. `sd` takes the number of the current view's entries that are invalidated, also during a move (log 128). -/
noncomputable def execKvfree (d sq : Opd) (sn : Fin 64) (s : State) : Host.Outcome State Fault Refusal :=
  issue (.kvfree d sq sn) s fun r => withSeq s r sq fun q => inTurn s q fun s q =>
    let n := (s.w.idxS sn).toNat
    if q.tokens < n then Act.trapAt r 5
    else .ok ((s.truncate q n).writeAll r d (BitVec.ofNat 32 (cutEntries q.width q.gran n q.fst).length))

/-- R160. -/
noncomputable def execFlpop (d st : Opd) (s : State) : Host.Outcome State Fault Refusal :=
  issue (.flpop d st) s fun r =>
    let t := (s.w.scal r st).toNat
    if 1 < t then Act.trapAt r 5
    else match s.popBlock s.g.part s.g.vf s.myChip t with
      | some x => .ok (x.2.writeAll r d (BitVec.ofNat 32 (t * 2 ^ 23 + x.1)))
      | none => .ok (s.writeAll r d 0xFFFFFFFF)

/-- R160. -/
noncomputable def execFlpush (d sb : Opd) (s : State) : Host.Outcome State Fault Refusal :=
  issue (.flpush d sb) s fun r =>
    let x := (s.w.scal r sb).toNat
    match if x < 2 ^ 24 then s.kvBlock s.myChip (x / 2 ^ 23) (x % 2 ^ 23) else none with
    | some b =>
      if b.chip < 8 && b.part = s.g.part && b.vf = s.g.vf && b.refc = 1 then .ok ((s.pushBlock b).writeAll r d 1) else Act.trapAt r 5
    | none => Act.trapAt r 5

/-! ### The move (R153 to R155) -/

def State.setMove (s : State) (k : Nat) (f : Move → Move) : State := s.mapSeq k fun q => { q with move := q.move.map f }

/-- What a member keeps for a sequence. -/
def State.member (s : State) (k c : Nat) : Member :=
  (s.members.find? fun m => m.slot == k && m.chip == c).getD { slot := k, chip := c, last := 0, issued := false, result := none, hold := 0, bound := 0 }
def State.putMember (s : State) (m : Member) : State :=
  { s with members := m :: s.members.filter fun x => !(x.slot == m.slot && x.chip == m.chip) }

/-- The cycles of the home chip's own clock (R155); that of another module is not known here (log 17). -/
def State.homeCyc (s : State) (k : Nat) : Nat :=
  if k < 8192 then s.cyc (16 * homeOf k) else Config.farCycles k s.clk.steps

/-- R153, R155: a move is abandoned. After SWITCH has been sent, every member of both views is to receive ABORT. -/
def State.abandon (s : State) (q : Seq) (m : Move) (err : Nat) : State :=
  let t := m.built.foldl State.unref s
  t.putSeq { q with pend := 0, state := 1, lasterr := err, cut := m.oldCut, move := none
                    aborting := if m.phase = 0 then q.aborting else q.both.map fun c => (c, false) }

/-- R153: the rank and block of the current view that hold the first position of a new local block. -/
def Seq.oldPlace (q : Seq) (w rank blk : Nat) : Nat × Nat :=
  let x := place q.width q.gran (placeInv w q.gran rank blk 0)
  (x.1, x.2.1)
/-- R153: a new local block of a rank holds the same positions as a block that the rank has in the current view, slot by slot. -/
def Seq.keeps (q : Seq) (w rank blk : Nat) : Bool :=
  let o := q.oldPlace w rank blk
  o.1 == rank && (List.range 64).all fun k => placeInv w q.gran rank blk k == placeInv q.width q.gran rank o.2 k

/-- What moving one position to its new place comes to; `wait` where a share leaves no room for it (R390). -/
inductive Moved where
  | ok (s : State)
  | bad (err : Nat)
  | wait

/-- R390: the copy of a position, once there is room. -/
def State.moveInto (s : State) (b : FstEntry) (i : Nat) (e : FstEntry) (j : Nat) : Moved :=
  if s.copyFits b e [(i, j)] then .ok (s.copyPos b i e j) else .wait
/-- R153, R154: the copy of one position into the new layout, a block popped where it is the first of one. -/
def State.movePos (s : State) (k : Nat) (p : Nat) : Moved :=
  match s.seq? k with
  | none => .ok s
  | some q =>
    match q.move with
    | none => .ok s
    | some m =>
      let x := place m.width q.gran p
      if q.keeps m.width x.1 x.2.1 then .ok s
      else
        let o := place q.width q.gran p
        let src := q.entry o.1 o.2.1
        if !s.linked (q.members.getD x.1 0) || !s.linked (q.members.getD o.1 0) then .bad 2
        else
          match m.built.find? (fun e => e.rank == x.1 && e.blk == x.2.1), src with
          | some e, some b => s.moveInto b o.2.2 e x.2.2
          | none, some b =>
            match s.popFor q q.next x.1 x.2.1 b.tier with
            | .ok e t => (t.setMove k fun m => { m with built := e :: m.built }).moveInto b o.2.2 e x.2.2
            | .empty => .bad 1
            | .away => .bad 2
            | .wait => .wait
          | _, none => .ok s

/-- R154, step 5: positions that were appended since the walk began, also those that it has passed since (log 136); those that have been
forwarded are kept note of, where one must wait. -/
def State.forward (s : State) (k : Nat) : Nat → Nat → State × Option (Option Nat)
  | 0, _ => (s, none)
  | n + 1, p =>
    match s.movePos k p with
    | .ok t => (t.setMove k fun m => { m with begun := p + 1 }).forward k n (p + 1)
    | .bad e => (s, some (some e))
    | .wait => (s, some none)

/-- R153: where the new layout has a block that it keeps. -/
def Seq.newPlace (q : Seq) (w : Nat) (e : FstEntry) : Option FstEntry :=
  let x := place w q.gran (placeInv q.width q.gran e.rank e.blk 0)
  if x.1 == e.rank && q.keeps w x.1 x.2.1 && (q.oldPlace w x.1 x.2.1).2 == e.blk then some { e with blk := x.2.1 } else none
/-- The entries of the new layout: kept blocks as the old table names them now, and those that were popped. -/
def Seq.newTable (q : Seq) (m : Move) : List FstEntry := q.fst.filterMap (q.newPlace m.width) ++ m.built

/-- R154, step 6. -/
def State.finishMove (s : State) (k : Nat) : State :=
  match s.seq? k with
  | none => s
  | some q =>
    match q.move with
    | none => s
    | some m =>
      let new := q.newTable m
      let t := (q.fst.filter fun e => new.all fun x => !(x.chip == e.chip && x.tier == e.tier && x.block == e.block)).foldl
        State.unref s
      let u := q.both.foldl (fun u c => u.putMember { u.member k c with hold := 0 }) t
      u.putSeq { q.enter m.width q.cut true with fst := new }

/-- R154, steps 5 and 6, once every member has reported. -/
def State.closeMove (s : State) (q : Seq) (m : Move) : State :=
  if q.both.all fun c => m.reports.contains c then
    match s.forward q.slot (q.tokens - m.begun) m.begun with
    | (t, none) => t.finishMove q.slot
    | (t, some none) => t
    | (t, some (some e)) => match t.seq? q.slot with
      | some u => t.abandon u (u.move.getD m) e
      | none => t
  else s

/-- R153, R154: one step of the home gang unit: the walk's next position, or SWITCH once it has reached TOKENS, or what steps 5 and 6 still
wait for; a member that cannot be reached ends the move (R155). -/
def State.walk (s : State) (k : Nat) : State :=
  match s.seq? k with
  | none => s
  | some q =>
    match q.move with
    | none => s
    | some m =>
      if m.phase != 0 then
        if !q.both.all s.linked then s.abandon q m 2 else if m.phase = 2 then s.closeMove q m else s
      else if m.pos < q.tokens then
        match s.movePos k m.pos with
        | .ok t => t.setMove k fun m => { m with pos := m.pos + 1 }
        | .bad e => s.abandon q m e
        | .wait => s
      else if !q.aborting.isEmpty then s
      else s.putSeq { q with state := 3, move := some { m with phase := 1, since := s.homeCyc k } }

/-- R153. -/
def execGangWalk (slot : Nat) (s : State) : Host.Outcome State Fault Refusal := .next (s.walk slot)

/-- The move of a slot, in a phase, for one of its members. -/
def State.inPhase (s : State) (k c ph : Nat) (f : Seq → Move → State) : State :=
  match s.seq? k with
  | none => s
  | some q =>
    match q.move with
    | none => s
    | some m => if m.phase = ph && q.both.contains c then f q m else s

/-- R154: SWITCH reaches a member, or the fabric reports it unreachable. -/
def execSwitchMsg (slot chip : Nat) (s : State) : Host.Outcome State Fault Refusal :=
  .next (s.inPhase slot chip 1 fun q m =>
    let x := s.member slot chip
    if !s.linked chip then s.abandon q m 2
    else if x.hold = 0 then s.putMember { x with hold := 1, bound := x.last } else s)

/-- R154: a member's reply reaches the home; with the last one CUT is set, within 32 bits (DEDUCED, log 116). -/
def execSwitchReply (slot chip : Nat) (s : State) : Host.Outcome State Fault Refusal :=
  .next (s.inPhase slot chip 1 fun q m =>
    let x := s.member slot chip
    if x.hold != 1 || (m.replies.lookup chip).isSome then s
    else
      let rs := (chip, x.bound) :: m.replies
      if q.both.all fun c => (rs.lookup c).isSome then
        let cut := (rs.foldl (fun n p => max n p.2) 0 + 1) % 2 ^ 32
        s.putSeq { q with cut := cut, move := some { m with replies := rs, phase := 2, cut := cut, since := s.homeCyc slot } }
      else s.putSeq { q with move := some { m with replies := rs } })

/-- R154: CUT reaches a member. -/
def execCutMsg (slot chip : Nat) (s : State) : Host.Outcome State Fault Refusal :=
  .next (s.inPhase slot chip 2 fun q m =>
    let x := s.member slot chip
    if !s.linked chip then s.abandon q m 2
    else if x.hold = 1 then s.putMember { x with hold := 2, bound := m.cut } else s)

/-- R154: a member reports that every lap below CUT that it admitted has completed; one that it held at SWITCH is admitted first. -/
def execLapReport (slot chip : Nat) (s : State) : Host.Outcome State Fault Refusal :=
  .next (s.inPhase slot chip 2 fun q m =>
    let x := s.member slot chip
    if x.hold != 2 || m.reports.contains chip || s.laps.any (fun l => l.slot == slot && l.chip == chip && l.lap < m.cut)
      || x.held.any (fun h => h.2.2 < m.cut && s.stands h.1 h.2.1) then s
    else
      let n := { m with reports := chip :: m.reports }
      (s.putSeq { q with move := some n }).closeMove { q with move := some n } n)

/-- R155: a member has not answered within 2^24 cycles. -/
def execSwitchTimeout (slot chip : Nat) (s : State) : Host.Outcome State Fault Refusal :=
  .next (match s.seq? slot with
    | none => s
    | some q =>
      match q.move with
      | none => s
      | some m =>
        let late := (m.phase == 1 && (m.replies.lookup chip).isNone) || (m.phase == 2 && !m.reports.contains chip)
        if late && q.both.contains chip && m.since + 2 ^ 24 ≤ s.homeCyc slot then s.abandon q m 3 else s)

/-- R155: ABORT reaches a member, which admits its held laps. -/
def execAbortMsg (slot chip : Nat) (s : State) : Host.Outcome State Fault Refusal :=
  .next (match s.seq? slot with
    | none => s
    | some q =>
      if q.aborting.lookup chip == some false && s.linked chip then
        (s.putMember { s.member slot chip with hold := 0 }).putSeq
          { q with aborting := q.aborting.map fun p => if p.1 = chip then (p.1, true) else p }
      else s)

/-- R155. -/
def execAbortAcknowledgement (slot chip : Nat) (s : State) : Host.Outcome State Fault Refusal :=
  .next (s.mapSeq slot fun q =>
    if q.aborting.lookup chip == some true then { q with aborting := q.aborting.filter fun p => p.1 != chip } else q)

/-! ### Laps (R157 to R159) -/

def negInf : Word := 0xFF800000

/-- R159: `Scale`. -/
def lapScale (x m : Word) : Word :=
  if x = negInf then 0
  else (w32 (exp2V (f32 (mul32 .nearest (sub32 .nearest x m).1 0x3FB8AA3B).1))).1

/-- R159: `Merge` of two lanes' triples. -/
def lapMerge (a b : List Word) : List Word :=
  let am := a.getD 0 0
  let bm := b.getD 0 0
  if isNan32 am || isNan32 bm then a.map fun _ => 0x7FC00000
  else
    let m := (minmax32 true am bm).1
    if m = negInf then negInf :: (a.drop 1).map fun _ => 0
    else
      let sa := lapScale am m
      let sb := lapScale bm m
      m :: (List.range (a.length - 1)).map fun j =>
        (fma32 .nearest (b.getD (j + 1) 0) sb (mul32 .nearest (a.getD (j + 1) 0) sa).1).1

/-- The triple of a lane outside the run. -/
def noTriple (n : Nat) : List Word := negInf :: List.replicate (n + 1) 0

/-- R157: the run's triples, from `vd` on. -/
def Warp.triples (w : Warp) (vd n : Nat) (m : LaneMask) : Triples :=
  (List.range 64).map fun l => if has m l then (List.range (n + 2)).map fun j => w.getV (vd + j) l else noTriple n

def mergeAll (a b : Triples) : Triples := (a.zip b).map fun p => lapMerge p.1 p.2

/-- R157: triples and cover reach the registers from `reg` on. -/
def Warp.landTriples (w : Warp) (cap reg n : Nat) (m : LaneMask) (t : Triples) (c : Dword) : Warp :=
  let u := (List.range (n + 2)).foldl (fun v j => v.land cap (Opd.ofBits reg) j m fun l => (t.getD l []).getD j 0) w
  (u.land cap (Opd.ofBits reg) (n + 2) m fun _ => c.setWidth 32).land cap (Opd.ofBits reg) (n + 3) m fun _ => (c >>> 32).setWidth 32

/-- R157: the place under which a lap passes visibility on to the rank below. -/
def lapPlace (id : Nat) : Nat := 2 ^ 68 + id

/-- The message that a waiting lap takes. -/
def State.lapMsg? (s : State) (l : Lap) : Option LapMsg :=
  s.msgs.find? fun m => m.slot == l.slot && m.lap == l.lap && m.dst == l.rank

/-- R159, R160: a member records a lap's result; an older one is kept while it is the last lap's. -/
def Member.record (m : Member) (x : Nat × Nat × Triples × Dword) : Member :=
  { m with result := some x, older := (m.result.toList ++ m.older).filter fun y => y.1 == m.last && y.1 != x.1 }
/-- The recorded result of a lap. -/
def Member.resultOf (m : Member) (n : Nat) : Option (Nat × Nat × Triples × Dword) :=
  (m.result.toList ++ m.older).find? fun x => x.1 == n

/-- R392: bytes of a lap's message that a chip of this module sends to another chip count for the tenant's virtual function. -/
def State.sendLap (s : State) (slot src dst n : Nat) : State :=
  match s.localChip src, (s.seq? slot).bind s.ownerVf with
  | some _, some o => if src = dst then s else s.mapVf o.1 o.2 fun f => { f with fabBytes := f.fabBytes + (8 + 256 * (n + 2)) }
  | _, _ => s
/-- R86, R157: a lap completes, with the message of the rank above or without one; its lanes see what it has seen. -/
def State.endLap (s : State) (l : Lap) (m : Option LapMsg) : State :=
  let t := match m with | some x => mergeAll x.triples l.own | none => l.own
  let own : Dword := BitVec.ofNat 64 (2 ^ l.rank)
  let c := match m with | some x => x.cover ||| own | none => own
  let s0 := s.pass (.place (lapPlace l.id)) (.lanes l.gid l.wid l.lanes)
  let s1 := match m with
    | some x =>
      let u := { s0 with msgs := s.msgs.filter fun y => y != x }
      (u.pass (.place (lapPlace x.id)) (.lanes l.gid l.wid l.lanes)).pass (.place (lapPlace x.id)) (.place (lapPlace l.id))
    | none => s0
  let ms := ((s.seq? l.slot).map fun q => q.viewOf l.lap).getD []
  let s2 :=
    if l.rank = 0 then s1
    else if s.linked (ms.getD (l.rank - 1) 0) then
      let u : State := { s1 with msgs := s1.msgs ++ [⟨l.id, l.slot, l.lap, l.rank, l.rank - 1, l.n, c, t⟩] }
      u.sendLap l.slot l.chip (ms.getD (l.rank - 1) 0) l.n
    else s1
  let s3 := s2.mapWarp l.gid l.wid fun w => (w.landTriples l.cap l.reg l.n l.lanes t c).endFlag l.flag (lanesOf l.lanes)
  let s4 := s3.putMember ((s3.member l.slot l.chip).record (l.lap, l.width, t, c))
  { s4 with laps := s4.laps.filter fun x => x.id != l.id }

/-- R157: the message of the rank above has come in time, or none is awaited. -/
def execLapMessage (lap : Nat) (s : State) : Host.Outcome State Fault Refusal :=
  .next (match s.laps.find? fun l => l.id == lap with
    | none => s
    | some l =>
      if l.rank + 1 = l.width then s.endLap l none
      else match s.lapMsg? l with
        | none => s
        | some m =>
          let inTime := match l.due with | none => true | some t => s.cyc l.core ≤ t
          if inTime then s.endLap l (some m) else s)

/-- R157: a lap passes the rank above over. -/
def execLapDeadline (lap : Nat) (s : State) : Host.Outcome State Fault Refusal :=
  .next (match s.laps.find? fun l => l.id == lap with
    | none => s
    | some l =>
      match l.due with
      | some t => if l.rank + 1 < l.width && t ≤ s.cyc l.core then s.endLap l none else s
      | none => s)

/-- R158: a message that its receiver has passed over. -/
def State.passedOver (s : State) (q : Seq) (m : LapMsg) : Bool :=
  let x := s.member q.slot ((q.viewOf m.lap).getD m.dst 0)
  x.issued && m.lap ≤ x.last && s.laps.all fun l => !(l.slot == m.slot && l.lap == m.lap && l.rank == m.dst)

/-- R158: bytes of a late entry, and its address. -/
def lateSize (n : Nat) : Nat := 16 + 256 * (n + 2)
def LapMsg.late (m : LapMsg) (base : Nat) : List (Nat × Byte) :=
  let a := base + m.src * lateSize m.n
  (places a 8).zip (leBytes 8 m.cover.toNat) ++ (places (a + 8) 4).zip (leBytes 4 m.lap)
    ++ (List.range (m.n + 2)).flatMap fun w => (List.range 64).flatMap fun l =>
        (places (a + 16 + w * 256 + l * 4) 4).zip (leBytes 4 ((m.triples.getD l []).getD w 0).toNat)

/-- The places of addresses of a virtual function's main memory: none where one of them cannot be accessed. -/
def State.vaPlaces (s : State) (p v : Nat) (wr : Bool) : List Nat → Option (List Nat)
  | [] => some []
  | a :: t =>
    match if wr then s.xlate p v a true else s.probe p v a false with
    | .ok pa => (s.vaPlaces p v wr t).map fun l => pa :: l
    | _ => none

/-- A page that an access needs is migrating (R366). -/
def State.vaWaits (s : State) (p v : Nat) (wr : Bool) (l : List Nat) : Bool := l.any fun a => (s.xlate p v a wr).waits

/-- R158: the message enters the late-arrival slot, or is discarded. The late buffer of a home on another module cannot be seen here:
there the message goes (log 17). -/
def execLateArrival (msg : Nat) (s : State) : Host.Outcome State Fault Refusal :=
  .next (match s.msgs.find? fun m => m.id == msg with
    | none => s
    | some m =>
      let gone0 : State := { s with msgs := s.msgs.filter fun y => y != m }
      match s.seq? m.slot with
      | none => gone0
      | some q =>
        let gone := gone0.sendLap m.slot ((q.viewOf m.lap).getD m.dst 0) (s.homeNo m.slot) m.n
        let ws := m.late q.lbuf
        if !s.passedOver q m then s
        else if q.lbuf = 0 || m.lap < q.latelap then gone
        else if s.vaWaits q.part q.vf true (ws.map Prod.fst) then s
        else match s.vaPlaces q.part q.vf true (ws.map Prod.fst) with
          | none => gone
          | some ks =>
            let bit : Dword := BitVec.ofNat 64 (2 ^ m.src)
            if (s.partial? ks).isSome then gone
            else if !s.hbmRoomAll q.part q.vf ks then s
            else ((gone.meterHbmAll q.part q.vf ks).wrs (ks.zip (ws.map Prod.snd))).putSeq
              { q with latelap := m.lap, latemask := if m.lap = q.latelap then q.latemask ||| bit else bit })

/-- R296: the registers that a lap's triples take. -/
def lapRegsOk (s : State) (d : Opd) (n : Nat) : Bool :=
  match d with | .v r => r.val + n + 3 ≤ 95 && r.val + n + 3 < s.w.nregs | _ => false

/-- R154: a member holds a lap. -/
def Member.holds (m : Member) (n : Nat) : Bool := (m.hold == 1 && m.bound < n) || (m.hold == 2 && m.bound ≤ n)

/-- R157: a lap is admitted and goes on its way. -/
def State.takeIn (s : State) (r : Run) (q : Seq) (d : Opd) (n rank width : Nat) : State :=
  let id := s.nextId
  let due := if rank + 1 < width && q.deadline != 0 then some (s.cyc s.coreNo + q.deadline) else none
  let l : Lap :=
    { id := id, gid := s.g.id, wid := s.w.idx, slot := q.slot, chip := s.myChip, lap := n, rank := rank, width := width
      reg := d.toNat, n := q.hdim, lanes := r.lanes, own := s.w.triples d.toNat q.hdim r.lanes, pc := r.pc, flag := none
      core := s.coreNo, due := due }
  let t := { s with laps := s.laps ++ [l], nextId := id + 1 }
  let m := t.member q.slot s.myChip
  (t.putMember { m with last := n, issued := true, held := m.held.filter fun h => !(h.1 == s.g.id && h.2.1 == s.w.idx) }).meetSel
    r.lanes (.place (lapPlace id))
/-- R154: a lap of the selected warp is held. -/
def State.holdLap (s : State) (m : Member) (n : Nat) : State :=
  s.putMember { m with held := (s.g.id, s.w.idx, n) :: m.held.filter fun h => !(h.1 == s.g.id && h.2.1 == s.w.idx) }

/-- R157, R160. For the last lap again, the run is held until that lap's result is recorded (log 127). -/
noncomputable def execGstep (d sq : Opd) (sn : Fin 64) (s : State) : Host.Outcome State Fault Refusal :=
  issue (.gstep d sq sn) s fun r => withMember s r sq fun q =>
    let n := (s.w.idxS sn).toNat
    let m := s.member q.slot s.myChip
    let ms := q.viewOf n
    if !lapRegsOk s d q.hdim then Act.trapAt r 5
    else if s.meetsLong r d (q.hdim + 4) then Act.trapAt r 2
    else if m.holds n then .hold (s.holdLap m n)
    else match rankIn ms s.myChip with
      | none => Act.trapAt r 5
      | some k =>
        if m.issued && n < m.last then Act.trapAt r 5
        else if m.issued && n = m.last then
          match m.resultOf n with
          | some x => .ok (s.setW (s.w.landTriples 96 d.toNat q.hdim r.lanes x.2.2.1 x.2.2.2))
          | none => .hold s
        else .ok (s.takeIn r q d n k ms.length)

/-- The places of a late entry. -/
def State.latePlaces (s : State) (q : Seq) (k : Nat) : Option (List Nat) :=
  s.vaPlaces q.part q.vf false (places (q.lbuf + k * lateSize q.hdim) (lateSize q.hdim))
/-- R159: a late entry of lap `n`: its cover, and its triples. -/
def State.lateEntry (s : State) (q : Seq) (k : Nat) : Option (Dword × Triples) :=
  (s.latePlaces q k).map fun ks =>
    let b := ks.map s.rd
    let w (o n : Nat) := leNat ((b.drop o).take n)
    (BitVec.ofNat 64 (w 0 8),
     (List.range 64).map fun l => (List.range (q.hdim + 2)).map fun j => BitVec.ofNat 32 (w (16 + j * 256 + l * 4) 4))

/-- R159: the ranks of the late entries of a lap. -/
def Seq.lateRanks (q : Seq) (n : Nat) : List Nat := if q.latelap != n then [] else (List.range 64).filter fun k => q.latemask.getLsbD k
/-- R159: the late entries of a lap, in ascending rank. -/
def State.lateOf (s : State) (q : Seq) (n : Nat) : List (Dword × Triples) := (q.lateRanks n).filterMap (s.lateEntry q)

/-- The due time of a held `glate`: 0 once it has passed. -/
def State.gtimer (s : State) (gid wid : Nat) : Option Nat :=
  (s.gtimers.find? fun x => x.1 == gid && x.2.1 == wid).map fun x => x.2.2
def State.setGtimer (s : State) (gid wid : Nat) (t : Option Nat) : State :=
  let rest := s.gtimers.filter fun x => !(x.1 == gid && x.2.1 == wid)
  { s with gtimers := match t with | some v => (gid, wid, v) :: rest | none => rest }

/-- R159: what `glate` has answered for a lap. -/
def Member.lateOf (m : Member) (n : Nat) : Option (Triples × Dword) := (m.late.filter fun x => x.1 == n).map Prod.snd
/-- R159: what `glate` answers for a lap: the same at every further `glate` of it, as entries that arrive later are never merged
into it (log 44). -/
def State.answerLate (s : State) (m : Member) (n : Nat) (t : Triples) (c : Dword) : State :=
  s.putMember { m with late := some (n, t, c) }

/-- R159. -/
noncomputable def execGlate (d sq : Opd) (s : State) : Host.Outcome State Fault Refusal :=
  issue (.glate d sq) s fun r => withMember s r sq fun q =>
    if !lapRegsOk s d q.hdim then Act.trapAt r 5
    else if rankIn q.current s.myChip != some 0 then Act.trapAt r 5
    else let m := s.member q.slot s.myChip
    match m.result with
      | none => Act.trapAt r 5
      | some (n, width, t, c) =>
        let late := s.lateOf q n
        let union := late.foldl (fun m e => m ||| e.1) c
        let all := (List.range width).all fun k => union.getLsbD k
        let timer := s.gtimer s.g.id s.w.idx
        let ks := if (m.lateOf n).isSome then [] else (q.lateRanks n).flatMap fun k => (s.latePlaces q k).getD []
        if all || timer = some 0 then
          let u := (m.lateOf n).getD (late.foldl (fun u e => mergeAll e.2 u) t, union)
          if !s.hbmRoomAll q.part q.vf ks then .hold s
          else .ok ((((s.meterHbmAll q.part q.vf ks).setGtimer s.g.id s.w.idx none).answerLate m n u.1 u.2).setW (s.w.landTriples 96 d.toNat q.hdim r.lanes u.1 u.2))
        else if timer.isSome then .hold s
        else .hold (s.setGtimer s.g.id s.w.idx (some (s.cyc s.coreNo + 2 ^ 24)))

/-- R159: 2^24 cycles have passed on the core of a warp that is held in `glate`. -/
def execGlateTimeout (gid wid : Nat) (s : State) : Host.Outcome State Fault Refusal :=
  .next (match s.gtimer gid wid, s.group? gid with
    | some t, some g => if t ≤ s.cyc (16 * g.chip + g.core) then s.setGtimer gid wid (some 0) else s
    | _, _ => s)

/-! ### Other modules (R147, R151 to R163) -/

/-- A tenant has a virtual function on another module, whose lanes may act on the tenant's slots. -/
def State.hasPeer (s : State) (q : Seq) : Bool := s.peers.any fun p => p.kvw == s.kvwOf q

/-- A slot on which another module acts. -/
def State.peerOn (s : State) (k : Nat) (f : Seq → State) : State :=
  match s.seq? k with
  | some q => if s.hasPeer q then f q else s
  | none => s

/-- R157: a lap that a member on another module issues; its clock is its own, so it waits as long as it may (log 17). -/
def State.peerLap (s : State) (q : Seq) (chip n : Nat) (own : Triples) : State :=
  let m := s.member q.slot chip
  match rankIn (q.viewOf n) chip with
  | none => s
  | some k =>
    if (s.localChip chip).isSome || m.holds n || (m.issued && n ≤ m.last) || own.length != 64
      || !(own.all fun t => t.length == q.hdim + 2) then s
    else
      let l : Lap :=
        { id := s.nextId, gid := 0, wid := 0, slot := q.slot, chip := chip, lap := n, rank := k, width := (q.viewOf n).length
          reg := 127, n := q.hdim, lanes := 0, own := own, pc := 0, flag := none, core := 128, due := some 0 }
      ({ s with laps := s.laps ++ [l], nextId := s.nextId + 1 }).putMember { m with last := n, issued := true }

/-- R147: what another module does. A pop that fails, or a REFC that is full, is that module's lane's trap and changes nothing
here. -/
def State.peerAct (s : State) (a : PeerAct) : State :=
  match a with
  | .tenant p =>
    if !s.md.valid || p.mod = s.md.number || !s.md.group.contains p.mod || p.kvw = 0 then s
    else s.putPeer { p with freeKv := p.freeKv.filter fun x => x.1 / 8 == p.mod && x.2.2 < 2 ^ 23 && (s.kvBlock x.1 x.2.1 x.2.2).isNone }
  | .assign k kvw =>
    if k < 8192 || (s.seq? k).isSome || (s.peer? (k / 8192 - 1) kvw).isNone then s
    else s.putSeq { Seq.fresh k noPart 0 (s.homeNo k) with kvw := kvw }
  | .unassign k =>
    if k < 8192 then s
    else { s with seqs := s.seqs.filter (fun q => q.slot != k), members := s.members.filter (fun m => m.slot != k)
                  msgs := s.msgs.filter fun m => m.slot != k }
  | .request k w => s.peerOn k fun q => (s.request q w).2
  | .fields k img => s.peerOn k fun q => (s.writeImage q img).2
  | .append k => s.peerOn k fun q =>
      if q.held || q.queue.any (fun p => s.stands p.1 p.2) || q.tokens = 0xFFFFFFFF then s
      else match s.room q with
        | none => s.hold1 q none
        | some (.ok e t) => t.hold1 q (some e)
        | some _ => s
  | .cut k n => s.peerOn k fun q =>
      if q.held || q.queue.any (fun p => s.stands p.1 p.2) || q.tokens < n then s else s.truncate q n
  | .fork k j => s.peerOn k fun q =>
      match s.seq? j with
      | none => s
      | some o =>
        let x := s.share (sortEntries o.fst) 0
        if k < 8192 || k / 8192 != j / 8192 || q.tokens != 0 || q.state != 1 || o.state != 1 || s.kvwOf q != s.kvwOf o
          || x.2.1.isSome then s
        else x.2.2.putSeq (q.forked o x.1)
  | .lap k chip n own => s.peerOn k fun q => s.peerLap q chip n own

/-- R162: the handler of trap 0x09 has written a block of its own into the destination's entry. The spec names no instruction for it:
it is a step of its own, while such a trap is held (log 38). -/
def State.writeEntry (s : State) (k : Nat) (e : FstEntry) : State :=
  match s.seq? k, s.blockOf e with
  | some q, some b =>
    if q.tokens = 0 && b.refc = 1 && (q.entry e.rank e.blk).isNone && some (b.part, b.vf) == s.ownerVf q
      && s.allGroups.any (fun g => g.trapHeld && g.trapc = 9 && s.ownerVf q == some (g.part, g.vf)) then
      s.putSeq { q with fst := putEntry q.fst e }
    else s
  | _, _ => s

end Sys2Proof.Machine
end

