-- ==== Sys2Proof/Machine/Retire.lean ====
section
/-! DEFINITION. How lanes, warps and groups end (R8, R9, R19, R81, R138, R207, R370). -/

namespace Sys2Proof.Machine

/-- Something is done with another warp selected; nothing of the machine changes by the selection. -/
def State.on (s : State) (gid wid : Nat) (f : State → State) : State := (f (s.select gid wid)).select s.g.id s.w.idx

/-- R146, R284: the record of the selected group's task is on a page that is migrating. -/
def State.taskAway (s : State) : Bool := s.g.task != 0 && s.unitAt s.g.chip s.g.part s.g.vf s.g.task 64 = .wait
/-- R146: what the lanes of a task see is kept for those who learn of its end. -/
def State.endSeen (s : State) (m : LaneMask) : State :=
  if s.g.task = 0 then s
  else match s.unitAt s.g.chip s.g.part s.g.vf s.g.task 64 with
    | .ok k => s.meetSel m (.place (taskLanes k))
    | _ => s

/-- R8, R81: the selected warp has no lane left: its holds are released, its waiting request is withdrawn, and its slot
and registers return. -/
def State.dropWarp (s : State) : State :=
  let t := s.w.holds.foldl (fun t h => (t.passRegion (BitVec.allOnes 64) h).release h) s
  let u := t.withdraw s.g.id s.w.idx
  { u with
    w := { Warp.blank with gone := true }
    hubw := u.hubw.filter fun q => !(q.gid == s.g.id && q.wid == s.w.idx)
    ended := u.ended.filter fun e => !(e.gid == s.g.id && e.wid == s.w.idx)
    gtimers := u.gtimers.filter fun q => !(q.1 == s.g.id && q.2.1 == s.w.idx) }

/-- R8, R207: lanes of the selected warp retire; the last of a warp end it, and the last warp ends its group. None while
the task unit cannot finish, or cannot reach the task's record. -/
def State.retireSel (s : State) (m : LaneMask) : Option State :=
  let t := (s.endSeen m).putMasks (s.w.retire m)
  if s.taskAway then none
  else if t.w.live != 0 then some t
  else
    let u := t.dropWarp
    if u.g.others.isEmpty then u.retireGroup s.g.id u.g.failing else some u

/-- Lanes of any warp retire. -/
def State.retireAt (s : State) (gid wid : Nat) (m : LaneMask) : Option State :=
  ((s.select gid wid).retireSel m).map fun t => t.select s.g.id s.w.idx

/-- A group's lanes wait nowhere any more. -/
def State.cancelWaits (s : State) (gid : Nat) : State :=
  let t := (s.mapGroup gid fun g => { g with rvz := [] }).withdrawReqs fun q => q.gid == gid
  { t with
    hwq := t.hwq.map fun q => { q with blocked := q.blocked.filter fun b => b.gid != gid }
    hubw := t.hubw.filter fun q => q.gid != gid
    gtimers := t.gtimers.filter fun q => q.1 != gid
    traps := t.traps.filter fun r => r.gid != gid }

/-- R146: every lane of every warp of a group retires, and its tiles and ranges are released. -/
def State.clearGroup (s : State) (gid : Nat) : State :=
  match s.group? gid with
  | none => s
  | some g =>
    let t := g.others.foldl (fun t w => t.on gid w.idx fun u => (u.endSeen u.w.live).dropWarp) s
    let u := (t.cancelWaits gid).mapGroup gid fun g =>
      { g with others := [], trapHeld := false, ranges := g.ranges.map fun x => { x with gone := true } }
    let v := u.mapEngine g.clu fun e => (e.tilesOf gid).foldl Engine.releaseTile e
    v.unselect.select s.g.id s.w.idx

/-- R132, R370: a whole group ends; a task that it runs becomes Failed. None while the task unit cannot finish. -/
def State.endGroup (s : State) (gid : Nat) : Option State := (s.clearGroup gid).retireGroup gid true

/-- R370: a trap inside a system warp: Iluloth ends it and the group whose trap it held. -/
def State.endSystem (s : State) (gid : Nat) : State :=
  match s.group? gid with
  | none => s
  | some g =>
    let t := (s.clearGroup gid).dropGroup gid
    match g.holds with
    | none => t
    | some h => (t.endGroup h.gid).getD { s with agenda := s.agenda ++ [.endSys gid] }

end Sys2Proof.Machine
end

