-- ==== Sys2Proof/Machine/System.lean ====
section
/-! DEFINITION. Status registers, segments, register growth and the return from a trap, majors 0x39 and 0x35 (R12, R25 to
R27, R212, R298 to R304, R367 to R370), and the delivery of a trap (R369). -/

namespace Sys2Proof.Machine

/-! ### Status registers (R299 to R302) -/

/-- R12: WIDF of a kernel. -/
def Kernel.widf (k : Kernel) : Nat :=
  (List.range 6).foldl (fun n j => n + k.widths.getD j 0 % 256 * 2 ^ (8 * j)) (k.nf % 8 * 2 ^ 48)

/-- R56. -/
def State.modl (s : State) : Nat := if s.md.valid then 256 + s.md.number % 256 else 0

/-- R367: the trap registers: those of the group, or of the trap that a system warp holds (R369). -/
def State.trapReg (s : State) (f : TrapRec → Nat) (g : Group → Nat) : Nat :=
  match s.g.holds with | some h => if s.g.sys then f h else g s.g | none => g s.g

/-- R299: a status register, for a lane. -/
def State.statusReg (s : State) (r : SReg) (lane : Nat) : Nat :=
  match r with
  | .warpw => Config.warpW
  | .widf => s.g.kern.widf
  | .core => s.g.core
  | .clus => s.g.clu * 4 + s.g.core / 4
  | .chip => s.myChip * 8 + s.g.chip
  | .modl => s.modl
  | .cyc => s.cyc s.coreNo
  | .flg => (s.w.getFlg lane).toNat
  | .ctb => s.g.ctb.toNat % 2 ^ s.g.kern.tags
  | .late => s.w.late.toNat
  | .seed => s.w.seed.toNat
  | .deg => (s.engine s.g.clu).deg.toNat
  | .pmode => s.g.pmode
  | .helpd => s.g.helpd
  | .trapc => s.trapReg (fun h => h.cause + if h.repeated then 256 else 0) fun g => g.trapc.toNat
  | .trapa => s.trapReg (fun h => h.addr.toNat) fun g => g.trapa.toNat
  | .trapv => s.trapReg (fun h => h.value.toNat) fun g => g.trapv.toNat
  | .trapt => s.trapReg (fun h => h.owner.toNat) fun g => g.trapt.toNat
  | .traph => s.trapReg (fun h => h.helper.toNat) fun g => g.traph.toNat
  | .segpriv => (s.w.getSeg 0).toNat
  | .segshr => (s.w.getSeg 1).toNat
  | .segdws => (s.w.getSeg 2).toNat
  | .segcon => (s.w.getSeg 3).toNat
  | .segfab => (s.w.getSeg 4).toNat
  | .segob => (s.w.getSeg 5).toNat

/-- R301. -/
noncomputable def execSrd (d : Opd) (x : SReg) (s : State) : Host.Outcome State Fault Refusal :=
  issue (.srd d x) s fun r =>
    if x.span = 2 then .ok (s.setW (s.w.write64 d r.lanes fun l => BitVec.ofNat 64 (s.statusReg x l)))
    else .ok (s.setW (s.w.write d r.lanes fun l => BitVec.ofNat 32 (s.statusReg x l)))

/-- R302. -/
noncomputable def execSwr (x : SReg) (v : Opd) (s : State) : Host.Outcome State Fault Refusal :=
  issue (.swr x v) s fun r =>
    match x with
    | .flg => .ok (s.setW (s.w.putFlg r.lanes fun l => s.w.src v l &&& 0x1F))
    | .late => .ok (s.setW { s.w with late := s.w.scal r v })
    | .seed => .ok (s.setW { s.w with seed := s.w.scal r v, gen := mkRow (seedGen (s.w.scal r v)) })
    | _ => Act.trapAt r 5

/-! ### Segments (R303) -/

/-- R303: a segment of a chip ends within its store. -/
def State.segOk (s : State) (chip k : Nat) (v : Dword) : Bool :=
  let n := if k = 0 then 64 * segLimit v else segLimit v
  let size := match k with
    | 2 => s.dwsSize chip
    | 4 => s.dwsSize chip
    | 5 => obSize
    | _ => s.poolSize chip
  segBase v + n ≤ size

/-- R303: the number of a segment register. -/
def segNo (r : SReg) : Nat :=
  match r with | .segpriv => 0 | .segshr => 1 | .segdws => 2 | .segcon => 3 | .segfab => 4 | _ => 5

/-- R303. -/
noncomputable def execSegld (x : SReg) (a : Opd) (s : State) : Host.Outcome State Fault Refusal :=
  issue (.segld x a) s fun r =>
    let v := s.w.scal64 r a
    if !s.g.sys then Act.trapAt r 0x0D
    else if s.segOk s.g.chip (segNo x) v then .ok (s.setW (s.w.putSeg (segNo x) v))
    else Act.trapAt r 5

/-! ### Register growth (R25, R26, R304) -/

/-- R26: registers from `lo` on are granted, with undefined values. -/
def Warp.gain (w : Warp) (f n : Nat) : Warp :=
  { (List.range n).foldl (fun v j => v.putV (w.nregs + j) (BitVec.allOnes 64) fun i => Config.freeWord (f + 64 * j + i)) w with
    nregs := w.nregs + n, grow := none }

/-- A warp of any group gains registers. -/
def State.gain (s : State) (gid wid k : Nat) : State :=
  (s.mapWarp gid wid fun w => w.gain s.free (8 * k)).spend (64 * 8 * k)

/-- R26: the core's pool can meet a request. -/
def State.canGrow (s : State) (chip core gid wid k : Nat) : Bool :=
  regsUsed ((s.mapWarp gid wid fun w => { w with nregs := w.nregs + 8 * k }).onCore chip core) ≤ 2048

/-- R26: the waiting requests of a core: age, warp, granules. -/
def State.growers (s : State) (chip core : Nat) : List (Nat × Nat × Nat × Nat) :=
  (s.onCore chip core).flatMap fun g => g.others.filterMap fun w => w.grow.map fun k => (g.age, g.id, w.idx, k)

/-- R26, R304. -/
noncomputable def execRgrow (a : Opd) (s : State) : Host.Outcome State Fault Refusal :=
  issue (.rgrow a) s fun r =>
    let v := s.w.scal r a
    let k := v.toNat
    if k = 0 then .ok s
    else if 96 < s.w.nregs + 8 * k then .trap 0x0F r.addr v
    else
      let older := (s.growers s.g.chip s.g.core).any fun q => q.1 ≤ s.g.age && !(q.2.1 == s.g.id && q.2.2.1 == s.w.idx)
      if !older && s.canGrow s.g.chip s.g.core s.g.id s.w.idx k then .ok (s.gain s.g.id s.w.idx k)
      else .ok (s.setW { s.w with grow := some k, growAt := r.fall - 4 })

/-- R304: what the selected warp has outstanding writes nothing from register `n` on. -/
def State.capAt (s : State) (n : Nat) : State :=
  let own (gid wid : Nat) : Bool := gid == s.g.id && wid == s.w.idx
  let cap (c : Nat) : Nat := min c n
  let t := { s with pend := s.pend.map (fun (o : MemOp) => if own o.gid o.wid then { o with cap := cap o.cap } else o)
                    laps := s.laps.map (fun (l : Lap) => if own l.gid l.wid then { l with cap := cap l.cap } else l)
                    landing := s.landing.map fun (l : Landing) =>
                      if own l.gid l.wid then { l with words := l.words.filter fun x => x.1 < n || 96 ≤ x.1 } else l }
  if (s.engine s.g.clu).cmds.any fun c => own c.gid c.wid then
    t.mapEngine s.g.clu fun e =>
      { e with cmds := e.cmds.map fun (c : MatCmd) => if own c.gid c.wid then { c with cap := cap c.cap } else c }
  else t

/-- R25, R304. -/
noncomputable def execRshrink (a : Opd) (s : State) : Host.Outcome State Fault Refusal :=
  issue (.rshrink a) s fun r =>
    let k := (s.w.scal r a).toNat
    if k = 0 then .ok s
    else if s.w.nregs < 8 * k + 8 then Act.trapAt r 5
    else .ok ((s.setW { s.w with nregs := s.w.nregs - 8 * k }).capAt (s.w.nregs - 8 * k))

/-- R26: the oldest waiting request of its core is granted once the pool can meet it. DESIGN CHOICE: R26 orders requests by their
groups' age; of one group's warps, the lowest index goes first, and a waiting request holds back a new one of the same group (log 105). -/
def execRgrowGrant (gid wid : Nat) (s : State) : Host.Outcome State Fault Refusal :=
  .next (match s.group? gid, (s.warp? gid wid).bind Warp.grow with
    | some g, some k =>
      let first := (s.growers g.chip g.core).all fun q => g.age < q.1 || (g.age == q.1 && wid ≤ q.2.2.1)
      if first && s.canGrow g.chip g.core gid wid k then s.gain gid wid k else s
    | _, _ => s)

/-! ### Delivery of a trap (R369) -/

/-- R369: the bytes of the trap record. -/
def TrapRec.bytes (h : TrapRec) (w : Warp) : List Byte :=
  leBytes 4 (h.cause + if h.repeated then 256 else 0) ++ leBytes 4 h.value.toNat ++ leBytes 8 h.addr.toNat
    ++ leBytes 8 h.owner.toNat ++ leBytes 8 h.helper.toNat ++ leBytes 8 h.lanes.toNat ++ leBytes 4 h.pc
    ++ leBytes 4 (h.core + 16 * h.wid) ++ leBytes 8 0
    ++ (List.range 6).flatMap (fun k => leBytes 8 (w.getSeg k).toNat) ++ leBytes 24 0

/-- The start of a core's `shr` of a group. -/
def Group.shrBase (g : Group) : Nat := poolKey g.chip g.core (g.room.getD 0 (0, 0)).1

/-- R369: the oldest trap of a partition that a chip's trap unit has queued. -/
def State.nextTrap (s : State) (chip part : Nat) : Option (TrapRec × Group) :=
  s.traps.findSome? fun h => (s.group? h.gid).bind fun g => if g.chip = chip && g.part = part then some (h, g) else none

/-- R369: a system warp starts on a core, with the trap record in its `shr` (log 28). -/
def State.deliver (s : State) (chip part core : Nat) (k : Kernel) (h : TrapRec) (g : Group) : State :=
  match s.seat? chip core k 1 k.regs 0, s.warp? h.gid h.wid with
  | some seat, some w =>
    let id := s.nextId
    let t := (s.spend 3).reside
      { chip := chip, core := core, part := part, vf := g.vf, kern := k, coord := 0, entry := k.entry
        arg := Config.freeWord (s.free + 1) ++ Config.freeWord s.free, dwsBase := 0, fablim := 0, late := 512
        seed := Config.freeWord (s.free + 2), pmode := g.pmode, prio := g.prio, rec_ := 0, slot := 0, warps := 1 } seat
    let u := { t with traps := t.traps.filter fun x => x != h }.mapGroup id fun x => { x with sys := true, holds := some h }
    u.wrs ((places (poolKey chip core (seat.room.getD 0 (0, 0)).1) 128).zip (h.bytes w))
  | _, _ => s

/-- R369. -/
def execTrapDelivery (chip part core : Nat) (s : State) : Host.Outcome State Fault Refusal :=
  .next (match s.nextTrap chip part, (s.part? part).bind Partition.handler with
    | some x, some k => if s.partCore part chip core && 128 ≤ k.shr then s.deliver chip part core k x.1 x.2 else s
    | _, _ => s)

/-! ### The return from a trap (R212, R370) -/

/-- R212: an abandoned operation: its destination is undefined. Its assignment has ended with the trap. -/
def State.abandonOp (s : State) (o : MemOp) : State :=
  let n := match o.kind with
    | .load _ _ => max (o.n / 4) 1
    | .atomic _ _ _ _ ret => if ret then max (o.n / 4) 1 else 0
    | _ => 0
  let f := s.free
  (s.landOp { o with flag := none } n fun j i => Config.freeWord (f + 64 * j + i)).spend (64 * 4)

/-- R370: the destinations of a suppressed result are undefined. -/
noncomputable def State.suppress (s : State) (h : TrapRec) (t : Trapped) : State :=
  match s.group? h.gid with
  | none => s
  | some g =>
    match decodeAt (s.codeAt g.kern.img t.pc maxInstrBytes) with
    | none => s
    | some i =>
      let f := s.free
      (s.mapWarp h.gid h.wid fun w =>
        i.1.info.dsts.foldl (fun w (u : Oper) => w.writeRun u.o u.span t.lanes fun j l => Config.freeWord (f + 64 * j + l)) w).spend
          (64 * 16)

/-- R370: what `rfe` reads of the record. -/
def Group.recordPlaces (g : Group) : List Nat := places g.shrBase 128
/-- R370: the segment registers that the handler has set in the record: none when one of them breaks the bound, or a
reserved bit of SET is set. -/
def State.recordSegs (s : State) (chip : Nat) : Option (List (Nat × Dword)) :=
  let a := s.g.shrBase
  let set := s.rdN (a + 48) 4
  let l := ((List.range 6).filter fun k => set.testBit k).map fun k => (k, s.rdD (a + 56 + 8 * k))
  if set / 2 ^ 7 != 0 || l.any (fun p => !s.segOk chip p.1 p.2) then none else some l

/-- R212: what an action comes to for the trapped warp: refused, or done; none while the task unit cannot finish. -/
inductive Ended where
  | refused
  | waits
  | done (s : State)

/-- R162, R370: the entry at which `kvfork` resumes. -/
def State.resumeEntry (s : State) (h : TrapRec) : Option Nat :=
  let a := s.g.shrBase
  if h.cause = 9 then some (if (s.rdN (a + 48) 4).testBit 6 then s.rdN (a + 4) 4 else h.value.toNat) else none

/-- R138: the trapped lanes of a group are the last of a task that still holds a tile, a range or a hold. -/
def State.lastHolding (s : State) (h : TrapRec) (t : Trapped) : Bool :=
  let u := s.select h.gid h.wid
  u.isSel h.gid h.wid && u.g.task != 0 && u.w.live &&& ~~~ t.lanes == 0 && u.g.others.isEmpty && u.holdsAny u.whole
/-- R138: they trap again, where they stand (log 108). -/
def State.trapAgain (s : State) (h : TrapRec) (t : Trapped) : State :=
  s.on h.gid h.wid fun u => trapWith u t 5 false (BitVec.ofNat 64 t.pc) 0

/-- R63, R212: an operation is performed again: it is issued now, and its failure is forgotten. -/
def State.again (s : State) (o : MemOp) : MemOp := { o with failed := none, issued := s.cyc o.core }

/-- R69, R154, R212: what trapped lanes that do not run their instruction again were waiting for is withdrawn. -/
def State.leaveWaits (s : State) (h : TrapRec) (t : Trapped) : State :=
  match t.point with
  | .atIssue =>
    { s.withdraw h.gid h.wid with
      hubw := s.hubw.filter fun q => !(q.gid == h.gid && q.wid == h.wid && q.lanes &&& t.lanes != 0)
      gtimers := s.gtimers.filter fun q => !(q.1 == h.gid && q.2.1 == h.wid)
      seqs := s.seqs.map fun (q : Seq) => { q with queue := q.queue.filter fun p => p != (h.gid, h.wid) }
      members := s.members.map fun (m : Member) => { m with held := m.held.filter fun p => !(p.1 == h.gid && p.2.1 == h.wid) } }
  | _ => s

/-- R212: copies of trapped lanes whose first page was away are dropped. -/
def State.dropAway (s : State) (h : TrapRec) (t : Trapped) : State :=
  match t.point with
  | .afterIssue =>
    (s.copies.filter fun c => c.gid == h.gid && c.wid == h.wid && c.waiting && c.lanes &&& t.lanes != 0).foldl State.endCopy s
  | _ => s

/-- R212, R370: an action on the trapped lanes. Action 2 on lanes of a task is how the system image ends the task, which then becomes
Failed (R132, R324; log 109). -/
noncomputable def State.endHeld (s : State) (h : TrapRec) (w : Warp) (t : Trapped) (act : Nat) : Ended :=
  let free (u : State) : State := u.mapGroup h.gid fun g => { g with trapHeld := false }
  let put (u : State) (o : Option Warp) : Ended :=
    match o with | none => .refused | some v => .done (free (u.mapWarp h.gid h.wid fun _ => v))
  match act with
  | 0 =>
    let v := t.ops.foldl (fun (w : Warp) o => match o.flag with | some f => w.addFlag f (lanesOf o.lanes) | none => w) w
    if h.repeated then .refused
    else put { s with pend := s.pend ++ t.ops.map s.again } (v.endTrap t 0 h.cause (s.resumeEntry h))
  | 1 =>
    let u := t.ops.foldl State.abandonOp ((s.dropAway h t).leaveWaits h t)
    let v := if h.cause = 7 then u.suppress h t else u
    put v (((v.warp? h.gid h.wid).getD w).endTrap t 1 h.cause none)
  | 2 =>
    if h.repeated then
      match s.endGroup h.gid with | some u => .done (free u) | none => .waits
    else
      let u := free (((s.dropAway h t).leaveWaits h t).mapWarp h.gid h.wid fun v => { v with trapped := none })
      if u.lastHolding h t then .done (u.trapAgain h t)
      else match (u.mapGroup h.gid fun g => { g with failing := g.failing || g.task != 0 }).retireAt h.gid h.wid t.lanes with
      | some v => .done v
      | none => .waits
  | _ => .refused

/-- R212, R370. -/
noncomputable def execRfe (a : Opd) (s : State) : Host.Outcome State Fault Refusal :=
  issue (.rfe a) s fun r =>
    if !s.g.sys then Act.trapAt r 0x0D
    else match s.g.holds with
      | none => Act.trapAt r 5
      | some h =>
        match s.group? h.gid, s.warp? h.gid h.wid with
        | some g, some w =>
          s.ordered r.lanes s.g.recordPlaces <| match s.recordSegs g.chip, w.trapped with
          | some segs, some t =>
            let u := s.mapWarp h.gid h.wid fun w => segs.foldl (fun w p => w.putSeg p.1 p.2) w
            match u.endHeld h (segs.foldl (fun w p => w.putSeg p.1 p.2) w) t ((s.w.scal r a).toNat % 4) with
            | .refused => Act.trapAt r 5
            | .waits => .hold s
            | .done v => .ok (v.mapGroup s.g.id fun g => { g with holds := none })
          | _, _ => Act.trapAt r 5
        | _, _ => .ok (s.setG { s.g with holds := none })

end Sys2Proof.Machine
end

