-- ==== Sys2Proof/Machine/Context.lean ====
section
/-! DEFINITION. Pre-emption: when a group's stop is final, how its context is saved, and how it resumes (R27 to R32, R144,
R248, R305, R374, R375). Stores and atomics that are outstanding are performed before a stop is final (log 24). -/

namespace Sys2Proof.Machine

/-- R28: a group is pre-empted in discard mode. -/
def Group.discards (g : Group) : Bool := g.pmode % 4 == 2

/-! ### When a stop is final (R30, R32, R374) -/

/-- Instructions at which a held warp is at a safe point. -/
def holdsSafe (i : Instr) : Bool :=
  match i with
  | .tagany _ => true | .taganyMask _ => true | .tagall _ => true | .tagallMask _ => true | .bcbWait _ _ _ _ => true
  | .sacq _ _ => true | .sacqSh _ _ => true | .hredWait _ _ => true | .mswap => true | .mwait _ => true | .tsync => true
  | .tdone _ => true | .fwait _ _ => true | .lkacq _ _ => true | .glate _ _ => true
  | _ => false

/-- The instruction that a run of a group is to issue next. -/
noncomputable def State.nextOf (s : State) (g : Group) (r : Run) : Option Instr :=
  (decodeAt (s.codeAt g.kern.img r.pc maxInstrBytes)).map Prod.fst

/-- R243, R245: instructions at which only the lanes that are held are at a safe point. -/
def holdsLanes (i : Instr) : Bool :=
  match i with
  | .tagany _ => true | .taganyMask _ => true | .tagall _ => true | .tagallMask _ => true | .bcbWait _ _ _ _ => true
  | _ => false
/-- The lanes of a warp's PC table have stopped. -/
def Warp.tableStopped (w : Warp) : Bool := w.pcs.all fun e => e.lanes &&& ~~~ w.stopped == 0
/-- R30: a warp's run is held at the end of its clause, at a safe point: all the warp, or the lanes that are held (log 112). -/
noncomputable def State.heldSafe (s : State) (g : Group) (w : Warp) (r : Run) : Bool :=
  r.left == 1 && match s.nextOf g r with
    | some i => holdsSafe i && (!holdsLanes i || (r.done &&& r.lanes == 0 && w.tableStopped))
    | none => false

/-- R30, R58: a warp's flags, but for what has failed and is to trap its lanes at their next header. -/
def State.owedFlags (s : State) (g : Group) (w : Warp) : Warp :=
  (s.pend.filter fun o => o.gid == g.id && o.wid == w.idx && o.failed.isSome).foldl
    (fun v o => v.endFlag o.flag (lanesOf o.lanes)) w

/-- R29, R30: every lane of a warp is at a safe point, with its flags clear. -/
noncomputable def State.atSafe (s : State) (g : Group) (w : Warp) : Bool :=
  (s.owedFlags g w).flags.isEmpty && w.parked.isEmpty && w.trapped.isNone && w.resume.isEmpty
  && match w.run with
    | some r => s.heldSafe g w r
    | none => w.grow.isSome || w.tableStopped

/-- The regions in which the warps of a group stand. -/
def Group.regions (g : Group) : List Nat := g.others.filterMap fun w => w.restart.map fun _ => w.region

/-- R32, R374: what must come to its end before a stop is final. -/
def State.owes (s : State) (g : Group) : Bool :=
  s.pend.any (fun o => o.gid == g.id && o.failed.isNone && (!g.discards || MKind.writes o.kind))
  || (!g.discards && s.landing.any fun l => l.gid == g.id)
  || (s.engine g.clu).cmds.any fun c => c.gid == g.id && (!g.discards || !g.regions.contains c.region)

/-- R30, R32, R374: a group that has been asked to stop can leave its core. -/
noncomputable def State.canStop (s : State) (g : Group) : Bool :=
  (match g.stand with | .stopping => true | _ => false) && !s.owes g && (g.discards || g.others.all (s.atSafe g))

/-! ### What discard mode drops (R32, R305) -/

/-- R31, R32: a warp at its restart point. A trapped subgroup stays as it is. -/
def Warp.restarted (w : Warp) (entry : Nat) : Warp :=
  let away := (w.trapped.map Trapped.lanes).getD 0
  let u := { w with
    waits := [], parked := [], asleep := [], flags := [], run := none, stopped := 0, spAt := [], resume := []
    grow := none, yielding := none }
  match w.restart with
  | some q =>
    { u with pcs := q.more.foldl (fun t e => insertSub t e.pc (e.lanes &&& ~~~ away)) (insertSub [] q.pc (q.lanes &&& ~~~ away))
             waits := (q.waits.map fun e => { e with lanes := e.lanes &&& ~~~ away }).filter fun e => e.lanes != 0
             live := q.waits.foldl (fun m e => m ||| e.lanes) (q.more.foldl (fun m e => m ||| e.lanes) (q.lanes ||| away)), m := q.masks }
  | none => { u with pcs := insertSub [] entry (w.live &&& ~~~ away), m := [] }

/-- R32: a copy of the current region is dropped. -/
def Group.dropTag (g : Group) (t : Nat) : Group :=
  { g with tagCnt := setKey g.tagCnt t (getKey g.tagCnt t 0 - 1), ctb := g.ctb &&& ~~~ laneBit t }

/-- R305: the record of the earliest region among the warps of a group. -/
def Group.firstRestart (g : Group) : Option Restart :=
  (g.others.filter fun w => w.restart.isSome).foldl
    (fun (b : Option (Nat × Restart)) w =>
      match b, w.restart with
      | some c, some q => if w.region < c.1 then some (w.region, q) else some c
      | none, some q => some (w.region, q)
      | c, none => c) none |>.map Prod.snd

/-- R32, R305: a group loses the work of its current regions. -/
def State.discard (s : State) (g : Group) : State :=
  let inRegion (n : Nat) : Bool := n != 0 && g.regions.contains n
  let mine (c : CopyCmd) : Bool := c.gid == g.id && inRegion c.region
  let lap (l : Lap) : Lap := if l.gid = g.id then { l with lanes := 0, flag := none } else l
  let que (q : HwQueue) : HwQueue := { q with blocked := q.blocked.filter fun b => b.gid != g.id }
  let t : State := { s with
    pend := s.pend.filter fun o => !(o.gid == g.id && !MKind.writes o.kind)
    landing := s.landing.filter fun l => l.gid != g.id
    hubw := s.hubw.filter fun q => q.gid != g.id
    copies := s.copies.filter fun c => !mine c
    laps := s.laps.map lap
    hwq := s.hwq.map que }
  let u := t.mapEngine g.clu fun e =>
    (e.tiles.filter fun x => x.gid == g.id && x.regions.any inRegion).foldl (fun e x => e.dropTile x.p)
      { e with cmds := e.cmds.filter fun c => c.gid != g.id }
  let q := g.firstRestart
  let plane (f : Restart → Plane) (d : Plane) : Plane := { ((q.map f).getD d) with busy := false }
  let h (x : Group) : Group :=
    let y := (s.copies.filter mine).foldl (fun y c => y.dropTag c.tag) x
    { y with
      others := y.others.map (fun w => w.restarted g.kern.entry)
      ranges := y.ranges.map (fun r => if inRegion r.region then { r with gone := true } else r)
      active := plane Restart.active y.active
      shadow := plane Restart.shadow y.shadow
      autoSwap := none
      rvz := [] }
  ((u.unselect.mapGroup g.id h)).reapRanges g.id

/-! ### Saving (R30, R336, R337, R374, R375) -/

/-- R26, R30, R342: the trailers whose LIVE masks a warp uses: where its lanes stopped, wait or sleep, where its run is held, where it is
blocked in `rgrow`, and where lanes are blocked in `qpopw`, `xsend` or `xrecv`. -/
def State.safeTrailers (s : State) (g : Group) (w : Warp) : List Nat :=
  List.flatten [w.spAt, w.waits.map fun q => q.pc - 4, w.asleep.map fun q => q.pc - 4,
    match w.run with | some r => [r.fall - 4] | none => [],
    if w.grow.isSome then [w.growAt] else [],
    (s.blockedRuns g w.idx).map fun p => p.1.fall - 4]

/-- The vector registers that an instruction reads. -/
def readsV (i : Instr) : BitVec 96 :=
  i.info.srcs.foldl (fun m (u : Oper) =>
    match u.o with | .v r => m ||| BitVec.ofNat 96 ((2 ^ u.span - 1) * 2 ^ r.val) | _ => m) 0

/-- R30, R342: the registers of a warp that a save in safe-point mode keeps: the live ones, and what a held instruction still reads. -/
noncomputable def State.safeLive (s : State) (g : Group) (w : Warp) : BitVec 96 :=
  (w.run.toList ++ (s.blockedRuns g w.idx).map Prod.fst).foldl
    (fun m r => m ||| match s.nextOf g r with | some i => readsV i | none => 0) (s.liveAll g.kern (s.safeTrailers g w))
/-- R30, R210, R252, R342: a warp as it is saved in safe-point mode. -/
noncomputable def State.safeWarp (s : State) (g : Group) (f : Nat) (w : Warp) : Warp :=
  { s.saveWarp g (w.loseDead f (s.safeLive g w)) with stopped := 0, spAt := [], yielding := none }

/-- Warps one after another, each with free values of its own. -/
noncomputable def State.safeWarps (s : State) (g : Group) : List Warp :=
  ((g.others.zip (List.range g.others.length)).map fun p => s.safeWarp g (s.free + 64 * 96 * p.2) p.1)

/-- R83: the marks of places move. -/
def State.movePlaces (s : State) (f : Nat → Nat) : State :=
  let seen (p : Party) : Party := match p with | .place k => .place (f k) | q => q
  let acc (a : Acc) : Acc := { a with seen := a.seen.map seen }
  { s with pend := s.pend.map fun (o : MemOp) => { o with accs := o.accs.map acc } }
/-- Where the marks of a saved group's `shr` and `priv` stand. -/
def Group.away (g : Group) : List (Nat × Nat) :=
  (g.kept.zip (List.range 2)).map fun p => (2 ^ 80 + 2 ^ 40 * g.id + 2 ^ 32 * p.2, p.1.2)
/-- The extents of a group's `shr` and `priv`, as places. -/
def Group.extent (g : Group) : List (Nat × Nat) := g.kept.map fun e => (g.poolAt e.1, e.2)

/-- R336: the trailer that a pre-empted task's frame names: that of the first safe point its warps use; none in discard mode. -/
def State.frameTrailer (s : State) (g : Group) : Nat :=
  if g.discards then 0xFFFFFFFF
  else ((g.others.flatMap (s.safeTrailers g)).filter (s.isSafe g.kern)).headD 0xFFFFFFFF

/-! ### The bytes of a context area (R375, log 88) -/

/-- R115: a range's record. -/
def Range.bytes (r : Range) : List Byte :=
  leBytes 4 r.base ++ leBytes 4 r.len ++ leBytes 4 (r.fmt * 2 ^ 24 + r.blk * 2 ^ 16 + r.layout * 2 ^ 8) ++ leBytes 4 r.soff
    ++ leBytes 4 r.rowb ++ leBytes 4 r.srowb ++ leBytes 8 0
/-- R375: a held tile's elements, then its row flags. -/
def tileBytes (d : List (Nat × Word) × List (Nat × Nat)) : List Byte :=
  (List.range 32768).flatMap (fun i => leBytes 4 (getKey d.1 i 0).toNat) ++ (List.range 64).flatMap fun r => leBytes 1 (getKey d.2 r 0)
/-- R375: the head of a context area. -/
def Group.areaHead (g : Group) (trailer : Nat) : List Byte :=
  let mask (l : List Nat) : Nat := (l.foldl (fun m h => m ||| laneBit h) (0 : LaneMask)).toNat
  leBytes 8 g.task.toNat ++ leBytes 8 0 ++ leBytes 4 3 ++ leBytes 4 g.helpd ++ leBytes 4 trailer ++ leBytes 4 0
    ++ leBytes 32 g.ctb.toNat ++ (List.range 64).flatMap (fun t => leBytes 1 (getKey g.tagCnt t 0))
    ++ leBytes 4 (mask (g.savedTiles.map fun x => x.1.t)) ++ leBytes 4 (mask ((g.ranges.filter fun r => !r.gone).map Range.h))
    ++ Plane.bytes g.active ++ Plane.bytes g.shadow ++ leBytes 104 0
/-- Bytes of a context area, one run after another from an offset. -/
def State.wrArea (s : State) (g : Group) (off : Nat) (l : List (List Byte)) : State × Nat :=
  l.foldl (fun q b => (q.1.wrs ((places (areaKey g.part g.id q.2) b.length).zip b), q.2 + b.length)) (s, off)
/-- R375: a context area as the save of a group fills it; the frame of a task's group has the warps, `shr` and `priv`. -/
def State.fillArea (s : State) (g : Group) (live : Nat → BitVec 96) (trailer : Nat) : State :=
  let t := (s.wrArea g 0 [g.areaHead trailer]).1
  let data := g.kept.map fun e => (places (g.poolAt e.1) e.2).map fun k => readByte g.savedShr k
  let u := if g.frame.isSome then t else (((g.blocks live).foldl (fun t p => (t.wrArea g p.1 [p.2]).1) t).wrArea g g.imageAt data).1
  (u.wrArea g (g.imageAt + g.keptBytes) ((g.savedTiles.map fun x => tileBytes x.2)
    ++ [(places (obKey g.clu g.win.1) g.win.2).map fun k => readByte g.savedOb k] ++ g.held.map Range.bytes)).1

/-- R374, R375: a group leaves its core; its context is kept in its context area, or in its task's frame, whose BELOW
is 0 also where the task was adopted (log 129). -/
noncomputable def State.saveGroup (s0 : State) (gid : Nat) : State :=
  match s0.unselect.groups.find? fun g => g.id == gid with
  | none => s0
  | some g0 =>
    let s := (if g0.discards then s0.unselect.discard g0 else s0.unselect).withdrawAll gid
    match s.groups.find? fun g => g.id == gid with
    | none => s
    | some g =>
      let e := s.engine g.clu
      let tiles := (e.tilesOf gid).map fun x => (x, e.tileRows x.p)
      let ws := if g.discards then g.others else s.safeWarps g
      let h (x : Group) : Group :=
        { x with stand := .saved, others := ws, rvz := [], savedShr := s.shrImage g, savedOb := s.obImage g, savedTiles := tiles }
      let t := (((s.leaveQueues gid).movePlaces (shiftCell g.extent g.away)).mapGroup gid h).mapEngine g.clu fun e =>
        (e.tilesOf gid).foldl (fun e x => e.dropTile x.p) e
      let live (k : Nat) : BitVec 96 :=
        match g.others.find? fun w => w.idx == k with
        | some w => if g.discards then BitVec.allOnes 96 else s.safeLive g w
        | none => 0
      let a := match t.group? gid with | some x => t.fillArea x live (s.frameTrailer g) | none => t
      let u := match g.frame, t.group? gid with
        | some off, some x =>
          let v := a.mapFrame g.part g.chip off fun f => { f with kind := 3, helpd := g.helpd, trailer := s.frameTrailer g }
          match v.frame? g.part g.chip off with | some f => v.fillFrame f x live | none => v
        | _, _ => a
      let u := match t.group? gid with | some x => u.eccSaved x | none => u
      (u.spend (64 * 96 * g.others.length)).finishSwitch g.chip g.part

/-- R30, R32, R374. -/
noncomputable def execPreemptStop (gid : Nat) (s : State) : Host.Outcome State Fault Refusal :=
  .next (match s.group? gid with
    | some g => if s.canStop g then s.saveGroup gid else s
    | none => s)

/-- R27: every warp of a core is blocked in `rgrow`, and the pool cannot meet the request that is next to be granted: that of the
oldest group, and of its warps the lowest (log 105). -/
def State.growDead (s : State) (chip core : Nat) : Bool :=
  let ws := (s.onCore chip core).flatMap Group.others
  !ws.isEmpty && ws.all (fun w => w.grow.isSome && w.run.isNone)
  && match (s.growers chip core).foldl
      (fun (b : Option (Nat × Nat × Nat × Nat)) q =>
        match b with
        | some c => if q.1 < c.1 || (q.1 == c.1 && q.2.2.1 < c.2.2.1) then some q else some c
        | none => some q) none with
    | some q => !s.canGrow chip core q.2.1 q.2.2.1 q.2.2.2
    | none => false

/-- R27: the youngest group that waits is pre-empted, in its own mode. -/
noncomputable def execRgrowDeadlockPreempt (chip core : Nat) (s : State) : Host.Outcome State Fault Refusal :=
  .next (if !s.growDead chip core then s
    else
      match (s.onCore chip core).foldl
          (fun (b : Option Group) g =>
            if g.sys || g.others.all fun w => w.grow.isNone then b
            else match b with | some c => if c.age < g.age then some g else some c | none => some g) none with
      | none => s
      | some g =>
        let t := s.mapGroup g.id Group.stop
        match t.group? g.id with
        | some x => if t.canStop x then t.saveGroup g.id else t
        | none => t)

/-! ### Resuming (R6, R26, R32, R374, R375) -/

/-- An offset of the pool moves with its extent. -/
def shiftOff (old new : List (Nat × Nat)) (a : Nat) : Nat :=
  match (old.zip new).find? fun p => p.1.1 ≤ a && a < p.1.1 + p.1.2 with
  | some p => a - p.1.1 + p.2.1
  | none => a

/-- The base of a segment behind which an endpoint lies moves with its extent. -/
def shiftBase (old new : List (Nat × Nat)) (a : Nat) : Nat :=
  match (old.zip new).find? fun p => p.1.1 ≤ a && a ≤ p.1.1 + p.1.2 with
  | some p => a - p.1.1 + p.2.1
  | none => a

/-- R374: a copy's endpoints and barrier move with the group. -/
def End.moved (ro rn : List (Nat × Nat)) (wo wn : Nat × Nat) (e : End) : End :=
  match e with
  | .shr b o => .shr (shiftBase ro rn b) o
  | .ob b r k => .ob (shiftBase [wo] [wn] b) r k
  | .obs b r k => .obs (shiftBase [wo] [wn] b) r k
  | e => e
def CopyKind.moved (f : End → End) (k : CopyKind) : CopyKind :=
  match k with
  | .linear a b n => .linear (f a) (f b) n
  | .tile a b d => .tile (f a) (f b) d
  | .gather l b n => .gather (l.map f) (f b) n
  | .scatter a l n => .scatter (f a) (l.map f) n
def BarRef.moved (ro rn : List (Nat × Nat)) (b : BarRef) : BarRef :=
  match b with | .shr p => .shr (shiftOff ro rn p) | b => b

/-- R118, R375: a group's planes are to be loaded again, from its window in the engine where it stands now. -/
def State.movePlanes (s : State) (gid old new : Nat) (wo wn : Nat × Nat) : State :=
  let ds := ((s.engine old).planes.filter fun d => d.gid == gid).map fun (d : PlaneData) =>
    { d with range := { d.range with base := shiftBase [wo] [wn] d.range.base }, lost := true, fresh := [] }
  (s.mapEngine old fun e => { e with planes := e.planes.filter fun d => d.gid != gid }).mapEngine new fun e =>
    { e with planes := ds ++ e.planes }
/-- R63, R375: a group stands on a core again, as the youngest there; the time of its copies runs on that core's clock. -/
def State.putBack (s : State) (g : Group) (core : Nat) (seat : Seat) : State :=
  let n : Group := { g with core := core, room := seat.room, win := seat.win }
  let old := g.extent
  let new := n.extent
  let wo := (obKey g.clu g.win.1, g.win.2)
  let wn := (obKey n.clu n.win.1, n.win.2)
  let t := ((((s.movePlaces (shiftCell g.away new)).putImage (s.imageBytes g) old new).putImage (s.windowBytes g) [wo] [wn]).eccCopy fun k =>
      (g.savedBack k).map (shiftCell (wo :: old) (wn :: new))).stage g.chip core g.kern seat.room
  let area (off : Nat) := areaKey g.part g.id off
  let fix (w : Warp) : Warp :=
    let v := w.rebase g.room seat.room g.win seat.win
    { v with holds := v.holds.map fun h => if h.sp = 1 then { h with obj := shiftCell old new h.obj } else h }
  let m : Group :=
    { n with
      stand := .resident, others := g.others.map fix, age := t.nextId, savedShr := [], savedOb := [], savedTiles := []
      ctb := s.rdD (area 0x20), tagCnt := (List.range 64).map fun k => (k, (s.rd (area (0x40 + k))).toNat) }
  let u : State :=
    { t with
      groups := t.groups.map fun x => if x.id = g.id then m else x
      nextId := t.nextId + 1
      copies := t.copies.map fun c =>
        if c.gid = g.id then
          { c with core := core, issued := if c.core = core then c.issued else s.cyc (16 * g.chip + core)
                   spent := if c.core = core then c.spent else c.spent + (s.cyc (16 * g.chip + c.core) - c.issued)
                   kind := c.kind.moved (End.moved g.room seat.room g.win seat.win)
                   bar := c.bar.map (BarRef.moved g.room seat.room) }
        else c }
  let v := (u.movePlanes g.id g.clu n.clu g.win seat.win).mapEngine n.clu fun e => e.putTiles g.savedTiles
  match g.frame with
  | some off => v.emptyFrame g.part g.chip off
  | none => v

/-- R349: MAXG of the slot that a saved group serves leaves room for it. -/
def State.roomToResume (s : State) (g : Group) : Bool :=
  !g.serves || match s.slot? g.part g.vf g.slot with
    | some x => s.slotRoom g.chip x g.part g.vf
    | none => true

/-- R6, R349, R374. -/
def execGroupResume (gid core : Nat) (s : State) : Host.Outcome State Fault Refusal :=
  .next (match s.group? gid with
    | none => s
    | some g =>
      if !g.isSaved || !s.partCore g.part g.chip core || !s.roomToResume g then s
      else match s.unselect.takeSlice g.chip g.part g.vf with
        | none => s
        | some t =>
          match t.seat? g.chip core g.shape g.slots g.regs g.savedTiles.length with
          | some seat => t.putBack g core seat
          | none => s)

end Sys2Proof.Machine
end

