-- ==== Sys2Proof/Machine/Control.lean ====
section
/-! DEFINITION. Control flow: branches and calls, majors 0x30 to 0x35, `wait`, clause headers and trailers, parked subgroups,
sleeping and yielding lanes (R7 to R9, R14 to R24, R29 to R31, R178, R186 to R194, R200 to R211, R332). -/

namespace Sys2Proof.Machine

/-! ### Branches and calls (R200 to R203) -/

/-- R201: the target of a B word: twice the displacement behind the word's own address, in 32 bits. -/
def branchTarget (pc : Nat) (disp : BitVec 18) : Nat := (BitVec.ofNat 32 pc + (disp.signExtend 32) * 2).toNat

/-- R201: the lanes that take the target leave for it, the others fall through. -/
def State.branch (s : State) (r : Run) (disp : BitVec 18) (taken : LaneMask) : State :=
  s.setExit (.goto [⟨branchTarget r.pc disp, r.lanes &&& taken⟩, ⟨r.fall, r.lanes &&& ~~~ taken⟩])

/-- R201. -/
noncomputable def execJmp (disp : BitVec 18) (s : State) : Host.Outcome State Fault Refusal :=
  issue (.jmp disp) s fun r => .ok (s.branch r disp r.lanes)
/-- R201. -/
noncomputable def execBz (c : Opd) (disp : BitVec 18) (s : State) : Host.Outcome State Fault Refusal :=
  issue (.bz c disp) s fun r => .ok (s.branch r disp (keepLanes r.lanes fun i => s.w.src c i == 0))
/-- R201. -/
noncomputable def execBnz (c : Opd) (disp : BitVec 18) (s : State) : Host.Outcome State Fault Refusal :=
  issue (.bnz c disp) s fun r => .ok (s.branch r disp (keepLanes r.lanes fun i => s.w.src c i != 0))
/-- R201. -/
noncomputable def execBm (k : Fin 12) (disp : BitVec 18) (s : State) : Host.Outcome State Fault Refusal :=
  issue (.bm k disp) s fun r => .ok (s.branch r disp (s.w.getM k.val))
/-- R201, R202. -/
noncomputable def execCall (disp : BitVec 18) (s : State) : Host.Outcome State Fault Refusal :=
  issue (.call disp) s fun r =>
    .ok ((s.setW (s.w.putV 95 r.lanes fun _ => BitVec.ofNat 32 r.fall)).branch r disp r.lanes)

/-- R206: each lane leaves for its own address. -/
def State.leap (s : State) (r : Run) (f : Nat → Word) : State :=
  s.setExit (.goto ((lanesOf r.lanes).map fun i => ⟨(f i).toNat, laneBit i⟩))

/-- R206. -/
noncomputable def execJmpr (a : Opd) (s : State) : Host.Outcome State Fault Refusal :=
  issue (.jmpr a) s fun r => .ok (s.leap r (s.w.src a))
/-- R206. -/
noncomputable def execRet (s : State) : Host.Outcome State Fault Refusal :=
  issue .ret s fun r => .ok (s.leap r (s.w.getV 95))

/-! ### Other control (R205, R207 to R211) -/

/-- R138, R207. -/
noncomputable def execEndLanes (s : State) : Host.Outcome State Fault Refusal :=
  issue .endLanes s fun r => if s.endsHolding r then Act.trapAt r 5 else .ok (s.setExit .retire)
/-- R208. -/
noncomputable def execNop (s : State) : Host.Outcome State Fault Refusal := issue .nop s fun _ => .ok s
/-- R179, R208. -/
def execNop16 (s : State) : Host.Outcome State Fault Refusal := issue .nop16 s fun _ => .ok s
/-- R209. -/
noncomputable def execYield (s : State) : Host.Outcome State Fault Refusal := issue .yield s fun _ => .ok (s.setExit .yield)
/-- R210: the greatest operand of the run, bounded; 0 acts as `yield`. -/
noncomputable def execSleep (a : Opd) (s : State) : Host.Outcome State Fault Refusal :=
  issue (.sleep a) s fun r =>
    let n := min (((lanesOf r.lanes).map fun i => (s.w.src a i).toNat).foldl max 0) (2 ^ 24 - 1)
    .ok (s.setExit (if n = 0 then .yield else .sleep n))
/-- R172, R211. -/
noncomputable def execTrap (n : Fin 64) (s : State) : Host.Outcome State Fault Refusal :=
  issue (.trap n) s fun r => if s.g.kern.trapen then .trap 0x0C r.addr (BitVec.ofNat 32 n.val) else .ok s
/-- R172, R211. -/
noncomputable def execBrk (n : Fin 64) (s : State) : Host.Outcome State Fault Refusal :=
  issue (.brk n) s fun r => if s.g.kern.brken then .trap 0x0B r.addr (BitVec.ofNat 32 n.val) else .ok s
/-- R17. -/
def execWait (k : Fin 12) (s : State) : Host.Outcome State Fault Refusal :=
  issue (.wait k) s fun _ => .ok (s.setExit (.wait k.val))

/-! ### The run that a warp starts next (R14, R30) -/

/-- R14, R30: the lanes at the lowest PC that have not stopped. -/
def Warp.head (w : Warp) : Option Sub :=
  w.pcs.findSome? fun e => if e.lanes &&& ~~~ w.stopped = 0 then none else some ⟨e.pc, e.lanes &&& ~~~ w.stopped⟩

/-- R178: `n` bytes at an address lie in the kernel's code. -/
def Kernel.holds (k : Kernel) (pc n : Nat) : Bool := k.entry ≤ pc && pc + n ≤ k.entry + k.codesz

/-- R178, R187, R204: the cause that an address raises before any header is read there: a 16-bit word starts no clause. -/
def State.pcTrap (s : State) (k : Kernel) (pc : Nat) : Option Nat :=
  if pc % 2 != 0 then some 2
  else if !k.holds pc 2 then some 5
  else if (s.rd (codeKey k.img pc)).toNat % 2 = 0 then some 2
  else if k.holds pc 4 then none else some 5

/-- R187, R190, R204: the head run meets a word that starts no clause. -/
def State.badHead (s : State) (e : Sub) : State :=
  takeTrapBefore s e ((s.pcTrap s.g.kern e.pc).getD 2) (BitVec.ofNat 64 e.pc) e.pc

/-! ### What keeps a run from its clause -/

/-- R24: a copy whose first page has turned out not to be resolvable. -/
def State.lostCopy (s : State) (c : CopyCmd) : Option Lost :=
  (s.copyLost c).map fun p => ⟨c.pc, c.lanes, p.2, BitVec.ofNat 64 p.1, failValue p.2 0 p.1, none⟩

/-- The copies of lanes of the selected warp. -/
def State.myCopies (s : State) (m : LaneMask) : List CopyCmd :=
  s.copies.filter fun c => c.gid == s.g.id && c.wid == s.w.idx && c.lanes &&& m != 0

/-- The failures that lanes of the selected warp have met. -/
def State.lostOf (s : State) (m : LaneMask) : List Lost :=
  (s.mine m).filterMap (fun o => o.lost m) ++ (s.myCopies m).filterMap s.lostCopy

/-- R234: a main-memory atomic of the lanes has not reached its home yet. -/
def State.undecided (s : State) (m : LaneMask) (t : MemOp → Bool) : Bool :=
  (s.mine m).any fun o => t o && o.failed.isNone && match o.kind with | .atomic _ _ _ main _ => main | _ => false

/-- R212: the trap of some failures, for lanes that the caller has taken from where they stood: a header, or a parked place. -/
def State.trapLost (s : State) (l : List Lost) (m : LaneMask) (stand : Nat) (park : Option Parked) : State :=
  match lowestLost l with
  | none => s
  | some x =>
    let p := s.takeOps (l.filterMap Lost.op) m
    let t := takeTrapAfter p.2 m x.pc stand p.1 x.cause x.addr x.value
    if park.isNone then t else t.setW { t.w with trapped := t.w.trapped.map fun (y : Trapped) => { y with park := park } }

/-- R58, R234: the head run's lanes trap for what has failed; none when nothing has. -/
def State.headLost (s : State) (e : Sub) : Option State :=
  let l := firstLost (s.lostOf e.lanes)
  let m := lostLanes l &&& e.lanes
  if m = 0 then none
  else if s.g.trapHeld || s.undecided e.lanes fun o => l.any fun x => x.pc == o.pc then some s
  else some ((s.setW { s.w with pcs := removeSub s.w.pcs e.pc m }).trapLost l m e.pc none)

/-- R23: an access of the lanes has been deferred and is not complete. -/
def State.awaits (s : State) (m : LaneMask) : Bool :=
  ((s.mine m).any fun o => o.deferred && o.failed.isNone) || (s.myCopies m).any s.copyAway

/-! ### The checks of a clause (R190) -/

/-- What the check of a clause from its first instruction finds: the trailer's address with its used slots and the
instructions, or a cause with the failing word's address, and the record's PC where R186 names it. -/
inductive Scan where
  | ok (trailer : Nat) (slots : List (Opd × Bool)) (body : List Instr)
  | bad (cause addr : Nat) (pc : Option Nat)

/-- R186, R190: an E word that takes an operand word is one that some operand word completes. -/
noncomputable def exFits (w : Nat) : Bool :=
  [1, 1 + 96 * 2 ^ 7, 1 + 96 * 2 ^ 7 + 96 * 2 ^ 14].any fun x => match decode32 w x with | some i => i.wf | none => false

/-- R178, R186, R190: the instruction at an address with its length, or the failure of its words. -/
noncomputable def State.word (s : State) (k : Kernel) (pc : Nat) : Sum (Instr × Nat) Scan :=
  if !k.holds pc 2 then .inr (.bad 5 pc none)
  else
    let w := leNat (s.codeAt k.img pc 4)
    if w % 2 = 1 && !k.holds pc 4 then .inr (.bad 5 pc none)
    else if w % 2 = 1 && needsEx w then
      let x := leNat (s.codeAt k.img (pc + 4) 4)
      if !exFits w then .inr (.bad 1 pc none)
      else if !k.holds (pc + 4) 2 then .inr (.bad 5 (pc + 4) none)
      else if x % 2 = 0 then .inr (.bad 1 (pc + 4) (some pc))
      else if !k.holds (pc + 4) 4 then .inr (.bad 5 (pc + 4) none)
      else if x % 128 != 1 then .inr (.bad 1 (pc + 4) (some pc))
      else match decode32 w x with
        | some i => if i.wf then .inl (i, 8) else .inr (.bad 1 (pc + 4) none)
        | none => .inr (.bad 1 (pc + 4) none)
    else match decodeAt (s.codeAt k.img pc maxInstrBytes) with
      | none => .inr (.bad 1 pc none)
      | some (.clauseHeader _ _ _ _, _) => .inr (.bad 2 pc none)
      | some (.clauseTrailer _ _ _ _ _, _) => .inr (.bad 2 pc none)
      | some i => if i.1.wf then .inl i else .inr (.bad 1 pc none)

/-- R189, R190: the word where the trailer must stand; one that is no trailer, an EX word or one that does not decode too, is cause 0x02
(log 54). -/
noncomputable def State.scanTrailer (s : State) (k : Kernel) (fa fb pc : Nat) (body : List Instr) : Scan :=
  if !k.holds pc 2 || ((s.rd (codeKey k.img pc)).toNat % 2 = 1 && !k.holds pc 4) then .bad 5 pc none
  else match decodeAt (s.codeAt k.img pc maxInstrBytes) with
    | some (.clauseTrailer _ fl d3 d2 d1, _) =>
      if !trailerRegsOk d1 d2 d3 then .bad 1 pc none
      else if !trailerOk body fa fb fl d1 d2 d3 then .bad 2 pc none
      else .ok pc (trailerSlots fl d1 d2 d3) body
    | _ => .bad 2 pc none

/-- R190: `n` instructions from an address on, then the trailer. -/
noncomputable def State.scan (s : State) (k : Kernel) (fa fb : Nat) : Nat → Nat → List Instr → Scan
  | 0, pc, body => s.scanTrailer k fa fb pc body
  | n + 1, pc, body =>
    match s.word k pc with
    | .inr b => b
    | .inl (i, len) =>
      if !clauseWordOk body i (n == 0) then .bad 2 pc none else s.scan k fa fb n (pc + len) (body ++ [i])

/-- R193, R288: publishing the register adds an assignment to its flag. -/
def assigns (body : List Instr) (d : Opd) : Bool :=
  body.any fun i => i.info.dsts.any (fun u => u.o == d) &&
    (i.info.long || match i with
      | .mload _ _ _ _ => true | .mstream _ _ _ _ _ _ => true | .mzero _ _ => true | _ => false)

/-- R193: the trailer would raise a lane's count above 63. -/
def Warp.overflows (w : Warp) (m : LaneMask) (fs : List Nat) : Bool :=
  fs.any fun f => (lanesOf m).any fun i => 63 < w.flagCount f i + fs.count f

/-! ### Yielding (R209) -/

/-- R28, R32: warps of the group issue: it is resident, or on its way to a stop in safe-point mode. -/
def Group.issues (g : Group) : Bool :=
  match g.stand with | .resident => true | .stopping => !g.discards | .saved => false

/-- R191: the flags that a header waits for; none where no header stands. -/
noncomputable def State.headWait (s : State) (g : Group) (pc : Nat) : BitVec 12 :=
  match decodeAt (s.codeAt g.kern.img pc maxInstrBytes) with
  | some (.clauseHeader _ _ _ wait, _) => wait
  | _ => 0

/-- R193: a header holds its run until the assignments that its clause would add fit the counts. -/
noncomputable def State.headFull (s : State) (g : Group) (w : Warp) (e : Sub) : Bool :=
  match decodeAt (s.codeAt g.kern.img e.pc maxInstrBytes) with
  | some (.clauseHeader len fb fa _, _) =>
    match s.scan g.kern fa.val fb.val len.val (e.pc + 4) [] with
    | .ok _ slots body => w.overflows e.lanes ((slots.filter fun p => assigns body p.1).map fun p => if p.2 then fb.val else fa.val)
    | .bad _ _ _ => false
  | _ => false

/-- R209: a warp that can issue now, its own yielding aside: it is not blocked in `rgrow`, and its run is not held, or no flag or count
of its header and no deferred access holds its head (log 29). -/
noncomputable def State.canIssue0 (s : State) (g : Group) (w : Warp) : Bool :=
  let away (m : LaneMask) : Bool :=
    (s.pend.any fun o => o.gid == g.id && o.wid == w.idx && o.lanes &&& m != 0 && o.deferred && o.failed.isNone)
    || s.copies.any fun c => c.gid == g.id && c.wid == w.idx && c.lanes &&& m != 0 && s.copyAway c
  g.issues && w.grow.isNone && match w.run with
    | some r => !r.held
    | none => !w.resume.isEmpty || match w.head with
      | some e => w.flagsClear (s.headWait g e.pc) e.lanes && !s.headFull g w e && !away e.lanes
      | none => false

/-- R209: a warp that can issue now: of its own yield set no member is left that can issue and has not. `n` bounds how far one
yielding warp is followed to the next. -/
noncomputable def State.canIssueN (s : State) : Nat → Group → Warp → Bool
  | 0, g, w => s.canIssue0 g w && w.yielding.isNone
  | n + 1, g, w => s.canIssue0 g w && match w.yielding with
    | none => true
    | some y => y.until_ ≤ s.cyc (16 * g.chip + g.core) || y.set.all fun q =>
      match s.group? q.1, s.warp? q.1 q.2.1 with
      | some g', some w' => q.2.2 < w'.clauses || !s.canIssueN n g' w'
      | _, _ => true
noncomputable def State.canIssue (s : State) (g : Group) (w : Warp) : Bool := s.canIssueN 16 g w

/-- Every warp of a core, with its group. -/
def State.warpsOn (s : State) (chip core : Nat) : List (Group × Warp) :=
  (s.onCore chip core).flatMap fun g => g.others.map fun w => (g, w)

/-- R209: the other warps of the core that can issue, each with the clauses it has issued. -/
noncomputable def State.yieldSet (s : State) : List (Nat × Nat × Nat) :=
  ((s.warpsOn s.g.chip s.g.core).filter fun p => !(p.1.id == s.g.id && p.2.idx == s.w.idx) && s.canIssue p.1 p.2).map
    fun p => (p.1.id, p.2.idx, p.2.clauses)

/-- R209: a member of a yield set has issued a clause or has left the set. -/
noncomputable def State.passed (s : State) (q : Nat × Nat × Nat) : Bool :=
  match s.group? q.1, s.warp? q.1 q.2.1 with
  | some g, some w => q.2.2 < w.clauses || !s.canIssue g w
  | _, _ => true

/-- R209: the selected warp waits for its yield set. -/
noncomputable def State.yields (s : State) : Bool :=
  match s.w.yielding with
  | none => false
  | some y => s.cyc s.coreNo < y.until_ && !y.set.all s.passed

/-- R209: a member that has issued a clause or cannot issue any more leaves a warp's yield set for good. -/
noncomputable def State.prune (s : State) (w : Warp) : Warp :=
  match w.yielding with
  | none => w
  | some y => { w with yielding := some { y with set := y.set.filter fun q => !s.passed q } }
noncomputable def State.pruneAll (s : State) : State :=
  { s with
    w := s.prune s.w
    g := { s.g with others := s.g.others.map s.prune }
    groups := s.groups.map fun g => { g with others := g.others.map s.prune } }

/-- R26, R209: what keeps the core from choosing the selected warp: it is blocked in `rgrow`, or it yields. -/
noncomputable def State.notChosen (s : State) : Bool := s.w.grow.isSome || s.yields
/-- R23, R26, R209: what keeps the selected warp's head from issuing. -/
noncomputable def State.headHeld (s : State) (e : Sub) : Bool := s.notChosen || s.awaits e.lanes

/-- R209. -/
noncomputable def execYieldTimeout (gid wid : Nat) (s : State) : Host.Outcome State Fault Refusal :=
  .next (s.mapWarp gid wid fun w =>
    match w.yielding, s.group? gid with
    | some y, some g => if y.until_ ≤ s.cyc (16 * g.chip + g.core) then { w with yielding := none } else w
    | _, _ => w)

/-! ### The header -/

/-- R31, R332: the header stands at the start of a region. -/
def State.startsRegion (s : State) (k : Kernel) (pc : Nat) : Bool :=
  (List.range k.rgcnt).any fun j => s.rdN (rgKey k.img (k.rgoff + 4 * j)) 4 == pc

/-- R31, R305: the warp records its restart point, with the lanes that stand in its PC table. -/
def State.enterRegion (s : State) (pc : Nat) : State :=
  let lanes := s.w.pcs.foldl (fun m e => m ||| e.lanes) 0
  { s with
    w := { s.w with restart := some ⟨pc, lanes, s.w.m, s.g.active, s.g.shadow, [], []⟩, region := s.nextId }
    nextId := s.nextId + 1 }

/-- R14, R191: the head run enters its clause, and sees what ended the assignments it waited for (R86). -/
def State.enterClause (s : State) (e : Sub) (len fa fb : Nat) (wait : BitVec 12) (trailer : Nat) : State :=
  let t := if s.startsRegion s.g.kern e.pc then s.enterRegion e.pc else s
  let u := (List.range 12).foldl (fun u f =>
    if wait.getLsbD f then u.meetPlace (flagPlace s.g.id s.w.idx f) (s.party e.lanes) else u) t
  let run : Run :=
    { lanes := e.lanes, start := e.pc, pc := e.pc + 4, left := len, fall := trailer + 4, fa := fa, fb := fb, exit := .fall
      done := 0, faulted := 0, again := false, entry := 0 }
  u.setW { u.w with pcs := removeSub u.w.pcs e.pc e.lanes, run := some run, clauses := u.w.clauses + 1, yielding := none }

/-- R190, R191, R193: the head run meets a header of its clause. -/
noncomputable def State.startClause (s : State) (e : Sub) (len : Fin 32) (fb fa : Fin 16) (wait : BitVec 12) : State :=
  match s.pcTrap s.g.kern e.pc with
  | some _ => s.badHead e
  | none =>
    if !(Instr.clauseHeader len fb fa wait).wf then s.badHead e
    else match s.scan s.g.kern fa.val fb.val len.val (e.pc + 4) [] with
      | .bad c a pc => takeTrapBefore s e c (BitVec.ofNat 64 a) (pc.getD e.pc)
      | .ok trailer slots body =>
        let fs := (slots.filter fun p => assigns body p.1).map fun p => if p.2 then fb.val else fa.val
        if !s.w.flagsClear wait e.lanes || s.w.overflows e.lanes fs then s
        else s.enterClause e len.val fa.val fb.val wait trailer

/-- R14, R188 to R191: a header as the head run reaches it. A run that meets one inside its clause traps (R190). -/
noncomputable def execClauseHeader (len : Fin 32) (fb fa : Fin 16) (wait : BitVec 12) (s : State) :
    Host.Outcome State Fault Refusal :=
  match s.w.run with
  | some r => .next (takeTrap s r 2 r.addr 0)
  | none =>
    match s.w.head with
    | none => .next s
    | some e =>
      if s.headHeld e then .next s
      else match s.headLost e with
        | some t => .next t
        | none => .next (s.startClause e len fb fa wait)

/-! ### The trailer -/

/-- R193: the last instruction of the run's clause whose destination the slot publishes, by its address (log 98). -/
noncomputable def State.lastFor (s : State) (r : Run) (d : Opd) : Nat :=
  (((s.clauseWords 24 (r.start + 4)).filter fun p => p.1 < r.fall && assigns [p.2] d).map Prod.fst).foldl max 0

/-- R193: one assignment for each lane begins with a used slot: that of the operation of this clause whose destination the slot
publishes, while it or its result is on its way; of several instructions that write it (command numbers), the one issued last
(log 98). -/
noncomputable def State.publish (s : State) (r : Run) (f : Nat) (d : Opd) : State :=
  let pc := s.lastFor r d
  let hit (gid wid at_ reg : Nat) (fl : Option Nat) : Bool :=
    gid == s.g.id && wid == s.w.idx && fl.isNone && at_ == pc && reg == d.toNat
  let hitO (o : MemOp) : Bool := hit o.gid o.wid o.pc o.reg o.flag
  let hitC (c : MatCmd) : Bool := hit c.gid c.wid c.pc c.reg c.flag
  let hitL (l : Lap) : Bool := hit l.gid l.wid l.pc l.reg l.flag
  let hitR (l : Landing) : Bool := hit l.gid l.wid l.pc l.reg l.flag
  let cmds := (s.engine s.g.clu).cmds
  let lanes := (s.pend.filter hitO).flatMap (fun o => lanesOf o.lanes) ++ (cmds.filter hitC).flatMap (fun c => lanesOf c.lanes)
    ++ (s.laps.filter hitL).flatMap (fun l => lanesOf l.lanes) ++ (s.landing.filter hitR).flatMap fun l => lanesOf l.lanes
  let hitE (e : EndedCmd) : Bool := hit e.gid e.wid e.pc e.reg none
  let seen := (s.ended.filter hitE).foldl (fun t e => t.pass (.cmd e.id) (.place (flagPlace e.gid e.wid f))) s
  let t : State := { seen with
    pend := seen.pend.map (fun o => if hitO o then { o with flag := some f } else o)
    laps := s.laps.map (fun l => if hitL l then { l with flag := some f } else l)
    landing := s.landing.map (fun l => if hitR l then { l with flag := some f } else l)
    w := s.w.addFlag f lanes }
  if cmds.any hitC then
    t.mapEngine s.g.clu fun e => { e with cmds := e.cmds.map fun c => if hitC c then { c with flag := some f } else c }
  else t

/-- R23, R212: the parked subgroups of a warp, one that has trapped in its place included. -/
def Warp.parkedCount (w : Warp) : Nat := w.parked.length + if (w.trapped.bind Trapped.park).isSome then 1 else 0
/-- R20, R23: faulting lanes with one next PC leave as a parked subgroup while there is room. -/
def Warp.park (w : Warp) (pc : Nat) (m : LaneMask) (next : Exit) (blocked : LaneMask) : Warp :=
  if m = 0 || 4 ≤ w.parkedCount then w else { w with parked := w.parked ++ [⟨pc, m, next, blocked &&& m, none⟩] }

/-- The lanes that a warp's last parked subgroup has taken from a set, if it was formed just now. -/
def Warp.taken (old new : Warp) (m : LaneMask) : LaneMask := if old.parked.length = new.parked.length then 0 else m

/-- R15, R20, R23: lanes re-enter the table by their next PCs; faulting lanes leave as parked subgroups while there is
room, in ascending order of next PC. -/
def Warp.reenter (w : Warp) (faulted : LaneMask) (subs : List Sub) : Warp :=
  (subs.foldl (fun t e => insertSub t e.pc e.lanes) []).foldl (fun v (e : Sub) =>
    let u := v.park e.pc (e.lanes &&& faulted) .fall 0
    u.returnAt e.pc (e.lanes &&& ~~~ v.taken u (e.lanes &&& faulted))) w

/-- R29, R30: at a safe point the run's lanes stop, when a stop is pending. -/
def State.stopAt (s : State) (r : Run) (sp : Bool) : State :=
  let pending := match s.g.stand with | .stopping => !s.g.discards | _ => false
  if sp && pending then
    s.setW { s.w with stopped := s.w.stopped ||| (r.lanes &&& s.w.live), spAt := (r.fall - 4) :: s.w.spAt }
  else s

/-- R17, R83: lanes enter the wait set of a mask, which may release it. -/
def State.enterWait (s : State) (k pc : Nat) (m : LaneMask) : State :=
  if m = 0 then s else
  let w := { s.w with waits := s.w.waits ++ [⟨k, pc, m⟩] }
  (s.setW w).putMasks (w.settle k)

/-- R210: lanes fall asleep until a core cycle. -/
def Warp.lieDown (w : Warp) (pc : Nat) (m : LaneMask) (wake : Nat) : Warp :=
  if m = 0 then w else { w with asleep := w.asleep ++ [⟨pc, m, wake⟩] }

/-- R15, R17, R20, R177, R207, R209, R210: the run leaves its clause, its faulting lanes first, and the x registers lose their values.
None while the task unit cannot finish. -/
noncomputable def State.leaveClause (s : State) (r : Run) : Option State :=
  let t := (s.setW { s.w with run := none, x := freeRows s.free 8 }).spend 512
  let f := r.lanes &&& r.faulted
  match r.exit with
  | .fall => some (t.setW (t.w.reenter r.faulted [⟨r.fall, r.lanes⟩]))
  | .goto ts => some (t.setW (t.w.reenter r.faulted ts))
  | .retire => t.retireSel r.lanes
  | .wait k =>
    let u := t.w.park r.fall f (.wait k) 0
    some ((t.setW u).enterWait k r.fall (r.lanes &&& ~~~ t.w.taken u f))
  | .sleep n =>
    let wake := t.cyc t.coreNo + n
    let u := t.w.park r.fall f (.sleep wake) 0
    some (t.setW (u.lieDown r.fall (r.lanes &&& ~~~ t.w.taken u f) wake))
  | .yield =>
    let w := t.w.reenter r.faulted [⟨r.fall, r.lanes⟩]
    some (t.setW { w with yielding := some (Yielding.mk t.yieldSet (t.cyc t.coreNo + 64)) })
  | .block m =>
    let u := t.w.park r.fall f .fall m
    some (t.setW (u.returnAt r.fall (r.lanes &&& ~~~ m &&& ~~~ t.w.taken u f)))

/-- R15, R189, R193: the trailer. A run that meets one before its length is reached traps (R190), and so does one whose lanes would
complete a task that still holds something (R138, log 108). -/
noncomputable def execClauseTrailer (sp : Bool) (fl : Fin 8) (d3 d2 d1 : Opd) (s : State) :
    Host.Outcome State Fault Refusal :=
  match s.w.run with
  | none =>
    match s.w.head with
    | none => .next s
    | some e => .next (if s.headHeld e then s else s.badHead e)
  | some r =>
    if r.left != 0 then .next (takeTrap s r 2 r.addr 0)
    else if r.exit == .retire && s.endsHolding r then .next (takeTrap s r 5 r.addr 0)
    else
      let t := (trailerSlots fl d1 d2 d3).foldl (fun t p => t.publish r (if p.2 then r.fb else r.fa) p.1) s
      let left := t.ended.filter fun e => !(e.gid == s.g.id && e.wid == s.w.idx && r.start ≤ e.pc && e.pc < r.fall)
      .next ((({ t with ended := left }.stopAt r sp).leaveClause r).getD s)

/-! ### Parked subgroups (R20 to R24) -/

/-- Changes or removes an entry of the selected warp's parked subgroups. -/
def Warp.setParked (w : Warp) (k : Nat) (m : LaneMask) : Warp :=
  { w with parked := if m = 0 then w.parked.eraseIdx k else w.parked.modify k fun (e : Parked) => { e with lanes := m } }

/-- R22: every operation of a parked subgroup of a warp has completed. -/
def State.backOf (s : State) (gid : Nat) (w : Warp) (e : Parked) : Bool :=
  w.flagsClear (BitVec.allOnes 12) e.lanes
  && !s.pend.any (fun o => o.gid == gid && o.wid == w.idx && o.lanes &&& e.lanes != 0)
  && !s.copies.any fun c => c.gid == gid && c.wid == w.idx && c.lanes &&& e.lanes != 0 && (s.copyAway c || (s.lostCopy c).isSome)

/-- R22: the cycle at which a subgroup's operations were found complete is kept with it. -/
def State.noteWarp (s : State) (g : Group) (w : Warp) : Warp :=
  { w with parked := w.parked.map fun e =>
      if e.back.isNone && s.backOf g.id w e then { e with back := some (s.cyc (16 * g.chip + g.core)) } else e }
def State.noteBack (s : State) : State :=
  { s with
    w := s.noteWarp s.g s.w
    g := { s.g with others := s.g.others.map (s.noteWarp s.g) }
    groups := s.groups.map fun g => { g with others := g.others.map (s.noteWarp g) } }

/-- R24: the trap of a parked subgroup: cause 0x04 takes all its lanes, with the lowest faulting address among them; another
cause takes those that failed. -/
def State.parkedTrap (s : State) (k : Nat) (e : Parked) : State :=
  let all := s.lostOf e.lanes
  let first := firstLost all
  let fatal := first.any fun x => x.cause == 4
  let l := if fatal then all.filter fun x => x.cause == 4 else first
  let m := if fatal then e.lanes else lostLanes l &&& e.lanes
  if s.g.trapHeld || s.undecided e.lanes (fun _ => true) then s
  else (s.setW (s.w.setParked k (e.lanes &&& ~~~ m))).trapLost l m e.pc (some { e with lanes := m, blocked := e.blocked &&& m })

/-- R22: of two subgroups that are complete, the first is the one to return before the other. -/
def Parked.before (e q : Parked) : Bool :=
  match e.back, q.back with
  | some a, some b => a < b || (a == b && e.pc ≤ q.pc)
  | some _, none => true
  | none, _ => false

/-- R20, R22: a subgroup leaves its parked place for where the end of its clause sends it. -/
def State.unpark (s : State) (k : Nat) (e : Parked) : State :=
  let t := s.setW (s.w.setParked k 0)
  let m := e.lanes &&& ~~~ e.blocked
  match e.next with
  | .wait j => t.enterWait j e.pc m
  | .sleep n => t.setW (t.w.lieDown e.pc m n)
  | _ => t.setW (t.w.returnAt e.pc m)

/-- R22: subgroups return in the order in which their operations have completed. -/
def State.parkedReturn (s : State) (k : Nat) : State :=
  match s.w.parked[k]? with
  | none => s
  | some e =>
    if !(s.lostOf e.lanes).isEmpty then s.parkedTrap k e
    else if s.w.parked.all e.before then s.unpark k e
    else s

/-- R22, R24. -/
def execParkedSubgroupReturn (gid wid k : Nat) (s : State) : Host.Outcome State Fault Refusal :=
  .next (if s.isSel gid wid then s.parkedReturn k else s.on gid wid fun t => if t.isSel gid wid then t.parkedReturn k else t)

/-- R21: the lanes of the head run that wait, on a flag of its header, for fabric loads of at least LATE cycles ago. -/
noncomputable def State.lateLanes (s : State) (e : Sub) : LaneMask :=
  let wait := s.headWait s.g e.pc
  let hit (o : MemOp) : Bool :=
    o.isLoad && o.fab.isSome && o.failed.isNone && o.issued + s.w.late.toNat ≤ s.cyc s.coreNo
      && match o.flag with | some f => wait.getLsbD f | none => false
  ((s.mine e.lanes).filter hit).foldl (fun m o => m ||| o.lanes) 0 &&& e.lanes

/-- R21, R23. -/
noncomputable def State.splitLate (s : State) : State :=
  match s.w.head with
  | none => s
  | some e =>
    let m := s.lateLanes e
    if m = 0 || s.w.late = 0 || s.w.run.isSome || 4 ≤ s.w.parkedCount || !s.g.issues then s
    else s.setW { s.w with pcs := removeSub s.w.pcs e.pc m, parked := s.w.parked ++ [⟨e.pc, m, .fall, 0, none⟩] }

/-- R21. -/
noncomputable def execLateSplit (gid wid : Nat) (s : State) : Host.Outcome State Fault Refusal :=
  .next (if s.isSel gid wid then s.splitLate else s.on gid wid fun t => if t.isSel gid wid then t.splitLate else t)

/-! ### Sleeping lanes (R210) -/

/-- R210: lanes whose time has come return. -/
def Warp.wake (w : Warp) (now k : Nat) : Warp :=
  match w.asleep[k]? with
  | none => w
  | some e => if e.wake ≤ now then { w with asleep := w.asleep.eraseIdx k }.returnAt e.pc e.lanes else w

/-- R210. -/
def execSleepExpiry (gid wid k : Nat) (s : State) : Host.Outcome State Fault Refusal :=
  .next (match s.group? gid with
    | some g => s.mapWarp gid wid fun w => w.wake (s.cyc (16 * g.chip + g.core)) k
    | none => s)

end Sys2Proof.Machine
end

