-- ==== Sys2Proof/Machine/Launch.lean ====
section
/-! DEFINITION. Launch queues, launch records and the dispatch of groups (R10, R11, R28, R329, R347 to R356). -/

namespace Sys2Proof.Machine

/-! ### The module's own accesses to a virtual function's main memory -/

/-- The places of `n` bytes from a main-memory address; none where one of them cannot be reached. -/
def State.vaRun (s : State) (p v a n : Nat) (wr : Bool) : Option (List Nat) := s.vaPlaces p v wr (places a n)
/-- A number that the module reads from a virtual function's main memory. -/
def State.vaRead (s : State) (p v a n : Nat) : Option Nat := (s.vaRun p v a n false).map (readLE s.mem)
/-- R366: the module's own access meets a page that is migrating, and waits for the new mapping. -/
def State.vaAway (s : State) (p v a n : Nat) (wr : Bool) : Bool := s.vaWaits p v wr (places a n)
/-- The module writes to a virtual function's main memory; a write that cannot be made is dropped (log 30). Where a page is migrating
the step that writes waits (`vaAway`). -/
def State.vaWrite (s : State) (p v a n x : Nat) : State :=
  match s.vaRun p v a n true with
  | some ks => if (s.partial? ks).isSome then s else s.wrs (ks.zip (leBytes n x))
  | none => s

/-! ### Kernel headers (R329) -/

/-- The little-endian field of `n` bytes at an offset of some bytes. -/
def field (bs : List Byte) (off n : Nat) : Nat := leNat ((bs.drop off).take n)

/-- R10, R329, R330: what the loader refuses in a header of an image; the grid's extents are the launch's. -/
def headerOk (bs : List Byte) (m : Image) : Bool :=
  let fl := field bs 42 1
  field bs 32 1 == 6 && ((List.range 6).map fun j => field bs (32 + j) 1).sum ≤ 64 &&
  (!fl.testBit 2 || field bs 44 4 == frameSize (2 ^ field bs 33 1) (field bs 8 4) (field bs 16 4)) &&
  field bs 48 4 + 16 * field bs 52 2 ≤ m.spsz && field bs 56 4 + 4 * field bs 54 2 ≤ m.rgsz &&
  field bs 60 4 == 0 && field bs 43 1 == 0 && !fl.testBit 7
  && field bs 0 4 % 2 == 0 && field bs 8 4 % 256 == 0 && field bs 12 4 % 4096 == 0 && field bs 16 4 % 4 == 0
  && field bs 24 4 ≤ 65536 && field bs 28 4 % 4096 == 0
  && 2 ≤ field bs 38 1 && field bs 38 1 ≤ 6
  && 8 ≤ field bs 39 1 && field bs 39 1 ≤ 96 && field bs 39 1 % 8 == 0
  && 1 ≤ field bs 40 1 && field bs 40 1 ≤ 64 && field bs 41 1 == 1
  && (fl.testBit 6 || fl.testBit 5)
  && (!fl.testBit 2 || field bs 33 1 ≤ 4)
  && (fl.testBit 2 || field bs 44 4 == 0)
  && (List.range 6).all fun j => j < field bs 38 1 || field bs (32 + j) 1 == 0

/-- R329: the fields of a header at an address, of an image. -/
def kernelOf (bs : List Byte) (kh img : Nat) : Kernel :=
  let fl := field bs 42 1
  { kh := kh, img := img, entry := field bs 0 4, codesz := field bs 4 4, shr := field bs 8 4, dws := field bs 12 4
    priv := field bs 16 4, conoff := field bs 20 4, consz := field bs 24 4, obwin := field bs 28 4
    widths := (List.range 6).map fun j => field bs (32 + j) 1
    nf := field bs 38 1, regs := field bs 39 1, tags := field bs 40 1, disok := fl.testBit 6, safeok := fl.testBit 5
    trapen := fl.testBit 4, brken := fl.testBit 3, task := fl.testBit 2, gang := fl.testBit 1, hred := fl.testBit 0
    frame := field bs 44 4, spoff := field bs 48 4, spcnt := field bs 52 2, rgoff := field bs 56 4, rgcnt := field bs 54 2 }

/-- R327, R328: the loaded image whose kernel headers hold an address. -/
def State.imageOf (s : State) (p v kh : Nat) : Option Image :=
  s.images.find? fun m => m.part == p && m.vf == v && m.kh ≤ kh && kh + 64 ≤ m.kh + m.khLen
/-- R328, R350: the kernel that a launch names by its header's address: of a loaded image, readable and well formed. -/
def State.kernelAt (s : State) (p v kh : Nat) : Option Kernel :=
  (s.imageOf p v kh).bind fun m =>
    (s.vaRun p v kh 64 false).bind fun ks =>
      let bs := ks.map s.rdMain
      if headerOk bs m then some (kernelOf bs kh m.id) else none

/-! ### Launch records (R349, R350) -/

/-- R349: a launch record as it is fetched, its expert fields at their basic values where EXPERT is 0. -/
structure Launch where
  kind : Nat
  slot : Nat
  pin : Bool
  notify : Bool
  fence : Bool
  kh : Nat
  ext : List Nat
  arg : Dword
  done : Nat
  dwsOff : Nat
  fablim : Option Nat
  late : Word
  seed : Word
  pmask : Nat
  chips : Nat
  maxg : Nat
  zero : Bool
  deriving DecidableEq, Repr

/-- R349. MAXG is ignored while EXPERT is 0 (DEDUCED, log 119). -/
def launchOf (bs : List Byte) : Launch :=
  let w := field bs 0 4
  let ex := w.testBit 4
  { kind := w % 16, slot := w / 2 ^ 8 % 16, pin := ex && w.testBit 7, notify := w.testBit 6, fence := w.testBit 5
    kh := field bs 8 8, ext := (List.range 4).map fun j => field bs (16 + 4 * j) 4, arg := BitVec.ofNat 64 (field bs 32 8)
    done := field bs 40 8
    dwsOff := if ex then field bs 48 4 else 0
    fablim := if ex then some (field bs 52 4) else none
    late := if ex then BitVec.ofNat 32 (field bs 56 4) else 512
    seed := if ex then BitVec.ofNat 32 (field bs 60 4) else 1
    pmask := if ex then field bs 64 1 % 4 else 3
    chips := if ex then field bs 65 1 else 255
    maxg := if ex then field bs 66 2 else 0
    zero := w / 2 ^ 12 == 0 && (bs.drop 68).all fun b => b == 0 }

/-- R10, R349: the extent of WID field `j`, from 2 to 5. -/
def Launch.extent (l : Launch) (k : Kernel) (j : Nat) : Nat :=
  if j < k.nf then l.ext.getD (j - 2) 0 else 1

/-- R10: the widths and extents are such that each lane has a work identifier; a group has at most 16 warps. -/
def Launch.widOk (l : Launch) (k : Kernel) : Bool :=
  k.widths.headD 0 == 6 && k.widths.getD 1 0 ≤ 4 && k.widths.sum ≤ 64
  && (List.range 4).all fun j => l.ext.getD j 0 ≤ 2 ^ k.widths.getD (j + 2) 0

/-- R28: the modes that remain after narrowing: bit 0 safe-point, bit 1 discard. -/
def Launch.modes (l : Launch) (q : Partition) (k : Kernel) : Nat :=
  let ok (b : Nat) (h : Bool) := q.pmodes.testBit b && h && l.pmask.testBit b
  (if ok 0 k.safeok then 1 else 0) + if ok 1 k.disok then 2 else 0
/-- R12, R28: PMODE of the modes that remain; discard mode if both do. -/
def pmodeOf (m : Nat) : Nat := (if 2 ≤ m then 2 else 1) + 4 * m

/-- R350: a group of the kernel fits an empty core of the chip. -/
def State.fitsEmpty (s : State) (k : Kernel) (chip : Nat) : Bool :=
  k.warps ≤ 32 && k.warps * k.regs ≤ 2048 && k.tags ≤ 64 && k.obwin ≤ obSize
  && (fitAll (s.poolSize chip) [k.shr, 64 * k.priv, k.consz] []).isSome

/-- R356: the chips that may run a record's groups. -/
def Launch.chipList (l : Launch) (q : Partition) : List Nat := q.chips.filter fun c => l.chips.testBit c

/-- R350: the code of a refusal, in the order 6, 1, 2, 3, 5, 7, 4 (log 31); 0 for none. -/
def State.refusal (s : State) (q : Partition) (f : Vf) (l : Launch) : Nat :=
  let opened := match s.slot? q.idx f.vf l.slot with | some x => !x.closed | none => false
  if 4 ≤ l.kind || !l.zero then 6
  else if l.kind = 0 then 0
  else if l.kind = 3 then (if opened then 0 else 5)
  else match s.kernelAt q.idx f.vf l.kh with
    | none => 1
    | some k =>
      if !l.widOk k then 2
      else if l.modes q k = 0 then 3
      else if l.kind = 2 && (opened || !k.task) then 5
      else if (l.chipList q).isEmpty then 7
      else if (l.chipList q).any (s.fitsEmpty k) && l.dwsOff + k.dws ≤ (Config.dwsWindow q.idx f.vf).2 then 0
      else 4

/-! ### Completion (R351, R353) -/

/-- R350, R351: the record's second word: CODE and STATE. -/
def State.putStatus (s : State) (p v addr code st : Nat) : State := s.vaWrite p v (addr + 4) 4 (code * 256 + st)

/-- R351: STATE, then the DONE word, then the interrupt. -/
def State.finish (s : State) (p v addr done : Nat) (notify : Bool) (code st : Nat) : State :=
  let t := s.putStatus p v addr code st
  let u := if done = 0 then t else t.vaWrite p v done 8 st
  if notify then u.mapVf p v fun f => { f with msix := f.msix + 1 } else u

/-! ### Fetching a record (R347 to R352) -/

/-- R347: CFG of a queue's descriptor. -/
def State.queueCfg (s : State) (p v : Nat) (q : LaunchQ) : Nat := (s.vaRead p v (q.desc + 8) 4).getD 0
def cfgSize (c : Nat) : Nat := c % 32
def cfgOk (c : Nat) : Bool := c.testBit 12 && 4 ≤ cfgSize c && cfgSize c ≤ 16

/-- R347: the ring cannot be read: ERR, and the queue is disabled until the descriptor is read again, at a QTAIL write. -/
def State.ringError (s : State) (p v : Nat) (q : LaunchQ) : State :=
  let c := s.queueCfg p v q
  let t := (s.vaWrite p v (q.desc + 16) 4 1).vaWrite p v (q.desc + 8) 4 (if c.testBit 12 then c - 2 ^ 12 else c)
  t.mapVf p v fun f => { f with queues := f.queues.map fun (y : LaunchQ) => if y.q = q.q then { y with again := true } else y }

/-- A record at a queue's head: its address, its contents, the queue's CFG, and the state with HEAD moved on. -/
structure Fetched where
  addr : Nat
  l : Launch
  cfg : Nat
  next : State

/-- What a queue's next fetch comes to. -/
inductive Fetch where
  | none
  | bad (s : State)
  | got (x : Fetched)

/-- R347, R348, R352: the records of a queue start in order: the next is fetched once no group of the last is
undispatched, and behind FENCE once every earlier one has completed. While a page of the ring or of the descriptor is migrating the
fetch waits (R366). -/
def State.fetch (s : State) (p v : Nat) (q : LaunchQ) : Fetch :=
  let c := s.queueCfg p v q
  match s.vaRead p v q.desc 8, s.vaRead p v (q.desc + 12) 4, s.vaRead p v (q.desc + 16) 4 with
  | some ring, some head, some err =>
    let n := 2 ^ cfgSize c
    let mine := s.records.filter fun r => r.part == p && r.vf == v && r.q == q.q
    if q.again || !cfgOk c || err != 0 || s.vaAway p v (q.desc + 8) 12 true || head % n == q.tail % n || mine.any (fun r => r.todo.any fun t => !t.2.isEmpty) then .none
    else
      let addr := ring + 128 * (head % n)
      if s.vaAway p v addr 128 false then .none
      else match s.vaRun p v addr 128 false with
      | none => .bad (s.ringError p v q)
      | some ks =>
        let l := launchOf (ks.map s.rdMain)
        if l.fence && !mine.isEmpty then .none
        else .got ⟨addr, l, c, s.vaWrite p v (q.desc + 12) 4 ((head + 1) % n)⟩
  | _, _, _ => .none

/-- R366: nothing that a record's start or end reads or writes stands on a page that is migrating. -/
def State.recordHere (s : State) (p v addr done kh : Nat) : Bool :=
  !(s.vaAway p v (addr + 4) 4 true || (done != 0 && s.vaAway p v done 8 true) || s.vaAway p v kh 64 false)

/-- The queue of a virtual function. -/
def Vf.queue? (f : Vf) (q : Nat) : Option LaunchQ := f.queues.find? fun x => x.q == q

/-- R350: a record of one of some kinds is fetched; a refused one says so and the queue goes on. -/
def State.fetchRecord (s : State) (p v q : Nat) (mine : Nat → Bool) (k : State → Partition → Vf → Fetched → State) :
    Host.Outcome State Fault Refusal :=
  .next (match s.part? p, s.vf? p v with
    | some a, some f =>
      if a.stopped then s
      else match f.queue? q with
      | none => s
      | some x =>
        match s.fetch p v x with
        | .none => s
        | .bad t => t
        | .got y =>
          if !mine y.l.kind || !s.recordHere p v y.addr y.l.done y.l.kh then s
          else match s.refusal a f y.l with
            | 0 => k y.next a f y
            | c => y.next.finish p v y.addr y.l.done y.l.notify c 3
    | _, _ => s)

/-- R348: the tail register of a queue, registered or not. -/
def Vf.tailOf (f : Vf) (q : Nat) : Nat :=
  match f.queue? q with | some y => y.tail | none => getKey f.tails q 0
/-- R347: the descriptor of a queue, as it stands, leaves it disabled or in error. -/
def State.queueOff (s : State) (p v : Nat) (q : LaunchQ) : Bool :=
  !s.vaAway p v (q.desc + 8) 12 false && (!cfgOk (s.queueCfg p v q) || s.vaRead p v (q.desc + 16) 4 != some 0)
/-- R347, R348: a write of a tail register; the module reads the queue's descriptor again. -/
def State.setTail (s : State) (p v q x : Nat) : State :=
  s.mapVf p v fun f =>
    if (f.queue? q).isNone then { f with tails := setKey f.tails q (x % 65536) }
    else { f with queues := f.queues.map fun (y : LaunchQ) =>
      if y.q = q then { y with tail := x % 65536, again := y.again && s.queueOff p v y } else y }

/-- R353, R366: the host's writes to a virtual function keep their order: one whose page is migrating, and those behind it, wait. -/
noncomputable def State.behindHost (s : State) (part vf : Nat) : Bool :=
  part < 24 && s.hostq.any fun i =>
    match i with
    | .hostWrite p v _ _ => p == part && v == vf
    | .registerWrite p v _ _ => p == part && v == vf
    | .qtail p v _ _ => p == part && v == vf
    | _ => false
def State.holdHost (s : State) (i : Instr) : State := { s with hostq := s.hostq ++ [i] }

/-- R348, R353. -/
noncomputable def execQtail (part vf q : Nat) (value : Word) (s : State) : Host.Outcome State Fault Refusal :=
  .next (if s.behindHost part vf then s.holdHost (.qtail part vf q value) else s.setTail part vf q value.toNat)

/-- R349: a record of KIND 0 completes at once; R350: KIND 4 to 15 are refused. -/
def execLaunchNone (part vf q : Nat) (s : State) : Host.Outcome State Fault Refusal :=
  s.fetchRecord part vf q (fun k => k == 0 || 4 ≤ k) fun t _ _ y => t.finish part vf y.addr y.l.done y.l.notify 0 2

/-! ### Grids (R11, R349, R351, R356) -/

/-- R349: the groups of a grid. -/
def Launch.groups (l : Launch) (k : Kernel) : Nat := ((List.range 4).map fun j => l.extent k (j + 2)).foldl (· * ·) 1

/-- R10, R11, R349: the coordinate of a group's index, in the fields above the warp index. -/
def coordOf (k : Kernel) (ext : List Nat) (g : Nat) : Nat :=
  ((List.range 4).foldl (fun (a : Nat × Nat × Nat) j =>
    let e := if j + 2 < k.nf then ext.getD j 0 else 1
    (a.1 + a.2.1 % e * 2 ^ a.2.2, a.2.1 / e, a.2.2 + k.widths.getD (j + 2) 0))
    (0, g, k.widths.getD 0 0 + k.widths.getD 1 0)).1

/-- R356: the groups of each chip's distributor. -/
def shareGroups (cs : List Nat) (n : Nat) : List (Nat × List Nat) :=
  (cs.zip (List.range cs.length)).map fun c =>
    (c.1, (List.range ((n + cs.length - 1 - c.2) / cs.length)).map fun j => c.2 + j * cs.length)

/-- A record as it starts. -/
def recordOf (id p v q : Nat) (k : Kernel) (pmode : Nat) (y : Fetched) : Record :=
  { id := id, part := p, vf := v, q := q, proc := y.cfg / 2 ^ 8 % 16, prio := y.cfg / 2 ^ 5 % 8, addr := y.addr, kind := y.l.kind
    slot := y.l.slot, notify := y.l.notify, done := y.l.done, kern := k, ext := y.l.ext, arg := y.l.arg
    dwsBase := (Config.dwsWindow p v).1 + y.l.dwsOff, fablim := y.l.fablim.getD k.dws, late := y.l.late, seed := y.l.seed, pmode := pmode
    pin := y.l.pin, chips := [], todo := [], gids := [] }

/-- R354: the records of a virtual function that a chip's distributor has groups of. -/
def State.readyRecs (s : State) (chip p v : Nat) : List Record :=
  s.records.filter fun r => r.part == p && r.vf == v && r.todo.any fun t => t.1 == chip && !t.2.isEmpty

/-- R354: the processes with work on a chip, and a process's pass there. -/
def State.procs (s : State) (chip p v : Nat) : List Nat := ((s.readyRecs chip p v).map Record.proc).dedup
def Vf.passOf (f : Vf) (chip proc : Nat) : Nat := getKey f.pass (16 * chip + proc) 0

/-- R354: a process that gains work on a chip after having none takes the lowest pass of those that have it, if that is
greater than its own. `old` is the state before. -/
def State.gainWork (s old : State) (chip p v proc : Nat) : State :=
  let before := old.procs chip p v
  if before.contains proc || !(s.procs chip p v).contains proc then s
  else s.mapVf p v fun f =>
    let low := ((before.map (f.passOf chip)).min?).getD 0
    { f with pass := setKey f.pass (16 * chip + proc) (max (f.passOf chip proc) low) }

/-- R351, R356. -/
def State.startGrid (s : State) (q : Nat) (a : Partition) (f : Vf) (y : Fetched) : State :=
  match s.kernelAt a.idx f.vf y.l.kh with
  | none => s
  | some k =>
    let n := y.l.groups k
    if n = 0 then s.finish a.idx f.vf y.addr y.l.done y.l.notify 0 2
    else
      let cs := y.l.chipList a
      let r : Record := { recordOf s.nextId a.idx f.vf q k (pmodeOf (y.l.modes a k)) y with
        chips := cs, todo := shareGroups cs n }
      let t : State := { s.putStatus a.idx f.vf y.addr 0 1 with records := s.records ++ [r], nextId := s.nextId + 1 }
      cs.foldl (fun u c => u.gainWork s c a.idx f.vf r.proc) t

/-- R351. -/
def execGrid (part vf q : Nat) (s : State) : Host.Outcome State Fault Refusal :=
  s.fetchRecord part vf q (fun k => k == 1) fun t a f y => t.startGrid q a f y

/-! ### Task-launch slots (R133, R349, R351) -/

/-- R351: a slot opens, and the record completes at once.
DESIGN CHOICE (log 120): so it does while a KIND 3 record of the slot waits. -/
def State.openSlot (s : State) (a : Partition) (f : Vf) (y : Fetched) : State :=
  match s.kernelAt a.idx f.vf y.l.kh with
  | none => s
  | some k =>
    let x : TaskSlot :=
      { slot := y.l.slot, kern := k, rec_ := s.nextId, maxg := y.l.maxg, dwsBase := (Config.dwsWindow a.idx f.vf).1 + y.l.dwsOff
        fablim := y.l.fablim.getD k.dws, late := y.l.late, seed := y.l.seed, pmode := pmodeOf (y.l.modes a k)
        chips := y.l.chips, closed := false }
    let t : State := { s with nextId := s.nextId + 1 }
    (t.mapVf a.idx f.vf fun f => { f with slots := x :: f.slots.filter fun z => z.slot != x.slot }).finish a.idx f.vf y.addr
      y.l.done y.l.notify 0 2

/-- R351. -/
def execOpenSlot (part vf q : Nat) (s : State) : Host.Outcome State Fault Refusal :=
  s.fetchRecord part vf q (fun k => k == 2) fun t a f y => t.openSlot a f y

/-- R351: a slot closes at once; the record runs on. -/
def State.closeSlot (s : State) (q : Nat) (a : Partition) (f : Vf) (y : Fetched) : State :=
  let t : State := { s.putStatus a.idx f.vf y.addr 0 1 with
    records := s.records ++ [recordOf s.nextId a.idx f.vf q Kernel.blank 0 y], nextId := s.nextId + 1 }
  t.mapVf a.idx f.vf fun f =>
    { f with slots := f.slots.map fun (x : TaskSlot) => if x.slot = y.l.slot then { x with closed := true } else x }

/-- R351. -/
def execCloseSlot (part vf q : Nat) (s : State) : Host.Outcome State Fault Refusal :=
  s.fetchRecord part vf q (fun k => k == 3) fun t a f y => t.closeSlot q a f y

/-- R351: a task, by its record, belongs to a slot. -/
def State.ofSlot (s : State) (chip p v slot : Nat) (a : Dword) : Bool :=
  a != 0 && match s.unitAt chip p v a 64 with | .ok k => s.recSlot k == slot | _ => false

/-- R351, R366: a task may belong to a slot: it does, or its record stands on a page that is migrating. -/
def State.maybeOf (s : State) (chip p v slot : Nat) (a : Dword) : Bool :=
  s.ofSlot chip p v slot a || (a != 0 && match s.unitAt chip p v a 64 with | .wait => true | _ => false)
/-- R351: no task of a slot is ready, running or parked, and its groups have retired. -/
def State.slotQuiet (s : State) (p v slot : Nat) : Bool :=
  s.ready.all (fun q => !(q.part == p && q.vf == v && s.maybeOf q.chip p v slot q.rec_))
  && s.frames.all (fun f => !(f.part == p && f.saved.any (fun g => g.vf == v) && s.maybeOf f.chip p v slot f.task))
  && s.allGroups.all fun g =>
      !(g.part == p && g.vf == v && !g.sys && ((g.serves && g.slot == slot) || s.maybeOf g.chip p v slot g.task))

/-- R353: what the groups of a closed slot have written is performed: nothing is outstanding from a group that has retired, nor from one
of the virtual function whose kernel may run tasks. -/
def State.slotWritten (s : State) (p v : Nat) : Bool :=
  let other (gid : Nat) : Bool :=
    s.allGroups.any fun g => g.id == gid && (g.part != p || g.vf != v || g.sys || !(g.kern.task || g.shape.task))
  s.copies.all (fun c => other c.gid)
  && s.engines.all (fun e => e.2.cmds.all fun c => other c.gid)
  && s.pend.all (fun o => other o.gid || !MKind.writes o.kind)
  && s.strays.all (fun q => other q.gid)
  && s.laps.all fun l => l.gid == 0 || other l.gid

/-- R351: every command that a record's groups have issued has ended, and every write is performed (R353). -/
def State.workDone (s : State) (gids : List Nat) : Bool :=
  s.copies.all (fun c => !gids.contains c.gid)
  && s.engines.all (fun e => e.2.cmds.all fun c => !gids.contains c.gid)
  && s.pend.all (fun o => !(gids.contains o.gid && MKind.writes o.kind))
  && s.strays.all (fun q => !gids.contains q.gid)
  && s.laps.all fun l => !gids.contains l.gid

/-- R351: a record's last group has retired and its work is done; or its slot is quiet. -/
def State.recordDone (s : State) (r : Record) : Bool :=
  if r.kind = 3 then s.slotQuiet r.part r.vf r.slot && s.slotWritten r.part r.vf
  else r.todo.all (fun t => t.2.isEmpty) && s.allGroups.all (fun g => g.rec_ != r.id || g.serves) && s.workDone r.gids

/-- R351. -/
def execRecordComplete (rec : Nat) (s : State) : Host.Outcome State Fault Refusal :=
  .next (match s.records.find? fun r => r.id == rec with
    | some r =>
      if s.recordDone r && s.recordHere r.part r.vf r.addr r.done r.addr then
        { s with records := s.records.filter fun x => x.id != rec }.finish r.part r.vf r.addr r.done r.notify 0 2
      else s
    | none => s)

/-! ### Dispatch (R6, R7, R354 to R356) -/

/-- The smallest of a list by a measure; the earlier of equals. -/
def leastBy {β : Type} (m : β → Nat) (l : List β) : Option β :=
  l.foldl (fun b x => match b with | none => some x | some y => if m x < m y then some x else some y) none

/-- R355: the effective priority of a queue's head record on a chip. -/
def Vf.effPrio (f : Vf) (chip : Nat) (r : Record) : Nat := min 7 (r.prio + getKey f.qage (64 * chip + r.q) 0 / 64)

/-- R354, levels 2 and 3: the record that dispatches on a chip: of the process with the lowest pass, of the queue with the
highest effective priority, then the highest PRIO, then the one that follows the last served. -/
def State.nextRecord (s : State) (f : Vf) (chip p : Nat) : Option Record :=
  let rs := s.readyRecs chip p f.vf
  match leastBy (fun c => f.passOf chip c * 16 + c) (rs.map Record.proc) with
  | none => none
  | some c =>
    let last := getKey f.served (16 * chip + c) 63
    leastBy (fun r => (7 - f.effPrio chip r) * 1024 + (7 - r.prio) * 64 + (r.q + 127 - last) % 64)
      (rs.filter fun r => r.proc == c)

/-- R354, R355: what a dispatch of a record changes in the counts of its process and queues. -/
def State.countDispatch (s : State) (chip : Nat) (r : Record) : State :=
  let others := ((s.readyRecs chip r.part r.vf).filter fun x => x.proc == r.proc && x.q != r.q).map Record.q
  let w := (s.ratesOf chip r.part r.vf).weight.getD r.proc 0
  s.mapVf r.part r.vf fun f =>
    { f with
      pass := setKey f.pass (16 * chip + r.proc) (f.passOf chip r.proc + 65536 / (if w = 0 then 16 else w))
      served := setKey f.served (16 * chip + r.proc) r.q
      qage := setKey (others.foldl (fun l q => setKey l (64 * chip + q) (getKey l (64 * chip + q) 0 + 1)) f.qage)
        (64 * chip + r.q) 0 }

/-- R6, R7, R356: the next group of a record becomes resident on a core. -/
def State.dispatchGroup (s : State) (chip core : Nat) (r : Record) : State :=
  match (r.todo.find? fun t => t.1 == chip).map Prod.snd, s.seat? chip core r.kern r.kern.warps (r.kern.warps * r.kern.regs) 0 with
  | some (n :: rest), some seat =>
    let id := s.nextId
    let t := (s.countDispatch chip r).reside
      { chip := chip, core := core, part := r.part, vf := r.vf, kern := r.kern
        coord := BitVec.ofNat 64 (coordOf r.kern r.ext n), entry := r.kern.entry, arg := r.arg, dwsBase := r.dwsBase
        fablim := r.fablim, late := r.late, seed := r.seed, pmode := r.pmode, prio := r.prio, rec_ := r.id, slot := 0
        warps := r.kern.warps } seat
    { t with records := t.records.map fun x =>
        if x.id = r.id then
          { x with gids := id :: x.gids, todo := x.todo.map fun y => if y.1 = chip then (chip, rest) else y }
        else x }
  | _, _ => s

/-- R6, R354. -/
def execGroupDispatch (chip part vf core : Nat) (s : State) : Host.Outcome State Fault Refusal :=
  .next (if !s.partCore part chip core then s
    else match s.takeSlice chip part vf with
      | none => s
      | some t =>
        match t.vf? part vf with
        | none => s
        | some f =>
          match t.nextRecord f chip part with
          | some r => t.dispatchGroup chip core r
          | none => s)

/-! ### Stealing (R356) -/

def Record.left (r : Record) (chip : Nat) : List Nat := ((r.todo.find? fun t => t.1 == chip).map Prod.snd).getD []

/-- R356: the chips of a record's list in cyclic order after one of them. -/
def Record.after (r : Record) (chip : Nat) : List Nat :=
  (r.chips.filter fun c => chip < c) ++ r.chips.filter fun c => c < chip

/-- R356: a chip gives its highest-numbered groups away. -/
def State.steal (s : State) (r : Record) (thief victim : Nat) : State :=
  let l := r.left victim
  let m := max (l.length / 2) (min l.length 1)
  let give (t : Nat × List Nat) : Nat × List Nat :=
    if t.1 = victim then (victim, l.take (l.length - m))
    else if t.1 = thief then (thief, l.drop (l.length - m))
    else t
  let t : State := { s with records := s.records.map fun (x : Record) => if x.id = r.id then { x with todo := x.todo.map give } else x }
  t.gainWork s thief r.part r.vf r.proc

/-- R354, R356: the thief has no group of the record left and a core that could take one, in a slice of the virtual function, and
asks the first chip after it that has groups to give. -/
def State.mayStealNow (s : State) (r : Record) (thief victim : Nat) : Bool :=
  !r.pin && r.chips.contains thief && (r.left thief).isEmpty && (s.takeSlice thief r.part r.vf).isSome
  && (List.range 16).any (fun core => s.partCore r.part thief core
      && (s.seat? thief core r.kern r.kern.warps (r.kern.warps * r.kern.regs) 0).isSome)
  && (r.after thief).find? (fun c => !(r.left c).isEmpty) == some victim

/-- R356. -/
def execStealRequest (rec thief victim : Nat) (s : State) : Host.Outcome State Fault Refusal :=
  .next (match s.records.find? fun r => r.id == rec with
    | some r => if s.mayStealNow r thief victim then s.steal r thief victim else s
    | none => s)

end Sys2Proof.Machine
end

