-- ==== Sys2Proof/Machine/Mailbox.lean ====
section
/-! DEFINITION. The mailbox of a virtual function, through which a guest changes its table, and the migration of pages
(R90, R358 to R366, R384). -/

namespace Sys2Proof.Machine

/-! ### Physical memory -/

/-- Bytes of a grant's unit. -/
def unitBytes : Nat := 2 ^ 26
/-- The physical address at an offset of a list of units; none beyond its end. -/
def unitAt (us : List Nat) (off : Nat) : Option Nat := (us[off / unitBytes]?).map fun u => u * unitBytes + off % unitBytes
/-- R402: the HBM channel of a physical address, by 64 × chip + channel (log 2). -/
def channelOf (pa : Nat) : Nat := pa / 2 ^ 31
/-- R361: the tier of a physical address: 0 HBM, 1 CXL. -/
def tierOf (pa : Nat) : Nat := if pa < 2 ^ 40 then 0 else 1
def State.retiredAt (s : State) (pa : Nat) : Bool := tierOf pa == 0 && s.md.retired.contains (channelOf pa)
/-- The virtual function's share of a tier. -/
def Vf.share (f : Vf) (tier : Nat) : List Nat := if tier = 0 then f.hbm else f.cxl

/-- The frames of a page size in a virtual function's share of a tier, lowest offset first. -/
def Vf.frames (f : Vf) (tier size : Nat) : List Nat :=
  (f.share tier).flatMap fun u => (List.range (unitBytes / pageBytes size)).map fun j => u * unitBytes + j * pageBytes size

/-- No page stands or is to stand on a frame. -/
def frameFree (t : List Leaf) (pa n : Nat) : Bool :=
  let off (a m : Nat) : Bool := a + m ≤ pa || pa + n ≤ a
  t.all fun l => off l.pa (pageBytes l.size) && match l.dest with | some d => off d (pageBytes l.size) | none => true

/-- The lowest free frame of a tier (log 22). -/
def State.freeFrame (s : State) (f : Vf) (t : List Leaf) (tier size : Nat) (ok : Nat → Bool) : Option Nat :=
  (f.frames tier size).find? fun pa => ok pa && !s.retiredAt pa && frameFree t pa (pageBytes size)

/-! ### Requests (R362 to R364) -/

/-- R363: a mailbox request. -/
structure Mail where
  op : Nat
  va : Nat
  count : Nat
  flags : Nat
  moff : Nat
  qdesc : Nat
  qnum : Nat
  zero : Bool
  deriving DecidableEq, Repr

def mailOf (bs : List Byte) : Mail :=
  { op := field bs 0 4, va := field bs 8 8, count := field bs 16 4, flags := field bs 20 4, moff := field bs 24 8
    qdesc := field bs 32 8, qnum := field bs 40 4, zero := (bs.drop 44).all fun b => b == 0 }

def Mail.w (m : Mail) : Bool := m.flags.testBit 0
def Mail.tc (m : Mail) : Bool := m.flags.testBit 1
def Mail.size (m : Mail) : Nat := m.flags / 4 % 4
def Mail.tier (m : Mail) : Nat := m.flags / 16 % 2
def Mail.key (m : Mail) : Nat := m.flags / 2 ^ 8 % 256
def Mail.tag (m : Mail) : Nat := m.flags / 2 ^ 16 % 16
def Mail.bytes (m : Mail) : Nat := m.count * pageBytes m.size
def Mail.pages (m : Mail) : List Nat := (List.range m.count).map fun j => m.va + j * pageBytes m.size

/-- R363: what STATUS 5 covers for the requests about pages. -/
def Mail.bad (m : Mail) (f : Vf) : Bool :=
  m.size == 3 || m.flags / 2 ^ 20 != 0 || !m.zero || m.count == 0 || 65536 < m.count
  || m.va % pageBytes m.size != 0 || 2 ^ 58 < m.va + m.bytes
  || (f.kvw != 0 && m.va / 2 ^ 49 ≤ f.kvw && f.kvw ≤ (m.va + m.bytes - 1) / 2 ^ 49)

/-- The leaf of a page of a size. -/
def leafAt (t : List Leaf) (a size : Nat) : Option Leaf := t.find? fun l => l.va == a && l.size == size
def Mail.leaves (m : Mail) (f : Vf) : List Leaf := m.pages.filterMap fun a => leafAt f.table a m.size
/-- R360: a range of 64 MiB would hold pages of two sizes (STATUS 4, log 59). -/
def Mail.mixes (m : Mail) (f : Vf) : Bool :=
  f.table.any fun l => l.size != m.size && m.va / 2 ^ 26 ≤ (l.va + pageBytes l.size - 1) / 2 ^ 26
    && l.va / 2 ^ 26 ≤ (m.va + m.bytes - 1) / 2 ^ 26
/-- R359: the pages of a request would call for more tables than the Hub keeps for a virtual function (STATUS 4, log 59). -/
def Mail.crowds (m : Mail) (f : Vf) : Bool :=
  2 ^ 16 ≤ (f.tables ++ m.pages.flatMap fun a => ([1, 2, 3].filter fun k => (if m.size = 2 then 1 else 0) < k).map fun k => (k, a / levelBytes k)).dedup.length
/-- R363, R391: a key slot that a guest's request may name. -/
def State.guestKey (s : State) (p v k : Nat) : Bool := k != 0 && s.keyOk p v k
def Mail.allMapped (m : Mail) (f : Vf) : Bool := m.pages.all fun a => (leafAt f.table a m.size).isSome

/-- R380: the image that serves requests of a kind is being replaced, and holds them (log 33). -/
def State.holdsKind (s : State) (kind : Nat) : Bool :=
  s.md.repl.kind == kind && (s.md.repl.phase == 2 || s.md.repl.phase == 3)

/-- R362, R364: Iluloth writes STATUS last, and turns to the next request. -/
def State.answer (s : State) (p v : Nat) (q : MailReq) (st : Nat) : State :=
  (s.vaWrite p v (q.addr + 4) 4 st).mapVf p v fun f => { f with mail := f.mail.filter fun x => x.id != q.id }

/-- R380, R382: a request that was held waits while an older one of another virtual function that was held is not answered. -/
def State.behindHeld (s : State) (q : MailReq) : Bool :=
  q.id < s.md.repl.heldTo && s.parts.any fun x => x.vfs.any fun f => f.mail.any fun y => y.id < q.id
/-- A request in progress: some page carries its number. -/
def Vf.working (f : Vf) (q : MailReq) : Bool := f.table.any fun l => l.req == q.id + 1

/-- R362, R363, R366: the oldest request of a virtual function is served, once no page that it stands on is migrating, if its OP
is the event's. `k` answers with a STATUS, the change, or none while the request must wait. An unknown OP is a bad argument, and
is met by `map`. -/
def State.serve (s : State) (p v op : Nat) (k : Vf → MailReq → Mail → Option (Nat × (State → State))) :
    Host.Outcome State Fault Refusal :=
  .next (match s.vf? p v with
    | none => s
    | some f =>
      match f.mail with
      | [] => s
      | q :: _ =>
        if s.holdsKind 2 || s.behindHeld q || f.working q || s.vaAway p v q.addr 64 false || s.vaAway p v (q.addr + 4) 4 true then s
        else match if q.addr % 64 = 0 then s.vaRun p v q.addr 64 false else none with
          | none => s.answer p v q (if q.addr % 64 = 0 then 6 else 5)
          | some ks =>
            let m := mailOf (ks.map s.rdMain)
            if m.op != op then (if op = 1 && (m.op = 0 || 6 < m.op) then s.answer p v q 5 else s)
            else match k f q m with
              | none => s
              | some (0, c) => c s
              | some (st, c) => (c s).answer p v q st)

/-- A refusal changes nothing. -/
def refuse (st : Nat) : Option (Nat × (State → State)) := some (st, id)

/-- R148, R363, R364: a request on a sequence record's page is not its owner's; one on a page that is migrating waits. -/
def waitFor (ls : List Leaf) (k : Option (Nat × (State → State))) : Option (Nat × (State → State)) :=
  if ls.any fun l => (recSlot l.pa).isSome then refuse 2
  else if ls.any fun l => l.dest.isSome then none else k

/-- The table of a virtual function changes. -/
def State.mapTable (s : State) (p v : Nat) (f : List Leaf → List Leaf) : State :=
  s.mapVf p v fun x => { x with table := f x.table }

/-! ### MAP, UNMAP, PROTECT, SETTAG (R361, R363) -/

/-- A page that a MAP would place meets a page that is mapped. -/
def Mail.overlaps (m : Mail) (f : Vf) : Bool :=
  f.table.any fun l => m.va < l.va + pageBytes l.size && l.va < m.va + m.bytes

/-- The frames that a MAP names; none where one lies outside the grant or has been retired. -/
def Mail.framesIn (m : Mail) (s : State) (f : Vf) : Option (List Nat) :=
  (List.range m.count).foldr (fun j (l : Option (List Nat)) =>
    match l, unitAt (f.share m.tier) (m.moff + j * pageBytes m.size) with
    | some t, some pa => if s.retiredAt pa then none else some (pa :: t)
    | _, _ => none) (some [])

/-- R363, R391. -/
def execMap (part vf : Nat) (s : State) : Host.Outcome State Fault Refusal :=
  s.serve part vf 1 fun f _ m =>
    if m.bad f || m.moff % pageBytes m.size != 0 || (m.tc && m.tier == 1) then refuse 5
    else match m.framesIn s f with
      | none => refuse 2
      | some fs =>
        if !s.guestKey part vf m.key then refuse 3
        else if m.overlaps f || m.mixes f || m.crowds f then refuse 4
        else some (1, fun t => (t.rekey (fs.flatMap fun pa => pageFrames pa m.size) m.key).mapTable part vf fun l =>
          (m.pages.zip fs).map (fun q => ⟨q.1, m.size, q.2, m.w, m.tc, m.key, true, false, none, 0⟩) ++ l)

/-- R90, R364: a shootdown of pages on every chip; a page that is unmapped, or leaves its frame, is gone for the copies that are in
flight. A command whose lane its first page still keeps away has not begun (R20). -/
def State.shootPages (s : State) (p v : Nat) (ls : List Leaf) (gone : Bool) : State :=
  let t := s.shoot p v (ls.map Leaf.va)
  if !gone then t
  else { t with copies := t.copies.map fun (c : CopyCmd) =>
    if c.part = p && c.vf = v && !s.copyAway c then { c with stale := ls.map (fun l => (l.va, pageBytes l.size)) ++ c.stale } else c }

/-- R363, R364. -/
def execUnmap (part vf : Nat) (s : State) : Host.Outcome State Fault Refusal :=
  s.serve part vf 2 fun f _ m =>
    if m.bad f then refuse 5
    else if !m.allMapped f then refuse 4
    else waitFor (m.leaves f) <|
      some (1, fun t => (t.shootPages part vf (m.leaves f) true).mapTable part vf fun l =>
        l.filter fun x => !(m.leaves f).contains x)

/-- R361, R363, R391. -/
def execProtect (part vf : Nat) (s : State) : Host.Outcome State Fault Refusal :=
  s.serve part vf 3 fun f _ m =>
    if m.bad f || (m.tc && (m.leaves f).any fun l => tierOf l.pa == 1) then refuse 5
    else if !s.guestKey part vf m.key then refuse 3
    else if !m.allMapped f then refuse 4
    else waitFor (m.leaves f) <|
      some (1, fun t => ((t.shootPages part vf (m.leaves f) false).rekey ((m.leaves f).flatMap fun x => pageFrames x.pa x.size)
          m.key).mapTable part vf fun l => l.map fun (x : Leaf) =>
        if (m.leaves f).contains x then { x with w := m.w, tc := m.tc, key := m.key } else x)

/-- R363, R365: every sector of a frame takes a tag. -/
def State.putTags (s : State) (pa n tag : Nat) : State :=
  let rest := s.tagsMem.filter fun q => q.1 < pa / 64 || (pa + n) / 64 ≤ q.1
  { s with tagsMem := if tag = 0 then rest else (List.range (n / 64)).map (fun j => (pa / 64 + j, BitVec.ofNat 4 tag)) ++ rest }

/-- R361, R363. -/
def execSettag (part vf : Nat) (s : State) : Host.Outcome State Fault Refusal :=
  s.serve part vf 4 fun f _ m =>
    if m.bad f || (m.leaves f).any fun l => tierOf l.pa == 1 then refuse 5
    else if !m.allMapped f then refuse 4
    else waitFor (m.leaves f) <|
      some (1, fun t => (m.leaves f).foldl (fun t l => t.putTags l.pa (pageBytes l.size) m.tag) t)

/-! ### MOVE and migration (R90, R366) -/

/-- R363: a frame for each page of a MOVE; none where the share has no more. -/
def State.chooseFrames (s : State) (f : Vf) (tier id : Nat) : List Leaf → List Leaf → Option (List Leaf)
  | [], t => some t
  | l :: ls, t =>
    match s.freeFrame f t tier l.size fun _ => true with
    | none => none
    | some pa => s.chooseFrames f tier id ls (t.map fun (x : Leaf) => if x = l then { x with dest := some pa, req := id + 1 } else x)

/-- R363: the request goes on until every page has migrated. -/
def execMove (part vf : Nat) (s : State) : Host.Outcome State Fault Refusal :=
  s.serve part vf 5 fun f q m =>
    let ls := m.leaves f
    if m.bad f || (m.tier == 1 && ls.any Leaf.tc) then refuse 5
    else if !m.allMapped f || ls.any fun l => tierOf l.pa == m.tier then refuse 4
    else waitFor ls <|
      match s.chooseFrames f m.tier q.id ls f.table with
      | none => refuse 2
      | some t => some (0, fun u => u.mapTable part vf fun _ => t)

/-- A place of a frame, or a place that stands for a task record of it, moves with the page. -/
def movePlace (old new n k : Nat) : Nat :=
  match [0, 2 ^ 62, 2 ^ 63, 2 ^ 64].find? fun b => b + old ≤ k && k < b + old + n with
  | some _ => k - old + new
  | none => if k < 2 ^ 53 && old ≤ physAt k && physAt k < old + n then k - old + new else k
def Party.moved (old new n : Nat) (p : Party) : Party :=
  match p with | .place k => .place (movePlace old new n k) | q => q

/-- R366: the bytes, as they are seen under each key, the tags and what stands for places of the old frame come to the new one. -/
def State.copyPage (s : State) (old new n : Nat) : State :=
  let nos := ((s.md.views.filter fun x => (old ≤ x.frame * 2 ^ 14 && x.frame * 2 ^ 14 < old + n)
    || (new ≤ x.frame * 2 ^ 14 && x.frame * 2 ^ 14 < new + n)).flatMap fun x => [512, x.no, x.no + 512]).dedup.filter (· != 0)
  let mem := (0 :: nos).foldl (fun m j =>
    writeBytes (clearMem m (viewAt new j) n) ((cutMem m (viewAt old j) n).map fun c => (c.1 - old + new, c.2))) s.mem
  let move {β : Type} (g : Nat) (l : List (Nat × β)) : List (Nat × β) :=
    (l.filter fun q => old / g ≤ q.1 && q.1 < (old + n) / g).map (fun q => (q.1 - old / g + new / g, q.2))
      ++ l.filter fun q => !(new / g ≤ q.1 && q.1 < (new + n) / g)
  let pl := movePlace old new n
  let acc (a : Acc) : Acc := { a with bytes := a.bytes.map pl, seen := a.seen.map (Party.moved old new n) }
  let op (o : MemOp) : MemOp := { o with accs := o.accs.map acc }
  let wt (x : Waiter) : Waiter := { x with obj := pl x.obj }
  let fr (f : Frame) : Frame := { f with blocked := f.blocked.map wt }
  { s with
    mem := mem
    tagsMem := if tierOf old = 0 && tierOf new = 0 then move 64 s.tagsMem else s.tagsMem
    ecc := move 64 s.ecc
    md := { s.md with
      keyed := move (2 ^ 14) s.md.keyed
      views := (s.md.views.filter fun x => old ≤ x.frame * 2 ^ 14 && x.frame * 2 ^ 14 < old + n).map (fun (x : KeyView) =>
          { x with frame := x.frame - old / 2 ^ 14 + new / 2 ^ 14 })
        ++ s.md.views.filter fun x => !(new ≤ x.frame * 2 ^ 14 && x.frame * 2 ^ 14 < new + n) }
    pend := s.pend.map op
    waiters := s.waiters.map wt
    frames := s.frames.map fr }

/-- A leaf of a virtual function changes. -/
def State.mapLeaf (s : State) (p v a : Nat) (f : Leaf → Leaf) : State :=
  s.mapTable p v fun t => t.map fun l => if l.va = a then f l else l

/-- R366: STATUS of the request that a page's migration belongs to stands on another page, which is migrating. -/
def State.statusAway (s : State) (p v : Nat) (l : Leaf) : Bool :=
  (s.vf? p v).any fun f => (f.mail.find? fun q => q.id + 1 == l.req).any fun q =>
    s.vaAway p v (q.addr + 4) 4 true && !(l.va ≤ q.addr && q.addr < l.va + pageBytes l.size)

/-- R364: the last page of a MOVE has migrated. -/
def State.endMove (s : State) (p v req : Nat) : State :=
  match s.vf? p v with
  | none => s
  | some f =>
    match f.mail.find? fun q => q.id + 1 == req with
    | some q => if f.table.any fun l => l.req == req then s else s.answer p v q 1
    | none => s

/-- R63, R366: the atomics that waited for a page are on their way from now on. -/
def State.sendDeferred (s : State) (p v : Nat) (l : Leaf) : State :=
  let mine (o : MemOp) : Bool :=
    o.deferred && o.part == p && o.vf == v && l.va ≤ vaAddr o.lowest && vaAddr o.lowest < l.va + pageBytes l.size
  { s with pend := s.pend.map fun (o : MemOp) => if mine o then { o with issued := s.cyc o.core } else o }
/-- R366: the next step of a page's migration: write-protect, then copy and shootdown, then the new mapping. -/
def State.migrate (s : State) (p v : Nat) (l : Leaf) (d : Nat) : State :=
  if l.v && !l.mig then s.mapLeaf p v l.va fun x => { x with mig := true }
  else if l.v then ((s.shootPages p v [l] true).copyPage l.pa d (pageBytes l.size)).mapLeaf p v l.va fun x => { x with v := false }
  else if s.statusAway p v l then s
  else
    ((s.mapLeaf p v l.va fun x => { x with pa := d, v := true, mig := false, dest := none, req := 0 }).sendDeferred p v l).endMove p v l.req

/-- R366, R384: a page of a MOVE takes its next step; or Iluloth begins to move one by its own placement, which takes no page of a
sequence record, whose frame it chose itself (R148). -/
def execPageMigration (part vf va tier : Nat) (s : State) : Host.Outcome State Fault Refusal :=
  .next (match (s.vf? part vf).bind fun f => (f.table.find? fun l => l.va == va).map fun l => (f, l) with
    | none => s
    | some x =>
      match x.2.dest with
      | some d => s.migrate part vf x.2 d
      | none =>
        if s.md.repl.phase != 0 || 1 < tier || tierOf x.2.pa == tier || (x.2.tc && tier == 1) || (recSlot x.2.pa).isSome then s
        else match s.freeFrame x.1 x.1.table tier x.2.size fun _ => true with
          | some d => (s.mapLeaf part vf va fun l => { l with dest := some d }).migrate part vf { x.2 with dest := some d } d
          | none => s)

/-! ### REGQ (R347, R363) -/

/-- R347: a queue descriptor whose fields the module accepts. -/
def queueDescOk (bs : List Byte) : Bool :=
  let c := field bs 8 4
  field bs 0 8 % 4096 == 0 && c / 2 ^ 13 == 0 && field bs 16 4 ≤ 1 && (bs.drop 20).all (fun b => b == 0)
  && (!(4 ≤ cfgSize c && cfgSize c ≤ 16) || field bs 12 4 < 2 ^ cfgSize c)

/-- R363. -/
def execRegq (part vf : Nat) (s : State) : Host.Outcome State Fault Refusal :=
  s.serve part vf 6 fun f _ m =>
    if s.vaAway part vf m.qdesc 32 false then none
    else match s.vaRun part vf m.qdesc 32 false with
    | none => refuse 5
    | some ks =>
      if !m.zero || m.flags / 2 ^ 20 != 0 || 63 < m.qnum || !queueDescOk (ks.map s.rdMain) then refuse 5
      else
        some (1, fun t => t.mapVf part vf fun f =>
          { f with queues := ⟨m.qnum, m.qdesc, f.tailOf m.qnum, false⟩ :: f.queues.filter fun q => q.q != m.qnum })

/-! ### Sequence records (R148) -/

/-- R148: Iluloth maps a slot's record read-only to its virtual function, at an address of its choice (log 38). -/
def State.mapRecord (s : State) (slot va : Nat) : State :=
  match (s.seqs.find? fun q => q.slot == slot && slot < 8192).bind fun q => (s.vf? q.part q.vf).map fun f => (q, f) with
  | none => s
  | some x =>
    let m : Mail := { op := 1, va := va, count := 1, flags := 0, moff := 0, qdesc := 0, qnum := 0, zero := true }
    if m.bad x.2 || m.overlaps x.2 || m.mixes x.2 || m.crowds x.2 || x.2.table.any (fun l => l.pa == recPlace slot) then s
    else s.mapTable x.1.part x.1.vf fun l => ⟨va, 0, recPlace slot, false, false, 0, true, false, none, 0⟩ :: l

end Sys2Proof.Machine
end

