-- ==== Sys2Proof/Machine/Meter.lean ====
section
/-! DEFINITION. Metering: usage records and their ring, the samples of KV blocks held, and the windows of the rate quotas
(R390, R392 to R396). -/

namespace Sys2Proof.Machine

/-! ### Records (R393, R394) -/

/-- R393: what one record counts. -/
structure Usage where
  kind : Nat
  vf : Nat
  passes : List (Nat × Nat)
  issue : Nat
  hbm : Nat
  fab : Nat
  kvhold : Nat
  deriving DecidableEq, Repr

/-- R393: a mark has zero counts. -/
def Usage.mark : Usage := ⟨1, 0xFF, [], 0, 0, 0, 0⟩
def Usage.ofVf (f : Vf) (kind : Nat) : Usage := ⟨kind, f.vf, f.passes, f.issue, f.hbmBytes, f.fabBytes, f.kvhold⟩

/-- R393: bytes 0 to 175 of a record. -/
def Usage.bytes (u : Usage) (seq hub part : Nat) (prev : BitVec 384) : List Byte :=
  leBytes 4 0x55534745 ++ leBytes 2 1 ++ leBytes 2 u.kind ++ leBytes 8 seq ++ leBytes 8 hub ++ leBytes 1 part ++ leBytes 1 u.vf
    ++ leBytes 6 0 ++ (List.range 15).flatMap (fun j => leBytes 4 (getKey u.passes j 0)) ++ leBytes 4 0
    ++ leBytes 8 u.issue ++ leBytes 8 u.hbm ++ leBytes 8 u.fab ++ leBytes 8 u.kvhold ++ digestBytes prev

/-- R393, R394: the signature field. -/
def recordSig (boots part seq kind : Nat) (d : BitVec 384) : List Byte :=
  if kind = 1 || seq % 256 = 255 then beBytes 96 (Config.recordSign boots part d).toNat else leBytes 96 0

/-! ### What a verifier finds in a run of records (R396) -/

/-- R396: the reports of a verifier. -/
inductive Finding where
  | gap
  | edit
  | forgery
  deriving DecidableEq, Repr

/-- R396: a record against the one before it, under the public key that signs the partition's records. -/
def checkRecord (key : BitVec 768) (before r : List Byte) : List Finding :=
  let sig := BitVec.ofNat 768 (beNat (r.drop 176))
  (if field r 8 8 = field before 8 8 + 1 then [] else [Finding.gap])
  ++ (if (r.drop 128).take 48 = digestBytes (sha384 (before.take 176)) then [] else [Finding.edit])
  ++ (if sig = 0 || ecdsaOk key (sha384 (r.take 176)) sig then [] else [Finding.forgery])

/-- R396: what a verifier reports of a run of records, by each record's SEQ. -/
def checkRecords (key : BitVec 768) : List (List Byte) → List (Nat × Finding)
  | a :: b :: rest => (checkRecord key a b).map (fun x => (field b 8 8, x)) ++ checkRecords key (b :: rest)
  | _ => []

/-- R396: the records after the last signed one, which are unproven. -/
def unproven (l : List (List Byte)) : List (List Byte) := (l.reverse.takeWhile fun r => beNat (r.drop 176) == 0).reverse

/-! ### The ring (R395) -/

/-- What the Hub keeps for a partition's number before anything has been recorded. -/
def PartLog.zero (p : Nat) : PartLog := ⟨p, 0, 0, [], 0, 0, []⟩
def State.logOf (s : State) (p : Nat) : PartLog := (s.md.logs.find? fun x => x.idx == p).getD (PartLog.zero p)
def State.mapLog (s : State) (p : Nat) (f : PartLog → PartLog) : State :=
  { s with md := { s.md with logs := f (s.logOf p) :: s.md.logs.filter fun x => x.idx != p } }

/-- R372, R395: the places of the next record of a ring; none when it is full, or its memory cannot be reached or written. -/
def State.ringSpot (s : State) (q : Partition) : Option (List Nat) :=
  (q.ring.bind fun r =>
    if r.used < r.cap then s.vaRun q.idx r.vf (r.base + 272 * ((r.oldest + r.used) % r.cap)) 272 true else none).filter fun ks =>
      (s.partial? ks).isNone

/-- R395: the records that a ring's reader has not taken, oldest first. -/
def State.ringUnread (s : State) (q : Partition) : List (List Byte) :=
  match q.ring with
  | none => []
  | some r => (List.range r.used).filterMap fun j =>
    (s.vaRun q.idx r.vf (r.base + 272 * ((r.oldest + j) % r.cap)) 272 false).map fun ks => ks.map s.rdMain
/-- R395: a ring goes with its partition. What its reader has not taken the Hub keeps again, where it can keep all of it beside the records
that close with the virtual functions (log 77). -/
def State.takeRing (s : State) (p : Nat) : State :=
  match s.part? p with
  | none => s
  | some q =>
    let t := s.mapPart p fun x => { x with ring := none }
    let n := s.ringUnread q
    if n.length + (s.logOf p).closed.length + q.vfs.length ≤ 64 then t.mapLog p fun x => { x with closed := n ++ x.closed } else t

/-- R395: the oldest closed record goes to the ring, if there is room. -/
def State.flushOne (s : State) (p : Nat) : State :=
  match (s.logOf p).closed, (s.part? p).bind s.ringSpot with
  | b :: rest, some ks =>
    ((s.wrs (ks.zip b)).mapLog p fun x => { x with closed := rest }).mapPart p fun x =>
      { x with ring := x.ring.map fun (r : Ring) => { r with used := r.used + 1 } }
  | _, _ => s
/-- R395: closed records go to the ring in order, while there is room. -/
def State.flushRing (s : State) (p : Nat) : State := (List.range 65).foldl (fun t _ => t.flushOne p) s

/-- R395: the Hub can close one more record of a partition. -/
def State.canClose (s : State) (p : Nat) : Bool := (s.logOf p).closed.length < 64

/-- R392 to R395: a record of a partition closes. -/
def State.closeRecord (s : State) (p : Nat) (u : Usage) : State :=
  let q := s.logOf p
  let b := u.bytes q.seq s.clk.hub p q.prev
  let d := sha384 b
  (s.mapLog p fun x => { x with
    closed := x.closed ++ [b ++ recordSig s.md.boots p q.seq u.kind d], seq := x.seq + 1, prev := d }).flushRing p

/-- R395: the system image registers a ring. -/
def State.setRing (s : State) (p : Nat) (r : Ring) : State := (s.mapPart p fun x => { x with ring := some r }).flushRing p

/-- R395: the reader of a ring has taken its oldest records, and there is space again (log 77). -/
def State.ringRead (s : State) (p n : Nat) : State :=
  (s.mapPart p fun x => { x with ring := x.ring.map fun (r : Ring) =>
    { r with used := r.used - min n r.used, oldest := (r.oldest + min n r.used) % r.cap } }).flushRing p
/-- R395: the partitions whose closed records can go to their rings. -/
def State.flushable (s : State) : List Nat :=
  (s.parts.filter fun q => !(s.logOf q.idx).closed.isEmpty && (s.ringSpot q).isSome).map Partition.idx

/-! ### Events -/

/-- R392: the counts of a virtual function start again. -/
def Vf.resetCounts (f : Vf) (now : Nat) : Vf :=
  { f with passes := [], issue := 0, hbmBytes := 0, fabBytes := 0, kvhold := 0, opened := now }

/-- R392, R395. -/
def execUsageIntervalEnd (part vf : Nat) (s : State) : Host.Outcome State Fault Refusal :=
  .next (match s.part? part, s.vf? part vf with
    | some q, some f =>
      if f.opened + q.intv * 2 ^ 20 ≤ s.clk.hub && s.canClose part then
        (s.closeRecord part (Usage.ofVf f 0)).mapVf part vf fun x => x.resetCounts s.clk.hub
      else s
    | _, _ => s)

/-- Every virtual function of the module changes. -/
def State.mapVfs (s : State) (f : Vf → Vf) : State :=
  { s with parts := s.parts.map fun q => { q with vfs := q.vfs.map f } }

/-- R392. -/
def execKvholdSample (s : State) : Host.Outcome State Fault Refusal :=
  .next (if s.md.sampled + 1200000 ≤ s.clk.hub then
      let t := s.mapVfs fun f => { f with kvhold := f.kvhold + f.kvHeld }
      { t with md := { t.md with sampled := t.md.sampled + 1200000 } }
    else s)

/-- R390: the allowances of a chip refill. -/
def execQuotaWindow (chip : Nat) (s : State) : Host.Outcome State Fault Refusal :=
  .next (
    let start := getKey s.md.windows chip 0
    if start + 12000 ≤ s.clk.hub then
      { s with
        uses := s.uses.map fun (u : Use) =>
          if u.chip = chip then { u with hbm := 0, copy := 0, rates := s.renew u.part u.vf Rates.atWindow u.rates } else u
        md := { s.md with windows := setKey s.md.windows chip (start + 12000) } }
    else s)

end Sys2Proof.Machine
end

