-- ==== Sys2Proof/Machine/Operator.lean ====
section
/-! DEFINITION. The operator's requests: partitions, virtual functions, enrolment, keys, marks and Hub slots (R71, R385 to
R391, R394, R400). -/

namespace Sys2Proof.Machine

/-! ### The operator mailbox (R385) -/

/-- R359, R361, R381: the end of the physical memory that the operator and the host reach: HBM, then the CXL tier, but for what the Hub
reserves (log 59). -/
def physEnd : Nat := ilulothMem

/-- The operator's addresses are physical (log 34). -/
def State.physRun (s : State) (a n : Nat) : Option (List Nat) :=
  if a + n ≤ physEnd && (places a n).all (fun k => s.eccAt k == 0) then some (places a n) else none
def State.physBytes (s : State) (a n : Nat) : Option (List Byte) := (s.physRun a n).map fun ks => ks.map s.rdMain
/-- A write to physical memory; one that cannot be made is dropped (log 30). -/
def State.physWrite (s : State) (a n x : Nat) : State :=
  if a + n ≤ physEnd && (s.partial? (places a n)).isNone then s.wrN a n x else s

/-- R362, R385: Iluloth writes STATUS last, and turns to the next request. -/
def State.answerOp (s : State) (q : MailReq) (st : Nat) : State :=
  let t := s.physWrite (q.addr + 4) 4 st
  { t with md := { t.md with opmail := t.md.opmail.filter fun x => x.id != q.id } }

/-- R385: the oldest operator request is served, if its OP is the event's. `k` answers with a STATUS and the change; a STATUS
of 0 leaves the request pending, and none makes it wait. An unknown OP is a bad argument, and is met by `pset`. `kind` is
the Iluloth image that serves the request (R380). -/
def State.serveOp (s : State) (op kind : Nat) (k : MailReq → List Byte → Option (Nat × (State → State))) :
    Host.Outcome State Fault Refusal :=
  .next (match s.md.opmail with
    | [] => s
    | q :: _ =>
      if s.holdsKind kind then s
      else match if q.addr % 64 = 0 then s.physBytes q.addr 64 else none with
        | none => s.answerOp q (if q.addr % 64 = 0 then 6 else 5)
        | some bs =>
          let o := field bs 0 4
          if o != op then (if op = 16 && (o < 16 || 24 < o) then s.answerOp q 5 else s)
          else match k q bs with
            | none => s
            | some (0, c) => c s
            | some (st, c) => (c s).answerOp q st)

/-! ### Grants (R386) -/

/-- A retired channel's units are granted no more (R402). -/
def State.unitRetired (s : State) (u : Nat) : Bool := s.retiredAt (u * unitBytes)

/-- The units that partitions and virtual functions hold, but for those of one partition. -/
def State.unitsHeld (s : State) (but : Nat) : List Nat :=
  (s.parts.filter fun q => q.idx != but).flatMap fun q => q.hbm ++ q.cxl ++ q.vfs.flatMap Vf.kvUnits

/-- The HBM units of some chips, the chips in turn (log 22); the last unit of each chip is the Hub's own, for its tables and the sequence
records (R148, R359). -/
def hbmUnits (chips : List Nat) : List Nat := (List.range 2047).flatMap fun j => chips.map fun c => 2048 * c + j
/-- The units of the CXL tier, but for those that the Hub reserves (log 59). -/
def cxlUnits : List Nat := (List.range 62462).map (2 ^ 14 + ·)

/-- The first free units of a list; none where there are too few. -/
def State.takeUnits (s : State) (from_ used : List Nat) (n : Nat) : Option (List Nat) :=
  let l := (from_.filter fun u => !used.contains u && !s.unitRetired u).take n
  if l.length = n then some l else none

/-! ### PSET (R40, R386, R388, R400) -/

/-- R386: a partition descriptor. -/
structure PartDesc where
  clumask : Nat
  pool : Nat
  pmodes : Nat
  vfn : Nat
  degm : Nat
  hbmg : Nat
  cxlg : Nat
  intv : Nat
  fpool : Nat
  zero : Bool
  deriving DecidableEq, Repr

/-- R386: INTV 0 selects the default (log 35). -/
def partDescOf (bs : List Byte) : PartDesc :=
  { clumask := field bs 0 4, pool := field bs 4 1, pmodes := field bs 5 1, vfn := field bs 6 1, degm := field bs 7 1
    hbmg := field bs 8 4, cxlg := field bs 12 4, intv := if field bs 16 4 = 0 then 1144 else field bs 16 4
    fpool := field bs 20 4, zero := (bs.drop 24).all fun b => b == 0 }

/-- The chips that hold clusters of a mask. -/
def maskChips (m : Nat) : List Nat := (List.range 8).filter fun c => (List.range 4).any fun k => m.testBit (4 * c + k)
/-- R386: the units of a grant that hold the frame pools. -/
def poolUnits (fpool chips : Nat) : Nat := (fpool * chips * 2 ^ 20 + unitBytes - 1) / unitBytes

/-- R386, R400: a field lies outside its range, or the frame pools do not fit. -/
def PartDesc.bad (d : PartDesc) : Bool :=
  d.clumask == 0 || 2 < d.pool || d.pmodes == 0 || 3 < d.pmodes || d.vfn == 0 || 8 < d.vfn || 1 < d.degm
  || 2 ^ 20 < d.intv || !d.zero || d.hbmg < poolUnits d.fpool (maskChips d.clumask).length

/-- R388: a partition has resident groups or mapped frames. -/
def State.partBusy (s : State) (p : Nat) : Bool :=
  s.allGroups.any (fun g => g.part == p) || s.kv.any (fun b => b.part == p)
  || match s.part? p with | some q => q.vfs.any (fun f => !f.table.isEmpty) | none => false

/-- R40: the largest pool of the partitions of a chip. -/
def largestPool (ps : List Partition) (chip : Nat) : Nat :=
  ((ps.filter fun q => q.chips.contains chip).map fun q => 2 ^ (19 + q.pool)).foldl max 0
/-- R40: the pools of every chip that some partition uses. -/
def poolSizes (ps : List Partition) : List (Nat × Nat) :=
  (List.range 8).filterMap fun c => if largestPool ps c = 0 then none else some (c, largestPool ps c)

/-- R386: the change would alter the slice of a chip that another partition uses. -/
def State.slicesMove (s : State) (others : List Partition) (q : Partition) : Bool :=
  (List.range 8).any fun c => others.any (fun x => x.chips.contains c) && largestPool (q :: others) c != s.poolSize c

/-- R400, R401: DEG of an engine with a retired quadrant: speed or narrow mode. -/
def Engine.degrade (e : Engine) (degm : Nat) : Engine :=
  if e.deg.getLsbD 3 then { e with deg := e.deg - (e.deg &&& 3) + (if degm = 0 then 1 else 2) } else e

/-- R386: the clusters of a partition, by their index within the module. -/
def maskClusters (m : Nat) : List Nat := (List.range 32).filter m.testBit

/-- The sequence slots of a partition. -/
def State.slotsOf (s : State) (p : Nat) : List Nat := (s.seqs.filter fun x => x.part == p).map Seq.slot

/-- R389: every group of a partition ends, with all that it has outstanding. -/
def State.endGroups (s : State) (p : Nat) : State :=
  let ids := (s.allGroups.filter fun g => g.part == p).map Group.id
  let t := ids.foldl (fun t i => (t.clearGroup i).dropGroup i) s
  let mine (i : Nat) : Bool := ids.contains i
  { t with
    pend := t.pend.filter fun o => o.part != p
    strays := t.strays.filter fun q => q.part != p
    copies := t.copies.filter fun c => c.part != p
    engines := t.engines.map fun e => (e.1, { e.2 with cmds := e.2.cmds.filter fun c => c.part != p })
    tagHold := t.tagHold.filter fun q => !mine q.1
    laps := t.laps.filter fun l => !mine l.gid
    traps := t.traps.filter fun r => !mine r.gid
    gtimers := t.gtimers.filter fun g => !mine g.1
    frames := t.frames.filter fun f => f.part != p
    ready := t.ready.filter fun q => q.part != p
    waiters := t.waiters.filter fun w => w.part != p
    hwq := t.hwq.filter fun q => q.part != p
    records := t.records.filter fun r => r.part != p }

/-- R392: the records of a partition's virtual functions close as they are deleted. -/
def State.closeVfs (s : State) (p : Nat) : State :=
  match s.part? p with
  | some q => q.vfs.foldl (fun u f => u.closeRecord p (Usage.ofVf f 2)) s
  | none => s
/-- R395: the Hub can keep the records that close with a partition's virtual functions. -/
def State.canCloseVfs (s : State) (p : Nat) : Bool :=
  (s.logOf p).closed.length + ((s.part? p).map fun q => q.vfs.length).getD 0 ≤ 64
/-- What a partition that is built anew leaves behind: its virtual functions and their tasks (R137, R392). The Hub slots that they
held stay held (R71). -/
def State.endPart (s : State) (p : Nat) : State := ((s.takeRing p).closeVfs p).endGroups p

/-- R386: a partition is built, or the STATUS of the refusal. -/
def State.buildPart (s : State) (p : Nat) (bs : List Byte) : Nat × State :=
  let d := partDescOf bs
  let others := s.parts.filter fun q => q.idx != p
  let chips := maskChips d.clumask
  if 23 < p || d.bad then (5, s)
  else if s.partBusy p || others.any (fun q => q.clumask.toNat &&& d.clumask != 0) then (4, s)
  else match s.takeUnits (hbmUnits chips) (s.unitsHeld p) d.hbmg, s.takeUnits cxlUnits (s.unitsHeld p) d.cxlg with
    | some hbm, some cxl =>
      let q : Partition :=
        { idx := p, clumask := BitVec.ofNat 32 d.clumask, pool := d.pool, pmodes := d.pmodes, vfn := d.vfn, degm := d.degm
          intv := d.intv, fpool := d.fpool, hbm := hbm, cxl := cxl, handler := none, ring := none, vfs := [] }
      if s.slicesMove others q then (4, s)
      else
        let e := s.endPart p
        let t : State := { e with
          parts := others ++ [q]
          poolSz := poolSizes (q :: others)
          seqs := e.seqs.filter fun x => x.part != p
          members := e.members.filter fun m => !(s.slotsOf p).contains m.slot
          msgs := e.msgs.filter fun m => !(s.slotsOf p).contains m.slot
          laps := e.laps.filter fun l => !(s.slotsOf p).contains l.slot
          uses := e.uses.filter fun u => u.part != p
          slices := e.slices.filter fun o => o.part != p }
        (1, (maskClusters d.clumask).foldl (fun t c => t.mapEngine c fun e => e.degrade d.degm) t)
    | _, _ => (4, s)

/-- R377: the stored configuration takes over a request that has succeeded (log 36). -/
def State.store (s : State) (op p v : Nat) (bs : List Byte) : State :=
  { s with md := { s.md with
    stored := (s.md.stored.filter fun x => !(x.op == op && x.part == p && x.vf == v)) ++ [⟨op, p, v, bs⟩] } }

/-- R386, R392: records of virtual functions that go with a rebuild close first; the request waits while the Hub can keep no more. -/
def execPset (s : State) : Host.Outcome State Fault Refusal :=
  s.serveOp 16 1 fun _ bs =>
    let p := field bs 8 1
    match s.physBytes (field bs 16 8) 64 with
    | none => refuse 5
    | some d =>
      let r := s.buildPart p d
      if r.1 != 1 then refuse r.1 else if !s.canCloseVfs p then none else some (1, fun _ => r.2.store 16 p 0 d)

/-! ### VSET (R147, R151, R387, R388) -/

/-- R387: a virtual function's descriptor. -/
structure VfDesc where
  slice : Nat
  passq : Nat
  hbmsh : Nat
  cpysh : Nat
  fabq : Nat
  kvq : Nat
  seqn : Nat
  weight : List Nat
  kvkey : Nat
  kvw : Nat
  hbmv : Nat
  cxlv : Nat
  zero : Bool
  deriving DecidableEq, Repr

/-- R387: SLICE 0 selects the default (log 35). -/
def vfDescOf (bs : List Byte) : VfDesc :=
  { slice := if field bs 0 4 = 0 then 85000 else field bs 0 4, passq := field bs 4 4, hbmsh := field bs 8 1, cpysh := field bs 9 1
    fabq := field bs 12 4, kvq := field bs 16 4, seqn := field bs 20 4, weight := (List.range 16).map fun j => field bs (24 + j) 1
    kvkey := field bs 40 1, kvw := field bs 42 2, hbmv := field bs 44 4, cxlv := field bs 48 4
    zero := field bs 10 2 == 0 && field bs 41 1 == 0 && (bs.drop 52).all fun b => b == 0 }

def VfDesc.bad (d : VfDesc) : Bool := d.slice < 8500 || 8500000 < d.slice || 511 < d.kvw || !d.zero

/-- The KV windows that other virtual functions of the module carry. -/
def State.kvwUsed (s : State) (p v : Nat) : List Nat :=
  s.parts.flatMap fun q => (q.vfs.filter fun f => !(q.idx == p && f.vf == v)).map Vf.kvw

/-- R361: a KV window that no other virtual function of the module carries, and in which the virtual function has no page mapped. -/
def State.kvwFree (s : State) (p v n : Nat) : Bool :=
  n != 0 && !(s.kvwUsed p v).contains n && !(s.vf? p v).any fun f => f.table.any fun l => l.va / 2 ^ 49 == n
/-- R151, R361, R387: the KV window of a virtual function with slots or quota: the one asked for, the one it has, or the lowest free
one (log 74). One that another virtual function of the module carries is refused in every case. -/
def State.chooseKvw (s : State) (p v : Nat) (d : VfDesc) : Option Nat :=
  let old := ((s.vf? p v).map Vf.kvw).getD 0
  if d.kvw != 0 && (s.kvwUsed p v).contains d.kvw then none
  else if d.kvq = 0 && d.seqn = 0 && s.seqs.all fun q => !(q.part == p && q.vf == v) then some 0
  else if d.kvw != 0 then (if d.kvw = old || s.kvwFree p v d.kvw then some d.kvw else none)
  else if old != 0 then some old
  else (List.range 512).find? (s.kvwFree p v)

/-- R147: the slots that Iluloth assigns to a virtual function: those it has, then the lowest free ones of its chips. -/
def State.assignSeqs (s : State) (p v n : Nat) (chips : List Nat) : Option (List Seq) :=
  let have_ := (s.seqs.filter fun q => q.part == p && q.vf == v).length
  let free := ((List.range 8192).filter fun k => chips.contains (homeOf k) && s.seqs.all fun q => q.slot != k).take (n - have_)
  if free.length = n - have_ then some (free.map fun k => Seq.fresh k p v (s.global (homeOf k))) else none

/-- R386, R388: the share of a grant: the first units that no other virtual function holds or maps. -/
def shareOf (grant held : List Nat) (n : Nat) : Option (List Nat) :=
  let l := (grant.filter fun u => !held.contains u).take n
  if l.length = n then some l else none

/-- The units that a virtual function holds, or in which it has mapped frames. -/
def Vf.unitsUsed (f : Vf) : List Nat := f.hbm ++ f.cxl ++ f.table.map fun l => l.pa / unitBytes

/-- R149, R161: the entries of a chip's free list of a tier that a quota adds, each block, by its number, with its frame. -/
def newBlocks (chip tier : Nat) (nos units : List Nat) : List (Nat × Nat × Nat × Nat) :=
  ((nos.take (4096 * units.length)).zip (List.range (4096 * units.length))).map fun x =>
    (chip, tier, x.1, units.getD (x.2 / 4096) 0 * 4096 + x.2 % 4096)

/-- The blocks of a chip and tier that a virtual function has, held or free. -/
def State.blocksOf (s : State) (p v : Nat) (f : Vf) (chip tier : Nat) : Nat :=
  (s.kv.filter fun b => b.part == p && b.vf == v && b.chip == chip && b.tier == tier).length
    + (f.freeKv.filter fun x => x.1 == chip && x.2.1 == tier).length

/-- R150: numbers of 23 bits for `n` blocks of a chip and tier: those above all that the module's virtual functions have, or the lowest
that none has (log 27). -/
def State.blockNos (s : State) (chip tier n : Nat) : List Nat :=
  let used := ((s.kv.filter fun b => b.chip == chip && b.tier == tier).map KvBlock.block)
    ++ s.parts.flatMap fun q => q.vfs.flatMap fun f => (f.freeKv.filter fun x => x.1 == chip && x.2.1 == tier).map fun x => x.2.2.1
  let next := used.foldl (fun m b => max m (b + 1)) 0
  if next + n ≤ 2 ^ 23 then (List.range n).map (next + ·) else ((List.range (2 ^ 23)).filter fun b => !used.contains b).take n

/-- R387: the free lists of a virtual function grow to its quota, chip by chip and tier by tier (log 27). -/
def State.growKv (s : State) (p v kvq : Nat) (chips : List Nat) : State :=
  chips.foldl (fun t c => [0, 1].foldl (fun t tier =>
    match t.vf? p v with
    | none => t
    | some f =>
      let old := t.blocksOf p v f c tier
      let n := kvq - old
      let pool := if tier = 0 then hbmUnits [c] else cxlUnits
      let us := (pool.filter fun u => !(t.unitsHeld 24).contains u && !t.unitRetired u).take ((n + 4095) / 4096)
      t.mapVf p v fun f =>
        { f with kvUnits := f.kvUnits ++ us, freeKv := f.freeKv ++ newBlocks c tier (t.blockNos c tier n) us }) t) s

/-- A virtual function as it first comes to be. -/
def Vf.fresh (v now : Nat) : Vf :=
  { vf := v, slice := 85000, passq := 0, hbmsh := 0, cpysh := 0, fabq := 0, kvq := 0, seqn := 0, weight := [], kvkey := 0
    kvw := 0, hbm := [], cxl := [], kvUnits := [], table := [], queues := [], pass := [], served := [], qage := []
    slots := [], mbreq := 0, mbovf := false, mail := [], kvHeld := 0, freeKv := [], msix := 0, passes := [], issue := 0
    hbmBytes := 0, fabBytes := 0, kvhold := 0, opened := now, aged := [] }

/-- R388: the settings of a running virtual function hold on until the next slice or window. -/
def State.keepRates (s : State) (p : Nat) (f : Vf) (chips : List Nat) : State :=
  chips.foldl (fun t c => t.mapUse c p f.vf fun u => { u with rates := some (t.ratesOf c p f.vf) }) s

/-- R387, R388: a virtual function is set, or the STATUS of the refusal. -/
def State.buildVf (s : State) (p v : Nat) (bs : List Byte) : Nat × State :=
  let d := vfDescOf bs
  match s.part? p with
  | none => (5, s)
  | some q =>
    if q.vfn ≤ v || d.bad then (5, s)
    else
      let old := s.vf? p v
      let held := (q.vfs.filter fun f => f.vf != v).flatMap Vf.unitsUsed
      let grant := q.hbm.take (q.hbm.length - poolUnits q.fpool q.chips.length)
      match s.chooseKvw p v d, s.assignSeqs p v d.seqn q.chips, shareOf grant held d.hbmv, shareOf q.cxl held d.cxlv with
      | some kvw, some seqs, some hbm, some cxl =>
        let f := old.getD (Vf.fresh v s.clk.hub)
        let t := match old with | some o => s.keepRates p o q.chips | none => s
        let x := { f with
          slice := d.slice, passq := d.passq, hbmsh := d.hbmsh, cpysh := d.cpysh, fabq := d.fabq, kvq := d.kvq
          seqn := d.seqn, weight := d.weight, kvkey := d.kvkey, kvw := kvw, hbm := hbm, cxl := cxl }
        let u : State := { t.mapPart p fun y => { y with vfs := x :: y.vfs.filter fun z => z.vf != v } with
          seqs := t.seqs ++ seqs }
        (1, u.growKv p v d.kvq q.chips)
      | _, _, _, _ => (4, s)

/-- R387. -/
def execVset (s : State) : Host.Outcome State Fault Refusal :=
  s.serveOp 17 1 fun _ bs =>
    let p := field bs 8 1
    let v := field bs 9 1
    match s.physBytes (field bs 16 8) 64 with
    | none => refuse 5
    | some d =>
      let r := s.buildVf p v d
      if r.1 = 1 then some (1, fun _ => r.2.store 17 p v d) else refuse r.1

/-! ### PDEL (R389, R392) -/

/-- R391: the places at which frames are seen under a slot's key pair, whoever maps them now (log 73). -/
def State.underKey (s : State) (k : KeySlot) : List Nat :=
  framePlaces ((s.md.keyed.filter fun x => x.2 == k.serial).map Prod.fst)
    ++ (s.md.views.filter fun x => x.serial == k.serial).flatMap fun x => places (viewAt (x.frame * 2 ^ 14) x.no) (2 ^ 14)
/-- R391: what is stored under a cleared key comes back as plaintext to no party: its bytes are free values. -/
def State.scramble (s : State) (k : KeySlot) : State :=
  let fs := (s.md.keyed.filter fun x => x.2 == k.serial).map Prod.fst
  let t := fs.foldl (fun t f => t.noteView f 0) (s.garble (s.underKey k))
  { t with md := { t.md with keyed := t.md.keyed.filter fun x => x.2 != k.serial, views := t.md.views.filter fun x => x.serial != k.serial } }
/-- R389, R391: slots are cleared. -/
def State.clearKeys (s : State) (t : KeySlot → Bool) : State :=
  let u := (s.md.keys.filter t).foldl State.scramble s
  { u with md := { u.md with keys := u.md.keys.filter fun k => !t k } }

/-- R389: the places that are zeroed: the grants, the frames of the pools, the context areas, and the SRAM of the partition's cores. -/
def Partition.zeroes (q : Partition) (k : Nat) : Bool :=
  let us := q.hbm ++ q.cxl ++ q.vfs.flatMap Vf.kvUnits
  let core (b : Nat) : Bool :=
    b ≤ k && k < b + 128 * 2 ^ 24 && q.holds ((k - b) / 2 ^ 28) ((k - b) / 2 ^ 24 % 16)
  (k < 2 ^ 53 && us.contains (physAt k / unitBytes)) || core (2 ^ 53) || core (2 ^ 54)
  || (2 ^ 59 + q.idx * 2 ^ 36 ≤ k && k < 2 ^ 59 + (q.idx + 1) * 2 ^ 36)
  || (2 ^ 81 ≤ k && (k - 2 ^ 81) / 2 ^ 36 % 32 == q.idx)

/-- R389: what the module keeps for a partition's virtual functions goes. -/
def State.dropPart (s : State) (q : Partition) : State :=
  let slots := s.slotsOf q.idx
  let keep (l : List TlbEntry) := l.filter fun e => e.part != q.idx
  let t := (s.hub.filter fun h => h.part == q.idx).foldl (fun t h => t.freeHub h.idx) s
  let parts := t.parts.filter fun x => x.idx != q.idx
  { t with
    parts := parts
    poolSz := poolSizes parts
    mem := t.mem.filter fun c => !q.zeroes c.1
    ecc := t.ecc.filter fun e => !(eccPlaces e.1).any q.zeroes
    kv := t.kv.filter fun b => b.part != q.idx
    seqs := t.seqs.filter fun x => x.part != q.idx
    members := t.members.filter fun m => !slots.contains m.slot
    msgs := t.msgs.filter fun m => !slots.contains m.slot
    tlbs := t.tlbs.map fun x => (x.1, keep x.2)
    walkers := t.walkers.map fun x => (x.1, keep x.2)
    uses := t.uses.filter fun u => u.part != q.idx
    slices := t.slices.filter fun o => o.part != q.idx
    images := t.images.filter fun m => m.part != q.idx
    md := { t.md with
      stored := t.md.stored.filter fun x => x.part != q.idx
      keyed := t.md.keyed.filter fun x => !q.zeroes (x.1 * 2 ^ 14)
      views := t.md.views.filter fun x => !q.zeroes (x.frame * 2 ^ 14) } }

/-- R389, R392: the deletion records close first; the request waits while the Hub can keep no more. -/
def execPdel (s : State) : Host.Outcome State Fault Refusal :=
  s.serveOp 18 1 fun _ bs =>
    let p := field bs 8 1
    match s.part? p with
    | none => refuse 5
    | some q =>
      if !s.canCloseVfs p then none
      else some (1, fun t => ((((t.takeRing p).endGroups p).closeVfs p).clearKeys fun k => k.part == p).dropPart q)

/-! ### ENROLL, KLOAD, KCLR (R376, R391) -/

/-- R385. -/
def execEnroll (s : State) : Host.Outcome State Fault Refusal :=
  s.serveOp 19 1 fun _ bs =>
    let p := field bs 8 1
    match s.physBytes (field bs 16 8) 96 with
    | none => refuse 5
    | some d =>
      if 23 < p then refuse 5
      else some (1, fun t => (t.mapLog p fun x => { x with pubkey := BitVec.ofNat 768 (beNat d) }).store 19 p 0 d)

/-- R391: the key pair that a KLOAD brings: generated, or imported under the partition's enrolled key. -/
def State.newKey (s : State) (p mode addr : Nat) : Option (BitVec 512) :=
  if mode = 0 then some (Config.generatedKey s.md.keyGen)
  else (s.physBytes addr 72).bind fun b => Config.unwrapKey (s.logOf p).pubkey (BitVec.ofNat 576 (beNat b))

/-- The frames of a virtual function whose mappings name a slot, and those of its KV blocks that do. -/
def State.keyPages (s : State) (k : KeySlot) : List Nat :=
  match s.vf? k.part k.vf with
  | some f => (f.table.filter fun l => l.key == k.slot).flatMap fun l => pageFrames l.pa l.size
  | none => []
def State.keyBlocks (s : State) (k : KeySlot) : List Nat :=
  (s.kv.filter fun b => b.part == k.part && b.vf == k.vf && b.chip < 8 && b.key == k.slot).map KvBlock.frame
/-- R391: a key pair is loaded, and what names its slot comes under it. -/
def State.putKey (s : State) (k : KeySlot) : State :=
  let t : State := { s with md := { s.md with keys := k :: s.md.keys }, nextId := s.nextId + 1 }
  (s.keyBlocks k).foldl (fun u f => u.rekeyBlock f k.slot) (t.rekey (s.keyPages k) k.slot)
/-- Key pairs that the Hub has generated. -/
def State.bumpGen (s : State) (n : Nat) : State := { s with md := { s.md with keyGen := s.md.keyGen + n } }

/-- R391. -/
def execKload (s : State) : Host.Outcome State Fault Refusal :=
  s.serveOp 20 1 fun _ bs =>
    let slot := field bs 8 1
    let p := field bs 9 1
    let v := field bs 10 1
    let mode := field bs 11 1
    if slot = 0 || 1 < mode || (s.vf? p v).isNone then refuse 5
    else if s.md.keys.any fun k => k.slot == slot then refuse 4
    else match s.newKey p mode (field bs 16 8) with
      | none => refuse 5
      | some k => some (1, fun t => (t.putKey ⟨slot, p, v, k, t.nextId + 1⟩).bumpGen (if mode = 0 then 1 else 0))

/-- R391: a mapping or a KV block of the module names the slot, whoever it belongs to. -/
def State.keyUsed (s : State) (k : KeySlot) : Bool :=
  s.kv.any (fun b => b.chip < 8 && b.key == k.slot) || s.parts.any fun q => q.vfs.any fun f => f.table.any fun l => l.key == k.slot

/-- R391. -/
def execKclr (s : State) : Host.Outcome State Fault Refusal :=
  s.serveOp 21 1 fun _ bs =>
    let slot := field bs 8 1
    if slot = 0 then refuse 5
    else if !(field bs 9 1).testBit 0 && s.md.keys.any (fun k => k.slot == slot && s.keyUsed k) then refuse 4
    else some (1, fun t => t.clearKeys fun k => k.slot == slot)

/-! ### LSIGN, HFREE and the function level reset (R71, R394) -/

/-- R394: a mark is emitted as soon as the Hub can keep it. -/
def execLsign (s : State) : Host.Outcome State Fault Refusal :=
  s.serveOp 22 1 fun _ bs =>
    let p := field bs 8 1
    if (s.part? p).isNone then refuse 5
    else if !s.canClose p then none
    else some (1, fun t => t.closeRecord p Usage.mark)

/-- R71: the Hub slots of a virtual function that satisfy a test are freed. -/
def State.freeHubs (s : State) (p v : Nat) (t : Nat → Bool) : State :=
  (s.hub.filter fun h => h.part == p && h.vf == v && t h.idx).foldl (fun u h => u.freeHub h.idx) s

/-- R71, R385. -/
def execHfree (s : State) : Host.Outcome State Fault Refusal :=
  s.serveOp 24 1 fun _ bs =>
    let p := field bs 8 1
    let v := field bs 9 1
    if (s.vf? p v).isNone then refuse 5 else some (1, fun t => t.freeHubs p v (field bs 16 8).testBit)

/-- R71. -/
def execFunctionLevelReset (part vf : Nat) (s : State) : Host.Outcome State Fault Refusal :=
  .next (s.freeHubs part vf fun _ => true)

end Sys2Proof.Machine
end

