-- ==== Sys2Proof/Machine/Firmware.lean ====
section
/-! DEFINITION. Power, boot, measurement and the live replacement of Iluloth images (R376 to R384, R403, R404). -/

namespace Sys2Proof.Machine

/-! ### Images (R376) -/

def FlashImage.kind (m : FlashImage) : Nat := field m.header 4 2
def FlashImage.svn (m : FlashImage) : Nat := field m.header 8 4
def FlashImage.ver (m : FlashImage) : Nat := field m.header 12 4
/-- R376: the digest of an image. -/
def FlashImage.digest (m : FlashImage) : BitVec 384 := sha384 (m.header ++ m.body)

/-- R376: the fields of the header keep the table. -/
def FlashImage.formOk (m : FlashImage) : Bool :=
  m.header.length == 128 && field m.header 0 4 == 0x494C5548 && 1 ≤ m.kind && m.kind ≤ 4 && field m.header 6 2 == 1
  && field m.header 16 8 == m.body.length && m.body.length % 4096 == 0 && m.body.length ≤ 2 ^ 26 && field m.header 24 8 == 0

/-- R376: an image that a key verifies, at or above the floor of its kind. -/
def FlashImage.valid (m : FlashImage) (key : BitVec 768) : Bool :=
  m.formOk && Config.svnFloor m.kind ≤ m.svn
  && ecdsaOk key (sha384 (m.header.take 32 ++ m.body)) (BitVec.ofNat 768 (beNat (m.header.drop 32)))

/-- An image of a kind that stands in a slot. -/
def State.flashOf (s : State) (slot kind part : Nat) : Option FlashImage :=
  s.md.flash.find? fun m => m.slot == slot && m.kind == kind && m.part == part

def FlashImage.firm (m : FlashImage) (seq : Nat) : Firmware := ⟨m.kind, m.svn, m.ver, m.digest, sha384 m.body, seq⟩

/-! ### Boot (R377, R378) -/

/-- R377, step 1: the image of a kind that boots. -/
def State.bootImage (s : State) (kind : Nat) : Option FlashImage :=
  let ok (slot : Nat) : Option FlashImage :=
    (s.flashOf slot kind 0).bind fun m => if m.valid Config.lartexKey then some m else none
  match ok 0 with | some m => some m | none => ok 1

def State.extend0 (s : State) (d : BitVec 384) : State := { s with md := { s.md with meas0 := extendMeas s.md.meas0 d } }

/-- R377, step 1: the images of the kinds in order; a kind without one leaves the module in recovery. -/
def State.bootFirm : List Nat → State → State
  | [], s => { s with md := { s.md with power := .on } }
  | k :: ks, s =>
    match s.bootImage k with
    | none => { s with md := { s.md with power := .recovery k } }
    | some m =>
      State.bootFirm ks ({ s with md := { s.md with firm := s.md.firm ++ [m.firm 0] } }.extend0 m.digest)

/-- R377, step 3: an optical port, or a chip port of the Hub, after training. -/
def Port.trained (p : Port) : Port := { p with lmask := if p.no < 32 then 0xFF else 1, state := 2 }
/-- R377, step 3: a port at a boot; an optical port that fails stays dark. -/
def Port.atBoot (boots : Nat) (p : Port) : Port := if 32 ≤ p.no || Config.portTrains boots p.no then p.trained else p

/-- R377, R402, step 2: the HBM channels that fail to train at a boot. -/
def deadChannels (boots : Nat) : List Nat := (List.range 512).filter fun c => !Config.channelTrains boots c
/-- R377, R398, step 3: the training of an optical port begins. -/
def Port.inTraining (p : Port) : Port := if p.no < 32 then { p with state := 1 } else p.trained
/-- R377, steps 2 and 3: memory and the links of the Hub are trained, what fails is retired and reported; the optical ports' training
begins. -/
def State.train (s : State) : State :=
  let n := s.md.boots
  { s with
    ports := s.ports.map Port.inTraining
    md := { s.md with
      power := .booting, retired := deadChannels n, reports := s.md.reports ++ (deadChannels n).map fun c => (7, c) } }
/-- R377, step 3: the optical ports have been trained; one that fails stays dark, and is reported. -/
def State.portsDone (s : State) : State :=
  let n := s.md.boots
  let dark := (s.ports.filter fun p => p.no < 32 && !Config.portTrains n p.no).map Port.no
  { s with
    ports := s.ports.map fun p => Port.atBoot n { p with state := 0 }
    md := { s.md with power := .on, reports := s.md.reports ++ dark.map fun p => (5, p) } }

/-- R377, step 4: the stored configuration; a request that cannot be met is left out. -/
def State.bootConfig (s : State) : State :=
  s.md.stored.foldl (fun t x =>
    match x.op with
    | 16 => (t.buildPart x.part x.bytes).2
    | 17 => (t.buildVf x.part x.vf x.bytes).2
    | _ => t.mapLog x.part fun l => { l with pubkey := BitVec.ofNat 768 (beNat x.bytes) }) s

/-- R377, step 5: system warps start on the first core of the partition that can take them. -/
def State.startSystem (s : State) (q : Partition) (k : Kernel) : State :=
  match (List.range 128).findSome? fun n =>
      if q.holds (n / 16) (n % 16) then (s.seat? (n / 16) (n % 16) k k.warps (k.warps * k.regs) 0).map fun x => (n, x) else none with
  | none => s
  | some x =>
    let id := s.nextId
    let t := (s.spend 3).reside
      { chip := x.1 / 16, core := x.1 % 16, part := q.idx, vf := 0, kern := k, coord := 0, entry := k.entry
        arg := Config.freeWord (s.free + 1) ++ Config.freeWord s.free, dwsBase := 0, fablim := 0, late := 512
        seed := Config.freeWord (s.free + 2), pmode := pmodeOf q.pmodes, prio := 0, rec_ := 0, slot := 0, warps := k.warps } x.2
    t.mapGroup id fun g => { g with sys := true }

/-- R377, step 5: a partition's system image. One that is refused leaves the partition stopped, and is reported. -/
def State.bootSystem (s : State) (q : Partition) : State :=
  match (s.flashOf 0 4 q.idx).bind fun m => if m.valid (s.logOf q.idx).pubkey then some m else none with
  | none =>
    let t := s.mapPart q.idx fun x => { x with stopped := true }
    { t with md := { t.md with reports := t.md.reports ++ [(1, q.idx)] } }
  | some m =>
    let t := (s.mapLog q.idx fun l => { l with meas1 := extendMeas l.meas1 m.digest }).mapPart q.idx fun x =>
      { x with handler := m.handler }
    match m.start with
    | some k => t.startSystem q k
    | none => t

/-- R377, steps 3 to 5: the ports have been trained, and the boot goes on. -/
def State.trained (s : State) : State :=
  match s.md.power with
  | .booting =>
    let u := s.portsDone.bootConfig
    u.parts.foldl State.bootSystem u
  | _ => s

/-- R377, steps 1 to 3. -/
def execPowerOn (s : State) : Host.Outcome State Fault Refusal :=
  .next (match s.md.power with
    | .off =>
      let t := State.bootFirm [1, 2, 3] { s with md := { s.md with boots := s.md.boots + 1 } }
      match t.md.power with
      | .on => t.train
      | _ => t
    | _ => s)

/-- R404: everything is lost but the flash, the stored configuration and the boot count (log 36). -/
def State.powerDown (s : State) : State :=
  { State.reset with
    agenda := s.agenda
    free := s.free
    nextId := s.nextId
    clk := { State.reset.clk with steps := s.clk.steps }
    md := { State.reset.md with boots := s.md.boots, flash := s.md.flash, stored := s.md.stored, keyGen := s.md.keyGen
                                reports := s.md.reports } }

/-- R404. -/
def execPowerLoss (s : State) : Host.Outcome State Fault Refusal := .next s.powerDown

/-- R403: reported over I3C, and the module is powered off. -/
def execCoolantCritical (s : State) : Host.Outcome State Fault Refusal :=
  .next { s with md := { s.md with reports := s.md.reports ++ [(2, 0)] } }.powerDown

/-- R403: the average of an interval decides whether grants and copies are delayed in the next. -/
def execPowerInterval (watts : Nat) (s : State) : Host.Outcome State Fault Refusal :=
  .next (if s.md.powerAt + 1200000 ≤ s.clk.hub then
      { s with md := { s.md with throttle := 3200 < watts, powerAt := s.md.powerAt + 1200000 } }
    else s)

/-- R378, R394: what a quote reports, with the device key's signature over it. -/
def execAttestationQuote (part : Nat) (s : State) : Host.Outcome State Fault Refusal :=
  let l := s.logOf part
  let key := Config.recordPublic s.md.boots part
  let words := [s.md.meas0.toNat, l.meas1.toNat, key.toNat] ++ l.events.flatMap fun e =>
    [e.event, e.kind, e.oldSvn, e.oldVer, e.newSvn, e.newVer, e.digest.toNat, e.seq, e.code, e.missed]
  .next { s with md := { s.md with quote := some (s.md.meas0, l.meas1, l.events, Config.quoteSign words, key) } }

/-! ### Live replacement (R379 to R384) -/

def State.mapRepl (s : State) (f : Repl → Repl) : State := { s with md := { s.md with repl := f s.md.repl } }
/-- The image of a kind that runs. -/
def State.running (s : State) (kind : Nat) : Option Firmware := s.md.firm.find? fun f => f.kind == kind

/-- R383: an event goes to the log of every partition. -/
def State.logAll (s : State) (e : LogEvent) : State :=
  s.parts.foldl (fun t q => t.mapLog q.idx fun l => { l with events := l.events ++ [e] }) s

/-- R380: a staged image that may replace the running one. -/
def State.staged (s : State) (kind : Nat) : Option FlashImage :=
  (s.flashOf 1 kind 0).bind fun m =>
    match s.running kind with
    | some f => if m.valid Config.lartexKey && f.svn ≤ m.svn then some m else none
    | none => none

/-- R379, R380: GO is written with a KIND; the staged image is verified next. -/
def execReplctlGo (kind : Nat) (s : State) : Host.Outcome State Fault Refusal :=
  .next (
    let k := kind % 4
    if s.md.repl.phase != 0 then s.mapRepl fun r => { r with code := 3 }
    else if k = 0 then s.mapRepl fun r => { r with ctlKind := k, kind := k, code := 2 }
    else s.mapRepl fun r => { r with ctlKind := k, kind := k, go := true, phase := 1, trial := none })

/-- R380: the staged image has been checked; the old image quiesces, or the replacement is refused. -/
def State.verified (s : State) : State :=
  if s.md.repl.phase != 1 then s
  else match s.staged s.md.repl.kind with
    | none => s.mapRepl fun r => { r with go := false, phase := 0, code := 2 }
    | some m => s.mapRepl fun r => { r with phase := 2, trial := some (m.firm 0) }

/-- R380: what the old image still has in progress. -/
def State.inProgress (s : State) (kind : Nat) : Bool :=
  (kind == 2 && s.parts.any fun q => q.vfs.any fun f => f.table.any fun l => l.dest.isSome)
  || (kind == 3 && s.md.cset.isSome)

/-- R381: the hand-over record that the old image writes. -/
def handOf (old : Firmware) : HandOver :=
  let v := Config.imageFormat old.body
  let b := Config.stateBlock old.kind old.seq
  ⟨v.1, v.2, old.kind, old.seq, BitVec.ofNat 64 (Config.stateOffset old.kind old.seq), BitVec.ofNat 64 b.length, sha384 b⟩
/-- R381: the places of the hand-over record, in memory that only Iluloth reaches (log 59). -/
def recordKeys : List Nat := places ilulothMem 128
/-- R381: the places of a state block of `n` bytes, behind the record's unit (log 59). -/
def stateKeys (off n : Nat) : List Nat := (List.range n).map fun j => ilulothMem + unitBytes + (off + j) % unitBytes
/-- R381: the state block that the new image finds where the record says. -/
def State.blockFound (s : State) (h : HandOver) : List Byte := (stateKeys h.soff.toNat h.slen.toNat).map s.rd
/-- R381: the bytes of a hand-over record, in memory that only Iluloth reaches. -/
def HandOver.bytes (h : HandOver) : List Byte :=
  leBytes 4 0x48494E44 ++ leBytes 2 h.major ++ leBytes 2 h.minor ++ leBytes 2 h.kind ++ leBytes 6 0 ++ leBytes 8 h.seq
    ++ leBytes 8 h.soff.toNat ++ leBytes 8 h.slen.toNat ++ digestBytes h.sdig ++ leBytes 40 0
/-- R381: the record that the new image finds. -/
def State.handFound (s : State) : HandOver :=
  let b := recordKeys.map s.rd
  ⟨field b 4 2, field b 6 2, field b 8 2, field b 16 8, BitVec.ofNat 64 (field b 24 8), BitVec.ofNat 64 (field b 32 8), BitVec.ofNat 384 (beNat ((b.drop 40).take 48))⟩
/-- R380, R381: the old image writes its state block and the record, and stops. -/
def State.handOver (s : State) (old : Firmware) : State :=
  let b := Config.stateBlock old.kind old.seq
  (s.wrs ((stateKeys (Config.stateOffset old.kind old.seq) b.length).zip b ++ recordKeys.zip (handOf old).bytes)).mapRepl fun r =>
    { r with handed := true }
/-- R381: the new image accepts the record: its own format, and a state block `b` with the digest that the record has. -/
def accepts (new : Firmware) (h : HandOver) (b : List Byte) : Bool :=
  let v := Config.imageFormat new.body
  h.major == v.1 && h.minor ≤ v.2 && h.sdig == sha384 b

/-- R380, R382: the requests that are outstanding now have been held, and are served in arrival order. -/
def State.releaseHeld (s : State) : State := s.mapRepl fun r => { r with heldTo := s.nextId }
/-- R382, R383: the old image serves again; its heartbeat interval begins anew (log 33). -/
def State.fallBack (s : State) (old : Firmware) (code missed : Nat) : State :=
  (((s.extend0 old.digest).logAll ⟨12, old.kind, 0, 0, 0, 0, 0, 0, code, missed⟩).mapRepl fun r =>
    { r with phase := 0, go := false, code := code, missed := if code = 5 then missed else r.missed, trial := none, handed := false
             since := if code = 5 then s.clk.hub else r.since, beaten := if code = 5 then false else r.beaten }).releaseHeld

/-- R380, R381, R383: the old image hands over and stops; then the new one reads what it finds, and its trial begins. -/
def execQuiesceComplete (s : State) : Host.Outcome State Fault Refusal :=
  .next (
    let r := s.md.repl
    match r.trial, s.running r.kind with
    | some new, some old =>
      if r.phase != 2 || s.inProgress r.kind then s
      else if !r.handed then s.handOver old
      else if accepts new s.handFound (s.blockFound s.handFound) then
          ((s.extend0 new.digest).logAll ⟨10, r.kind, old.svn, old.ver, new.svn, new.ver, new.digest, 0, 0, 0⟩).mapRepl fun r =>
            { r with phase := 3, cur := 0, beaten := false, count := 0, since := s.clk.hub }
      else s.fallBack old 4 0
    | _, _ => s)

/-- R380, R383: commit. -/
def State.commit (s : State) (new old : Firmware) : State :=
  let n := { new with seq := old.seq + 1 }
  let t : State := { s with md := { s.md with firm := s.md.firm.map fun f => if f.kind = old.kind then n else f } }
  ((t.logAll ⟨11, old.kind, 0, 0, 0, 0, 0, n.seq, 0, 0⟩).mapRepl fun r =>
    { r with phase := 0, go := false, code := 1, trial := none, handed := false }).releaseHeld

/-- R379: the next interval begins. -/
def Repl.nextInterval (r : Repl) : Repl :=
  { r with cur := (r.cur + 1) % 256, beaten := false, since := r.since + 2400000, count := r.count + 1 }

/-- R379, R382: an interval ends. -/
def State.endInterval (s : State) : State :=
  let r := s.md.repl
  if s.clk.hub < r.since + 2400000 then s
  else if r.phase = 3 then
    match s.running r.kind with
    | some old => if r.beaten then s.mapRepl Repl.nextInterval else s.fallBack old 5 r.count
    | none => s
  else
    let t := s.mapRepl Repl.nextInterval
    if r.beaten || s.md.firm.all fun f => f.seq == 0 then t
    else { t with md := { t.md with
      reports := t.md.reports ++ (s.md.firm.filter fun f => f.seq != 0).map fun f => (3, f.kind) } }
/-- The intervals that have ended by now, as many as `n`. -/
def State.endIntervals : Nat → State → State
  | 0, s => s
  | n + 1, s => State.endIntervals n s.endInterval
/-- R379: the state once every interval that has run out has ended. -/
def State.inTime (s : State) : State := State.endIntervals ((s.clk.hub - s.md.repl.since) / 2400000) s
/-- R379, R382. -/
def execHeartbeatIntervalEnd (s : State) : Host.Outcome State Fault Refusal := .next s.endInterval

/-- R379, R380: within its interval the value of CUR records the heartbeat; that of the 32nd interval commits. -/
def State.beat (s : State) (value : Nat) : State :=
  let r := s.md.repl
  if value % 256 != r.cur then s
  else
    let t := s.mapRepl fun r => { r with beat := r.cur, beaten := true }
    match r.trial, s.running r.kind with
    | some new, some old => if r.phase = 3 && r.count = 31 && !r.beaten then t.commit new old else t
    | _, _ => t
/-- R379, R380, R382: intervals that have run out end first; a new image that they stop writes nothing. -/
def execHbeat (value : Nat) (s : State) : Host.Outcome State Fault Refusal :=
  .next (if s.md.repl.phase = 3 && s.inTime.md.repl.phase != 3 then s.inTime else s.inTime.beat value)

/-- R382: intervals that have run out end first. -/
def execImageFault (s : State) : Host.Outcome State Fault Refusal :=
  .next (
    let t := s.inTime
    let r := t.md.repl
    match t.running r.kind with
    | some old => if r.phase = 3 then t.fallBack old 5 r.count else t
    | none => t)

end Sys2Proof.Machine
end

