-- ==== Sys2Proof/Machine/Links.lean ====
section
/-! DEFINITION. The optical circuits, the health of links, retired quadrants and channels, and the host's own writes
(R55, R56, R58, R348, R353, R362, R371, R379, R385, R397 to R402). -/

namespace Sys2Proof.Machine

/-! ### Circuits (R397) -/

/-- R397: the entries of a circuit plan. -/
def planOf (bs : List Byte) (nc : Nat) : List Circuit :=
  (List.range nc).map fun j =>
    ⟨field bs (16 * j) 1, field bs (16 * j + 1) 1, BitVec.ofNat 64 (field bs (16 * j + 8) 8)⟩

/-- R397: a port appears twice, or a field is out of range. -/
def planBad (l : List Circuit) : Bool :=
  l.any (fun c => 31 < c.port || 31 < c.rport) || !decide (l.map Circuit.port).Nodup

/-- R58: a fabric request is outstanding: every partition is quiesced (log 81), so one within this module counts too. One that has
failed, or cannot reach its target, will not be delivered. -/
def State.circuitsBusy (s : State) : Bool :=
  s.pend.any (fun o => o.failed.isNone
    && (match o.fab with | some f => s.linked f.dst | none => o.va.any fun x => s.kvFar o.part o.vf x.2))
  || s.strays.any (fun q => s.linked q.dst)
  || s.copies.any fun c => c.kind.jobs.any fun j => (j.writes ++ j.reads).any fun p =>
      match p.1 with | .fab _ _ _ => true | .mem va => s.kvFar c.part c.vf (va + p.2.1) | _ => false

/-! ### The numbers of chips when circuits change (R55, R56, log 81) -/

/-- The SERIALs of the modules that have been in a connected group with this one. -/
def Module.known (m : Module) : List Dword := m.past ++ (m.mods.map Prod.fst).filter fun x => !m.past.contains x
/-- R56: what a chip's number becomes when the module leaves its group: for a chip of its own the index. The number of another module's
chip then names nothing, and stands for the module by its SERIAL: 2048 × (2 + its place in `past`) + the number it had, or
2048 + the number where the group has no such module. -/
def State.aloneNo (s : State) (g : Nat) : Nat :=
  match s.localChip g with
  | some c => c
  | none =>
    if 2048 ≤ g then g
    else match s.md.mods.find? fun p => p.2 == g / 8 with
      | some p => 2048 * (2 + s.md.known.idxOf p.1) + g
      | none => 2048 + g
/-- R55: what the number of another module's chip becomes in a group that has the module; one that named no module is as it was. -/
def Module.groupNo (m : Module) (g : Nat) : Nat :=
  if g < 2048 then g
  else if g < 4096 then g % 2048
  else match (m.past[g / 2048 - 2]?).bind fun x => m.mods.find? fun p => p.1 == x with
    | some p => 8 * p.2 + g % 8
    | none => g

/-- A place under other numbers of chips: the `dws` and the KV blocks of other modules' chips. -/
def placeNo (no : Nat → Nat) (k : Nat) : Nat :=
  if 2 ^ 60 ≤ k && k < 2 ^ 61 then farKey (no ((k - 2 ^ 60) / 2 ^ 33)) ((k - 2 ^ 60) % 2 ^ 33)
  else if 2 ^ 71 ≤ k && k < 2 ^ 72 then 2 ^ 71 + no ((k - 2 ^ 71) / 2 ^ 38) * 2 ^ 38 + (k - 2 ^ 71) % 2 ^ 38
  else k
/-- The number of a slot under other numbers of chips. -/
def slotNo (no : Nat → Nat) (k : Nat) : Nat := if k < 8192 then k else slotKey (no (8 * (k / 8192 - 1)) / 8) (k % 8192)
/-- R337: the place of a `fab` object under other numbers of chips. -/
def objNo (no : Nat → Nat) (sp place : Nat) : Nat := if sp = 3 then no (place / 2 ^ 32) * 2 ^ 32 + place % 2 ^ 32 else place
/-- A memory with each byte at its new place. -/
def moveCells (f : Nat → Nat) (m : List Host.Cell) : List Host.Cell :=
  writeBytes (m.filter fun c => f c.1 == c.1) ((m.filter fun c => f c.1 != c.1).map fun c => (f c.1, c.2))

def Acc.rename (no : Nat → Nat) (a : Acc) : Acc :=
  { a with bytes := a.bytes.map (placeNo no), seen := a.seen.map fun q => match q with | .place k => .place (placeNo no k) | q => q }
def MemOp.rename (no : Nat → Nat) (o : MemOp) : MemOp :=
  { o with accs := o.accs.map (Acc.rename no), fab := o.fab.map fun f => { f with src := no f.src, dst := no f.dst } }
def End.rename (no : Nat → Nat) : End → End
  | .fab b o odd => .fab b o (odd / 2 ^ 11 * 2 ^ 11 + no (odd % 2 ^ 11))
  | e => e
def Hold.rename (no : Nat → Nat) (h : Hold) : Hold := { h with obj := placeNo no h.obj, place := objNo no h.sp h.place }
def Warp.rename (no : Nat → Nat) (w : Warp) : Warp := { w with holds := w.holds.map (Hold.rename no) }
def Group.rename (no : Nat → Nat) (g : Group) : Group := { g with others := g.others.map (Warp.rename no) }
/-- R148, R150: a sequence's slot, and the members and owners that it names. -/
def Seq.rename (no : Nat → Nat) (q : Seq) : Seq :=
  let ent (e : FstEntry) : FstEntry := { e with chip := no e.chip }
  let ms := (q.members.take (max 1 (max q.width q.pend))).map no ++ q.members.drop (max 1 (max q.width q.pend))
  let move (m : Move) : Move :=
    { m with built := m.built.map ent, replies := m.replies.map fun p => (no p.1, p.2), reports := m.reports.map no }
  { q with slot := slotNo no q.slot, members := ms, fst := q.fst.map ent, move := q.move.map move
           aborting := q.aborting.map fun p => (no p.1, p.2), views := q.views.map fun v => (v.1, v.2.1, v.2.2.map no) }
/-- R56, R58: chips have other numbers: what is outstanding for a chip, held on it or kept of it goes on under its new one (log 81). -/
def State.rename (s : State) (no : Nat → Nat) : State :=
  { s with
    mem := moveCells (placeNo no) s.mem
    w := s.w.rename no
    g := s.g.rename no
    groups := s.groups.map (Group.rename no)
    frames := s.frames.map fun (f : Frame) => { f with saved := f.saved.map (Group.rename no) }
    objq := s.objq.map fun (q : ObjReq) => { q with obj := placeNo no q.obj, place := objNo no q.sp q.place }
    pend := s.pend.map (MemOp.rename no)
    copies := s.copies.map fun (c : CopyCmd) => { c with kind := c.kind.moved (End.rename no) }
    strays := s.strays.map fun (q : Stray) => { q with dst := no q.dst, bytes := q.bytes.map fun b => (placeNo no b.1, b.2) }
    streams := s.streams.map fun (x : Stream) => { x with src := no x.src, dst := no x.dst }
    seqs := s.seqs.map (Seq.rename no)
    kv := s.kv.map fun (b : KvBlock) => if b.chip < 8 then b else { b with chip := 8 + no (b.chip - 8) }
    peers := s.peers.map fun (p : Peer) =>
      { p with mod := no (8 * p.mod) / 8, freeKv := p.freeKv.map fun x => (no x.1, x.2) }
    members := s.members.map fun (m : Member) => { m with slot := slotNo no m.slot, chip := no m.chip }
    laps := s.laps.map fun (l : Lap) => { l with slot := slotNo no l.slot, chip := no l.chip }
    msgs := s.msgs.map fun (m : LapMsg) => { m with slot := slotNo no m.slot } }

/-- R56, R397: the module has left its connected group, and stands by itself until a CSET succeeds. -/
def State.leaveGroup (s : State) (plan : List Circuit) (work : Option CsetWork) : State :=
  let t := s.rename s.aloneNo
  { t with md := { t.md with
    valid := false, number := 0, group := [], lost := [], mods := [], links := [], circuits := plan, cset := work, past := s.md.known } }

/-- R56, R397: the module, which stood by itself, belongs to a connected group, with the other modules that have reported. -/
def State.joinGroup (s : State) (number : Nat) (gen : Dword) (mods : List (Dword × Nat)) (links : List (Dword × List Dword)) : State :=
  let m : Module := { s.md with
    valid := true, number := number, gen := gen, group := number :: mods.map Prod.snd, mods := mods, links := links, cset := none }
  { s.rename (fun g => if g < 8 then 8 * number + g else m.groupNo g) with md := m }
/-- R55, R397: another module joins the group that this one is in. -/
def State.admitModule (s : State) (serial : Dword) (module : Nat) : State :=
  let m : Module := { s.md with group := s.md.group ++ [module], mods := s.md.mods ++ [(serial, module)] }
  { s.rename m.groupNo with md := m }

/-- R397: a circuit of the plan, each way round, or one that another module has told of. -/
def CsetWork.joins (w : CsetWork) (a b : Dword) : Bool :=
  let far (x y : Dword) : Bool := (x == Config.serial && w.plan.any fun c => c.rserial == y) || w.links.any fun l => l.1 == x && l.2.contains y
  far a b || far b a
/-- The modules within `n` hops of those of a list, out of some. -/
def CsetWork.within (w : CsetWork) (all : List Dword) : Nat → List Dword → List Dword
  | 0, l => l
  | n + 1, l => w.within all n (all.filter fun b => l.any fun a => a == b || w.joins a b)
/-- Every module that the plan or another module's circuits name. -/
def CsetWork.named (w : CsetWork) : List Dword :=
  (Config.serial :: w.links.map Prod.fst ++ w.plan.map Circuit.rserial ++ w.links.flatMap Prod.snd).dedup
/-- R55, R397: the other modules of the group, as the circuits that have been told of join them. -/
def CsetWork.others (w : CsetWork) : List Dword :=
  (w.within w.named w.named.length [Config.serial]).filter fun x => x != Config.serial
/-- R397: every module of the group has reported, and has told of its circuits. -/
def CsetWork.full (w : CsetWork) : Bool :=
  w.others.all fun x => w.peers.any (fun p => p.1 == x) && w.links.any fun l => l.1 == x
/-- R397: two modules of the plan take one number. -/
def CsetWork.clash (w : CsetWork) : Bool :=
  !decide (w.module :: (w.peers.filter fun p => w.others.contains p.1).map Prod.snd).Nodup
/-- R397: two modules of the group lie more than three hops apart. -/
def CsetWork.wide (w : CsetWork) : Bool :=
  let all := Config.serial :: w.others
  all.any fun a => all.any fun b => !(w.within w.named 3 [a]).contains b
/-- R397: the circuits, with what has been told of the plan, are ones that CSET refuses. -/
def CsetWork.refused (w : CsetWork) : Bool := w.clash || (w.full && w.wide)

/-- R397: what other modules have told of the plan of a generation, as reports and as circuits. -/
def State.toldOf (s : State) (gen : Dword) : List Plan := s.md.told.filter fun p => p.gen == gen
/-- R397: the plan as far as other modules have told of it: two modules share a MODULE, or lie more than three hops apart. -/
def State.planRefused (s : State) (w : CsetWork) : Bool :=
  { w with peers := (s.toldOf w.gen).map fun p => (p.serial, p.module) : CsetWork }.refused

/-- R397: a plan is refused; or, once what is outstanding over the circuits has ended, its circuits are set, and the answer waits
until every module has reported, but for a plan with no entry. -/
def execCset (s : State) : Host.Outcome State Fault Refusal :=
  s.serveOp 23 3 fun q bs =>
    let a := field bs 16 8
    match s.physBytes a 16 with
    | none => refuse 5
    | some h =>
      let nc := field h 1 1
      match s.physBytes (a + 16) (16 * nc) with
      | none => refuse 5
      | some e =>
        let plan := planOf e nc
        let n := field h 0 1
        let gen := BitVec.ofNat 64 (field h 8 8)
        if 32 < nc || planBad plan then refuse 5
        else
          let w : CsetWork := ⟨q.id, n, gen, plan, [], s.clk.hub, (s.toldOf gen).map fun p => (p.serial, p.ends)⟩
          if s.md.cset.isSome then none
          else if s.planRefused w then refuse 5
          else if s.circuitsBusy then none
          else if nc = 0 then some (1, fun t => (t.leaveGroup [] none).joinGroup n gen [] [])
          else some (0, fun t => t.leaveGroup plan (some w))

/-- R58, R397 step 1: a CSET waits for the requests over the circuits: meanwhile the partitions issue nothing (log 81). -/
def State.quiesced (s : State) : Bool :=
  match s.md.opmail with
  | q :: _ =>
    s.md.cset.isNone && !s.holdsKind 3 && q.addr % 64 == 0 && (s.physRun q.addr 64).isSome && s.rdN q.addr 4 == 23
  | [] => false

/-- R385: the operator request that a CSET in progress answers. -/
def State.endCset (s : State) (w : CsetWork) (st : Nat) : State :=
  let t : State := { s with md := { s.md with cset := none } }
  match s.md.opmail.find? fun q => q.id == w.req with
  | some q => t.answerOp q st
  | none => t

/-- R397, R399: the port of every circuit of the plan is up. -/
def State.planUp (s : State) (w : CsetWork) : Bool :=
  w.plan.all fun c => s.ports.any fun p => p.no == c.port && p.state == 2
/-- R397: a CSET in progress with what has been reported and told so far. It is answered with STATUS 5 where the plan turns out to be one
that is refused (log 81), and once every module has reported and the circuits are up, the module joins the group. -/
def State.meetCset (s : State) (x : CsetWork) : State :=
  if x.refused then (s.leaveGroup [] (some x)).endCset x 5
  else if x.full && s.planUp x then
    (s.endCset x 1).joinGroup x.module x.gen (x.peers.filter fun p => x.others.contains p.1) x.links
  else { s with md := { s.md with cset := some x } }

/-- R397: another module tells of its plan: its MODULE and its circuits. -/
def State.hearPlan (s : State) (p : Plan) : State :=
  let note (l : List (Dword × List Dword)) := (p.serial, p.ends) :: l.filter fun x => x.1 != p.serial
  let t : State := { s with md := { s.md with
    told := p :: s.md.told.filter (fun x => x.serial != p.serial)
    links := if s.md.valid && p.gen = s.md.gen then note s.md.links else s.md.links } }
  match s.md.cset with
  | some w => if p.gen = w.gen then t.meetCset { w with links := note w.links } else t
  | none => t

/-- R397: a module's report arrives; with the last of the plan, once its circuits are up, the module joins the group. A module
that reports later, under the group's GEN, joins it too. -/
def execGenExchange (serial : Dword) (module : Nat) (gen : Dword) (s : State) : Host.Outcome State Fault Refusal :=
  .next (
    if 255 < module then s
    else match s.md.cset with
    | some w =>
      if gen != w.gen then s
      else s.meetCset { w with peers := (serial, module) :: w.peers.filter fun p => p.1 != serial }
    | none =>
      if s.md.valid && gen == s.md.gen && !s.md.circuits.isEmpty && !s.md.group.contains module then s.admitModule serial module
      else s)

/-- R397: a circuit of the plan is not up in time. -/
def execCsetTimeout (s : State) : Host.Outcome State Fault Refusal :=
  .next (match s.md.cset with
    | some w => if w.start + 2 ^ 32 ≤ s.clk.hub then s.endCset w 4 else s
    | none => s)

/-! ### Link health (R371, R398, R399) -/

def State.mapPort (s : State) (no : Nat) (f : Port → Port) : State :=
  { s with ports := s.ports.map fun p => if p.no = no then f p else p }
def State.port? (s : State) (no : Nat) : Option Port := s.ports.find? fun p => p.no == no

/-- An optical port, as against a chip port of the Hub. -/
def Port.optical (p : Port) : Bool := p.no < 32
/-- A wavelength of a mask. -/
def without (m wave : Nat) : Nat := if m.testBit wave then m - 2 ^ wave else m
def including (m wave : Nat) : Nat := if m.testBit wave then m else m + 2 ^ wave

/-- R399: the wavelength is handed back, and its retraining starts. -/
def Port.retrainNow (p : Port) (wave now : Nat) : Port :=
  { p with lmask := without p.lmask wave, retrain := p.retrain + 1, training := some (wave, now) }
/-- R399: the wavelength that waits longest starts once another has ended. -/
def Port.retrainNext (p : Port) (now : Nat) : Port :=
  match p.waiting with
  | w :: rest => { p with waiting := rest }.retrainNow w now
  | [] => { p with training := none }

/-- R399: a window closes with its corrected bits. -/
def Port.closeWindow (p : Port) (wave bits now : Nat) : Port :=
  let q := { p with feccor := p.feccor + BitVec.ofNat 64 bits }
  if bits ≤ 1073 then q
  else match q.training with
    | none => q.retrainNow wave now
    | some t => if t.1 = wave || q.waiting.contains wave then q else { q with waiting := q.waiting ++ [wave] }

/-- R399. -/
def execFecWindow (port wave bits : Nat) (s : State) : Host.Outcome State Fault Refusal :=
  .next (match s.port? port with
    | some p => if p.optical && wave < 8 && p.lmask.testBit wave then s.mapPort port fun p => p.closeWindow wave bits s.clk.hub else s
    | none => s)

/-- R399: Hub cycles within which a retraining must end. -/
def retrainLimit : Nat := 2 ^ 21

/-- R399: the wavelength carries flits again. -/
def execRetrainDone (port : Nat) (s : State) : Host.Outcome State Fault Refusal :=
  .next (match s.port? port with
    | some p =>
      match p.training with
      | some t =>
        if s.clk.hub < t.2 + retrainLimit then
          s.mapPort port fun p =>
            { p with lmask := including p.lmask t.1, failures := p.failures.filter fun x => x.1 != t.1 }.retrainNext s.clk.hub
        else s
      | none => s
    | none => s)

/-- The wavelengths of a mask. -/
def waves (m : Nat) : Nat := ((List.range 8).filter m.testBit).length

/-- R399: a retraining fails; the third failure in a row retires the wavelength, and the port goes down with the fifth that is
retired. -/
def Port.retrainFails (p : Port) (wave now : Nat) : Port :=
  let n := getKey p.failures wave 0 + 1
  if n < 3 then { p with failures := setKey p.failures wave n }.retrainNow wave now
  else
    let q := { p with retired := including p.retired wave, failures := p.failures.filter fun x => x.1 != wave }.retrainNext now
    if 8 - waves q.retired < 4 then { q with state := 3 } else q

/-- R399, R402: a port that has gone down is reported over I3C. -/
def execRetrainTimeout (port : Nat) (s : State) : Host.Outcome State Fault Refusal :=
  .next (match s.port? port with
    | some p =>
      match p.training with
      | some t =>
        if t.2 + retrainLimit ≤ s.clk.hub then
          let q := p.retrainFails t.1 s.clk.hub
          let u := s.mapPort port fun _ => q
          if q.retired != p.retired then
            { u with md := { u.md with reports := u.md.reports ++ (if q.state = 3 then [(4, port), (5, port)] else [(4, port)]) } }
          else u
        else s
      | none => s
    | none => s)

/-- R371, R398: a flit is resent; at an optical port the codewords that the FEC could not correct are counted too, and the spec
does not say how many a failed flit takes (log 4). -/
def execCrcRetry (port : Nat) (s : State) : Host.Outcome State Fault Refusal :=
  .next ((s.mapPort port fun p =>
    { p with crcretry := p.crcretry + 1
             fecunc := if p.optical then p.fecunc + (Config.freeWord s.free).setWidth 64 else p.fecunc }).spend 1)

/-! ### Retired quadrants and channels (R401, R402) -/

/-- The partition that holds a cluster. -/
def State.partOfClu (s : State) (clu : Nat) : Option Partition := s.parts.find? fun q => q.clumask.toNat.testBit clu

/-- R401: a quadrant fails the test at boot, before its engine has had any work. -/
def State.untested (s : State) (e : Engine) : Bool :=
  e.cmds.isEmpty && e.tiles.isEmpty && e.trips.isEmpty && s.records.isEmpty && s.allGroups.all Group.sys

/-- R105, R401: DEG with a quadrant retired, in the mode that the partition chooses. -/
def Engine.retireQuad (e : Engine) (quad degm : Nat) : Engine :=
  { e with deg := BitVec.ofNat 32 (quad % 4 * 16 + 8) }.degrade degm

/-- R401: DEG changes once the passes already granted have retired. -/
def execQuadrantRetire (clu quad : Nat) (s : State) : Host.Outcome State Fault Refusal :=
  let e := s.engine clu
  .next (
    if 31 < clu || 3 < quad || e.deg.getLsbD 3 || e.cmds.any (fun c => c.granted) || !(e.worn quad || s.untested e) then s
    else
      let t := s.mapEngine clu fun e => e.retireQuad quad (((s.partOfClu clu).map Partition.degm).getD 0)
      { t with md := { t.md with reports := t.md.reports ++ [(6, clu)] } })

/-- R402: a channel's shortfall is reported, once while the power is on. -/
def State.shortOf (s : State) (c : Nat) : State :=
  if s.md.short.contains c then s else { s with md := { s.md with reports := s.md.reports ++ [(8, c)], short := c :: s.md.short } }
/-- R402: a mapped page stands on a retired channel, and does not migrate yet. -/
def State.stranded (s : State) (l : Leaf) : Bool := tierOf l.pa == 0 && l.dest.isNone && s.retiredAt l.pa
/-- R402: a free frame of the same chip. A sequence record's page has none: the frames that Iluloth keeps lie on its own channel. -/
def State.refuge (s : State) (x : Vf) (l : Leaf) : Option Nat :=
  if (Sys2Proof.Machine.recSlot l.pa).isSome then none else s.freeFrame x x.table 0 l.size fun pa => pa / 2 ^ 37 == l.pa / 2 ^ 37
/-- R402: each page on a retired channel for which a frame of the same chip is free starts to migrate. -/
def State.evacuate (s : State) (p : Nat) (f : Vf) : State :=
  f.table.foldl (fun t l =>
    if !t.stranded l then t
    else match t.vf? p f.vf with
      | none => t
      | some x =>
        match t.refuge x l with
        | some d => t.mapLeaf p f.vf l.va fun y => { y with dest := some d }
        | none => t.shortOf (channelOf l.pa)) s
/-- R402: a unit of the same chip for the KV blocks of another. -/
def State.kvRefuge (s : State) (u : Nat) : Option Nat :=
  (hbmUnits [u / 2048]).find? fun x => !(s.unitsHeld 24).contains x && !s.unitRetired x
/-- R402: the KV blocks of a unit, in use or free, come to another unit, byte for byte (log 84). -/
def State.moveKv (s : State) (p v u d : Nat) : State :=
  let fr (x : Nat) : Nat := if x / 4096 = u then x - 4096 * u + 4096 * d else x
  let t := s.copyPage (u * unitBytes) (d * unitBytes) unitBytes
  { t with kv := t.kv.map fun (b : KvBlock) => if b.chip < 8 then { b with frame := fr b.frame } else b }.mapVf p v fun f =>
    { f with kvUnits := f.kvUnits.map (fun x => if x = u then d else x)
             freeKv := f.freeKv.map fun (x : Nat × Nat × Nat × Nat) => (x.1, x.2.1, x.2.2.1, fr x.2.2.2) }
def State.evacuateKv (s : State) (p : Nat) (f : Vf) : State :=
  f.kvUnits.foldl (fun t u =>
    if !t.unitRetired u then t
    else match t.kvRefuge u with
      | some d => t.moveKv p f.vf u d
      | none => t.shortOf (channelOf (u * unitBytes))) s

/-- R402: a channel is to be retired: it is already, it has returned an uncorrectable error, or it has had more than 4,096 corrected
errors within 2^32 Hub cycles (log 84). -/
def State.channelWorn (s : State) (c : Nat) : Bool :=
  s.md.retired.contains c || s.md.failed.contains c || windowFull 4097 ((s.md.fixed.filter fun e => e.1 == c).map Prod.snd)
/-- R402, R384: the channels that call for a step: those to be retired, and those from which something can still move. -/
def State.channelsDue (s : State) : List Nat :=
  let worn := ((s.md.failed ++ s.md.fixed.map Prod.fst).dedup.filter fun c => !s.md.retired.contains c && s.channelWorn c)
  let moves (c : Nat) : Bool := s.parts.any fun q => q.vfs.any fun f =>
    f.table.any (fun l => s.stranded l && channelOf l.pa == c && (s.refuge f l).isSome)
    || f.kvUnits.any fun u => s.unitRetired u && channelOf (u * unitBytes) == c && (s.kvRefuge u).isSome
  worn ++ if s.md.repl.phase = 0 then s.md.retired.filter moves else []

/-- R402, R384: a channel is retired, and the pages on it migrate; none starts while an image is being replaced. -/
def execHbmChannelRetire (chip channel : Nat) (s : State) : Host.Outcome State Fault Refusal :=
  .next (
    let c := 64 * chip + channel
    if 7 < chip || 63 < channel || !s.channelWorn c then s
    else
      let t : State := if s.md.retired.contains c then s
        else { s with md := { s.md with retired := c :: s.md.retired, reports := s.md.reports ++ [(7, c)] } }
      if t.md.repl.phase != 0 then t
      else t.parts.foldl (fun u q => q.vfs.foldl (fun u f => (u.evacuate q.idx f).evacuateKv q.idx f) u) t)

/-! ### What the host writes (R348, R353, R362, R379, R385) -/

/-- A register's low or high word. -/
def setLow (d : Dword) (w : Word) : Dword := d.extractLsb' 32 32 ++ w
def setHigh (d : Dword) (w : Word) : Dword := w ++ d.extractLsb' 0 32

/-- R362: a request is submitted, or dropped while 16 are outstanding. -/
def Vf.submit (f : Vf) (id : Nat) : Vf :=
  if 16 ≤ f.mail.length then { f with mbovf := true } else { f with mail := f.mail ++ [⟨id, f.mbreq.toNat⟩] }

/-- R348, R362: a write to a register of a virtual function's BAR 0. -/
def State.writeVfReg (s : State) (p v off : Nat) (x : Word) : State :=
  if off % 8 = 0 && off < 512 then s.setTail p v (off / 8) x.toNat
  else if off = 0x1000 then s.mapVf p v fun f => { f with mbreq := setLow f.mbreq x }
  else if off = 0x1004 then
    (s.fresh.2).mapVf p v fun f => { f with mbreq := setHigh f.mbreq x }.submit s.nextId
  else if off = 0x1008 then s.mapVf p v fun f => { f with mbovf := f.mbovf && !x.getLsbD 31 }
  else s

/-- R385: an operator request is submitted, or dropped while 16 are outstanding. -/
def Module.submitOp (m : Module) (id : Nat) : Module :=
  if 16 ≤ m.opmail.length then { m with opovf := true } else { m with opmail := m.opmail ++ [⟨id, m.opreq.toNat⟩] }

/-- R379, R385: a write to a register of the physical function's BAR 0. A REPLCTL write without GO sets KIND. -/
def State.writePfReg (s : State) (off : Nat) (x : Word) : State :=
  if off = 0x2000 then s.mapRepl fun r => { r with ctlKind := x.toNat / 4 % 4 }
  else if off = 0x3000 then { s with md := { s.md with opreq := setLow s.md.opreq x } }
  else if off = 0x3004 then { s.fresh.2 with md := { s.md with opreq := setHigh s.md.opreq x }.submitOp s.nextId }
  else if off = 0x3008 then { s with md := { s.md with opovf := s.md.opovf && !x.getLsbD 31 } }
  else s

/-- R4, R348, R362: what a read of a register of a virtual function's BAR 0 returns; reserved bits read as zero. -/
def Vf.readReg (f : Vf) (off : Nat) : Word :=
  if off % 8 = 0 && off < 512 then BitVec.ofNat 32 (f.tailOf (off / 8) % 2 ^ 16)
  else if off = 0x1000 then f.mbreq.setWidth 32
  else if off = 0x1004 then (f.mbreq >>> 32).setWidth 32
  else if off = 0x1008 then BitVec.ofNat 32 ((if f.mbovf then 2 ^ 31 else 0) + f.mail.length)
  else 0
/-- R398: a word of a port's block. -/
def Port.readReg (p : Port) (off : Nat) : Word :=
  let half (d : Dword) : Word := if off % 8 = 0 then d.setWidth 32 else (d >>> 32).setWidth 32
  match off / 8 with
  | 0 => if off = 0 then BitVec.ofNat 32 (p.lmask % 256 * 2 ^ 16 + p.retired % 256 * 2 ^ 8 + p.state % 16) else 0
  | 1 => half p.feccor
  | 2 => half p.fecunc
  | 3 => half p.crcretry
  | 4 => if off = 0x20 then p.retrain else 0
  | 5 => half p.divert
  | _ => 0
/-- R4, R379, R385, R397, R398: what a read of a register of the physical function's BAR 0 returns. -/
def State.readPfReg (s : State) (off : Nat) : Word :=
  let r := s.md.repl
  if off = 0x2000 then BitVec.ofNat 32 (r.ctlKind % 4 * 4 + if r.go then 1 else 0)
  else if off = 0x2004 then BitVec.ofNat 32 (r.code % 256 * 2 ^ 24 + r.missed % 256 * 2 ^ 16 + r.phase % 16 * 2 ^ 4 + r.kind % 16)
  else if off = 0x3000 then s.md.opreq.setWidth 32
  else if off = 0x3004 then (s.md.opreq >>> 32).setWidth 32
  else if off = 0x3008 then BitVec.ofNat 32 ((if s.md.opovf then 2 ^ 31 else 0) + s.md.opmail.length)
  else if off = 0x4F00 then Config.serial.setWidth 32
  else if off = 0x4F04 then (Config.serial >>> 32).setWidth 32
  else if off % 4 = 0 && 0x4000 ≤ off then ((s.port? ((off - 0x4000) / 64)).map fun p => p.readReg (off % 64)).getD 0
  else 0
/-- R379: what the image on the management cores reads of HBEAT. -/
def State.readHbeat (s : State) : Word :=
  let r := s.inTime.md.repl
  BitVec.ofNat 32 (r.cur % 256 * 256 + r.beat % 256)

/-- The places of a write by the host: of a virtual function's main memory, or of physical memory. -/
def State.hostPlaces (s : State) (part vf va n : Nat) : Option (List Nat) :=
  if part < 24 then s.vaRun part vf va n true else if va + n ≤ physEnd then some (places va n) else none

/-- R4: a register takes a value. A read-only register keeps its value. -/
def State.hostReg (part vf off : Nat) (value : Word) (s : State) : Host.Outcome State Fault Refusal :=
  if part < 24 then .next (s.writeVfReg part vf off value)
  else if off = 0x2000 && value.getLsbD 0 then execReplctlGo (value.toNat / 4) s
  else .next (s.writePfReg off value)
/-- R4: a write to a register; a partition number above 23 names the physical function. -/
noncomputable def execRegisterWrite (part vf off : Nat) (value : Word) (s : State) : Host.Outcome State Fault Refusal :=
  if s.behindHost part vf then .next (s.holdHost (.registerWrite part vf off value)) else s.hostReg part vf off value

/-- R353, R372: the host's bytes reach memory; a write that cannot be made is dropped (log 30). -/
def State.hostBytes (s : State) (part vf va : Nat) (bytes : List Byte) : State :=
  match s.hostPlaces part vf va bytes.length with
  | some ks => if (s.partial? ks).isSome then s else s.wrs (ks.zip bytes)
  | none => s
/-- R353, R366: the host's bytes reach memory at once, or once a page that is migrating has its new mapping. -/
noncomputable def execHostWrite (part vf va : Nat) (bytes : List Byte) (s : State) : Host.Outcome State Fault Refusal :=
  .next (if s.behindHost part vf || (part < 24 && s.vaAway part vf va bytes.length true) then s.holdHost (.hostWrite part vf va bytes)
    else s.hostBytes part vf va bytes)

/-- R353: the oldest of the host's writes that wait goes on, once its page has its new mapping. -/
noncomputable def State.hostGoes (s : State) : Host.Outcome State Fault Refusal :=
  match s.hostq with
  | i :: rest =>
    match i with
    | .hostWrite p v a bs => .next (if s.vaAway p v a bs.length true then s else State.hostBytes { s with hostq := rest } p v a bs)
    | .registerWrite p v off x => State.hostReg p v off x { s with hostq := rest }
    | .qtail p v q x => .next (State.setTail { s with hostq := rest } p v q x.toNat)
    | _ => .next { s with hostq := rest }
  | [] => .next s

end Sys2Proof.Machine
end

