-- ==== Sys2Proof/Machine/Agenda.lean ====
section
/-! DEFINITION. Which turns the work in the state calls for, clocks, fetching an instruction, and loading (R13, R14, R178, R328,
R165, R368, R371 to R373, log 5, 6, 9, 15, 16). -/

namespace Sys2Proof.Machine

/-! ### The turns that the state's work calls for (log 5) -/

/-- The step of an outstanding piece at its home. -/
noncomputable def MemOp.homeTurn (o : MemOp) : Turn :=
  match o.kind with
  | .load _ _ => .event (.loadReply o.id)
  | .store => .event (.storePerformed o.id)
  | .atomic _ _ _ _ _ => .event (.atomicAtHome o.id)
  | .release => .event (.releasePerform o.id)

/-- Fabric requests: one that can reach its target no more, or has waited too long. -/
noncomputable def MemOp.fabTurns (o : MemOp) : List Turn :=
  if o.remote then [.event (.fabricUndeliverable o.id), .event (.fabricRequestTimeout o.id)] else []

noncomputable def State.memTurns (s : State) : List Turn :=
  s.pend.flatMap (fun o => o.homeTurn :: o.fabTurns) ++ s.strays.map fun q => .stray q.id
/-- R390: where a window's allowance does not leave room for all that a command still moves, its units move one by one. -/
def State.copyPiece (s : State) (c : CopyCmd) : List Turn :=
  let ks := c.todo.flatMap fun j => (s.readSpots c j).places ++ (s.writeSpots c j).places
  match c.units with
  | p :: _ => if s.hbmRoomAll c.part c.vf ks then [] else [.copyUnit c.id p.2]
  | [] => []

/-- R51: the code of what keeps a copy command from completing, now that it runs. -/
def State.copyStop (s : State) (c : CopyCmd) : Option Nat :=
  match s.firstBad c c.todo with
  | some p => some p.1
  | none => s.partial? (c.todo.flatMap fun j => (s.writeSpots c j).places)
noncomputable def State.copyTurns (s : State) : List Turn :=
  s.copies.flatMap fun c =>
    let stop : List Turn := match s.copyStop c with | some k => [.event (.copyCommandFail c.id k 0)] | none => []
    .event (.copyCommandComplete c.id) :: (s.copyPiece c ++ stop)
noncomputable def State.matrixTurns (s : State) : List Turn :=
  s.engines.flatMap fun e => .event (.matrixGrant e.1) :: (e.2.cmds.map fun c => .event (.matrixCommandRetire e.1 c.id))
    ++ ([0, 1, 2, 3].filter fun q => e.2.due && e.2.worn q).map fun q => .event (.quadrantRetire e.1 q)
noncomputable def State.hubTurns (s : State) : List Turn :=
  s.hub.flatMap fun h => [.event (.hredTimeout h.idx), .event (.hredSlotExpire h.idx)]

/-- A step of another agent as a turn. -/
def ev (i : Instr) : Turn := .event i

/-- The messages of a move of a gang. -/
noncomputable def Seq.turns (q : Seq) : List Turn :=
  List.flatten [[ev (.gangWalk q.slot)],
    q.both.flatMap fun c => [ev (.switchMsg q.slot c), ev (.switchReply q.slot c), ev (.cutMsg q.slot c), ev (.lapReport q.slot c),
      ev (.switchTimeout q.slot c)],
    q.aborting.flatMap fun a => [ev (.abortMsg q.slot a.1), ev (.abortAcknowledgement q.slot a.1)]]
noncomputable def State.gangTurns (s : State) : List Turn :=
  List.flatten [(s.seqs.filter fun q => q.state != 1 || q.move.isSome || !q.aborting.isEmpty).flatMap Seq.turns,
    s.laps.flatMap fun l => [ev (.lapMessage l.id), ev (.lapDeadline l.id)],
    s.msgs.map fun m => ev (.lateArrival m.id),
    s.gtimers.map fun t => ev (.glateTimeout t.1 t.2.1)]

/-- The cores of a partition on a chip. -/
def Partition.coresOn (q : Partition) (chip : Nat) : List Nat := (List.range 16).filter fun c => q.holds chip c

/-- Dispatch and resumption of what belongs to a partition on a chip. -/
noncomputable def State.dispatchTurns (s : State) (q : Partition) (chip core : Nat) : List Turn :=
  let here (gid : Nat) : Bool := (s.group? gid).any fun g => g.part == q.idx && g.chip == chip
  List.flatten [if s.traps.any fun r => here r.gid then [ev (.trapDelivery chip q.idx core)] else [],
    (s.allGroups.filter fun g => g.isSaved && here g.id).map fun g => ev (.groupResume g.id core),
    (s.ready.filter fun r => r.part == q.idx && r.chip == chip).map fun r => ev (.taskDispatch chip q.idx r.vf core),
    (s.records.filter fun r => r.part == q.idx && r.todo.any fun t => t.1 == chip && !t.2.isEmpty).map fun r =>
      ev (.groupDispatch chip q.idx r.vf core)]

/-- The queues and the mailbox of a virtual function. -/
noncomputable def vfTurns (p : Nat) (f : Vf) : List Turn :=
  List.flatten [f.queues.flatMap fun q => [ev (.launchNone p f.vf q.q), ev (.grid p f.vf q.q), ev (.openSlot p f.vf q.q),
      ev (.closeSlot p f.vf q.q)],
    if f.mail.isEmpty then [] else [ev (.map p f.vf), ev (.unmap p f.vf), ev (.protect p f.vf), ev (.settag p f.vf),
      ev (.move p f.vf), ev (.regq p f.vf)],
    (f.table.filter fun l => l.dest.isSome).map fun l => ev (.pageMigration p f.vf l.va 0),
    [ev (.usageIntervalEnd p f.vf)]]

noncomputable def State.partTurns (s : State) (q : Partition) : List Turn :=
  List.flatten [q.chips.flatMap fun c => ev (.vfSliceEnd c q.idx) :: (q.coresOn c).flatMap fun k => s.dispatchTurns q c k,
    q.vfs.flatMap (vfTurns q.idx)]

/-- The operator's requests, and Iluloth's intervals. -/
noncomputable def State.moduleTurns (s : State) : List Turn :=
  List.flatten [if s.hostq.isEmpty then [] else [.host],
    if s.md.opmail.isEmpty then [] else [ev .pset, ev .vset, ev .pdel, ev .enroll, ev .kload, ev .kclr, ev .lsign,
      ev .cset, ev .hfree],
    if s.md.cset.isSome then [ev .csetTimeout] else [],
    if s.md.repl.phase = 1 then [.verified] else [],
    if s.md.repl.phase = 2 then [ev .quiesceComplete] else [],
    s.channelsDue.map fun c => ev (.hbmChannelRetire (c / 64) (c % 64)),
    s.flushable.map fun p => .ringRead p 0,
    [ev .heartbeatIntervalEnd, ev .kvholdSample],
    (List.range 8).map fun c => ev (.quotaWindow c),
    (s.ports.filter fun p => p.training.isSome).map fun p => ev (.retrainTimeout p.no),
    s.records.flatMap fun r => ev (.recordComplete r.id) ::
      r.chips.flatMap fun c => r.chips.map fun d => ev (.stealRequest r.id c d)]

/-- What a warp waits for, and its next word. -/
noncomputable def State.warpTurns (s : State) (g : Group) (w : Warp) : List Turn :=
  List.flatten [if g.issues && (w.run.isSome || !w.resume.isEmpty || w.head.isSome) then [Turn.issue g.id w.idx] else [],
    if w.grow.isSome then [ev (.rgrowGrant g.id w.idx)] else [],
    if w.yielding.isSome then [ev (.yieldTimeout g.id w.idx)] else [],
    (List.range w.parked.length).map fun k => ev (.parkedSubgroupReturn g.id w.idx k),
    (List.range w.asleep.length).map fun k => ev (.sleepExpiry g.id w.idx k),
    if w.pcs.isEmpty then [] else [ev (.lateSplit g.id w.idx)]]
/-- R28: a pre-emption is pending. -/
def Group.isStopping (g : Group) : Bool := match g.stand with | .stopping => true | _ => false
noncomputable def State.groupTurns (s : State) (g : Group) : List Turn :=
  List.flatten [if g.isStopping then [ev (.preemptStop g.id)] else [],
    if g.claim.isSome then [.start g.id] else [],
    if g.others.any (fun w => w.grow.isSome) then [ev (.rgrowDeadlockPreempt g.chip g.core)] else [],
    g.others.flatMap (s.warpTurns g)]

/-- Every turn that the work in the state calls for. One that is not due has no effect. -/
noncomputable def State.calls (s : State) : List Turn :=
  List.flatten [s.allGroups.flatMap s.groupTurns, s.landing.map (fun l => .landed l.id), s.memTurns, s.copyTurns, s.matrixTurns, s.hubTurns, s.gangTurns,
    s.parts.flatMap s.partTurns, s.moduleTurns]

/-- The turn that the machine takes while its agenda is empty: each of those due has its step. -/
noncomputable def State.ownTurn (s : State) : Option Turn :=
  match s.md.power with
  | .booting => some .trained
  | _ => s.calls[s.clk.steps % s.calls.length]?

/-! ### Clocks (R2, R12, R13, log 6) -/

/-- The clocks go on by values that the spec does not give. -/
def Clocks.tick (c : Clocks) : Clocks :=
  { steps := c.steps + 1
    hub := c.hub + Config.hubCyclesPassed c.steps
    core := (c.core.zip (List.range c.core.length)).map fun p => p.1 + Config.cyclesPassed c.steps p.2 }
/-- R22, R209, R354, R404: what has completed, who has left a yield set and which slices are over is noted; no part keeps time
while the power is off. -/
noncomputable def State.tick (s : State) : State :=
  { s.noteBack.pruneAll.endIdle.syncViews with clk := match s.md.power with | .off => { s.clk with steps := s.clk.steps + 1 } | _ => s.clk.tick }

/-! ### Fetching (R14, R178, R187) -/

/-- R187, R190: what the selected warp's next word comes to: an instruction of its run, a header or trailer at its head, or
the trap of a word that is none of these. -/
inductive Fetched? where
  | exec (i : Instr)
  | trap (s : State)
  | idle

/-- R190: the word at the run's address. -/
noncomputable def State.fetchRun (s : State) (r : Run) : Fetched? :=
  match decodeAt (s.codeAt s.g.kern.img r.pc maxInstrBytes) with
  | some (i, _) => if i.wf then .exec i else .trap (takeTrap s r 1 r.addr 0)
  | none => .trap (takeTrap s r 1 r.addr 0)

/-- R14, R187: the word at the head of the PC table; only a header starts a clause. -/
noncomputable def State.fetchHead (s : State) : Fetched? :=
  match s.w.head with
  | none => .idle
  | some e =>
    match decodeAt (s.codeAt s.g.kern.img e.pc maxInstrBytes) with
    | some (.clauseHeader len fb fa wait, _) => .exec (.clauseHeader len fb fa wait)
    | some (.clauseTrailer sp fl d3 d2 d1, _) => .exec (.clauseTrailer sp fl d3 d2 d1)
    | _ => if s.headHeld e then .idle else .trap (s.badHead e)

noncomputable def State.fetchWord (s : State) : Fetched? :=
  match s.w.run with
  | some r => s.fetchRun r
  | none => s.fetchHead

/-- R392: an issue cycle of a virtual function. -/
def State.meterIssue (s : State) : State :=
  if s.g.sys then s else s.mapVf s.g.part s.g.vf fun f => { f with issue := f.issue + 1 }

/-- R14, R26, R32, R58, R209, R212: the warp that issues is selected; its run goes on, or one that `rfe` sent back is taken up unless the
core does not choose the warp. None when it cannot issue. -/
noncomputable def State.ready? (s : State) (gid wid : Nat) : Option State :=
  let t := s.select gid wid
  if t.isSel gid wid && t.g.issues && !t.quiesced then
    (if t.w.run.isNone && !t.w.resume.isEmpty && t.notChosen then none else some (t.setW t.w.resumeRun))
  else none

/-! ### Results that reach their registers in parts (R165, R282, log 9) -/

/-- What a result that comes back belongs to: its number, group, warp, flag and lanes, its instruction and its destination's code. -/
structure Result where
  id : Nat
  gid : Nat
  wid : Nat
  flag : Option Nat
  lanes : LaneMask
  pc : Nat
  reg : Nat
  deriving DecidableEq, Repr

/-- The result that an event brings to registers. -/
noncomputable def State.resultOf (s : State) (e : Instr) : Option Result :=
  let op (id : Nat) := (s.op? id).map fun o => Result.mk o.id o.gid o.wid o.flag o.lanes o.pc o.reg
  let lap (id : Nat) := (s.laps.find? fun l => l.id == id).map fun l => Result.mk l.id l.gid l.wid l.flag l.lanes l.pc l.reg
  match e with
  | .loadReply id => op id
  | .atomicAtHome id => op id
  | .matrixCommandRetire clu id => (s.cmd? clu id).map fun c => Result.mk c.id c.gid c.wid c.flag c.lanes c.pc c.reg
  | .lapMessage id => lap id
  | .lapDeadline id => lap id
  | _ => none

/-- The register words that differ between a warp before and after: register code and lane. -/
def Warp.changes (a b : Warp) : List (Nat × Nat) :=
  (List.range 96).flatMap (fun r => (List.range 64).filterMap fun i => if a.getV r i = b.getV r i then none else some (r, i))
  ++ (List.range 16).filterMap fun n => if a.getS n = b.getS n then none else some (96 + n, 0)
/-- The word of a register's code and a lane. -/
def Warp.word (w : Warp) (x : Nat × Nat) : Word := if x.1 < 96 then w.getV x.1 x.2 else w.getS (x.1 - 96)
/-- Every bit of a warp's registers turned over: a result written to them is a change, whatever it is. -/
def Warp.flipped (w : Warp) : Warp :=
  { w with v := (List.range 96).map fun r => (r, (List.range 64).map fun i => ~~~(w.getV r i))
           s := (List.range 16).map fun n => (n, ~~~(w.getS n)) }

/-- R165: the result that an instruction of the long-latency set gives as it issues: its destination may still keep what it held. -/
noncomputable def State.issuedResult (s : State) (i : Instr) : Option Result :=
  match s.w.run, i.info.dsts with
  | some r, u :: _ => if i.info.long then some ⟨s.nextId, s.g.id, s.w.idx, none, r.lanes, r.pc, u.o.toNat⟩ else none
  | _, _ => none

/-- The register words of the destination of an instruction that has given its result as it issued, where that has changed any. -/
def resultWords (i : Instr) (m : LaneMask) (a b : Warp) : List (Nat × Nat) :=
  if (a.changes b).isEmpty then []
  else match i.info.dsts with
    | u :: _ =>
      (List.range u.span).flatMap fun k =>
        if u.o.toNat < 96 then (lanesOf m).map fun l => (u.o.toNat + k, l) else if u.o.toNat < 112 then [(u.o.toNat + k, 0)] else []
    | [] => []
/-- A result has come back, but has reached none of its registers yet: `s` and `t` are the states before and after, and the words of
`ws` are written besides those that change. -/
def State.tearResult (s t : State) (x : Result) (ws : List (Nat × Nat)) : State :=
  match s.warp? x.gid x.wid, t.warp? x.gid x.wid with
  | some a, some b =>
    let all := ws ++ (a.changes b).filter fun k => !ws.contains k
    if all.isEmpty then t
    else
      { t.mapWarp x.gid x.wid (fun w => { w with v := a.v, s := a.s, flags := a.flags }) with
        landing := t.landing ++ [⟨x.id, x.gid, x.wid, x.flag, x.lanes, all.map fun k => (k.1, k.2, b.word k, BitVec.allOnes 32), x.pc, x.reg⟩] }
  | _, _ => t

/-- Writes what is left of a word of a landing, or some bytes of it: those of `m`. -/
def Warp.landWord (w : Warp) (l : Landing) (m : Word) (x : Nat × Nat × Word × Word) : Warp :=
  let n := m &&& x.2.2.2
  let mix (old : Word) : Word := (old &&& ~~~ n) ||| (x.2.2.1 &&& n)
  if n = 0 then w
  else if x.1 < 96 then w.land 96 (Opd.ofBits x.1) 0 (laneBit x.2.1) fun i => mix (w.getV x.1 i)
  else w.land 96 (Opd.ofBits x.1) 0 l.lanes fun _ => mix (w.getS (x.1 - 96))

/-- R165, R339: one byte of a landing reaches its register, once: byte `b % 4` of word `b / 4`. Another write may come after it. -/
def State.landByte (s : State) (id b : Nat) : State :=
  match s.landing.find? fun l => l.id == id with
  | none => s
  | some l =>
    let m : Word := (0xFF : Word) <<< (8 * (b % 4))
    match l.words[b / 4]? with
    | none => s
    | some x =>
      let left (y : Nat × Nat × Word × Word) : Nat × Nat × Word × Word := (y.1, y.2.1, y.2.2.1, y.2.2.2 &&& ~~~ m)
      { s.mapWarp l.gid l.wid (fun w => w.landWord l m x) with
        landing := s.landing.map fun (y : Landing) => if y.id = id then { y with words := y.words.modify (b / 4) left } else y }

/-- R193: all of a landing has reached its registers, and its flag assignment ends. -/
def State.landAll (s : State) (id : Nat) : State :=
  match s.landing.find? fun l => l.id == id with
  | none => s
  | some l =>
    let t := s.mapWarp l.gid l.wid fun w =>
      (l.words.foldl (fun v x => v.landWord l (BitVec.allOnes 32) x) w).endFlag l.flag (lanesOf l.lanes)
    { t with landing := t.landing.filter fun x => x.id != id }

/-! ### Errors and loading (R328, R368, R371 to R373, R376) -/

/-- R368, R371: the instruction that issues next meets a pipeline check. -/
noncomputable def State.checkFails (s : State) (gid wid checker : Nat) : State :=
  match s.ready? gid wid with
  | none => s
  | some t =>
    match t.w.run with
    | some r => if r.left = 0 then s else takeTrap t r 7 r.addr (BitVec.ofNat 32 checker)
    | none => s

/-- R371: a register that the next instruction of the warp reads cannot be corrected: its lanes take trap 0x12, with the
register's code as its location (log 16). -/
noncomputable def State.badReg (s : State) (gid wid : Nat) (o : Opd) : State :=
  match s.ready? gid wid with
  | none => s
  | some t =>
    match t.w.run with
    | some r =>
      match if r.left = 0 then .idle else t.fetchRun r with
      | .exec i => if i.info.srcs.any fun u => u.meets ⟨o, 1, u.cls⟩ then takeTrap t r 0x12 (BitVec.ofNat 64 o.toNat) 1 else s
      | _ => s
    | none => s

/-- R371, R372: where corrected errors of a codeword are counted. -/
def corrNo (no : Nat) : Nat := if 64 * no < 2 ^ 40 then channelOf (64 * no) else 512

/-- R371, R372: an error in a codeword: 1 uncorrectable, 2 corrected; of a sector of HBM also 3 misdirected for good, 4 for one
access. R373: beyond the CXL port nothing is reported. -/
def State.strike (s : State) (no cond : Nat) : State :=
  let hbm := 64 * no < 2 ^ 40
  let cxl := !hbm && no < 2 ^ 51
  if cxl then s
  else if cond = 2 then
    { s with md := { s.md with
      corrected := setKey s.md.corrected (corrNo no) (getKey s.md.corrected (corrNo no) 0 + 1)
      fixed := if hbm then (corrNo no, s.clk.hub) :: s.md.fixed else s.md.fixed } }
  else if cond = 1 || (hbm && (cond = 3 || cond = 4)) then
    { s with ecc := setKey s.ecc no cond }
  else s

/-- R373: an error in the encryption engine or beyond the CXL port: a byte of main memory reads back changed, as good data. -/
def State.silentError (s : State) (k : Nat) (b : Byte) : State := if k < 2 ^ 53 then s.wrs [(k, b)] else s
/-- R373: an error in the staging register of a copy engine: a byte that a unit writes to SRAM is changed, as good data. -/
def State.silentUnit (s : State) (cmd unit at_ : Nat) (b : Byte) : State :=
  match (s.copy? cmd).bind fun c => (c.kind.jobs[unit]?).bind fun j => (s.writeSpots c j).places[at_]? with
  | some k =>
    let t := s.landUnit cmd unit
    let landed (u : State) : Bool := (u.copy? cmd).any fun c => c.done.contains unit
    if 2 ^ 53 ≤ k && !landed s && landed t then t.wrs [(k, b)] else s
  | none => s

/-- R328: the places of an image's code, constants and tables. -/
def imagePlace (img k : Nat) : Bool :=
  let within (f : Nat → Nat → Nat) : Bool := f img 0 ≤ k && k < f img (2 ^ 32)
  within codeKey || within conKey || within spKey || within rgKey
/-- R327, R328: an image is loaded under a new number (log 15). -/
def State.loadImage (s : State) (m : Image) (bytes : List (Nat × Byte)) : State :=
  if s.images.any fun x => x.id == m.id then s
  else { s.wrs (bytes.filter fun p => imagePlace m.id p.1) with images := s.images ++ [m] }

/-- R376, R379: an image is written to flash. -/
def State.stageImage (s : State) (m : FlashImage) : State :=
  { s with md := { s.md with
    flash := m :: s.md.flash.filter fun x => !(x.slot == m.slot && x.kind == m.kind && x.part == m.part) } }

/-- R58: the fabric loses or regains a chip. -/
def State.setLost (s : State) (chip : Nat) (ok : Bool) : State :=
  let rest := s.md.lost.filter fun c => c != chip
  { s with md := { s.md with lost := if ok then rest else chip :: rest } }

/-- R384: Iluloth serves what is reported to it. -/
def State.reportsHeld (s : State) : Bool := s.md.repl.phase == 2 || s.md.repl.phase == 3

end Sys2Proof.Machine
end

