-- ==== Sys2Proof/Machine/Integer.lean ====
section
/-! DEFINITION. Majors 0x01 to 0x06, 0x18 to 0x21 and the integer forms of 16 bits (R179, R216 to R226): arithmetic,
logic, shifts, compares, select, packed forms, 64-bit forms, division and constants. -/

namespace Sys2Proof.Machine

/-! ### The functions of R217, R218, R109 and R110 -/

def addW (x y : Word) : Word := x + y
def subW (x y : Word) : Word := x - y
def mulW (x y : Word) : Word := x * y
def mulhS (x y : Word) : Word := ((x.signExtend 64 * y.signExtend 64) >>> 32).truncate 32
def mulhU (x y : Word) : Word := ((x.zeroExtend 64 * y.zeroExtend 64) >>> 32).truncate 32
def iabsW (x : Word) : Word := if x.msb then 0 - x else x
def leaW (x y : Word) : Word := x + (y <<< 2)
def popcW (x : Word) : Word := BitVec.ofNat 32 ((List.range 32).countP fun k => x.getLsbD k)
/-- Zero bits above the highest 1; 32 for 0. -/
def clzW (x : Word) : Word := BitVec.ofNat 32 (((List.range 32).find? fun k => x.getLsbD (31 - k)).getD 32)
def ctzW (x : Word) : Word := BitVec.ofNat 32 (((List.range 32).find? fun k => x.getLsbD k).getD 32)
def brevW (x : Word) : Word :=
  BitVec.ofNat 32 ((List.range 32).foldl (fun n k => 2 * n + if x.getLsbD k then 1 else 0) 0)
def andnW (x y : Word) : Word := x &&& ~~~ y

/-- R109: the amount is the low 8 bits of the operand. -/
def shAmt (y : Word) : Nat := y.toNat % 256
def shlW (x y : Word) : Word := x <<< shAmt y
def shrW (x y : Word) : Word := x >>> shAmt y
def sarW (x y : Word) : Word := x.sshiftRight (shAmt y)
def rolW (x y : Word) : Word := x.rotateLeft (shAmt y % 32)

def bit (b : Bool) : Word := if b then 1 else 0
def ltS (x y : Word) : Bool := x.slt y
def leS (x y : Word) : Bool := x.sle y
def ltU (x y : Word) : Bool := x.ult y
def leU (x y : Word) : Bool := x.ule y

/-- R217: the twelve conditions. -/
def condHolds (c : Cond) (x y : Word) : Bool :=
  match c with
  | .eqI => x == y | .neI => x != y | .ltI => ltS x y | .leI => leS x y | .gtI => ltS y x | .geI => leS y x
  | .eqN => x == y | .neN => x != y | .ltN => ltU x y | .leN => leU x y | .gtN => ltU y x | .geN => leU y x

def cmpW (c : Cond) (x y : Word) : Word := bit (condHolds c x y)
def minS (x y : Word) : Word := if ltS y x then y else x
def maxS (x y : Word) : Word := if ltS x y then y else x
def minU (x y : Word) : Word := if ltU y x then y else x
def maxU (x y : Word) : Word := if ltU x y then y else x

/-- R218: position, length and signed flag of a bit field. -/
def bfPos (y : Word) : Nat := y.toNat % 256
def bfLen (y : Word) : Nat := min (y.toNat / 256 % 256) 32

def bfeW (x y : Word) : Word :=
  let sg := y.getLsbD 16
  let at' (k : Nat) : Bool := if k < 32 then x.getLsbD k else sg && x.msb
  let len := bfLen y
  BitVec.ofNat 32 ((List.range 32).foldl (fun n j =>
    let k := 31 - j
    let b := if k < len then at' (bfPos y + k) else sg && len != 0 && at' (bfPos y + len - 1)
    2 * n + if b then 1 else 0) 0)

def bfiW (z x y : Word) : Word :=
  BitVec.ofNat 32 ((List.range 32).foldl (fun n j =>
    let k := 31 - j
    let b := if bfPos y ≤ k && k < bfPos y + bfLen y then x.getLsbD (k - bfPos y) else z.getLsbD k
    2 * n + if b then 1 else 0) 0)

/-- R110: division truncates toward zero. -/
def divS (x y : Word) : Word := if y = 0 then BitVec.allOnes 32 else x.sdiv y
def divU (x y : Word) : Word := if y = 0 then BitVec.allOnes 32 else x / y
def remS (x y : Word) : Word := if y = 0 then x else x.srem y
def remU (x y : Word) : Word := if y = 0 then x else x % y

/-! ### Packed elements (R223, R224) -/

def PackT.width (t : PackT) : Nat := match t with | .i8x4 => 8 | .n8x4 => 8 | .i16x2 => 16 | .n16x2 => 16
def PackT.signed (t : PackT) : Bool := match t with | .i8x4 => true | .i16x2 => true | _ => false
/-- The bits of element `e`. -/
def PackT.raw (t : PackT) (x : Word) (e : Nat) : Nat := x.toNat / 2 ^ (e * PackT.width t) % 2 ^ PackT.width t
def PackT.elem (t : PackT) (x : Word) (e : Nat) : Int :=
  let n := PackT.raw t x e
  if PackT.signed t && 2 ^ (PackT.width t - 1) ≤ n then (n : Int) - 2 ^ PackT.width t else n
/-- R108: an element's range. -/
def PackT.clamp (t : PackT) (v : Int) : Int :=
  let w := PackT.width t
  let lo : Int := if PackT.signed t then - 2 ^ (w - 1) else 0
  let hi : Int := if PackT.signed t then 2 ^ (w - 1) - 1 else 2 ^ w - 1
  max lo (min hi v)
/-- A register from its elements, each modulo 2 to its width. -/
def PackT.join (t : PackT) (f : Nat → Int) : Word :=
  let w := PackT.width t
  BitVec.ofNat 32 ((List.range (32 / w)).foldl (fun n e => n + (f e % 2 ^ w).toNat * 2 ^ (e * w)) 0)

def packOp (t : PackT) (sat : Bool) (f : Int → Int → Int) (x y : Word) : Word :=
  PackT.join t fun e => let v := f (PackT.elem t x e) (PackT.elem t y e); if sat then PackT.clamp t v else v
/-- R109: the amount is the low 8 bits of the matching element of b. -/
def packShift (t : PackT) (f : Nat → Nat → Nat → Nat) (x y : Word) : Word :=
  PackT.join t fun e => (f (PackT.width t) (PackT.raw t x e) (PackT.raw t y e % 256) : Nat)
def shlE (_w x k : Nat) : Nat := x * 2 ^ k
def shrE (_w x k : Nat) : Nat := x / 2 ^ k
def sarE (w x k : Nat) : Nat :=
  if 2 ^ (w - 1) ≤ x then 2 ^ w - 1 - (2 ^ w - 1 - x) / 2 ^ k else x / 2 ^ k
/-- R224: exact products, summed modulo 2^32. -/
def dotW (t : PackT) (z x y : Word) : Word :=
  z + BitVec.ofInt 32 ((List.range (32 / PackT.width t)).foldl (fun n e => n + PackT.elem t x e * PackT.elem t y e) 0)

/-! ### 64-bit forms (R226) -/

def shlD (x : Dword) (y : Word) : Dword := x <<< shAmt y
def shrD (x : Dword) (y : Word) : Dword := x >>> shAmt y
def mulwS (x y : Word) : Dword := x.signExtend 64 * y.signExtend 64
def mulwU (x y : Word) : Dword := x.zeroExtend 64 * y.zeroExtend 64

/-! ### The meanings -/

/-- R217. -/
def execIadd (d a b : Opd) (s : State) : Host.Outcome State Fault Refusal :=
  binOp (.iadd d a b) s d a b addW

/-- R217. -/
def execIsub (d a b : Opd) (s : State) : Host.Outcome State Fault Refusal :=
  binOp (.isub d a b) s d a b subW

/-- R217. -/
def execImul (d a b : Opd) (s : State) : Host.Outcome State Fault Refusal :=
  binOp (.imul d a b) s d a b mulW

/-- R217. -/
def execImulhI32 (d a b : Opd) (s : State) : Host.Outcome State Fault Refusal :=
  binOp (.imulhI32 d a b) s d a b mulhS

/-- R217. -/
def execImulhN32 (d a b : Opd) (s : State) : Host.Outcome State Fault Refusal :=
  binOp (.imulhN32 d a b) s d a b mulhU

/-- R217. -/
def execLea (d a b : Opd) (s : State) : Host.Outcome State Fault Refusal :=
  binOp (.lea d a b) s d a b leaW

/-- R218. -/
def execBfe (d a b : Opd) (s : State) : Host.Outcome State Fault Refusal :=
  binOp (.bfe d a b) s d a b bfeW

/-- R217. -/
def execAnd (d a b : Opd) (s : State) : Host.Outcome State Fault Refusal :=
  binOp (.and d a b) s d a b (· &&& ·)

/-- R217. -/
def execOr (d a b : Opd) (s : State) : Host.Outcome State Fault Refusal :=
  binOp (.or d a b) s d a b (· ||| ·)

/-- R217. -/
def execXor (d a b : Opd) (s : State) : Host.Outcome State Fault Refusal :=
  binOp (.xor d a b) s d a b (· ^^^ ·)

/-- R217. -/
def execAndn (d a b : Opd) (s : State) : Host.Outcome State Fault Refusal :=
  binOp (.andn d a b) s d a b andnW

/-- R217. -/
def execShl (d a b : Opd) (s : State) : Host.Outcome State Fault Refusal :=
  binOp (.shl d a b) s d a b shlW

/-- R217. -/
def execShr (d a b : Opd) (s : State) : Host.Outcome State Fault Refusal :=
  binOp (.shr d a b) s d a b shrW

/-- R217. -/
def execSar (d a b : Opd) (s : State) : Host.Outcome State Fault Refusal :=
  binOp (.sar d a b) s d a b sarW

/-- R217. -/
def execRol (d a b : Opd) (s : State) : Host.Outcome State Fault Refusal :=
  binOp (.rol d a b) s d a b rolW

/-- R217. -/
def execIminI32 (d a b : Opd) (s : State) : Host.Outcome State Fault Refusal :=
  binOp (.iminI32 d a b) s d a b minS

/-- R217. -/
def execImaxI32 (d a b : Opd) (s : State) : Host.Outcome State Fault Refusal :=
  binOp (.imaxI32 d a b) s d a b maxS

/-- R217. -/
def execIminN32 (d a b : Opd) (s : State) : Host.Outcome State Fault Refusal :=
  binOp (.iminN32 d a b) s d a b minU

/-- R217. -/
def execImaxN32 (d a b : Opd) (s : State) : Host.Outcome State Fault Refusal :=
  binOp (.imaxN32 d a b) s d a b maxU

/-- R217. -/
def execCmpEqI32 (d a b : Opd) (s : State) : Host.Outcome State Fault Refusal :=
  binOp (.cmpEqI32 d a b) s d a b (cmpW .eqI)

/-- R217. -/
def execCmpEqN32 (d a b : Opd) (s : State) : Host.Outcome State Fault Refusal :=
  binOp (.cmpEqN32 d a b) s d a b (cmpW .eqN)

/-- R217. -/
def execCmpNeI32 (d a b : Opd) (s : State) : Host.Outcome State Fault Refusal :=
  binOp (.cmpNeI32 d a b) s d a b (cmpW .neI)

/-- R217. -/
def execCmpNeN32 (d a b : Opd) (s : State) : Host.Outcome State Fault Refusal :=
  binOp (.cmpNeN32 d a b) s d a b (cmpW .neN)

/-- R217. -/
def execCmpLtI32 (d a b : Opd) (s : State) : Host.Outcome State Fault Refusal :=
  binOp (.cmpLtI32 d a b) s d a b (cmpW .ltI)

/-- R217. -/
def execCmpLtN32 (d a b : Opd) (s : State) : Host.Outcome State Fault Refusal :=
  binOp (.cmpLtN32 d a b) s d a b (cmpW .ltN)

/-- R217. -/
def execCmpLeI32 (d a b : Opd) (s : State) : Host.Outcome State Fault Refusal :=
  binOp (.cmpLeI32 d a b) s d a b (cmpW .leI)

/-- R217. -/
def execCmpLeN32 (d a b : Opd) (s : State) : Host.Outcome State Fault Refusal :=
  binOp (.cmpLeN32 d a b) s d a b (cmpW .leN)

/-- R217. -/
def execCmpGtI32 (d a b : Opd) (s : State) : Host.Outcome State Fault Refusal :=
  binOp (.cmpGtI32 d a b) s d a b (cmpW .gtI)

/-- R217. -/
def execCmpGtN32 (d a b : Opd) (s : State) : Host.Outcome State Fault Refusal :=
  binOp (.cmpGtN32 d a b) s d a b (cmpW .gtN)

/-- R217. -/
def execCmpGeI32 (d a b : Opd) (s : State) : Host.Outcome State Fault Refusal :=
  binOp (.cmpGeI32 d a b) s d a b (cmpW .geI)

/-- R217. -/
def execCmpGeN32 (d a b : Opd) (s : State) : Host.Outcome State Fault Refusal :=
  binOp (.cmpGeN32 d a b) s d a b (cmpW .geN)

/-- R217. -/
def execIabs (d a : Opd) (s : State) : Host.Outcome State Fault Refusal :=
  unOp (.iabs d a) s d a iabsW

/-- R217. -/
def execMov (d a : Opd) (s : State) : Host.Outcome State Fault Refusal :=
  unOp (.mov d a) s d a id

/-- R217. -/
def execPopc (d a : Opd) (s : State) : Host.Outcome State Fault Refusal :=
  unOp (.popc d a) s d a popcW

/-- R217. -/
def execClz (d a : Opd) (s : State) : Host.Outcome State Fault Refusal :=
  unOp (.clz d a) s d a clzW

/-- R217. -/
def execCtz (d a : Opd) (s : State) : Host.Outcome State Fault Refusal :=
  unOp (.ctz d a) s d a ctzW

/-- R217. -/
def execBrev (d a : Opd) (s : State) : Host.Outcome State Fault Refusal :=
  unOp (.brev d a) s d a brevW

/-- R217: d is the addend. -/
def execImad (d a b : Opd) (s : State) : Host.Outcome State Fault Refusal :=
  laneOp (.imad d a b) s d fun w l => w.src d l + mulW (w.src a l) (w.src b l)

/-- R218. -/
def execBfi (d a b : Opd) (s : State) : Host.Outcome State Fault Refusal :=
  laneOp (.bfi d a b) s d fun w l => bfiW (w.src d l) (w.src a l) (w.src b l)

/-- R219: the bit of the lane; of the lowest lane for a uniform form. -/
def execSelMask (d : Opd) (k : Fin 12) (a b : Opd) (s : State) : Host.Outcome State Fault Refusal :=
  laneOp (.selMask d k a b) s d fun w l => if has (w.getM k.val) l then w.src a l else w.src b l

/-- R219. -/
def execSel (d a b : Opd) (s : State) : Host.Outcome State Fault Refusal :=
  laneOp (.sel d a b) s d fun w l => if w.src a l != 0 then w.src b l else w.src d l

/-- R224. -/
def execIaddPacked (d a b : Fin 64) (t : PackT) (sat : Bool) (s : State) : Host.Outcome State Fault Refusal :=
  binOp (.iaddPacked d a b t sat) s (vOpd d) (vOpd a) (vOpd b) (packOp t sat (· + ·))

/-- R224. -/
def execIsubPacked (d a b : Fin 64) (t : PackT) (sat : Bool) (s : State) : Host.Outcome State Fault Refusal :=
  binOp (.isubPacked d a b t sat) s (vOpd d) (vOpd a) (vOpd b) (packOp t sat (· - ·))

/-- R224. -/
def execIminPacked (d a b : Fin 64) (t : PackT) (s : State) : Host.Outcome State Fault Refusal :=
  binOp (.iminPacked d a b t) s (vOpd d) (vOpd a) (vOpd b) (packOp t false min)

/-- R224. -/
def execImaxPacked (d a b : Fin 64) (t : PackT) (s : State) : Host.Outcome State Fault Refusal :=
  binOp (.imaxPacked d a b t) s (vOpd d) (vOpd a) (vOpd b) (packOp t false max)

/-- R224, R109. -/
def execShlPacked (d a b : Fin 64) (t : PackT) (s : State) : Host.Outcome State Fault Refusal :=
  binOp (.shlPacked d a b t) s (vOpd d) (vOpd a) (vOpd b) (packShift t shlE)

/-- R224, R109. -/
def execShrPacked (d a b : Fin 64) (t : PackT) (s : State) : Host.Outcome State Fault Refusal :=
  binOp (.shrPacked d a b t) s (vOpd d) (vOpd a) (vOpd b) (packShift t shrE)

/-- R224, R109. -/
def execSarPacked (d a b : Fin 64) (t : PackT) (s : State) : Host.Outcome State Fault Refusal :=
  binOp (.sarPacked d a b t) s (vOpd d) (vOpd a) (vOpd b) (packShift t sarE)

/-- R224. -/
def execIdot4 (d a b : Fin 64) (u : Bool) (s : State) : Host.Outcome State Fault Refusal :=
  laneOp (.idot4 d a b u) s (vOpd d) fun w l =>
    dotW (if u then .n8x4 else .i8x4) (w.src (vOpd d) l) (w.src (vOpd a) l) (w.src (vOpd b) l)

/-- R224. -/
def execIdot2 (d a b : Fin 64) (u : Bool) (s : State) : Host.Outcome State Fault Refusal :=
  laneOp (.idot2 d a b u) s (vOpd d) fun w l =>
    dotW (if u then .n16x2 else .i16x2) (w.src (vOpd d) l) (w.src (vOpd a) l) (w.src (vOpd b) l)

/-- R226. -/
def execIadd64 (d a b : Opd) (s : State) : Host.Outcome State Fault Refusal :=
  laneOp64 (.iadd64 d a b) s d fun w l => w.src64 a l + w.src64 b l

/-- R226. -/
def execIsub64 (d a b : Opd) (s : State) : Host.Outcome State Fault Refusal :=
  laneOp64 (.isub64 d a b) s d fun w l => w.src64 a l - w.src64 b l

/-- R226. -/
def execShl64 (d a b : Opd) (s : State) : Host.Outcome State Fault Refusal :=
  laneOp64 (.shl64 d a b) s d fun w l => shlD (w.src64 a l) (w.src b l)

/-- R226. -/
def execShr64 (d a b : Opd) (s : State) : Host.Outcome State Fault Refusal :=
  laneOp64 (.shr64 d a b) s d fun w l => shrD (w.src64 a l) (w.src b l)

/-- R226. -/
def execImulwI32 (d a b : Opd) (s : State) : Host.Outcome State Fault Refusal :=
  laneOp64 (.imulwI32 d a b) s d fun w l => mulwS (w.src a l) (w.src b l)

/-- R226. -/
def execImulwN32 (d a b : Opd) (s : State) : Host.Outcome State Fault Refusal :=
  laneOp64 (.imulwN32 d a b) s d fun w l => mulwU (w.src a l) (w.src b l)

/-- R226. -/
def execCmp64Eq (d a b : Opd) (s : State) : Host.Outcome State Fault Refusal :=
  laneOp (.cmp64Eq d a b) s d fun w l => bit (w.src64 a l == w.src64 b l)

/-- R226. -/
def execCmp64Ne (d a b : Opd) (s : State) : Host.Outcome State Fault Refusal :=
  laneOp (.cmp64Ne d a b) s d fun w l => bit (w.src64 a l != w.src64 b l)

/-- R226. -/
def execCmp64LtI64 (d a b : Opd) (s : State) : Host.Outcome State Fault Refusal :=
  laneOp (.cmp64LtI64 d a b) s d fun w l => bit ((w.src64 a l).slt (w.src64 b l))

/-- R226. -/
def execCmp64LtN64 (d a b : Opd) (s : State) : Host.Outcome State Fault Refusal :=
  laneOp (.cmp64LtN64 d a b) s d fun w l => bit ((w.src64 a l).ult (w.src64 b l))

/-- R226. -/
def execCmp64LeI64 (d a b : Opd) (s : State) : Host.Outcome State Fault Refusal :=
  laneOp (.cmp64LeI64 d a b) s d fun w l => bit ((w.src64 a l).sle (w.src64 b l))

/-- R226. -/
def execCmp64LeN64 (d a b : Opd) (s : State) : Host.Outcome State Fault Refusal :=
  laneOp (.cmp64LeN64 d a b) s d fun w l => bit ((w.src64 a l).ule (w.src64 b l))

/-- R226, R110. -/
def execIdivI32 (d a b : Opd) (s : State) : Host.Outcome State Fault Refusal :=
  binOp (.idivI32 d a b) s d a b divS

/-- R226, R110. -/
def execIdivN32 (d a b : Opd) (s : State) : Host.Outcome State Fault Refusal :=
  binOp (.idivN32 d a b) s d a b divU

/-- R226, R110. -/
def execIremI32 (d a b : Opd) (s : State) : Host.Outcome State Fault Refusal :=
  binOp (.iremI32 d a b) s d a b remS

/-- R226, R110. -/
def execIremN32 (d a b : Opd) (s : State) : Host.Outcome State Fault Refusal :=
  binOp (.iremN32 d a b) s d a b remU

/-- R220. -/
def execIaddi (d a : Opd) (imm : BitVec 11) (s : State) : Host.Outcome State Fault Refusal :=
  unOp (.iaddi d a imm) s d a fun x => addW x (imm.signExtend 32)

/-- R220. -/
def execAndi (d a : Opd) (imm : BitVec 11) (s : State) : Host.Outcome State Fault Refusal :=
  unOp (.andi d a imm) s d a fun x => (· &&& ·) x (imm.signExtend 32)

/-- R220. -/
def execOri (d a : Opd) (imm : BitVec 11) (s : State) : Host.Outcome State Fault Refusal :=
  unOp (.ori d a imm) s d a fun x => (· ||| ·) x (imm.signExtend 32)

/-- R220. -/
def execXori (d a : Opd) (imm : BitVec 11) (s : State) : Host.Outcome State Fault Refusal :=
  unOp (.xori d a imm) s d a fun x => (· ^^^ ·) x (imm.signExtend 32)

/-- R220. -/
def execImuli (d a : Opd) (imm : BitVec 11) (s : State) : Host.Outcome State Fault Refusal :=
  unOp (.imuli d a imm) s d a fun x => mulW x (imm.signExtend 32)

/-- R220. -/
def execShli (d a : Opd) (n : BitVec 8) (s : State) : Host.Outcome State Fault Refusal :=
  unOp (.shli d a n) s d a fun x => shlW x (n.zeroExtend 32)

/-- R220. -/
def execShri (d a : Opd) (n : BitVec 8) (s : State) : Host.Outcome State Fault Refusal :=
  unOp (.shri d a n) s d a fun x => shrW x (n.zeroExtend 32)

/-- R220. -/
def execSari (d a : Opd) (n : BitVec 8) (s : State) : Host.Outcome State Fault Refusal :=
  unOp (.sari d a n) s d a fun x => sarW x (n.zeroExtend 32)

/-- R220: against the sign-extended pattern, also for the unsigned conditions. -/
def execCmpi (d a : Opd) (c : Cond) (v : BitVec 7) (s : State) : Host.Outcome State Fault Refusal :=
  unOp (.cmpi d a c v) s d a fun x => cmpW c x (v.signExtend 32)

/-- R221. -/
def execMovsFromScalar (d : Opd) (n : Fin 64) (s : State) : Host.Outcome State Fault Refusal :=
  laneOp (.movsFromScalar d n) s d fun w _ => w.getS n.val

/-- R221. -/
def execMovsToScalar (n : Fin 64) (a : Opd) (s : State) : Host.Outcome State Fault Refusal :=
  issue (.movsToScalar n a) s fun r => .ok (s.setW (s.w.putS n.val (s.w.scal r a)))

/-- R183, R222. -/
def execMovl (d : Opd) (imm : BitVec 18) (s : State) : Host.Outcome State Fault Refusal :=
  laneOp (.movl d imm) s d fun _ _ => imm.signExtend 32

/-- R183, R222. -/
def execMovh (d : Opd) (imm : BitVec 18) (s : State) : Host.Outcome State Fault Refusal :=
  laneOp (.movh d imm) s d fun w l =>
    (imm.zeroExtend 32 <<< 14) ||| BitVec.ofNat 32 ((w.src d l).toNat % 2 ^ 14)

/-- R179: the 32-bit form with a = d. -/
def execIadd16 (d : Fin 64) (b : Opd16) (s : State) : Host.Outcome State Fault Refusal :=
  binOp (.iadd16 d b) s (vOpd d) (vOpd d) b.toOpd addW

/-- R179: the 32-bit form with a = d. -/
def execIsub16 (d : Fin 64) (b : Opd16) (s : State) : Host.Outcome State Fault Refusal :=
  binOp (.isub16 d b) s (vOpd d) (vOpd d) b.toOpd subW

/-- R179: the 32-bit form with a = d. -/
def execImul16 (d : Fin 64) (b : Opd16) (s : State) : Host.Outcome State Fault Refusal :=
  binOp (.imul16 d b) s (vOpd d) (vOpd d) b.toOpd mulW

/-- R179: the 32-bit form with a = d. -/
def execAnd16 (d : Fin 64) (b : Opd16) (s : State) : Host.Outcome State Fault Refusal :=
  binOp (.and16 d b) s (vOpd d) (vOpd d) b.toOpd (· &&& ·)

/-- R179: the 32-bit form with a = d. -/
def execOr16 (d : Fin 64) (b : Opd16) (s : State) : Host.Outcome State Fault Refusal :=
  binOp (.or16 d b) s (vOpd d) (vOpd d) b.toOpd (· ||| ·)

/-- R179: the 32-bit form with a = d. -/
def execXor16 (d : Fin 64) (b : Opd16) (s : State) : Host.Outcome State Fault Refusal :=
  binOp (.xor16 d b) s (vOpd d) (vOpd d) b.toOpd (· ^^^ ·)

/-- R179: the 32-bit form with a = d. -/
def execShl16 (d : Fin 64) (b : Opd16) (s : State) : Host.Outcome State Fault Refusal :=
  binOp (.shl16 d b) s (vOpd d) (vOpd d) b.toOpd shlW

/-- R179: the 32-bit form with a = d. -/
def execShr16 (d : Fin 64) (b : Opd16) (s : State) : Host.Outcome State Fault Refusal :=
  binOp (.shr16 d b) s (vOpd d) (vOpd d) b.toOpd shrW

/-- R179: the 32-bit form with a = d. -/
def execSar16 (d : Fin 64) (b : Opd16) (s : State) : Host.Outcome State Fault Refusal :=
  binOp (.sar16 d b) s (vOpd d) (vOpd d) b.toOpd sarW

/-- R179: the 32-bit form with a = d. -/
def execIminI3216 (d : Fin 64) (b : Opd16) (s : State) : Host.Outcome State Fault Refusal :=
  binOp (.iminI3216 d b) s (vOpd d) (vOpd d) b.toOpd minS

/-- R179: the 32-bit form with a = d. -/
def execImaxI3216 (d : Fin 64) (b : Opd16) (s : State) : Host.Outcome State Fault Refusal :=
  binOp (.imaxI3216 d b) s (vOpd d) (vOpd d) b.toOpd maxS

/-- R179. -/
def execMov16 (d : Fin 64) (b : Opd16) (s : State) : Host.Outcome State Fault Refusal :=
  unOp (.mov16 d b) s (vOpd d) b.toOpd id

end Sys2Proof.Machine
end

