-- ==== Sys2Proof/Machine/Lanes.lean ====
section
/-! DEFINITION. Cross-lane instructions, major 0x10 (R107, R275 to R282). Every source is read at issue, before any
destination is written (R276). -/

namespace Sys2Proof.Machine

/-! ### Shuffles (R277, R278) -/

/-- R277: a lane whose source lane is missing keeps its own value.
DESIGN CHOICE (log 9): the result is written at issue; a turn `slow` issues the word with its result on the way. -/
def shuffle (i : Instr) (s : State) (d a : Opd) (f : Warp → Nat → Option Nat) : Host.Outcome State Fault Refusal :=
  issue i s fun r =>
    .ok (s.setW (s.w.write d r.lanes fun l =>
      match f s.w l with
      | some q => if q < Config.warpW && has r.lanes q then s.w.src a q else s.w.src a l
      | none => s.w.src a l))

def laneUp (l k : Nat) : Option Nat := if k ≤ l then some (l - k) else none
def laneDn (l k : Nat) : Option Nat := some (l + k)
def laneXor (l k : Nat) : Option Nat := some (l ^^^ k)

/-- R277. -/
def execLshfUp (d a b : Opd) (s : State) : Host.Outcome State Fault Refusal :=
  shuffle (.lshfUp d a b) s d a fun w l => laneUp l (w.src b l).toNat
/-- R277. -/
def execLshfDn (d a b : Opd) (s : State) : Host.Outcome State Fault Refusal :=
  shuffle (.lshfDn d a b) s d a fun w l => laneDn l (w.src b l).toNat
/-- R277. -/
def execLshfXor (d a b : Opd) (s : State) : Host.Outcome State Fault Refusal :=
  shuffle (.lshfXor d a b) s d a fun w l => laneXor l (w.src b l).toNat
/-- R277. -/
def execLshfIdx (d a b : Opd) (s : State) : Host.Outcome State Fault Refusal :=
  shuffle (.lshfIdx d a b) s d a fun w l => some (w.src b l).toNat
/-- R275, R277: k is the width shifted right by j. -/
def execLshfUpW (d a : Opd) (j : Fin 8) (s : State) : Host.Outcome State Fault Refusal :=
  shuffle (.lshfUpW d a j) s d a fun _ l => laneUp l (Config.warpW / 2 ^ j.val)
/-- R275, R277. -/
def execLshfDnW (d a : Opd) (j : Fin 8) (s : State) : Host.Outcome State Fault Refusal :=
  shuffle (.lshfDnW d a j) s d a fun _ l => laneDn l (Config.warpW / 2 ^ j.val)
/-- R275, R277. -/
def execLshfXorW (d a : Opd) (j : Fin 8) (s : State) : Host.Outcome State Fault Refusal :=
  shuffle (.lshfXorW d a j) s d a fun _ l => laneXor l (Config.warpW / 2 ^ j.val)

/-- R278: the lowest lane of the run stands in for a lane outside it. -/
def execLbcast (d a b : Opd) (s : State) : Host.Outcome State Fault Refusal :=
  issue (.lbcast d a b) s fun r =>
    let q := (s.w.scal r b).toNat
    let p := if q < Config.warpW && has r.lanes q then q else lowLane r.lanes
    .ok (s.writeAll r d (s.w.src a p))

/-! ### Reductions (R107, R279) -/

def RedOp.isFloat (o : RedOp) : Bool := match o with | .fadd => true | .fmin => true | .fmax => true | _ => false

/-- R107: what a lane outside the run contributes. -/
def RedOp.identity (o : RedOp) : Word :=
  match o with | .and => BitVec.allOnes 32 | .fmin => 0x7F800000 | .fmax => 0xFF800000 | _ => 0

def RedOp.combine (o : RedOp) (x y : Word) : Word × Exc :=
  match o with
  | .add => (x + y, {})
  | .fadd => add32 .nearest x y
  | .fmin => minmax32 false x y
  | .fmax => minmax32 true x y
  | .and => (x &&& y, {})
  | .or => (x ||| y, {})

/-- R107: one halving: lane i with lane i + d. -/
def redStep (o : RedOp) (p : List Word × Exc) (d : Nat) : List Word × Exc :=
  let z := List.zipWith (RedOp.combine o) (p.1.take d) (p.1.drop d)
  (z.map Prod.fst, p.2.or (Exc.all (z.map Prod.snd)))

/-- R107: the reduction of 64 values, with the exceptions of every step. -/
def reduce (o : RedOp) (t : List Word) : Word × Exc :=
  let p := [32, 16, 8, 4, 2, 1].foldl (redStep o) (t, {})
  (p.1.headD 0, p.2)

/-- R275: the source of a reduction. -/
def Warp.redSrc (w : Warp) (o : RedOp) (a : Opd) (l : Nat) : Word := w.get (if RedOp.isFloat o then f32K else intK) a l

/-- The values of the lanes of the run up to lane `i`, with the identity in every other place. -/
def Warp.redIn (w : Warp) (o : RedOp) (a : Opd) (m : LaneMask) (i : Nat) : List Word :=
  mkRow fun q => if has m q && q ≤ i then w.redSrc o a q else RedOp.identity o

/-- R279. -/
def execLred (d a : Opd) (op : RedOp) (s : State) : Host.Outcome State Fault Refusal :=
  issue (.lred d a op) s fun r =>
    let p := reduce op (s.w.redIn op a r.lanes 63)
    .ok (s.setW ((s.w.write d r.lanes fun _ => p.1).raise r.lanes fun _ => p.2))

/-- R279: an inclusive prefix for each lane; a scalar destination takes the whole reduction. -/
def execLscan (d a : Opd) (op : RedOp) (s : State) : Host.Outcome State Fault Refusal :=
  issue (.lscan d a op) s fun r =>
    let p (i : Nat) := reduce op (s.w.redIn op a r.lanes (if d.kind = 2 then 63 else i))
    .ok (s.setW ((s.w.write d r.lanes fun l => (p l).1).raise r.lanes fun l => (p l).2))

/-! ### Votes, identifiers, reading another lane -/

/-- The lanes of the run whose source is not zero. -/
def Warp.voters (w : Warp) (a : Opd) (m : LaneMask) : LaneMask := keepLanes m fun l => w.src a l != 0

/-- R280. -/
def execLvoteAny (d a : Opd) (s : State) : Host.Outcome State Fault Refusal :=
  issue (.lvoteAny d a) s fun r => .ok (s.writeAll r d (if s.w.voters a r.lanes = 0 then 0 else 1))
/-- R280. -/
def execLvoteAll (d a : Opd) (s : State) : Host.Outcome State Fault Refusal :=
  issue (.lvoteAll d a) s fun r => .ok (s.writeAll r d (if s.w.voters a r.lanes = r.lanes then 1 else 0))
/-- R280. -/
def execLvoteBallot (d a : Opd) (s : State) : Host.Outcome State Fault Refusal :=
  issue (.lvoteBallot d a) s fun r => .ok (s.writeAll64 r d (s.w.voters a r.lanes))

/-- R10, R11: the work identifier of a lane: lane, warp and the group's coordinate. -/
def wid (s : State) (l : Nat) : Dword :=
  BitVec.ofNat 64 l + (BitVec.ofNat 64 s.w.idx <<< s.g.kern.widths.headD 6) + s.g.coord
/-- R10, R281: field `k` of an identifier, by the widths of the fields. -/
def widField (widths : List Nat) (k : Nat) (x : Dword) : Word :=
  BitVec.ofNat 32 (x.toNat / 2 ^ (widths.take k).sum % 2 ^ widths.getD k 0)

/-- R281. A scalar destination takes the WID of the lowest lane (DESIGN CHOICE, log 113). -/
def execLidx (d : Opd) (f : WidF) (s : State) : Host.Outcome State Fault Refusal :=
  match f with
  | .all => laneOp64 (.lidx d .all) s d fun _ l => wid s l
  | .field k => laneOp (.lidx d (.field k)) s d fun _ l => widField s.g.kern.widths k.val (wid s l)

/-- R282: the register of any lane, as it stands. -/
def execLget (d a b : Opd) (s : State) : Host.Outcome State Fault Refusal :=
  laneOp (.lget d a b) s d fun w l =>
    let q := (w.src b l).toNat
    if q < Config.warpW then w.src a q else 0

end Sys2Proof.Machine
end

