-- ==== Sys2Proof/Machine/Masks.lean ====
section
/-! DEFINITION. Lane masks, major 0x11 but for `wait` (R16, R213 to R215). -/

namespace Sys2Proof.Machine

/-- R214: mask J, where 12 names the run itself. -/
def Warp.maskJ (w : Warp) (r : Run) (j : Fin 13) : LaneMask := if j.val = 12 then r.lanes else w.getM j.val

/-- A mask takes a value, restricted to the lanes that have not retired (R214). -/
def maskOp (i : Instr) (s : State) (k : Fin 12) (f : Warp → Run → LaneMask) : Host.Outcome State Fault Refusal :=
  issue i s fun r => .ok (s.putMasks (s.w.setM k.val (f s.w r &&& s.w.live)))

/-- R16. -/
def execJoin (k : Fin 12) (s : State) : Host.Outcome State Fault Refusal :=
  maskOp (.join k) s k fun w r => w.getM k.val ||| r.lanes

/-- R16. -/
def execLeave (k : Fin 12) (s : State) : Host.Outcome State Fault Refusal :=
  issue (.leave k) s fun r => .ok (s.putMasks (s.w.setM k.val (s.w.getM k.val &&& ~~~ r.lanes)))

/-- R214. -/
def execMset (k : Fin 12) (a : Opd) (s : State) : Host.Outcome State Fault Refusal :=
  maskOp (.mset k a) s k fun w r => w.scal64 r a

/-- R214. -/
def execMget (d : Opd) (j : Fin 13) (s : State) : Host.Outcome State Fault Refusal :=
  issue (.mget d j) s fun r => .ok (s.writeAll64 r d (s.w.maskJ r j))

/-- R214. -/
def execMand (d a b : Fin 12) (s : State) : Host.Outcome State Fault Refusal :=
  maskOp (.mand d a b) s d fun w _ => w.getM a.val &&& w.getM b.val

/-- R214. -/
def execMor (d a b : Fin 12) (s : State) : Host.Outcome State Fault Refusal :=
  maskOp (.mor d a b) s d fun w _ => w.getM a.val ||| w.getM b.val

/-- R214. -/
def execMxor (d a b : Fin 12) (s : State) : Host.Outcome State Fault Refusal :=
  maskOp (.mxor d a b) s d fun w _ => w.getM a.val ^^^ w.getM b.val

/-- R214. -/
def execMnot (d a : Fin 12) (s : State) : Host.Outcome State Fault Refusal :=
  maskOp (.mnot d a) s d fun w _ => ~~~ w.getM a.val

/-- R214. -/
def execMpop (d : Opd) (j : Fin 13) (s : State) : Host.Outcome State Fault Refusal :=
  issue (.mpop d j) s fun r => .ok (s.writeAll r d (BitVec.ofNat 32 (lanesOf (s.w.maskJ r j)).length))

/-- R214: all ones for an empty mask, else its lowest bit. -/
def execMfirst (d : Opd) (j : Fin 13) (s : State) : Host.Outcome State Fault Refusal :=
  issue (.mfirst d j) s fun r =>
    let m := s.w.maskJ r j
    .ok (s.writeAll r d (if m = 0 then 0xFFFFFFFF else BitVec.ofNat 32 (lowLane m)))

end Sys2Proof.Machine
end

