-- ==== Sys2Proof/Machine/Dispatch.lean ====
section
/-! DEFINITION. The one dispatch: each instruction and each step of another agent to its meaning. The decoder builds more
constructors than compiled code can hold, so nothing here is compiled. -/

namespace Sys2Proof.Machine

open Sys2Proof in noncomputable
def exec (i : Instr) (s : State) : Host.Outcome State Fault Refusal :=
  match i with
  | .mov16 d b => Sys2Proof.Machine.execMov16 d b s
  | .nop16 => Sys2Proof.Machine.execNop16 s
  | .iadd16 d b => Sys2Proof.Machine.execIadd16 d b s
  | .isub16 d b => Sys2Proof.Machine.execIsub16 d b s
  | .imul16 d b => Sys2Proof.Machine.execImul16 d b s
  | .and16 d b => Sys2Proof.Machine.execAnd16 d b s
  | .or16 d b => Sys2Proof.Machine.execOr16 d b s
  | .xor16 d b => Sys2Proof.Machine.execXor16 d b s
  | .shl16 d b => Sys2Proof.Machine.execShl16 d b s
  | .shr16 d b => Sys2Proof.Machine.execShr16 d b s
  | .sar16 d b => Sys2Proof.Machine.execSar16 d b s
  | .iminI3216 d b => Sys2Proof.Machine.execIminI3216 d b s
  | .imaxI3216 d b => Sys2Proof.Machine.execImaxI3216 d b s
  | .fadd16 d b => Sys2Proof.Machine.execFadd16 d b s
  | .fsub16 d b => Sys2Proof.Machine.execFsub16 d b s
  | .fmul16 d b => Sys2Proof.Machine.execFmul16 d b s
  | .fmax16 d b => Sys2Proof.Machine.execFmax16 d b s
  | .iadd d a b => Sys2Proof.Machine.execIadd d a b s
  | .isub d a b => Sys2Proof.Machine.execIsub d a b s
  | .imul d a b => Sys2Proof.Machine.execImul d a b s
  | .imulhI32 d a b => Sys2Proof.Machine.execImulhI32 d a b s
  | .imulhN32 d a b => Sys2Proof.Machine.execImulhN32 d a b s
  | .imad d a b => Sys2Proof.Machine.execImad d a b s
  | .iabs d a => Sys2Proof.Machine.execIabs d a s
  | .lea d a b => Sys2Proof.Machine.execLea d a b s
  | .mov d a => Sys2Proof.Machine.execMov d a s
  | .popc d a => Sys2Proof.Machine.execPopc d a s
  | .clz d a => Sys2Proof.Machine.execClz d a s
  | .ctz d a => Sys2Proof.Machine.execCtz d a s
  | .brev d a => Sys2Proof.Machine.execBrev d a s
  | .bfe d a b => Sys2Proof.Machine.execBfe d a b s
  | .bfi d a b => Sys2Proof.Machine.execBfi d a b s
  | .and d a b => Sys2Proof.Machine.execAnd d a b s
  | .or d a b => Sys2Proof.Machine.execOr d a b s
  | .xor d a b => Sys2Proof.Machine.execXor d a b s
  | .andn d a b => Sys2Proof.Machine.execAndn d a b s
  | .shl d a b => Sys2Proof.Machine.execShl d a b s
  | .shr d a b => Sys2Proof.Machine.execShr d a b s
  | .sar d a b => Sys2Proof.Machine.execSar d a b s
  | .rol d a b => Sys2Proof.Machine.execRol d a b s
  | .cmpEqI32 d a b => Sys2Proof.Machine.execCmpEqI32 d a b s
  | .cmpNeI32 d a b => Sys2Proof.Machine.execCmpNeI32 d a b s
  | .cmpLtI32 d a b => Sys2Proof.Machine.execCmpLtI32 d a b s
  | .cmpLeI32 d a b => Sys2Proof.Machine.execCmpLeI32 d a b s
  | .cmpGtI32 d a b => Sys2Proof.Machine.execCmpGtI32 d a b s
  | .cmpGeI32 d a b => Sys2Proof.Machine.execCmpGeI32 d a b s
  | .cmpEqN32 d a b => Sys2Proof.Machine.execCmpEqN32 d a b s
  | .cmpNeN32 d a b => Sys2Proof.Machine.execCmpNeN32 d a b s
  | .cmpLtN32 d a b => Sys2Proof.Machine.execCmpLtN32 d a b s
  | .cmpLeN32 d a b => Sys2Proof.Machine.execCmpLeN32 d a b s
  | .cmpGtN32 d a b => Sys2Proof.Machine.execCmpGtN32 d a b s
  | .cmpGeN32 d a b => Sys2Proof.Machine.execCmpGeN32 d a b s
  | .iminI32 d a b => Sys2Proof.Machine.execIminI32 d a b s
  | .imaxI32 d a b => Sys2Proof.Machine.execImaxI32 d a b s
  | .iminN32 d a b => Sys2Proof.Machine.execIminN32 d a b s
  | .imaxN32 d a b => Sys2Proof.Machine.execImaxN32 d a b s
  | .selMask d k a b => Sys2Proof.Machine.execSelMask d k a b s
  | .sel d a b => Sys2Proof.Machine.execSel d a b s
  | .iaddPacked d a b t sat => Sys2Proof.Machine.execIaddPacked d a b t sat s
  | .isubPacked d a b t sat => Sys2Proof.Machine.execIsubPacked d a b t sat s
  | .iminPacked d a b t => Sys2Proof.Machine.execIminPacked d a b t s
  | .imaxPacked d a b t => Sys2Proof.Machine.execImaxPacked d a b t s
  | .shlPacked d a b t => Sys2Proof.Machine.execShlPacked d a b t s
  | .shrPacked d a b t => Sys2Proof.Machine.execShrPacked d a b t s
  | .sarPacked d a b t => Sys2Proof.Machine.execSarPacked d a b t s
  | .idot4 d a b u => Sys2Proof.Machine.execIdot4 d a b u s
  | .idot2 d a b u => Sys2Proof.Machine.execIdot2 d a b u s
  | .iadd64 d a b => Sys2Proof.Machine.execIadd64 d a b s
  | .isub64 d a b => Sys2Proof.Machine.execIsub64 d a b s
  | .shl64 d a b => Sys2Proof.Machine.execShl64 d a b s
  | .shr64 d a b => Sys2Proof.Machine.execShr64 d a b s
  | .imulwI32 d a b => Sys2Proof.Machine.execImulwI32 d a b s
  | .imulwN32 d a b => Sys2Proof.Machine.execImulwN32 d a b s
  | .cmp64Eq d a b => Sys2Proof.Machine.execCmp64Eq d a b s
  | .cmp64Ne d a b => Sys2Proof.Machine.execCmp64Ne d a b s
  | .cmp64LtI64 d a b => Sys2Proof.Machine.execCmp64LtI64 d a b s
  | .cmp64LtN64 d a b => Sys2Proof.Machine.execCmp64LtN64 d a b s
  | .cmp64LeI64 d a b => Sys2Proof.Machine.execCmp64LeI64 d a b s
  | .cmp64LeN64 d a b => Sys2Proof.Machine.execCmp64LeN64 d a b s
  | .idivI32 d a b => Sys2Proof.Machine.execIdivI32 d a b s
  | .idivN32 d a b => Sys2Proof.Machine.execIdivN32 d a b s
  | .iremI32 d a b => Sys2Proof.Machine.execIremI32 d a b s
  | .iremN32 d a b => Sys2Proof.Machine.execIremN32 d a b s
  | .fadd d a b md => Sys2Proof.Machine.execFadd d a b md s
  | .fsub d a b md => Sys2Proof.Machine.execFsub d a b md s
  | .fmul d a b md => Sys2Proof.Machine.execFmul d a b md s
  | .ffma d a b md => Sys2Proof.Machine.execFfma d a b md s
  | .fcmpEq d a b => Sys2Proof.Machine.execFcmpEq d a b s
  | .fcmpNe d a b => Sys2Proof.Machine.execFcmpNe d a b s
  | .fcmpLt d a b => Sys2Proof.Machine.execFcmpLt d a b s
  | .fcmpLe d a b => Sys2Proof.Machine.execFcmpLe d a b s
  | .fcmpGt d a b => Sys2Proof.Machine.execFcmpGt d a b s
  | .fcmpGe d a b => Sys2Proof.Machine.execFcmpGe d a b s
  | .fcmpUn d a b => Sys2Proof.Machine.execFcmpUn d a b s
  | .fmin d a b => Sys2Proof.Machine.execFmin d a b s
  | .fmax d a b => Sys2Proof.Machine.execFmax d a b s
  | .fabs d a => Sys2Proof.Machine.execFabs d a s
  | .fneg d a => Sys2Proof.Machine.execFneg d a s
  | .frndRn d a => Sys2Proof.Machine.execFrndRn d a s
  | .frndRz d a => Sys2Proof.Machine.execFrndRz d a s
  | .frndRp d a => Sys2Proof.Machine.execFrndRp d a s
  | .frndRm d a => Sys2Proof.Machine.execFrndRm d a s
  | .ffrac d a => Sys2Proof.Machine.execFfrac d a s
  | .hadd2 d a b md => Sys2Proof.Machine.execHadd2 d a b md s
  | .hmul2 d a b md => Sys2Proof.Machine.execHmul2 d a b md s
  | .hfma2 d a b md => Sys2Proof.Machine.execHfma2 d a b md s
  | .badd2 d a b md => Sys2Proof.Machine.execBadd2 d a b md s
  | .bmul2 d a b md => Sys2Proof.Machine.execBmul2 d a b md s
  | .bfma2 d a b md => Sys2Proof.Machine.execBfma2 d a b md s
  | .dadd d a b md => Sys2Proof.Machine.execDadd d a b md s
  | .dmul d a b md => Sys2Proof.Machine.execDmul d a b md s
  | .dfma d a b md => Sys2Proof.Machine.execDfma d a b md s
  | .cvt d a dst src mode => Sys2Proof.Machine.execCvt d a dst src mode s
  | .cvtPk d a dst src mode => Sys2Proof.Machine.execCvtPk d a dst src mode s
  | .cvtBlkPack d a f mode => Sys2Proof.Machine.execCvtBlkPack d a f mode s
  | .cvtBlkUnpack d a f => Sys2Proof.Machine.execCvtBlkUnpack d a f s
  | .cvtBlkpPack d a f mode => Sys2Proof.Machine.execCvtBlkpPack d a f mode s
  | .cvtBlkpUnpack d a f => Sys2Proof.Machine.execCvtBlkpUnpack d a f s
  | .frcp d a => Sys2Proof.Machine.execFrcp d a s
  | .frsq d a => Sys2Proof.Machine.execFrsq d a s
  | .fsqrt d a => Sys2Proof.Machine.execFsqrt d a s
  | .fexp2 d a => Sys2Proof.Machine.execFexp2 d a s
  | .flog2 d a => Sys2Proof.Machine.execFlog2 d a s
  | .fsin d a => Sys2Proof.Machine.execFsin d a s
  | .fcos d a => Sys2Proof.Machine.execFcos d a s
  | .ftanh d a => Sys2Proof.Machine.execFtanh d a s
  | .lshfUp d a b => Sys2Proof.Machine.execLshfUp d a b s
  | .lshfDn d a b => Sys2Proof.Machine.execLshfDn d a b s
  | .lshfXor d a b => Sys2Proof.Machine.execLshfXor d a b s
  | .lshfIdx d a b => Sys2Proof.Machine.execLshfIdx d a b s
  | .lshfUpW d a j => Sys2Proof.Machine.execLshfUpW d a j s
  | .lshfDnW d a j => Sys2Proof.Machine.execLshfDnW d a j s
  | .lshfXorW d a j => Sys2Proof.Machine.execLshfXorW d a j s
  | .lbcast d a b => Sys2Proof.Machine.execLbcast d a b s
  | .lred d a op => Sys2Proof.Machine.execLred d a op s
  | .lscan d a op => Sys2Proof.Machine.execLscan d a op s
  | .lvoteAny d a => Sys2Proof.Machine.execLvoteAny d a s
  | .lvoteAll d a => Sys2Proof.Machine.execLvoteAll d a s
  | .lvoteBallot d a => Sys2Proof.Machine.execLvoteBallot d a s
  | .lidx d f => Sys2Proof.Machine.execLidx d f s
  | .lget d a b => Sys2Proof.Machine.execLget d a b s
  | .join k => Sys2Proof.Machine.execJoin k s
  | .leave k => Sys2Proof.Machine.execLeave k s
  | .wait k => Sys2Proof.Machine.execWait k s
  | .mset k a => Sys2Proof.Machine.execMset k a s
  | .mget d j => Sys2Proof.Machine.execMget d j s
  | .mand d a b => Sys2Proof.Machine.execMand d a b s
  | .mor d a b => Sys2Proof.Machine.execMor d a b s
  | .mxor d a b => Sys2Proof.Machine.execMxor d a b s
  | .mnot d a => Sys2Proof.Machine.execMnot d a s
  | .mpop d j => Sys2Proof.Machine.execMpop d j s
  | .mfirst d j => Sys2Proof.Machine.execMfirst d j s
  | .xsend slot v => Sys2Proof.Machine.execXsend slot v s
  | .xrecv d slot => Sys2Proof.Machine.execXrecv d slot s
  | .qpush k q v => Sys2Proof.Machine.execQpush k q v s
  | .qpop d k q => Sys2Proof.Machine.execQpop d k q s
  | .qpopw d k q => Sys2Proof.Machine.execQpopw d k q s
  | .qlen d q => Sys2Proof.Machine.execQlen d q s
  | .iaddi d a imm => Sys2Proof.Machine.execIaddi d a imm s
  | .andi d a imm => Sys2Proof.Machine.execAndi d a imm s
  | .ori d a imm => Sys2Proof.Machine.execOri d a imm s
  | .xori d a imm => Sys2Proof.Machine.execXori d a imm s
  | .shli d a n => Sys2Proof.Machine.execShli d a n s
  | .shri d a n => Sys2Proof.Machine.execShri d a n s
  | .sari d a n => Sys2Proof.Machine.execSari d a n s
  | .cmpi d a c v => Sys2Proof.Machine.execCmpi d a c v s
  | .imuli d a imm => Sys2Proof.Machine.execImuli d a imm s
  | .movsFromScalar d n => Sys2Proof.Machine.execMovsFromScalar d n s
  | .movsToScalar n a => Sys2Proof.Machine.execMovsToScalar n a s
  | .movl d imm => Sys2Proof.Machine.execMovl d imm s
  | .movh d imm => Sys2Proof.Machine.execMovh d imm s
  | .ld data base off size sp => Sys2Proof.Machine.execLd data base off size sp s
  | .st data base off size sp => Sys2Proof.Machine.execSt data base off size sp s
  | .stFabRel data base off size => Sys2Proof.Machine.execStFabRel data base off size s
  | .atomAdd d addr main ty sc => Sys2Proof.Machine.execAtomAdd d addr main ty sc s
  | .atomMin d addr main ty sc => Sys2Proof.Machine.execAtomMin d addr main ty sc s
  | .atomMax d addr main ty sc => Sys2Proof.Machine.execAtomMax d addr main ty sc s
  | .atomAnd d addr main ty sc => Sys2Proof.Machine.execAtomAnd d addr main ty sc s
  | .atomOr d addr main ty sc => Sys2Proof.Machine.execAtomOr d addr main ty sc s
  | .atomXor d addr main ty sc => Sys2Proof.Machine.execAtomXor d addr main ty sc s
  | .atomXchg d addr main ty sc => Sys2Proof.Machine.execAtomXchg d addr main ty sc s
  | .atomCas d addr main ty sc => Sys2Proof.Machine.execAtomCas d addr main ty sc s
  | .atomIncw d addr main ty sc => Sys2Proof.Machine.execAtomIncw d addr main ty sc s
  | .atomDecw d addr main ty sc => Sys2Proof.Machine.execAtomDecw d addr main ty sc s
  | .redAdd d addr main ty sc => Sys2Proof.Machine.execRedAdd d addr main ty sc s
  | .redMin d addr main ty sc => Sys2Proof.Machine.execRedMin d addr main ty sc s
  | .redMax d addr main ty sc => Sys2Proof.Machine.execRedMax d addr main ty sc s
  | .redAnd d addr main ty sc => Sys2Proof.Machine.execRedAnd d addr main ty sc s
  | .redOr d addr main ty sc => Sys2Proof.Machine.execRedOr d addr main ty sc s
  | .redXor d addr main ty sc => Sys2Proof.Machine.execRedXor d addr main ty sc s
  | .redIncw d addr main ty sc => Sys2Proof.Machine.execRedIncw d addr main ty sc s
  | .redDecw d addr main ty sc => Sys2Proof.Machine.execRedDecw d addr main ty sc s
  | .cpy dst src tag dsp ssp bar len d => Sys2Proof.Machine.execCpy dst src tag dsp ssp bar len d s
  | .cpx dst src tag dsp ssp bar len d => Sys2Proof.Machine.execCpx dst src tag dsp ssp bar len d s
  | .cpg dst src tag dsp ssp bar len d => Sys2Proof.Machine.execCpg dst src tag dsp ssp bar len d s
  | .cps dst src tag dsp ssp bar len d => Sys2Proof.Machine.execCps dst src tag dsp ssp bar len d s
  | .tagany tag => Sys2Proof.Machine.execTagany tag s
  | .tagall tag => Sys2Proof.Machine.execTagall tag s
  | .tagclr tag => Sys2Proof.Machine.execTagclr tag s
  | .taganyMask m => Sys2Proof.Machine.execTaganyMask m s
  | .tagallMask m => Sys2Proof.Machine.execTagallMask m s
  | .tagclrMask m => Sys2Proof.Machine.execTagclrMask m s
  | .tagfirst d m => Sys2Proof.Machine.execTagfirst d m s
  | .bcbInit a sp v => Sys2Proof.Machine.execBcbInit a sp v s
  | .bcbInitAbandon a sp => Sys2Proof.Machine.execBcbInitAbandon a sp s
  | .bcbExp a sp v => Sys2Proof.Machine.execBcbExp a sp v s
  | .bcbArr a sp v => Sys2Proof.Machine.execBcbArr a sp v s
  | .bcbWait d a sp rel => Sys2Proof.Machine.execBcbWait d a sp rel s
  | .bcbTest d a sp => Sys2Proof.Machine.execBcbTest d a sp s
  | .sobindGrp obj base rsp len d => Sys2Proof.Machine.execSobindGrp obj base rsp len d s
  | .sobindClu obj base rsp len d => Sys2Proof.Machine.execSobindClu obj base rsp len d s
  | .sobindChip obj base rsp len d => Sys2Proof.Machine.execSobindChip obj base rsp len d s
  | .sobindSys obj base rsp len d => Sys2Proof.Machine.execSobindSys obj base rsp len d s
  | .sacq a sp => Sys2Proof.Machine.execSacq a sp s
  | .sacqSh a sp => Sys2Proof.Machine.execSacqSh a sp s
  | .stry d a sp => Sys2Proof.Machine.execStry d a sp s
  | .srel d a sp => Sys2Proof.Machine.execSrel d a sp s
  | .fenceGrp => Sys2Proof.Machine.execFenceGrp s
  | .fenceClu => Sys2Proof.Machine.execFenceClu s
  | .fenceChip => Sys2Proof.Machine.execFenceChip s
  | .fenceSys => Sys2Proof.Machine.execFenceSys s
  | .hredOpen slot op timeout mask d => Sys2Proof.Machine.execHredOpen slot op timeout mask d s
  | .hredPut d slot => Sys2Proof.Machine.execHredPut d slot s
  | .hredWait d slot => Sys2Proof.Machine.execHredWait d slot s
  | .jmp disp => Sys2Proof.Machine.execJmp disp s
  | .bz c disp => Sys2Proof.Machine.execBz c disp s
  | .bnz c disp => Sys2Proof.Machine.execBnz c disp s
  | .bm k disp => Sys2Proof.Machine.execBm k disp s
  | .call disp => Sys2Proof.Machine.execCall disp s
  | .jmpr a => Sys2Proof.Machine.execJmpr a s
  | .ret => Sys2Proof.Machine.execRet s
  | .endLanes => Sys2Proof.Machine.execEndLanes s
  | .nop => Sys2Proof.Machine.execNop s
  | .yield => Sys2Proof.Machine.execYield s
  | .sleep a => Sys2Proof.Machine.execSleep a s
  | .trap n => Sys2Proof.Machine.execTrap n s
  | .brk n => Sys2Proof.Machine.execBrk n s
  | .rfe a => Sys2Proof.Machine.execRfe a s
  | .obres d a f => Sys2Proof.Machine.execObres d a f s
  | .obrec d a => Sys2Proof.Machine.execObrec d a s
  | .obrel a => Sys2Proof.Machine.execObrel a s
  | .mload d h bar row0 => Sys2Proof.Machine.execMload d h bar row0 s
  | .mswap => Sys2Proof.Machine.execMswap s
  | .mswapAuto => Sys2Proof.Machine.execMswapAuto s
  | .mstream d t ctr bar rowbase h => Sys2Proof.Machine.execMstream d t ctr bar rowbase h s
  | .mzero d t => Sys2Proof.Machine.execMzero d t s
  | .mdrain d t n c => Sys2Proof.Machine.execMdrain d t n c s
  | .mwait t => Sys2Proof.Machine.execMwait t s
  | .mpoll d t => Sys2Proof.Machine.execMpoll d t s
  | .accget d => Sys2Proof.Machine.execAccget d s
  | .accput t => Sys2Proof.Machine.execAccput t s
  | .mstat d => Sys2Proof.Machine.execMstat d s
  | .tspawn d a => Sys2Proof.Machine.execTspawn d a s
  | .tfork d a sb => Sys2Proof.Machine.execTfork d a sb s
  | .tsync => Sys2Proof.Machine.execTsync s
  | .tpost a n => Sys2Proof.Machine.execTpost a n s
  | .tdec a => Sys2Proof.Machine.execTdec a s
  | .tself d => Sys2Proof.Machine.execTself d s
  | .tdone a => Sys2Proof.Machine.execTdone a s
  | .fwait d a => Sys2Proof.Machine.execFwait d a s
  | .fset a v => Sys2Proof.Machine.execFset a v s
  | .lkacq d a => Sys2Proof.Machine.execLkacq d a s
  | .lkrel a => Sys2Proof.Machine.execLkrel a s
  | .gwidth d sq => Sys2Proof.Machine.execGwidth d sq s
  | .gset d sq sw => Sys2Proof.Machine.execGset d sq sw s
  | .gsetX d sq sa => Sys2Proof.Machine.execGsetX d sq sa s
  | .gview d sq => Sys2Proof.Machine.execGview d sq s
  | .grank d sq => Sys2Proof.Machine.execGrank d sq s
  | .gstep d sq sn => Sys2Proof.Machine.execGstep d sq sn s
  | .glate d sq => Sys2Proof.Machine.execGlate d sq s
  | .kvx d sq va => Sys2Proof.Machine.execKvx d sq va s
  | .kvapp d sq sp => Sys2Proof.Machine.execKvapp d sq sp s
  | .kvfork d sq sp => Sys2Proof.Machine.execKvfork d sq sp s
  | .kvfree d sq sn => Sys2Proof.Machine.execKvfree d sq sn s
  | .flpop d st => Sys2Proof.Machine.execFlpop d st s
  | .flpush d sb => Sys2Proof.Machine.execFlpush d sb s
  | .srd d r => Sys2Proof.Machine.execSrd d r s
  | .swr r v => Sys2Proof.Machine.execSwr r v s
  | .segld r a => Sys2Proof.Machine.execSegld r a s
  | .rgrow a => Sys2Proof.Machine.execRgrow a s
  | .rshrink a => Sys2Proof.Machine.execRshrink a s
  | .clauseHeader len fb fa wait => Sys2Proof.Machine.execClauseHeader len fb fa wait s
  | .clauseTrailer sp fl d3 d2 d1 => Sys2Proof.Machine.execClauseTrailer sp fl d3 d2 d1 s
  | .rgrowGrant gid wid => Sys2Proof.Machine.execRgrowGrant gid wid s
  | .rgrowDeadlockPreempt chip core => Sys2Proof.Machine.execRgrowDeadlockPreempt chip core s
  | .parkedSubgroupReturn gid wid k => Sys2Proof.Machine.execParkedSubgroupReturn gid wid k s
  | .lateSplit gid wid => Sys2Proof.Machine.execLateSplit gid wid s
  | .sleepExpiry gid wid k => Sys2Proof.Machine.execSleepExpiry gid wid k s
  | .yieldTimeout gid wid => Sys2Proof.Machine.execYieldTimeout gid wid s
  | .loadReply op => Sys2Proof.Machine.execLoadReply op s
  | .storePerformed op => Sys2Proof.Machine.execStorePerformed op s
  | .atomicAtHome op => Sys2Proof.Machine.execAtomicAtHome op s
  | .releasePerform op => Sys2Proof.Machine.execReleasePerform op s
  | .fabricUndeliverable op => Sys2Proof.Machine.execFabricUndeliverable op s
  | .fabricRequestTimeout op => Sys2Proof.Machine.execFabricRequestTimeout op s
  | .escapeDivert op port => Sys2Proof.Machine.execEscapeDivert op port s
  | .copyCommandComplete cmd => Sys2Proof.Machine.execCopyCommandComplete cmd s
  | .copyCommandFail cmd code unit => Sys2Proof.Machine.execCopyCommandFail cmd code unit s
  | .matrixGrant clu => Sys2Proof.Machine.execMatrixGrant clu s
  | .matrixCommandRetire clu cmd => Sys2Proof.Machine.execMatrixCommandRetire clu cmd s
  | .matrixCommandFail clu cmd code acc => Sys2Proof.Machine.execMatrixCommandFail clu cmd code acc s
  | .hredTimeout slot => Sys2Proof.Machine.execHredTimeout slot s
  | .hredSlotExpire slot => Sys2Proof.Machine.execHredSlotExpire slot s
  | .taskDispatch chip part vf core => Sys2Proof.Machine.execTaskDispatch chip part vf core s
  | .gangWalk slot => Sys2Proof.Machine.execGangWalk slot s
  | .switchMsg slot chip => Sys2Proof.Machine.execSwitchMsg slot chip s
  | .switchReply slot chip => Sys2Proof.Machine.execSwitchReply slot chip s
  | .cutMsg slot chip => Sys2Proof.Machine.execCutMsg slot chip s
  | .lapReport slot chip => Sys2Proof.Machine.execLapReport slot chip s
  | .switchTimeout slot chip => Sys2Proof.Machine.execSwitchTimeout slot chip s
  | .abortMsg slot chip => Sys2Proof.Machine.execAbortMsg slot chip s
  | .abortAcknowledgement slot chip => Sys2Proof.Machine.execAbortAcknowledgement slot chip s
  | .lapMessage lap => Sys2Proof.Machine.execLapMessage lap s
  | .lapDeadline lap => Sys2Proof.Machine.execLapDeadline lap s
  | .lateArrival msg => Sys2Proof.Machine.execLateArrival msg s
  | .glateTimeout gid wid => Sys2Proof.Machine.execGlateTimeout gid wid s
  | .trapDelivery chip part core => Sys2Proof.Machine.execTrapDelivery chip part core s
  | .vfSliceEnd chip part => Sys2Proof.Machine.execVfSliceEnd chip part s
  | .preemptStop gid => Sys2Proof.Machine.execPreemptStop gid s
  | .groupDispatch chip part vf core => Sys2Proof.Machine.execGroupDispatch chip part vf core s
  | .groupResume gid core => Sys2Proof.Machine.execGroupResume gid core s
  | .qtail part vf q value => Sys2Proof.Machine.execQtail part vf q value s
  | .launchNone part vf q => Sys2Proof.Machine.execLaunchNone part vf q s
  | .grid part vf q => Sys2Proof.Machine.execGrid part vf q s
  | .openSlot part vf q => Sys2Proof.Machine.execOpenSlot part vf q s
  | .closeSlot part vf q => Sys2Proof.Machine.execCloseSlot part vf q s
  | .recordComplete rec => Sys2Proof.Machine.execRecordComplete rec s
  | .stealRequest rec thief victim => Sys2Proof.Machine.execStealRequest rec thief victim s
  | .map part vf => Sys2Proof.Machine.execMap part vf s
  | .unmap part vf => Sys2Proof.Machine.execUnmap part vf s
  | .protect part vf => Sys2Proof.Machine.execProtect part vf s
  | .settag part vf => Sys2Proof.Machine.execSettag part vf s
  | .move part vf => Sys2Proof.Machine.execMove part vf s
  | .regq part vf => Sys2Proof.Machine.execRegq part vf s
  | .pageMigration part vf va tier => Sys2Proof.Machine.execPageMigration part vf va tier s
  | .pset => Sys2Proof.Machine.execPset s
  | .vset => Sys2Proof.Machine.execVset s
  | .pdel => Sys2Proof.Machine.execPdel s
  | .enroll => Sys2Proof.Machine.execEnroll s
  | .kload => Sys2Proof.Machine.execKload s
  | .kclr => Sys2Proof.Machine.execKclr s
  | .lsign => Sys2Proof.Machine.execLsign s
  | .cset => Sys2Proof.Machine.execCset s
  | .csetTimeout => Sys2Proof.Machine.execCsetTimeout s
  | .hfree => Sys2Proof.Machine.execHfree s
  | .functionLevelReset part vf => Sys2Proof.Machine.execFunctionLevelReset part vf s
  | .replctlGo kind => Sys2Proof.Machine.execReplctlGo kind s
  | .quiesceComplete => Sys2Proof.Machine.execQuiesceComplete s
  | .hbeat value => Sys2Proof.Machine.execHbeat value s
  | .heartbeatIntervalEnd => Sys2Proof.Machine.execHeartbeatIntervalEnd s
  | .imageFault => Sys2Proof.Machine.execImageFault s
  | .powerOn => Sys2Proof.Machine.execPowerOn s
  | .powerLoss => Sys2Proof.Machine.execPowerLoss s
  | .powerInterval watts => Sys2Proof.Machine.execPowerInterval watts s
  | .coolantCritical => Sys2Proof.Machine.execCoolantCritical s
  | .usageIntervalEnd part vf => Sys2Proof.Machine.execUsageIntervalEnd part vf s
  | .kvholdSample => Sys2Proof.Machine.execKvholdSample s
  | .quotaWindow chip => Sys2Proof.Machine.execQuotaWindow chip s
  | .hbmChannelRetire chip channel => Sys2Proof.Machine.execHbmChannelRetire chip channel s
  | .quadrantRetire clu quad => Sys2Proof.Machine.execQuadrantRetire clu quad s
  | .fecWindow port wave bits => Sys2Proof.Machine.execFecWindow port wave bits s
  | .retrainDone port => Sys2Proof.Machine.execRetrainDone port s
  | .retrainTimeout port => Sys2Proof.Machine.execRetrainTimeout port s
  | .registerWrite part vf off value => Sys2Proof.Machine.execRegisterWrite part vf off value s
  | .genExchange serial module gen => Sys2Proof.Machine.execGenExchange serial module gen s
  | .crcRetry port => Sys2Proof.Machine.execCrcRetry port s
  | .attestationQuote part => Sys2Proof.Machine.execAttestationQuote part s
  | .hostWrite part vf va bytes => Sys2Proof.Machine.execHostWrite part vf va bytes s

end Sys2Proof.Machine
end

