-- ==== Sys2Proof/Machine/Step.lean ====
section
/-! DEFINITION. One step of the machine: the turn that its agenda names, or else one that its work calls for (log 5, 8). -/

namespace Sys2Proof.Machine

/-- A step's next state, after something has been done to it. -/
def andThen (f : State → State) (o : Host.Outcome State Fault Refusal) : Host.Outcome State Fault Refusal :=
  match o with
  | .next s => .next (f s)
  | .fault r => .fault r
  | .refused r => .refused r

/-- R209: a run that stands at the same word after its turn is held there (log 29). -/
def State.noteHeld (gid wid : Nat) (before : Option Run) (s : State) : State :=
  match before, s.w.run with
  | some a, some b =>
    if s.isSel gid wid then s.setW { s.w with run := some { b with held := a.start == b.start && a.pc == b.pc } } else s
  | _, _ => s

/-- R165, R192: the destination of an instruction of the long-latency set that has just issued is still to take its result. -/
noncomputable def State.tearIssued (t : State) (i : Instr) (u : State) : State :=
  match t.issuedResult i, t.w.run, u.w.run with
  | some x, some a, some b =>
    if a.start == b.start && a.pc != b.pc && u.isSel x.gid x.wid then
      { t.tearResult u { x with id := u.nextId } (resultWords i a.lanes t.w u.w) with nextId := u.nextId + 1 }
    else u
  | _, _, _ => u

/-- R14: a warp issues its next word. -/
noncomputable def issueTurn (gid wid : Nat) (s : State) : Host.Outcome State Fault Refusal :=
  match s.ready? gid wid with
  | none => .next s
  | some t =>
    match t.fetchWord with
    | .idle => .next t
    | .trap u => .next u
    | .exec i => andThen (State.noteHeld gid wid t.w.run) (exec i t.meterIssue)

/-- R14, R165: a warp issues its next word, whose result, if it is of the long-latency set, is still on its way after the step. -/
noncomputable def slowTurn (gid wid : Nat) (s : State) : Host.Outcome State Fault Refusal :=
  match s.ready? gid wid with
  | none => .next s
  | some t =>
    match t.fetchWord with
    | .exec i => andThen (t.tearIssued i) (issueTurn gid wid s)
    | _ => issueTurn gid wid s

/-- A step of another agent; an instruction of a warp is none. -/
noncomputable def eventTurn (i : Instr) (s : State) : Host.Outcome State Fault Refusal :=
  match encodeBits i with
  | none => exec i s
  | some _ => .next s

/-- The register words that an event writes, whether or not they change. -/
noncomputable def State.wordsOf (s : State) (e : Instr) (x : Result) : List (Nat × Nat) :=
  let f := s.mapWarp x.gid x.wid Warp.flipped
  match eventTurn e f with
  | .next t => match f.warp? x.gid x.wid, t.warp? x.gid x.wid with | some a, some b => a.changes b | _, _ => []
  | _ => []
/-- R165: a step that brings back a result, which then reaches its registers in parts. -/
noncomputable def tearTurn (e : Instr) (s : State) : Host.Outcome State Fault Refusal :=
  match s.resultOf e with
  | none => .next s
  | some x => andThen (fun t => s.tearResult t x (s.wordsOf e x)) (eventTurn e s)

/-- One turn while the power is on. -/
noncomputable def takeTurn (t : Turn) (s : State) : Host.Outcome State Fault Refusal :=
  match t with
  | .issue gid wid => issueTurn gid wid s
  | .slow gid wid => slowTurn gid wid s
  | .event i => eventTurn i s
  | .copyUnit c u => .next (s.landUnit c u)
  | .copySlice c u k => .next (s.landSlice c u k)
  | .copyRead c u => .next (s.copyRead c u)
  | .stray k => .next (s.strayLands k)
  | .blocked h b => .next (s.setBlocked h b)
  | .atomicRead a => .next (s.atomicRead a)
  | .tear e => tearTurn e s
  | .landBytes l b => .next (s.landByte l b)
  | .landed l => .next (s.landAll l)
  | .bushel clu c u => .next (s.earlyBushel clu c u)
  | .reload clu l u => .next (s.reload clu l u)
  | .start gid => .next (s.startTask gid)
  | .peer a => .next (s.peerAct a)
  | .forkEntry k e => .next (s.writeEntry k e)
  | .mapRecord k a => .next (s.mapRecord k a)
  | .badReg gid wid o => .next (s.badReg gid wid o)
  | .silent k b => .next (s.silentError k b)
  | .silentUnit c u a b => .next (s.silentUnit c u a b)
  | .pipeline gid wid c => .next (s.checkFails gid wid c)
  | .sector no c => .next (s.strike no c)
  | .image m bytes => .next (s.loadImage m bytes)
  | .stage m => .next (s.stageImage m)
  | .ring p r => .next (s.setRing p r)
  | .ringRead p n => .next (s.ringRead p n)
  | .reach c ok => .next (s.setLost c ok)
  | .endSys gid => .next (s.endSystem gid)
  | .verified => .next s.verified
  | .circuits p => .next (s.hearPlan p)
  | .host => s.hostGoes
  | .trained => .next s.trained

/-- R377, R404: what can happen while the module has no power, or waits for a valid image. -/
noncomputable def takeTurnOff (t : Turn) (s : State) : Host.Outcome State Fault Refusal :=
  match t with
  | .event .powerOn => exec .powerOn s
  | .event .powerLoss => exec .powerLoss s
  | .event .coolantCritical => (match s.md.power with | .booting => exec .coolantCritical s | _ => .next s)
  | .trained => .next s.trained
  | .stage m => .next (s.stageImage m)
  | _ => .next s

/-- R384: what is reported to Iluloth is held while an image is being replaced. -/
def State.holdsTurn (s : State) (t : Turn) : Bool := match t with | .endSys _ => s.reportsHeld | _ => false

/-- The turn of a step: the agenda's first that is not held, or one of the machine's own. What is held keeps its order (R380, R384). -/
noncomputable def State.nextTurn (s : State) : Option Turn × State :=
  let held := s.agenda.takeWhile s.holdsTurn
  match s.agenda.dropWhile s.holdsTurn with
  | [] => (s.ownTurn, s)
  | t :: rest => (some t, { s with agenda := held ++ rest })

/-- One step: a turn, and then the clocks go on. -/
noncomputable def step (s : State) : Host.Outcome State Fault Refusal :=
  match s.nextTurn with
  | (none, u) => .next u.tick
  | (some t, u) => andThen State.tick (match s.md.power with | .on => takeTurn t u | _ => takeTurnOff t u)

/-! ### An instruction placed where the machine fetches next (log 8) -/

/-- A warp of 64 lanes in the middle of a clause, with no group of its own named yet. -/
def Warp.placed (pc left : Nat) : Warp :=
  { Warp.blank with
    live := BitVec.allOnes 64
    run := some { lanes := BitVec.allOnes 64, start := 0, pc := pc, left := left, fall := pc + 8, fa := 0, fb := 1, exit := .fall
                  done := 0, faulted := 0, again := false, entry := 0 } }

/-- A warp of 64 lanes that stands before a clause. -/
def Warp.atHead (pc : Nat) : Warp :=
  { Warp.blank with live := BitVec.allOnes 64, pcs := [⟨pc, BitVec.allOnes 64⟩] }

/-- R187: the low bits of a header's and of a trailer's word. -/
def isHeaderWord (w : Nat) : Bool := w % 128 == 127
def isTrailerWord (w : Nat) : Bool := w % 128 == 125

/-- The selected warp is made to issue the given word next: a header at its head, a trailer at the end of its clause, any other
in the middle of one. -/
def State.withFetchWord (s : State) (nbits w : Nat) : State :=
  let x := w % 2 ^ nbits
  let pc := s.g.kern.entry
  let warp := if isHeaderWord x then Warp.atHead pc else Warp.placed pc (if isTrailerWord x then 0 else 2)
  { s.wrs ((places (codeKey s.g.kern.img pc) maxInstrBytes).zip (tableBytes nbits w)) with
    agenda := [.issue s.g.id s.w.idx]
    w := { warp with idx := s.w.idx }
    md := { s.md with power := .on } }

end Sys2Proof.Machine
end

