-- ==== Sys2Proof/Safety.lean ====
section
/-! DEFINITION. What counts as a safe run, and the terms that statements use: an instruction that is ready to issue,
what an instruction may change, and the results of an instruction lane by lane. -/

namespace Sys2Proof

/-- The number of an operand's first register. -/
def Opd.num : Opd → Nat
  | .v r => r.val | .s r => r.val | .x r => r.val | .k c => c.val

/-- Register `k` of a file (1 `v`, 2 `s`, 4 `x`) is one of the `n` registers that an operand names. -/
def Opd.hits (d : Opd) (n file k : Nat) : Prop := d.kind = file ∧ d.num ≤ k ∧ k < d.num + n

end Sys2Proof

namespace Sys2Proof.Machine

/-- An outcome that is a next state, with what holds of it. -/
def Goes (o : Host.Outcome State Fault Refusal) (p : State → Prop) : Prop := ∃ t, o = .next t ∧ p t

/-- A step neither faults nor is refused. -/
def Safe (s : State) : Prop := Goes (step s) fun _ => True

/-- What holds of a run's states: the memory is in its one form (log 1). -/
def State.Inv (s : State) : Prop := Memory.wf s.mem

/-- R190: the selected warp is about to issue the instruction in its run, and the checks at issue find nothing. -/
def Issues (i : Instr) (s : State) (r : Run) : Prop := s.w.run = some r ∧ issueCheck i.info s.w = none

/-- The run that goes on behind an instruction of `n` bytes. -/
def Run.behind (r : Run) (n : Nat) : Run :=
  { r with pc := r.pc + n, left := r.left - 1, again := false, entry := 0, done := 0, parking := false }

/-- The frame of an instruction that writes registers alone: every byte of memory and every part of the machine
outside the warp is unchanged; of the warp only the `n` registers that `d` names change, in the lanes `m` only, besides
FLG, the generators and the run, of which the statements speak themselves. -/
structure RegFrame (s t : State) (d : Opd) (n : Nat) (m : LaneMask) : Prop where
  memory : ∀ a, t.rd a = s.rd a
  machine : t = { s with w := t.w }
  warp : t.w = { s.w with v := t.w.v, x := t.w.x, s := t.w.s, flg := t.w.flg, gen := t.w.gen, run := t.w.run }
  v : ∀ k l, l < 64 → ¬ (d.hits n 1 k ∧ has m l = true) → t.w.getV k l = s.w.getV k l
  x : ∀ k l, l < 64 → ¬ (d.hits n 4 k ∧ has m l = true) → t.w.getX k l = s.w.getX k l
  s : ∀ k, ¬ d.hits n 2 k → t.w.getS k = s.w.getS k

/-- FLG after an instruction that raises the exceptions `e` in the lanes of the run (R102); unchanged with none. -/
def FlgAfter (s t : State) (r : Run) (e : Option (Run → Nat → Exc)) : Prop :=
  match e with
  | none => t.w.flg = s.w.flg
  | some f => ∀ l, l < 64 → t.w.getFlg l = if has r.lanes l then s.w.getFlg l ||| (f r l).bits else s.w.getFlg l

/-- The generators after an instruction (R98); unchanged with none. -/
def GenAfter (s t : State) (r : Run) (g : Option (Run → Nat → Word)) : Prop :=
  match g with
  | none => t.w.gen = s.w.gen
  | some f => ∀ l, l < 64 → t.w.getGen l = f r l

/-- R198: an instruction that is ready completes: register `j` of the `n` that `d` names receives `f r j l` in every
lane `l` of the run `r` (a scalar the lowest lane's value, a constant nothing), FLG takes in the exceptions `e`, the
generators become `g`, the run goes on behind the instruction, and nothing else changes. -/
def Lanewise (i : Instr) (s : State) (d : Opd) (n : Nat) (f : Run → Nat → Nat → Word) (e : Option (Run → Nat → Exc))
    (g : Option (Run → Nat → Word)) : Prop :=
  ∀ r, Issues i s r → Goes (exec i s) fun t =>
    t.w.run = some (r.behind i.info.len) ∧ RegFrame s t d n r.lanes ∧ FlgAfter s t r e ∧ GenAfter s t r g
    ∧ ∀ j l, j < n → has r.lanes l = true → d.kind ≠ 8 →
        t.w.getAt d j l = f r j (if d.kind = 2 then lowLane r.lanes else l)

/-- One register that depends on the lane alone, no exceptions. -/
def Lane32 (i : Instr) (s : State) (d : Opd) (f : Nat → Word) : Prop := Lanewise i s d 1 (fun _ _ => f) none none

/-- One register that depends on the run, no exceptions. -/
def LaneRun (i : Instr) (s : State) (d : Opd) (f : Run → Nat → Word) : Prop :=
  Lanewise i s d 1 (fun r _ => f r) none none

/-- The words of a pair, low word first. -/
def pairWord (x : Dword) (j : Nat) : Word := if j = 0 then x.truncate 32 else (x >>> 32).truncate 32

/-- A pair of registers, low word first, no exceptions. -/
def Lane64 (i : Instr) (s : State) (d : Opd) (f : Nat → Dword) : Prop :=
  Lanewise i s d 2 (fun _ j l => pairWord (f l) j) none none

/-- A pair that depends on the run. -/
def LaneRun64 (i : Instr) (s : State) (d : Opd) (f : Run → Nat → Dword) : Prop :=
  Lanewise i s d 2 (fun r j l => pairWord (f r l) j) none none

/-- One register and exceptions. -/
def Lane32E (i : Instr) (s : State) (d : Opd) (f : Nat → Word × Exc) : Prop :=
  Lanewise i s d 1 (fun _ _ l => (f l).1) (some fun _ l => (f l).2) none

/-- One register and exceptions that depend on the run. -/
def LaneRunE (i : Instr) (s : State) (d : Opd) (f : Run → Nat → Word × Exc) : Prop :=
  Lanewise i s d 1 (fun r _ l => (f r l).1) (some fun r l => (f r l).2) none

/-- A pair of registers and exceptions. -/
def Lane64E (i : Instr) (s : State) (d : Opd) (f : Nat → Dword × Exc) : Prop :=
  Lanewise i s d 2 (fun _ j l => pairWord (f l).1 j) (some fun _ l => (f l).2) none

/-! ### Instructions that act beyond the warp -/

/-- R198: an instruction that is ready completes, with what holds of the state after it. -/
def Then (i : Instr) (s : State) (p : Run → State → Prop) : Prop := ∀ r, Issues i s r → Goes (exec i s) (p r)

/-- The frame of an instruction that only puts operations on their way: they stand behind those of before, for the
selected warp and this instruction; no register and no byte of memory changes, and the run goes on. -/
structure Issued (s t : State) (r : Run) (n : Nat) (new : List MemOp) : Prop where
  pend : t.pend = s.pend ++ new
  own : ∀ o ∈ new, o.gid = s.g.id ∧ o.wid = s.w.idx ∧ o.core = s.coreNo ∧ o.pc = r.pc ∧ o.flag = none ∧ o.failed = none
  memory : ∀ a, t.rd a = s.rd a
  warp : t.w = { s.w with run := t.w.run }
  run : ∃ fl, t.w.run = some { r.behind n with faulted := fl }
  machine : t = { s with
    w := t.w, pend := t.pend, nextId := t.nextId, uses := t.uses, parts := t.parts, streams := t.streams
    tlbs := t.tlbs, walkers := t.walkers }

/-- R43: pieces: each holds the accesses of one block, and no block is held by two. -/
def OnePerBlock (key : Acc → Nat) (new : List MemOp) : Prop :=
  (∀ o ∈ new, ∀ a ∈ o.accs, ∀ b ∈ o.accs, key a = key b)
  ∧ new.Pairwise fun o p => ∀ a ∈ o.accs, ∀ b ∈ p.accs, key a ≠ key b

/-- No outstanding access to these bytes has to be performed before the lanes go on (R75), and each can be read (R371). -/
def NoneBefore (s : State) (m : LaneMask) (ks : List Nat) : Prop :=
  (∀ o ∈ s.pend, ∀ a ∈ o.accs, a.binds s.coreNo s.g.id s.w.idx m = true → ∀ k ∈ ks, k ∉ a.bytes) ∧ ∀ k ∈ ks, s.eccAt k = 0

/-- R374: a group's SRAM stands in the core, not in a saved image. -/
def Here (s : State) (gid : Nat) : Prop := ∀ g, s.group? gid = some g → Group.isSaved g = false

/-- The selected warp keeps every register; its run goes on behind an instruction of `n` bytes. -/
def RunsOn (s t : State) (r : Run) (n : Nat) : Prop := t.w = { s.w with run := some (r.behind n) }

/-- A destination operand holds `v` in the lanes of the run: a scalar the lowest lane's value. -/
def Holds (t : State) (d : Opd) (m : LaneMask) (v : Nat → Word) : Prop :=
  d.kind ≠ 8 → ∀ l, has m l = true → t.w.src d l = v (if d.kind = 2 then lowLane m else l)

/-- The registers that a destination operand of `n` registers does not name are unchanged, in all lanes; and so are all in
the lanes outside the run. -/
def OnlyWrites (s t : State) (d : Opd) (n : Nat) (m : LaneMask) : Prop :=
  (∀ k l, l < 64 → ¬ (d.hits n 1 k ∧ has m l = true) → t.w.getV k l = s.w.getV k l)
  ∧ (∀ k l, l < 64 → ¬ (d.hits n 4 k ∧ has m l = true) → t.w.getX k l = s.w.getX k l)
  ∧ (∀ k, ¬ d.hits n 2 k → t.w.getS k = s.w.getS k) ∧ t.w.m = s.w.m ∧ t.w.flg = s.w.flg ∧ t.w.gen = s.w.gen
  ∧ t.w.seg = s.w.seg

/-- R212, R367 to R370: what taking a trap at issue does: the group's trap registers are written, the run is set aside as
the trapped subgroup, and the trap is queued for its chip's trap unit (or reported to Iluloth from a system warp). -/
structure TrapTaken (s t : State) (r : Run) (cause : Nat) (addr : Dword) (value : Word) : Prop where
  registers : t.g = { s.g with trapc := BitVec.ofNat 32 cause, trapa := addr, trapv := value, trapt := s.g.task,
                               traph := s.helperOf s.g, trapHeld := true }
  lanes : t.w = { s.w with run := none, trapped := some ⟨r.lanes, r.pc, r.pc, .atIssue, some r, s.w.x, [], none⟩ }
  queued : t.traps = if s.g.sys then s.traps else
    s.traps ++ [⟨s.g.id, s.w.idx, cause, false, value, addr, s.g.task, s.helperOf s.g, r.lanes, r.pc, s.g.core⟩]
  reported : t.agenda =
    if s.g.sys then s.agenda.takeWhile Turn.isReport ++ .endSys s.g.id :: s.agenda.dropWhile Turn.isReport else s.agenda
  memory : ∀ a, t.rd a = s.rd a
  machine : t = { s with g := t.g, w := t.w, traps := t.traps, agenda := t.agenda }

/-- The instruction takes a trap for the run (a trap that its group does not already hold). -/
def Traps (i : Instr) (s : State) (cause : Nat) (addr : Run → Dword) (value : Run → Word) : Prop :=
  s.g.trapHeld = false → ∀ r, Issues i s r → Goes (exec i s) fun t => TrapTaken s t r cause (addr r) (value r)

/-- Lane `l` stands in the PC table at `p`. -/
def Warp.standsAt (w : Warp) (p l : Nat) : Prop := ∃ e ∈ w.pcs, e.pc = p ∧ has e.lanes l = true

/-- The registers of a warp are unchanged. -/
def KeepsRegs (w v : Warp) : Prop := v.v = w.v ∧ v.s = w.s ∧ v.x = w.x ∧ v.flg = w.flg ∧ v.gen = w.gen ∧ v.seg = w.seg

/-- The accesses of a list of operations. -/
def allAccs (l : List MemOp) : List Acc := l.flatMap MemOp.accs

end Sys2Proof.Machine
end

