-- ==== Sys2Proof/Certificates/Slice0/Obligations.lean ====
section
/-! DEFINITION. The statements. -/

open Sys2Proof Sys2Proof.Machine

/-! ### Integer instructions -/

/-- R183, R217, R220, R221 (majors 0x01, 0x18 to 0x1B, 0x1E to 0x21 and the 16-bit forms): add, subtract, multiply, multiply-add,
absolute value, `lea`, move, logic, long constants, and moves to and from the scalars, in every lane of the run; and their frame. -/
def Obligations.IntegerArithmetic : Prop :=
  (∀ (s : State) (d a b : Opd) (d' : Fin 64) (b' : Opd16) (k : BitVec 11),
     let x := s.w.src a
     let y := s.w.src b
     let z := s.w.src d
     let x' := s.w.src (vOpd d')
     let y' := s.w.src b'.toOpd
     let c := k.signExtend 32
     Lane32 (.iadd d a b) s d (fun l => x l + y l) ∧ Lane32 (.isub d a b) s d (fun l => x l - y l)
     ∧ Lane32 (.imul d a b) s d (fun l => x l * y l) ∧ Lane32 (.imad d a b) s d (fun l => z l + x l * y l)
     ∧ Lane32 (.iabs d a) s d (fun l => if (x l).msb then 0 - x l else x l)
     ∧ Lane32 (.lea d a b) s d (fun l => x l + (y l <<< 2)) ∧ Lane32 (.mov d a) s d x
     ∧ Lane32 (.and d a b) s d (fun l => x l &&& y l) ∧ Lane32 (.or d a b) s d (fun l => x l ||| y l)
     ∧ Lane32 (.xor d a b) s d (fun l => x l ^^^ y l) ∧ Lane32 (.andn d a b) s d (fun l => x l &&& ~~~ y l)
     ∧ Lane32 (.iaddi d a k) s d (fun l => x l + c) ∧ Lane32 (.imuli d a k) s d (fun l => x l * c)
     ∧ Lane32 (.andi d a k) s d (fun l => x l &&& c) ∧ Lane32 (.ori d a k) s d (fun l => x l ||| c)
     ∧ Lane32 (.xori d a k) s d (fun l => x l ^^^ c)
     ∧ Lane32 (.mov16 d' b') s (vOpd d') y' ∧ Lane32 (.iadd16 d' b') s (vOpd d') (fun l => x' l + y' l)
     ∧ Lane32 (.isub16 d' b') s (vOpd d') (fun l => x' l - y' l)
     ∧ Lane32 (.imul16 d' b') s (vOpd d') (fun l => x' l * y' l)
     ∧ Lane32 (.and16 d' b') s (vOpd d') (fun l => x' l &&& y' l)
     ∧ Lane32 (.or16 d' b') s (vOpd d') (fun l => x' l ||| y' l)
     ∧ Lane32 (.xor16 d' b') s (vOpd d') (fun l => x' l ^^^ y' l))
  ∧ (∀ (s : State) (d a : Opd) (n : Fin 64) (k : BitVec 18),
       Lane32 (.movl d k) s d (fun _ => k.signExtend 32)
       ∧ Lane32 (.movh d k) s d (fun l => BitVec.ofNat 32 (k.toNat * 2 ^ 14 + (s.w.src d l).toNat % 2 ^ 14))
       ∧ Lane32 (.movsFromScalar d n) s d (fun _ => s.w.getS n.val)
       ∧ (∀ r, Issues (.movsToScalar n a) s r → Goes (exec (.movsToScalar n a) s) fun t =>
           t.w.getS n.val = s.w.src a (lowLane r.lanes) ∧ (∀ j, j ≠ n.val → t.w.getS j = s.w.getS j)
           ∧ t.w = { s.w with s := t.w.s, run := some (r.behind 4) } ∧ t = { s with w := t.w }))

/-- R217, R226: the high half of a product, and the whole product, of the operands read signed or unsigned.
R110, R226: division truncates toward zero, a zero divisor gives all ones and the dividend, and the quotient that
does not fit wraps. -/
def Obligations.IntegerExact : Prop :=
  (∀ (s : State) (d a b : Opd),
     let x := s.w.src a
     let y := s.w.src b
     Lane32 (.imulhI32 d a b) s d (fun l => BitVec.ofInt 32 ((x l).toInt * (y l).toInt / 2 ^ 32))
     ∧ Lane32 (.imulhN32 d a b) s d (fun l => BitVec.ofNat 32 ((x l).toNat * (y l).toNat / 2 ^ 32))
     ∧ Lane64 (.imulwI32 d a b) s d (fun l => BitVec.ofInt 64 ((x l).toInt * (y l).toInt))
     ∧ Lane64 (.imulwN32 d a b) s d (fun l => BitVec.ofNat 64 ((x l).toNat * (y l).toNat)))
  ∧ (∀ (s : State) (d a b : Opd),
       let x := s.w.src a
       let y := s.w.src b
       Lane32 (.idivI32 d a b) s d (fun l =>
         if y l = 0 then 0xFFFFFFFF else BitVec.ofInt 32 ((x l).toInt.tdiv (y l).toInt))
       ∧ Lane32 (.iremI32 d a b) s d (fun l => if y l = 0 then x l else BitVec.ofInt 32 ((x l).toInt.tmod (y l).toInt))
       ∧ Lane32 (.idivN32 d a b) s d (fun l =>
         if y l = 0 then 0xFFFFFFFF else BitVec.ofNat 32 ((x l).toNat / (y l).toNat))
       ∧ Lane32 (.iremN32 d a b) s d (fun l => if y l = 0 then x l else BitVec.ofNat 32 ((x l).toNat % (y l).toNat)))

/-- R109, R217, R220, R226: shifts and rotations by the low 8 bits of the amount, as multiplication and division by a
power of two; amounts beyond the width included. -/
def Obligations.IntegerShifts : Prop :=
  ∀ (s : State) (d a b : Opd) (d' : Fin 64) (b' : Opd16) (n : BitVec 8),
    let x := s.w.src a
    let y (l : Nat) := (s.w.src b l).toNat % 256
    let x' := s.w.src (vOpd d')
    let y' (l : Nat) := (s.w.src b'.toOpd l).toNat % 256
    let left (v : Word) (k : Nat) : Word := BitVec.ofNat 32 (v.toNat * 2 ^ k)
    let right (v : Word) (k : Nat) : Word := BitVec.ofNat 32 (v.toNat / 2 ^ k)
    let arith (v : Word) (k : Nat) : Word := BitVec.ofInt 32 (v.toInt / 2 ^ k)
    Lane32 (.shl d a b) s d (fun l => left (x l) (y l)) ∧ Lane32 (.shr d a b) s d (fun l => right (x l) (y l))
    ∧ Lane32 (.sar d a b) s d (fun l => arith (x l) (y l))
    ∧ Lane32 (.rol d a b) s d (fun l => BitVec.ofNat 32
        ((x l).toNat * 2 ^ (y l % 32) % 2 ^ 32 + (x l).toNat / 2 ^ (32 - y l % 32)))
    ∧ Lane32 (.shli d a n) s d (fun l => left (x l) n.toNat) ∧ Lane32 (.shri d a n) s d (fun l => right (x l) n.toNat)
    ∧ Lane32 (.sari d a n) s d (fun l => arith (x l) n.toNat)
    ∧ Lane32 (.shl16 d' b') s (vOpd d') (fun l => left (x' l) (y' l))
    ∧ Lane32 (.shr16 d' b') s (vOpd d') (fun l => right (x' l) (y' l))
    ∧ Lane32 (.sar16 d' b') s (vOpd d') (fun l => arith (x' l) (y' l))
    ∧ Lane64 (.shl64 d a b) s d (fun l => BitVec.ofNat 64 ((s.w.src64 a l).toNat * 2 ^ y l))
    ∧ Lane64 (.shr64 d a b) s d (fun l => BitVec.ofNat 64 ((s.w.src64 a l).toNat / 2 ^ y l))

/-- R217, R219, R220, R225, R226: comparisons, minimum and maximum, selection and the 64-bit sums and comparisons.
R217, R220: `cmpi` compares with the sign-extended immediate under each of the twelve conditions. -/
def Obligations.IntegerCompareSelect : Prop :=
  (∀ (s : State) (d a b : Opd) (d' : Fin 64) (b' : Opd16) (k : Fin 12),
     let x := s.w.src a
     let y := s.w.src b
     let x' := s.w.src (vOpd d')
     let y' := s.w.src b'.toOpd
     let X := s.w.src64 a
     let Y := s.w.src64 b
     let cmp (i : Instr) (p : Nat → Prop) [DecidablePred p] : Prop := Lane32 i s d (fun l => if p l then 1 else 0)
     cmp (.cmpEqI32 d a b) (fun l => x l = y l) ∧ cmp (.cmpEqN32 d a b) (fun l => x l = y l)
     ∧ cmp (.cmpNeI32 d a b) (fun l => x l ≠ y l) ∧ cmp (.cmpNeN32 d a b) (fun l => x l ≠ y l)
     ∧ cmp (.cmpLtI32 d a b) (fun l => (x l).toInt < (y l).toInt) ∧ cmp (.cmpLtN32 d a b) (fun l => (x l).toNat < (y l).toNat)
     ∧ cmp (.cmpLeI32 d a b) (fun l => (x l).toInt ≤ (y l).toInt) ∧ cmp (.cmpLeN32 d a b) (fun l => (x l).toNat ≤ (y l).toNat)
     ∧ cmp (.cmpGtI32 d a b) (fun l => (y l).toInt < (x l).toInt) ∧ cmp (.cmpGtN32 d a b) (fun l => (y l).toNat < (x l).toNat)
     ∧ cmp (.cmpGeI32 d a b) (fun l => (y l).toInt ≤ (x l).toInt) ∧ cmp (.cmpGeN32 d a b) (fun l => (y l).toNat ≤ (x l).toNat)
     ∧ cmp (.cmp64Eq d a b) (fun l => X l = Y l) ∧ cmp (.cmp64Ne d a b) (fun l => X l ≠ Y l)
     ∧ cmp (.cmp64LtI64 d a b) (fun l => (X l).toInt < (Y l).toInt) ∧ cmp (.cmp64LtN64 d a b) (fun l => (X l).toNat < (Y l).toNat)
     ∧ cmp (.cmp64LeI64 d a b) (fun l => (X l).toInt ≤ (Y l).toInt) ∧ cmp (.cmp64LeN64 d a b) (fun l => (X l).toNat ≤ (Y l).toNat)
     ∧ Lane32 (.iminI32 d a b) s d (fun l => BitVec.ofInt 32 (min (x l).toInt (y l).toInt))
     ∧ Lane32 (.imaxI32 d a b) s d (fun l => BitVec.ofInt 32 (max (x l).toInt (y l).toInt))
     ∧ Lane32 (.iminN32 d a b) s d (fun l => BitVec.ofNat 32 (min (x l).toNat (y l).toNat))
     ∧ Lane32 (.imaxN32 d a b) s d (fun l => BitVec.ofNat 32 (max (x l).toNat (y l).toNat))
     ∧ Lane32 (.iminI3216 d' b') s (vOpd d') (fun l => BitVec.ofInt 32 (min (x' l).toInt (y' l).toInt))
     ∧ Lane32 (.imaxI3216 d' b') s (vOpd d') (fun l => BitVec.ofInt 32 (max (x' l).toInt (y' l).toInt))
     ∧ Lane32 (.selMask d k a b) s d (fun l => if has (s.w.getM k.val) l then x l else y l)
     ∧ Lane32 (.sel d a b) s d (fun l => if x l ≠ 0 then y l else s.w.src d l)
     ∧ Lane64 (.iadd64 d a b) s d (fun l => X l + Y l) ∧ Lane64 (.isub64 d a b) s d (fun l => X l - Y l))
  ∧ (∀ (s : State) (d a : Opd) (k : BitVec 7),
       let x := s.w.src a
       let c : Word := k.signExtend 32
       let cmp (q : Cond) (p : Word → Prop) [DecidablePred p] : Prop :=
         Lane32 (.cmpi d a q k) s d (fun l => if p (x l) then 1 else 0)
       cmp .eqI (· = c) ∧ cmp .eqN (· = c) ∧ cmp .neI (· ≠ c) ∧ cmp .neN (· ≠ c)
       ∧ cmp .ltI (fun v => v.toInt < c.toInt) ∧ cmp .ltN (fun v => v.toNat < c.toNat)
       ∧ cmp .leI (fun v => v.toInt ≤ c.toInt) ∧ cmp .leN (fun v => v.toNat ≤ c.toNat)
       ∧ cmp .gtI (fun v => c.toInt < v.toInt) ∧ cmp .gtN (fun v => c.toNat < v.toNat)
       ∧ cmp .geI (fun v => c.toInt ≤ v.toInt) ∧ cmp .geN (fun v => c.toNat ≤ v.toNat))

/-- R217, R218: bit counts, bit reversal and bit fields, said bit by bit. -/
def Obligations.IntegerBits : Prop :=
  (∀ (s : State) (d a b : Opd),
    let x := s.w.src a
    let y := s.w.src b
    Lane32 (.popc d a) s d (fun l => popcW (x l)) ∧ Lane32 (.clz d a) s d (fun l => clzW (x l))
    ∧ Lane32 (.ctz d a) s d (fun l => ctzW (x l)) ∧ Lane32 (.brev d a) s d (fun l => brevW (x l))
    ∧ Lane32 (.bfe d a b) s d (fun l => bfeW (x l) (y l))
    ∧ Lane32 (.bfi d a b) s d (fun l => bfiW (s.w.src d l) (x l) (y l)))
  ∧ ∀ x y z : Word,
    let pos := y.toNat % 256
    let len := min (y.toNat / 256 % 256) 32
    let bitOf (p : Nat) : Bool := if p < 32 then x.getLsbD p else y.getLsbD 16 && x.getLsbD 31
    (popcW x).toNat = (List.range 32).countP (fun k => x.getLsbD k)
    ∧ (clzW x).toNat ≤ 32 ∧ (∀ k, 32 - (clzW x).toNat ≤ k → x.getLsbD k = false)
    ∧ ((clzW x).toNat < 32 → x.getLsbD (31 - (clzW x).toNat) = true)
    ∧ (ctzW x).toNat ≤ 32 ∧ (∀ k, k < (ctzW x).toNat → x.getLsbD k = false)
    ∧ ((ctzW x).toNat < 32 → x.getLsbD (ctzW x).toNat = true)
    ∧ (∀ k, k < 32 → (brevW x).getLsbD k = x.getLsbD (31 - k))
    ∧ (∀ k, k < 32 → (bfeW x y).getLsbD k =
        if k < len then bitOf (pos + k) else y.getLsbD 16 && decide (len ≠ 0) && bitOf (pos + len - 1))
    ∧ (∀ k, k < 32 → (bfiW z x y).getLsbD k =
        if pos ≤ k ∧ k < pos + len then x.getLsbD (k - pos) else z.getLsbD k)

/-- R223, R224: packed sums, differences, minima, maxima, shifts and dot products, element by element.
R109: an element's shift takes its amount from the low 8 bits of the matching element, amounts beyond the width included. -/
def Obligations.PackedInteger : Prop :=
  (∀ (s : State) (d a b : Fin 64) (t : PackT) (sat u : Bool),
    let x := s.w.src (vOpd a)
    let y := s.w.src (vOpd b)
    let z := s.w.src (vOpd d)
    Lane32 (.iaddPacked d a b t sat) s (vOpd d) (fun l => packOp t sat (· + ·) (x l) (y l))
    ∧ Lane32 (.isubPacked d a b t sat) s (vOpd d) (fun l => packOp t sat (· - ·) (x l) (y l))
    ∧ Lane32 (.iminPacked d a b t) s (vOpd d) (fun l => packOp t false min (x l) (y l))
    ∧ Lane32 (.imaxPacked d a b t) s (vOpd d) (fun l => packOp t false max (x l) (y l))
    ∧ Lane32 (.shlPacked d a b t) s (vOpd d) (fun l => packShift t shlE (x l) (y l))
    ∧ Lane32 (.shrPacked d a b t) s (vOpd d) (fun l => packShift t shrE (x l) (y l))
    ∧ Lane32 (.sarPacked d a b t) s (vOpd d) (fun l => packShift t sarE (x l) (y l))
    ∧ Lane32 (.idot4 d a b u) s (vOpd d) (fun l => dotW (if u then .n8x4 else .i8x4) (z l) (x l) (y l))
    ∧ Lane32 (.idot2 d a b u) s (vOpd d) (fun l => dotW (if u then .n16x2 else .i16x2) (z l) (x l) (y l)))
  ∧ ∀ (t : PackT) (sat : Bool) (f : Int → Int → Int) (x y : Word) (e : Nat),
    let w := match t with | .i8x4 => 8 | .n8x4 => 8 | .i16x2 => 16 | .n16x2 => 16
    let sg := match t with | .i8x4 => true | .i16x2 => true | _ => false
    let lo : Int := if sg then -(2 ^ (w - 1)) else 0
    let hi : Int := if sg then 2 ^ (w - 1) - 1 else 2 ^ w - 1
    let raw (k : Nat) (v : Word) : Nat := v.toNat / 2 ^ (k * w) % 2 ^ w
    let arith (k : Nat) (v : Word) : Int := (BitVec.ofNat w (raw k v)).toInt
    let el (k : Nat) (v : Word) : Int := if sg then arith k v else (raw k v : Int)
    let by_ : Nat := raw e y % 256
    (e < 32 / w →
      ((raw e (packOp t sat f x y) : Int)
          = (if sat then max lo (min hi (f (el e x) (el e y))) else f (el e x) (el e y)) % 2 ^ w)
      ∧ raw e (packShift t shlE x y) = raw e x * 2 ^ by_ % 2 ^ w
      ∧ raw e (packShift t shrE x y) = raw e x / 2 ^ by_
      ∧ (raw e (packShift t sarE x y) : Int) = arith e x / 2 ^ by_ % 2 ^ w)
    ∧ ∀ z : Word, ((dotW t z x y).toNat : Int)
        = ((z.toNat : Int) + ((List.range (32 / w)).map fun k => el k x * el k y).sum) % 2 ^ 32

/-! ### Floating point -/

/-- R92, R97, R102, R254 to R265: the arithmetic of binary32, packed halves and binary64: in every lane the result of
the exact value rounded once by the mode, and its exceptions in FLG.
R92, R256: the exact sum, product, and product plus addend of finite values are rounded once, in whatever unit they are reckoned; an
exact zero sum takes its sign from equal signs or the mode; infinities, 0 times an infinity and NaNs as IEEE 754 has them.
R263, R264: each half of a packed result is the result of its halves. -/
def Obligations.FloatArithmetic : Prop :=
  (∀ (s : State) (d a b : Opd) (md : Rm) (d' : Fin 64) (b' : Opd16),
    let x := s.w.get f32K a
    let y := s.w.get f32K b
    let z := s.w.get f32K d
    let x' := s.w.get f32K (vOpd d')
    let y' := s.w.get f32K b'.toOpd
    let X (l : Nat) := f64 (s.w.srcD a l)
    let Y (l : Nat) := f64 (s.w.srcD b l)
    let Z (l : Nat) := f64 (s.w.srcD d l)
    let q := RMode.ofRm md
    Lane32E (.fadd d a b md) s d (fun l => w32 (F32.add q (f32 (x l)) (f32 (y l))))
    ∧ Lane32E (.fsub d a b md) s d (fun l => w32 (F32.add q (f32 (x l)) (f32 (y l)).neg))
    ∧ Lane32E (.fmul d a b md) s d (fun l => w32 (F32.mul q (f32 (x l)) (f32 (y l))))
    ∧ Lane32E (.ffma d a b md) s d (fun l => w32 (F32.fma q (f32 (x l)) (f32 (y l)) (f32 (z l))))
    ∧ Lane32E (.fadd16 d' b') s (vOpd d') (fun l => w32 (F32.add .nearest (f32 (x' l)) (f32 (y' l))))
    ∧ Lane32E (.fsub16 d' b') s (vOpd d') (fun l => w32 (F32.add .nearest (f32 (x' l)) (f32 (y' l)).neg))
    ∧ Lane32E (.fmul16 d' b') s (vOpd d') (fun l => w32 (F32.mul .nearest (f32 (x' l)) (f32 (y' l))))
    ∧ Lane64E (.dadd d a b md) s d (fun l => w64 (F64.add q (X l) (Y l)))
    ∧ Lane64E (.dmul d a b md) s d (fun l => w64 (F64.mul q (X l) (Y l)))
    ∧ Lane64E (.dfma d a b md) s d (fun l => w64 (F64.fma q (X l) (Y l) (Z l)))
    ∧ Lane32E (.hadd2 d a b md) s d (fun l => add2 F16 q (s.w.get f16K a l) (s.w.get f16K b l))
    ∧ Lane32E (.hmul2 d a b md) s d (fun l => mul2 F16 q (s.w.get f16K a l) (s.w.get f16K b l))
    ∧ Lane32E (.hfma2 d a b md) s d (fun l => fma2 F16 q (s.w.get f16K a l) (s.w.get f16K b l) (s.w.get f16K d l))
    ∧ Lane32E (.badd2 d a b md) s d (fun l => add2 BF16 q (s.w.get bf16K a l) (s.w.get bf16K b l))
    ∧ Lane32E (.bmul2 d a b md) s d (fun l => mul2 BF16 q (s.w.get bf16K a l) (s.w.get bf16K b l))
    ∧ Lane32E (.bfma2 d a b md) s d (fun l => fma2 BF16 q (s.w.get bf16K a l) (s.w.get bf16K b l) (s.w.get bf16K d l)))
  ∧ (∀ F ∈ [F64, F32, F16, BF16], ∀ (md : RMode) (na nb : Bool) (ma mb : Nat) (ea eb e0 : Int) (a b c : FVal),
       let once (same : Bool) (v : Int) : Nat × Exc :=
         if v = 0 then (F.signBit (if same then na else md = .down), {}) else F.round md false (v < 0) v.natAbs e0
       let nan (nv : Bool) : Nat × Exc := (F.nan, { nv := nv })
       let ab := na != nb
       (e0 ≤ ea → e0 ≤ eb → F.add md (.fin na ma ea) (.fin nb mb eb) = once (na == nb) (toUnits na ma ea e0 + toUnits nb mb eb e0))
       ∧ F.mul md (.fin na ma ea) (.fin nb mb eb) = F.round md false ab (ma * mb) (ea + eb)
       ∧ F.fma md (.fin na ma ea) (.fin nb mb eb) c = F.add md (.fin ab (ma * mb) (ea + eb)) c
       ∧ F.add md (.inf na) (.inf nb) = (if na = nb then (F.infBits na, {}) else nan true)
       ∧ F.add md (.inf na) (.fin nb mb eb) = (F.infBits na, {}) ∧ F.add md (.fin na ma ea) (.inf nb) = (F.infBits nb, {})
       ∧ F.mul md (.inf na) (.inf nb) = (F.infBits ab, {})
       ∧ F.mul md (.inf na) (.fin nb mb eb) = (if mb = 0 then nan true else (F.infBits ab, {}))
       ∧ F.mul md (.fin na ma ea) (.inf nb) = (if ma = 0 then nan true else (F.infBits ab, {}))
       ∧ F.fma md (.inf na) (.fin nb mb eb) c = (if mb = 0 then nan true else F.add md (.inf ab) c)
       ∧ (a.isNan = true ∨ b.isNan = true → F.add md a b = nan (a.isSig || b.isSig) ∧ F.mul md a b = nan (a.isSig || b.isSig)
           ∧ F.fma md a b c = nan (a.isSig || b.isSig || c.isSig)))
  ∧ ∀ F ∈ [F16, BF16], ∀ (md : RMode) (x y z : Word),
      let el (v : Word) (e : Nat) := F.decode (v.toNat / 2 ^ (16 * e) % 2 ^ 16)
      let halves' (p : Word × Exc) (f : Nat → Nat × Exc) : Prop :=
        (∀ e, e < 2 → p.1.toNat / 2 ^ (16 * e) % 2 ^ 16 = (f e).1) ∧ p.2 = (f 0).2.or (f 1).2
      halves' (add2 F md x y) (fun e => F.add md (el x e) (el y e)) ∧ halves' (mul2 F md x y) (fun e => F.mul md (el x e) (el y e))
      ∧ halves' (fma2 F md x y z) (fun e => F.fma md (el x e) (el y e) (el z e))

/-- R258 to R262, R273, R274: comparisons, minimum and maximum, sign forms, rounding to an integral value, the fraction
and the special functions. The faithful functions leave the neighbour open (log 12); how near their values lie to the exact ones is
`SpecialFunctions`.
R258: comparisons of values that are not NaN order them by value, with both zeros equal, and raise nothing; a NaN
is unordered, and raises invalid under the ordered predicates and when it signals.
R258: an infinity lies beyond every other value of its side.
R259, R261, R262: the lesser and the greater, -0 below +0, and of a NaN and a number the number; `frnd` gives the integral value
that the mode gives, with the operand's sign; `ffrac` the value less its floor, rounded toward zero; an infinity is its own
integral value and has no fraction, and a NaN gives the canonical one.
R273, R274: reciprocal, root and reciprocal root of a positive value lie within half a unit of their last place of the exact one,
powers of two are exact both ways, a faithful result is one of two neighbours and raises inexact, and the special operands. -/
def Obligations.FloatCompareAndSpecial : Prop :=
  (∀ (s : State) (d a b : Opd) (d' : Fin 64) (b' : Opd16),
     let x := s.w.get f32K a
     let y := s.w.get f32K b
     let cmp (i : Instr) (p : FPred) : Prop := Lane32E i s d (fun l => fcmp p (x l) (y l))
     let un (i : Instr) (f : Word → Word × Exc) : Prop := Lane32E i s d (fun l => f (x l))
     let sp (i : Instr) (f : Word → FVal → Nat × Exc) : Prop := Lane32E i s d (fun l => w32 (f (x l) (f32 (x l))))
     cmp (.fcmpEq d a b) .eq ∧ cmp (.fcmpNe d a b) .ne ∧ cmp (.fcmpLt d a b) .lt ∧ cmp (.fcmpLe d a b) .le
     ∧ cmp (.fcmpGt d a b) .gt ∧ cmp (.fcmpGe d a b) .ge ∧ cmp (.fcmpUn d a b) .un
     ∧ Lane32E (.fmin d a b) s d (fun l => minmax32 false (x l) (y l))
     ∧ Lane32E (.fmax d a b) s d (fun l => minmax32 true (x l) (y l))
     ∧ Lane32E (.fmax16 d' b') s (vOpd d') (fun l => minmax32 true (s.w.get f32K (vOpd d') l) (s.w.get f32K b'.toOpd l))
     ∧ un (.fabs d a) (fun v => (v &&& 0x7FFFFFFF, {})) ∧ un (.fneg d a) (fun v => (v ^^^ 0x80000000, {}))
     ∧ un (.frndRn d a) (frnd .nearest) ∧ un (.frndRz d a) (frnd .zero)
     ∧ un (.frndRp d a) (frnd .up) ∧ un (.frndRm d a) (frnd .down) ∧ un (.ffrac d a) ffrac32
     ∧ sp (.frcp d a) (fun _ => rcpV) ∧ sp (.frsq d a) (fun _ => rsqV) ∧ sp (.fsqrt d a) (fun _ => sqrtV)
     ∧ sp (.fexp2 d a) (fun _ => exp2V) ∧ sp (.flog2 d a) (fun _ => log2V)
     ∧ sp (.fsin d a) (fun v => sinV (Config.sinUpper v)) ∧ sp (.fcos d a) (fun v => cosV (Config.cosUpper v))
     ∧ sp (.ftanh d a) (fun v => tanhV (Config.tanhUpper v)))
  ∧ ((∀ (x y : Word) (nx ny : Bool) (mx my : Nat) (ex ey : Int), f32 x = .fin nx mx ex → f32 y = .fin ny my ey →
       let X := toUnits nx mx ex F32.qmin
       let Y := toUnits ny my ey F32.qmin
       fcmp .lt x y = (if X < Y then 1 else 0, {}) ∧ fcmp .le x y = (if X ≤ Y then 1 else 0, {})
       ∧ fcmp .eq x y = (if X = Y then 1 else 0, {}) ∧ fcmp .ne x y = (if X ≠ Y then 1 else 0, {})
       ∧ fcmp .gt x y = (if Y < X then 1 else 0, {}) ∧ fcmp .ge x y = (if Y ≤ X then 1 else 0, {})
       ∧ fcmp .un x y = (0, {}))
     ∧ (∀ (x y : Word) (n : Bool), f32 x = .inf n ∨ f32 y = .inf n → isNan32 x = false → isNan32 y = false →
         let below (a b : FVal) : Bool := (a = .inf true && b ≠ .inf true) || (b = .inf false && a ≠ .inf false)
         let lt := below (f32 x) (f32 y)
         let gt := below (f32 y) (f32 x)
         fcmp .lt x y = (if lt then 1 else 0, {}) ∧ fcmp .le x y = (if gt then 0 else 1, {})
         ∧ fcmp .eq x y = (if lt || gt then 0 else 1, {}) ∧ fcmp .ne x y = (if lt || gt then 1 else 0, {})
         ∧ fcmp .gt x y = (if gt then 1 else 0, {}) ∧ fcmp .ge x y = (if lt then 0 else 1, {}) ∧ fcmp .un x y = (0, {}))
     ∧ ∀ (x y : Word) (p : FPred), isNan32 x = true ∨ isNan32 y = true →
       (fcmp p x y).1 = (if p = .ne ∨ p = .un then 1 else 0)
       ∧ (fcmp p x y).2 = { nv := decide (p ∈ [.lt, .le, .gt, .ge]) || isSig32 x || isSig32 y })
  ∧ (∀ (x y : Word),
       let e : Exc := { nv := isSig32 x || isSig32 y }
       let orders : Prop := minmax32 false x y = (x, {}) ∧ minmax32 true x y = (y, {}) ∧ minmax32 false y x = (x, {})
         ∧ minmax32 true y x = (y, {})
       (∀ nx ny mx my ex ey, f32 x = .fin nx mx ex → f32 y = .fin ny my ey →
         let X := toUnits nx mx ex F32.qmin
         let Y := toUnits ny my ey F32.qmin
         X < Y ∨ X = Y ∧ (nx = true ∨ ny = false) → orders)
       ∧ (f32 x = .inf true ∨ f32 y = .inf false → isNan32 x = false → isNan32 y = false → orders)
       ∧ (isNan32 x = true → isNan32 y = false → ∀ b, minmax32 b x y = (y, e) ∧ minmax32 b y x = (y, e))
       ∧ (isNan32 x = true → isNan32 y = true → ∀ b, minmax32 b x y = (0x7FC00000, e)))
  ∧ (∀ (x : Word) (n : Bool) (m : Nat) (e : Int) (md : RMode), f32 x = .fin n m e →
       (∃ b k q, frnd md x = (b, {}) ∧ f32 b = .fin n k q
         ∧ toUnits n k q F32.qmin = toUnits n (roundAt md n m e 0).1 0 F32.qmin)
       ∧ ffrac32 x = w32 (F32.round .zero false false (toUnits n m e F32.qmin % 2 ^ 149).toNat F32.qmin))
  ∧ (∀ (x : Word) (n : Bool) (md : RMode),
       (f32 x = .inf n → frnd md x = (x, {}) ∧ ffrac32 x = (0x7FC00000, { nv := true }))
       ∧ (f32 x = .nan n → frnd md x = (0x7FC00000, { nv := n }) ∧ ffrac32 x = (0x7FC00000, { nv := n })))
  ∧ (∀ (m : Nat) (e : Int) (x : Word), f32 x = .fin false m e → m ≠ 0 →
       (∃ r q, F32.decode (sqrtV (.fin false m e)).1 = .fin false r q
         ∧ (2 * r - 1) ^ 2 * 2 ^ (2 * q + 398).toNat ≤ m * 2 ^ (e + 400).toNat
         ∧ m * 2 ^ (e + 400).toNat ≤ (2 * r + 1) ^ 2 * 2 ^ (2 * q + 398).toNat)
       ∧ (∃ r q, F32.decode (rsqV (.fin false m e)).1 = .fin false r q
         ∧ (2 * r - 1) ^ 2 * m * 2 ^ (2 * q + e + 398).toNat ≤ 2 ^ 400 ∧ 2 ^ 400 ≤ (2 * r + 1) ^ 2 * m * 2 ^ (2 * q + e + 398).toNat)
       ∧ (m ≤ 2 ^ 21 → ∀ n, rcpV (.fin n m e) = (F32.infBits n, { of := true, nx := true }))
       ∧ (2 ^ 21 < m → ∀ n, ∃ r q, F32.decode (rcpV (.fin n m e)).1 = .fin n r q
         ∧ (2 * r - 1) * m * 2 ^ (q + e + 399).toNat ≤ 2 ^ 400 ∧ 2 ^ 400 ≤ (2 * r + 1) * m * 2 ^ (q + e + 399).toNat)
       ∧ ∀ l : Nat, m = 2 ^ l → log2V (.fin false m e) = F32.round .nearest false (e + l < 0) (e + l).natAbs 0)
  ∧ (∀ (x : Word) (n : Bool) (m : Nat) (e : Int) (u : Bool), f32 x = .fin n m e → m ≠ 0 →
       (∀ k : Int, toUnits n m e F32.qmin = k * 2 ^ 149 → exp2V (.fin n m e) = F32.round .nearest false false 1 k)
       ∧ (∀ f ∈ [sinV, cosV, tanhV], (f true (.fin n m e)).1 = (f false (.fin n m e)).1 + 1 ∧ (f u (.fin n m e)).2.nx = true)
       ∧ (sinV u (.fin n m e)).1 % 2 ^ 31 = (sinV u (.fin (!n) m e)).1 % 2 ^ 31 ∧ cosV u (.fin n m e) = cosV u (.fin (!n) m e)
       ∧ log2V (.fin true m e) = (F32.nan, { nv := true }) ∧ sqrtV (.fin true m e) = (F32.nan, { nv := true })
       ∧ rsqV (.fin true m e) = (F32.nan, { nv := true }))
  ∧ ∀ (n u : Bool) (e : Int),
      let z : FVal := .fin n 0 e
      let inf := F32.infBits
      let nan : Nat × Exc := (F32.nan, { nv := true })
      rcpV z = (inf n, { dz := true }) ∧ rsqV z = (inf n, { dz := true }) ∧ sqrtV z = (F32.signBit n, {}) ∧ exp2V z = (0x3F800000, {})
      ∧ log2V z = (inf true, { dz := true }) ∧ sinV u z = (F32.signBit n, {}) ∧ cosV u z = (0x3F800000, {})
      ∧ tanhV u z = (F32.signBit n, {}) ∧ rcpV (.inf n) = (F32.signBit n, {}) ∧ rsqV (.inf n) = (if n then nan else (0, {}))
      ∧ sqrtV (.inf n) = (if n then nan else (inf false, {})) ∧ exp2V (.inf n) = (if n then 0 else inf false, {})
      ∧ log2V (.inf n) = (if n then nan else (inf false, {})) ∧ sinV u (.inf n) = nan ∧ cosV u (.inf n) = nan
      ∧ tanhV u (.inf n) = (if n then 0xBF800000 else 0x3F800000, {})
      ∧ ∀ f ∈ [rcpV, rsqV, sqrtV, exp2V, log2V, sinV u, cosV u, tanhV u], f (.nan n) = (F32.nan, { nv := n })

/-- R97: a value that a format represents rounds to its own encoding under every mode and raises nothing.
R97: rounding to an integer multiple returns one of the two neighbours of an inexact value: the nearer one, ties to
even, or the one in the direction of the mode; and an exact value itself.
R98: under `.rs` it is the neighbour of greater magnitude when the draw U lies below F, the top 16 bits of the distance from the
other one.
R97, R98: an inexact value between two adjacent encodings of a format becomes one of them, chosen by the mode or the draw, and
raises inexact, and underflow only where it is tiny after rounding with an unbounded exponent; beyond the largest finite value
the step before 2^(emax + 1), or that value itself, is the other neighbour, and what overflows becomes the infinity or the largest
finite value as the mode gives it, with overflow and inexact. R99: a format that saturates takes the largest finite value.
What a draw decides in a format that saturates is the model's own reading: log 102. -/
def Obligations.FloatRounding : Prop :=
  (∀ F ∈ [F64, F32, F16, BF16, E4M3, E5M2], ∀ (md : RMode) (sat n : Bool) (m : Nat) (e : Int) (b : Nat),
     b < 2 ^ (1 + F.ew + F.fw) → F.decode b = .fin n m e → F.round md sat n m e = (b, {}))
  ∧ (∀ (md : RMode) (n : Bool) (m k : Nat),
       let q := (roundShift md n m k).1
       let lo := m / 2 ^ k
       ((roundShift md n m k).2 = decide (m % 2 ^ k ≠ 0)) ∧ (m % 2 ^ k = 0 → q * 2 ^ k = m)
       ∧ (m % 2 ^ k ≠ 0 → (q = lo ∨ q = lo + 1)
         ∧ (md = .nearest → 2 * (q * 2 ^ k) ≤ 2 * m + 2 ^ k ∧ 2 * m ≤ 2 * (q * 2 ^ k) + 2 ^ k
             ∧ (2 * (m % 2 ^ k) = 2 ^ k → q % 2 = 0))
         ∧ (md = .zero → q = lo) ∧ (md = .up → q = if n then lo else lo + 1) ∧ (md = .down → q = if n then lo + 1 else lo)
         ∧ ∀ u, md = .stoch u → (q = lo + 1 ↔ u < m % 2 ^ k * 2 ^ 16 / 2 ^ k)))
  ∧ ∀ F ∈ [F64, F32, F16, BF16, E4M3, E5M2], ∀ (md : RMode) (sat n : Bool) (m b p : Nat) (e q : Int),
      m ≠ 0 → b < 2 ^ (F.ew + F.fw) → F.decode b = .fin false p q →
      let e0 := min e F.qmin
      let x := toUnits false m e e0
      let lo := toUnits false p q e0
      let last : Bool := b = F.maxBits false
      let hi := if last then toUnits false (F.top + 1) F.qmax e0
        else match F.decode (b + 1) with | .fin _ p q => toUnits false p q e0 | _ => 0
      let away : Bool := match md with
        | .nearest => lo + hi < 2 * x || (lo + hi == 2 * x && b % 2 == 1)
        | .zero => false | .up => !n | .down => n
        | .stoch u => (u : Int) < (x - lo) * 2 ^ 16 / (hi - lo)
      let infinite : Bool := F.hasInf && !sat && match md with
        | .nearest => true | .zero => false | .up => !n | .down => n | .stoch _ => true
      let most : Nat × Exc := (if infinite then F.infBits n else F.maxBits n, { of := true, nx := true })
      let tiny : Bool := x < toUnits false (2 ^ F.fw) F.qmin e0 && (roundAt md n m e (F.qmin - 1)).1 < 2 ^ (F.fw + 1)
      (last = true → hi ≤ x → F.round md sat n m e = most)
      ∧ (lo < x → x < hi → F.round md sat n m e =
          if away && last then most else (F.signBit n + (if away then b + 1 else b), { nx := true, uf := tiny }))

/-! ### Conversions -/

/-- R98, R99, R266 to R268: conversions of elements, single and packed, with the draws of stochastic rounding.
R99: what each destination format makes of a NaN, an infinity and a finite value; an integer is rounded by the mode and takes the
nearest bound outside its range. R98: a draw is the high half of the generator's next state.
What is the model's own reading or choice in it: log 19, 58, 102, 114. -/
def Obligations.Conversions : Prop :=
  (∀ (s : State) (d a : Opd) (dst src : CFmt) (m : CMode),
    (let p (l : Nat) := convertDraw (CFmt.convert dst m) m (s.w.getGen l) (s.w.cvtSrc src a l)
     Lanewise (.cvt d a dst src m) s d (if dst = .f64 then 2 else 1)
      (fun _ j l => if dst = .f64 then pairWord (BitVec.ofNat 64 (p l).1) j else BitVec.ofNat 32 (p l).1)
      (some fun r l => (p (leader d r.lanes l)).2.1)
      (some fun r l => if has (genLanes d r.lanes) l then (p l).2.2 else s.w.getGen l))
    ∧ (dst.packN = 0 →
        let p (e l : Nat) := CFmt.convert dst m 0 (CFmt.value src (elemBits (CFmt.bits src) (s.w.get (CFmt.consts src) a l).toNat e))
        Lanewise (.cvtPk d a dst src m) s d src.packN (fun _ j l => BitVec.ofNat 32 (p j l).1)
          (some fun _ l => Exc.all ((List.range src.packN).map fun e => (p e l).2)) none)
    ∧ (dst.packN ≠ 0 →
        let at' (l e : Nat) : FVal := f32 (match a with | .k c => f32K c | a => s.w.getAt a e l)
        let p (l : Nat) := convertList (CFmt.convert dst m) m (s.w.getGen l) ((List.range dst.packN).map (at' l))
        Lanewise (.cvtPk d a dst src m) s d 1 (fun _ _ l => BitVec.ofNat 32 (packElems (CFmt.bits dst) (p l).1))
          (some fun r l => (p (leader d r.lanes l)).2.1)
          (some fun r l => if has (genLanes d r.lanes) l then (p l).2.2 else s.w.getGen l)))
  ∧ (∀ (m : CMode) (u : Nat) (n : Bool) (a : Nat) (e : Int) (sig : Bool),
       let md := CMode.rmode m u
       let sat := CMode.sat m
       (∀ dst ∈ [(CFmt.f64, F64), (.f32, F32), (.f16, F16), (.bf16, BF16), (.e4m3, E4M3), (.e5m2, E5M2)],
          CFmt.convert dst.1 m u (.fin n a e) = dst.2.round md sat n a e
          ∧ CFmt.convert dst.1 m u (.nan sig) = (dst.2.nan, { nv := sig })
          ∧ (dst.1 ≠ .e4m3 → sat = false → CFmt.convert dst.1 m u (.inf n) = (dst.2.infBits n, {})))
       ∧ (CFmt.convert .e4m3 m u (.inf n) = (if n then 0xFE else 0x7E, { of := true, nx := true }))
       ∧ (sat = true → CFmt.convert .e5m2 m u (.inf n) = (if n then 0xFB else 0x7B, { of := true, nx := true }))
       ∧ (480 ≤ a → 0 ≤ e → CFmt.convert .e4m3 m u (.fin n a e) = (if n then 0xFE else 0x7E, { of := true, nx := true }))
       ∧ ∀ (lo hi : Int) (out : Int → Nat) (dst : CFmt),
           (dst = .i32 ∧ lo = -(2 ^ 31) ∧ hi = 2 ^ 31 - 1 ∧ (∀ v, out v = (v % 2 ^ 32).toNat))
             ∨ (dst = .n32 ∧ lo = 0 ∧ hi = 2 ^ 32 - 1 ∧ ∀ v, out v = v.toNat) →
           let r : Int := toUnits n (roundAt md n a e 0).1 0 0
           CFmt.convert dst m u (.nan sig) = (0, { nv := true })
           ∧ CFmt.convert dst m u (.inf n) = (out (if n then lo else hi), { nv := true })
           ∧ CFmt.convert dst m u (.fin n a e)
               = (out (max lo (min hi r)), if r < lo ∨ hi < r then { nv := true } else {}))
  ∧ ∀ (f : Nat → FVal → Nat × Exc) (m : CMode) (g : Word) (v : FVal),
      let x := g.toNat
      let a := x ^^^ (x * 2 ^ 13 % 2 ^ 32)
      let b := a ^^^ (a / 2 ^ 17)
      (nextGen g).toNat = b ^^^ (b * 2 ^ 5 % 2 ^ 32) ∧ (convertDraw f m g v).1 = (f ((nextGen g).toNat / 2 ^ 16) v).1

/-- R100, R101, R269 to R272: packing 32 lanes into an MX or CF block and unpacking it, in the plain and the planar
layout, for each group of 32 lanes that the run touches.
R94 to R96, R100, R101: the scale of a block by its largest magnitude, each element rounded under the scale and saturated, where
each stands, and the value that each reads back as.
What is the model's own reading or choice in it: log 19, 20, 58, 110. -/
def Obligations.BlockConversions : Prop :=
  (∀ (s : State) (d a : Opd) (f : Fin 16) (m : CMode),
    let pk (planar : Bool) (r : Run) (h : Nat) : Packed := packBlock f.val planar m
      ((List.range 32).map fun k => if has r.lanes (32 * h + k) then f32 (s.w.src a (32 * h + k)) else .fin false 0 0)
      ((List.range 32).map fun k => s.w.getGen (32 * h + k))
    let pack (i : Instr) (planar : Bool) : Prop :=
      Lanewise i s d 1 (fun r _ l => BitVec.ofNat 32 ((pk planar r (l / 32)).words.getD (l % 32) 0))
        (some fun r l => (pk planar r (l / 32)).exc.getD (l % 32) {})
        (some fun r l => if has r.lanes l then (pk planar r (l / 32)).gens.getD (l % 32) 0 else s.w.getGen l)
    let up (planar : Bool) (l : Nat) : Nat × Exc := (unpackBlock f.val planar
      ((List.range 32).map fun k => (s.w.src a (32 * (l / 32) + k)).toNat)).getD (l % 32) (0, {})
    let unpack (i : Instr) (planar : Bool) : Prop :=
      Lanewise i s d 1 (fun _ _ l => BitVec.ofNat 32 (up planar l).1) (some fun _ l => (up planar l).2) none
    pack (.cvtBlkPack d a f m) false ∧ pack (.cvtBlkpPack d a f m) true
    ∧ unpack (.cvtBlkUnpack d a f) false ∧ unpack (.cvtBlkpUnpack d a f) true)
  ∧ (∀ (f nw w : Nat) (emax : Int) (F : Option FFmt) (planar : Bool) (m : CMode) (vs : List FVal) (gs : List Word),
       (f, nw, w, emax, F) ∈ [(6, 8, 8, 8, some E4M3), (7, 8, 8, 15, some E5M2), (8, 6, 6, 2, some ⟨2, 3, 1, 15, 3, false, 0⟩),
         (9, 6, 6, 4, some ⟨3, 2, 3, 7, 7, false, 0⟩), (10, 4, 4, 2, some ⟨2, 1, 1, 3, 3, false, 0⟩), (11, 8, 8, 0, none)] →
       vs.length = 32 → gs.length = 32 → CMode.isRs m = false →
       let p := packBlock f planar m vs gs
       let md := CMode.rmode m 0
       let str := leNat ((p.words.take nw).flatMap (leBytes 4))
       let el (k : Nat) := str / 2 ^ (w * k) % 2 ^ w
       let x := p.words.getD 31 0
       ((∃ sg, .nan sg ∈ vs) → x = 255 ∧ str = 0)
       ∧ ((∀ sg, .nan sg ∉ vs) →
           ((∃ n, .inf n ∈ vs) → x = 254)
           ∧ ((∀ v ∈ vs, ∃ n e, v = .fin n 0 e) → x = 0)
           ∧ (∀ v ∈ vs, ∀ n a e, v = .fin n a e → a ≠ 0 → (∀ y ∈ vs, ∃ k b g, y = .fin k b g ∧ (b = 0 ∨ g + Nat.log2 b ≤ e + Nat.log2 a)) →
               (x : Int) = max 0 (min 254 (e + Nat.log2 a - emax + 127)))
           ∧ ∀ (k : Nat) n a e, vs[k]? = some (.fin n a e) →
               (∀ G, F = some G → el k = (G.round md true n a (e + 127 - x)).1 % 2 ^ w)
               ∧ (F = none → let r := (roundAt md n a (e + 127 - x) (-6)).1
                   el k = if 127 < r then (if n then 129 else 127) else if n then (256 - r) % 256 else r)))
  ∧ (∀ (f p : Nat) (planar : Bool) (m : CMode) (vs : List FVal) (gs : List Word), (f, p) ∈ [(12, 7), (13, 4), (14, 2)] →
       vs.length = 32 → gs.length = 32 → CMode.isRs m = false →
       let q := packBlock f planar m vs gs
       let md := CMode.rmode m 0
       let str := leNat ((q.words.take (if planar then p + 1 else p + 2)).flatMap (leBytes 4))
       let sc := q.words.getD 31 0
       ∀ h, h < 2 →
         let us := (vs.drop (16 * h)).take 16
         let at_ := if planar then 16 * (p + 1) * h else (16 + 16 * (p + 1)) * h
         let E := if planar then sc / 2 ^ (16 * h) % 256 else str / 2 ^ at_ % 256
         let mu (j : Nat) := (if planar then sc / 2 ^ (16 * h + 8) else str / 2 ^ (at_ + 8)) / 2 ^ j % 2
         let el (i : Nat) := str / 2 ^ (at_ + (if planar then 0 else 16) + i * (p + 1)) % 2 ^ (p + 1)
         let mag (e u : Int) (v : FVal) : Nat := match v with | .fin n a x => (roundAt md n a x (e - 127 - u - (p - 1))).1 | _ => 2 ^ p
         ((∃ sg, .nan sg ∈ us) → E = 255 ∧ ∀ i, i < 16 → el i = 0 ∧ mu (i / 2) = 0)
         ∧ ((∀ sg, .nan sg ∉ us) →
             ((∃ n, .inf n ∈ us) → E = 254) ∧ ((∀ v ∈ us, ∃ n e, v = .fin n 0 e) → E = 0)
             ∧ (∀ v ∈ us, ∀ n a e, v = .fin n a e → a ≠ 0 → (∀ y ∈ us, ∃ k b g, y = .fin k b g ∧ (b = 0 ∨ g + Nat.log2 b ≤ e + Nat.log2 a)) →
                 let e0 : Int := max 0 (min 254 (e + Nat.log2 a + 127))
                 ((E : Int) = e0 ∨ (E : Int) = e0 + 1)
                 ∧ ((∀ y ∈ us, mag e0 0 y < 2 ^ p) → (E : Int) = e0)
                 ∧ (e0 < 254 → 0 ≤ e + Nat.log2 a + 127 → (∀ y ∈ us, FVal.magLe y v = true) → 2 ^ p ≤ mag e0 0 v → (E : Int) = e0 + 1))
             ∧ (∀ j, j < 8 → (mu j = 1 ↔ ∀ i, i / 2 = j → ∀ v, us[i]? = some v → mag E 1 v < 2 ^ p))
             ∧ ∀ (i : Nat) n a e, us[i]? = some (.fin n a e) →
                 el i = min (mag E (mu (i / 2)) (.fin n a e)) (2 ^ p - 1) + if n then 2 ^ p else 0))
  ∧ (∀ (f p : Nat) (planar : Bool) (ws : List Nat) (k : Nat), (f, p) ∈ [(12, 7), (13, 4), (14, 2)] → ws.length = 32 →
       (∀ x ∈ ws, x < 2 ^ 32) → k < 32 →
       let str := leNat ((ws.take (if planar then p + 1 else p + 2)).flatMap (leBytes 4))
       let sc := ws.getD 31 0
       let at_ := if planar then 16 * (p + 1) * (k / 16) else (16 + 16 * (p + 1)) * (k / 16)
       let E := if planar then sc / 2 ^ (16 * (k / 16)) % 256 else str / 2 ^ at_ % 256
       let mu := (if planar then sc / 2 ^ (16 * (k / 16) + 8) else str / 2 ^ (at_ + 8)) / 2 ^ (k % 16 / 2) % 2
       let el := str / 2 ^ (at_ + (if planar then 0 else 16) + k % 16 * (p + 1)) % 2 ^ (p + 1)
       (unpackBlock f planar ws)[k]? = some (if E = 255 then (0x7FC00000, {})
         else F32.round .nearest false (2 ^ p ≤ el) (el % 2 ^ p) ((E : Int) - 127 - mu - (p - 1))))
  ∧ (∀ (planar : Bool) (ws : List Nat) (k : Nat), ws.length = 32 → (∀ x ∈ ws, x < 2 ^ 32) → k < 32 →
       let b := leNat ((ws.take 8).flatMap (leBytes 4)) / 2 ^ (8 * k) % 256
       let x := ws.getD 31 0 % 256
       (unpackBlock 11 planar ws)[k]? = some (if x = 255 then (0x7FC00000, {})
         else F32.round .nearest false (128 ≤ b) (if 128 ≤ b then 256 - b else b) ((x : Int) - 127 - 6)))
  ∧ ∀ (f nw w : Nat) (F : FFmt) (planar : Bool) (ws : List Nat) (k : Nat),
      (f, nw, w, F) ∈ [(6, 8, 8, E4M3), (7, 8, 8, E5M2), (8, 6, 6, ⟨2, 3, 1, 15, 3, false, 0⟩),
        (9, 6, 6, ⟨3, 2, 3, 7, 7, false, 0⟩), (10, 4, 4, ⟨2, 1, 1, 3, 3, false, 0⟩)] → ws.length = 32 → (∀ x ∈ ws, x < 2 ^ 32) → k < 32 →
      let el := leNat ((ws.take nw).flatMap (leBytes 4)) / 2 ^ (w * k) % 2 ^ w
      let x := ws.getD 31 0 % 256
      (unpackBlock f planar ws)[k]? = some
        (if x = 255 then (0x7FC00000, {}) else match F.decode el with
          | .nan _ => (0x7FC00000, {})
          | .inf n => (F32.infBits n, {})
          | .fin n a e => F32.round .nearest false n a (e + x - 127))

/-! ### Lanes and masks -/

/-- R107, R275 to R282: shuffles, broadcast, reductions, scans, votes, identifiers and reading another lane. Every source
is read before any destination is written.
R107: a reduction halves 64 values six times, each with the one half the remaining width away, and keeps every exception.
Which lane's identifier a scalar takes, and that a result is written at issue, is the model's choice: log 9, 113. -/
def Obligations.CrossLane : Prop :=
  (∀ (s : State) (d a b : Opd) (j : Fin 8) (op : RedOp) (k : Fin 6),
    let x := s.w.src a
    let y (l : Nat) := (s.w.src b l).toNat
    let from_ (r : Run) (l q : Nat) : Word := if q < 64 ∧ has r.lanes q then x q else x l
    let up (i : Instr) (n : Nat → Nat) : Prop := LaneRun i s d (fun r l => if n l ≤ l then from_ r l (l - n l) else x l)
    let ones (r : Run) : LaneMask := keepLanes r.lanes fun l => x l != 0
    let vals (r : Run) (top : Nat) : List Word :=
      (List.range 64).map fun q => if has r.lanes q && q ≤ top then s.w.redSrc op a q else RedOp.identity op
    up (.lshfUp d a b) y ∧ up (.lshfUpW d a j) (fun _ => 64 / 2 ^ j.val)
    ∧ LaneRun (.lshfDn d a b) s d (fun r l => from_ r l (l + y l))
    ∧ LaneRun (.lshfDnW d a j) s d (fun r l => from_ r l (l + 64 / 2 ^ j.val))
    ∧ LaneRun (.lshfXor d a b) s d (fun r l => from_ r l (l ^^^ y l))
    ∧ LaneRun (.lshfXorW d a j) s d (fun r l => from_ r l (l ^^^ 64 / 2 ^ j.val))
    ∧ LaneRun (.lshfIdx d a b) s d (fun r l => from_ r l (y l))
    ∧ LaneRun (.lbcast d a b) s d (fun r _ => from_ r (lowLane r.lanes) (y (lowLane r.lanes)))
    ∧ Lane32 (.lget d a b) s d (fun l => if y l < 64 then x (y l) else 0)
    ∧ LaneRunE (.lred d a op) s d (fun r _ => reduce op (vals r 63))
    ∧ LaneRunE (.lscan d a op) s d (fun r l => reduce op (vals r (if d.kind = 2 then 63 else l)))
    ∧ LaneRun (.lvoteAny d a) s d (fun r _ => if ones r = 0 then 0 else 1)
    ∧ LaneRun (.lvoteAll d a) s d (fun r _ => if ones r = r.lanes then 1 else 0)
    ∧ LaneRun64 (.lvoteBallot d a) s d (fun r _ => ones r)
    ∧ Lane64 (.lidx d .all) s d (fun l =>
        BitVec.ofNat 64 (l + s.w.idx * 2 ^ s.g.kern.widths.headD 6 + s.g.coord.toNat))
    ∧ Lane32 (.lidx d (.field k)) s d (fun l => widField s.g.kern.widths k.val (wid s l)))
  ∧ (∀ (op : RedOp) (v : Nat → Word),
       let one' (x y : Word) : Word × Exc := match op with
         | .add => (x + y, {}) | .and => (x &&& y, {}) | .or => (x ||| y, {})
         | .fadd => w32 (F32.add .nearest (f32 x) (f32 y)) | .fmin => minmax32 false x y | .fmax => minmax32 true x y
       let t : Nat → Nat → Word := fun n => n.rec v fun k u i => (one' (u i) (u (i + 2 ^ (5 - k)))).1
       (reduce op ((List.range 64).map v)).1 = t 6 0
       ∧ (reduce op ((List.range 64).map v)).2 = Exc.all ((List.range 6).flatMap fun k =>
           (List.range (2 ^ (5 - k))).map fun i => (one' (t k i) (t k (i + 2 ^ (5 - k)))).2))
  ∧ RedOp.identity .fadd = 0 ∧ RedOp.identity .add = 0 ∧ RedOp.identity .or = 0 ∧ RedOp.identity .and = BitVec.allOnes 32
  ∧ RedOp.identity .fmin = 0x7F800000 ∧ RedOp.identity .fmax = 0xFF800000

/-- R16, R19, R214, R215: a mask instruction gives its mask the value restricted to live lanes (`leave` removes the run's
lanes), leaves every other mask, and releases the mask's wait set exactly when every lane of the new mask waits in it: the lanes
released stand in the PC table at the addresses where they resume (R17, R19).
R214: reading a mask, counting its lanes and finding the lowest; 12 names the run itself. -/
def Obligations.Masks : Prop :=
  (∀ (s : State) (k a b : Fin 12) (o : Opd),
     let M (j : Fin 12) := s.w.getM j.val
     let sets (i : Instr) (f : Run → LaneMask) : Prop := ∀ r, Issues i s r → Goes (exec i s) fun t =>
       t.w.getM k.val = f r ∧ (∀ j, j ≠ k.val → t.w.getM j = s.w.getM j)
       ∧ t.w = { s.w with m := t.w.m, waits := t.w.waits, pcs := t.w.pcs, run := some (r.behind 4) }
       ∧ t = { s with w := t.w, pend := t.pend } ∧ (∀ p, t.rd p = s.rd p)
       ∧ (if f r &&& ~~~ s.w.waiting k.val = 0 then (t.w.waits = s.w.waits.filter fun q => q.k != k.val)
            ∧ ∀ p l, t.w.standsAt p l ↔ s.w.standsAt p l ∨ ∃ q ∈ s.w.waits, q.k = k.val ∧ q.pc = p ∧ has q.lanes l = true
          else t.w.waits = s.w.waits ∧ t.w.pcs = s.w.pcs)
     sets (.join k) (fun r => (M k ||| r.lanes) &&& s.w.live) ∧ sets (.leave k) (fun r => M k &&& ~~~ r.lanes)
     ∧ sets (.mset k o) (fun r => s.w.src64 o (lowLane r.lanes) &&& s.w.live)
     ∧ sets (.mand k a b) (fun _ => M a &&& M b &&& s.w.live) ∧ sets (.mor k a b) (fun _ => (M a ||| M b) &&& s.w.live)
     ∧ sets (.mxor k a b) (fun _ => (M a ^^^ M b) &&& s.w.live) ∧ sets (.mnot k a) (fun _ => ~~~ M a &&& s.w.live))
  ∧ (∀ (s : State) (d : Opd) (j : Fin 13),
       let m (r : Run) : LaneMask := if j.val = 12 then r.lanes else s.w.getM j.val
       LaneRun64 (.mget d j) s d (fun r _ => m r)
       ∧ LaneRun (.mpop d j) s d (fun r _ => BitVec.ofNat 32 ((List.range 64).countP fun l => has (m r) l))
       ∧ LaneRun (.mfirst d j) s d (fun r _ =>
           if m r = 0 then 0xFFFFFFFF else BitVec.ofNat 32 (((List.range 64).find? fun l => has (m r) l).getD 0)))

/-- R52 to R54, R253: pushing to a queue that nothing waits on appends the lanes' values in ascending lane order while
there is room, and a full queue takes nothing; popping takes entries from the head in ascending lane order; `qlen` counts.
R53: of a push that the queue has room for in part, the lowest lanes' values go in.
R252: a send or a receive at a slot with no partner waits there, its lanes leave the run at the clause's end; with a
partner the two meet: the partner no longer waits, and where its warp is at no clause its lanes stand behind theirs; the receiver,
whether it waited or comes, holds in each lane what that lane of the sender sent, 0 where it did not. -/
def Obligations.QueuesAndRendezvous : Prop :=
  (∀ (s : State) (r : Run) (k : Fin 12) (q : Fin 8) (o d : Opd),
     let x := s.queue q.val
     let mask (t : State) (on : LaneMask) : Prop :=
       t.w.getM k.val = (s.w.getM k.val &&& ~~~ r.lanes ||| on) &&& s.w.live
     let ls := lanesOf r.lanes
     let got := takeEntries ls x.entries
     let in_ := ls.take (64 - x.entries.length)
     (s.w.gone = false → Issues (.qpush k q o) s r → x.blocked = [] → Goes (exec (.qpush k q o) s) fun t =>
         (t.queue q.val).entries = x.entries ++ in_.map (fun l => (s.w.src o l, s.g.task)) ∧ mask t (maskOf in_)
         ∧ (∀ a, t.rd a = s.rd a) ∧ ∀ n, t.w.getS n = s.w.getS n)
     ∧ (s.w.gone = false → Issues (.qpop d k q) s r → d.kind = 1 → Goes (exec (.qpop d k q) s) fun t =>
         (t.queue q.val).entries = x.entries.drop ls.length ∧ mask t (maskOf (got.map Prod.fst))
         ∧ (∀ l, has r.lanes l = true → t.w.src d l = (got.lookup l).getD 0xFFFFFFFF) ∧ ∀ a, t.rd a = s.rd a)
     ∧ (s.w.gone = false → Issues (.qpopw d k q) s r → d.kind = 1 → r.done = 0 → ls.length ≤ x.entries.length →
         Goes (exec (.qpopw d k q) s) fun t =>
           (t.queue q.val).entries = x.entries.drop ls.length ∧ mask t r.lanes
           ∧ (∀ l, has r.lanes l = true → t.w.src d l = (got.lookup l).getD 0) ∧ ∀ a, t.rd a = s.rd a)
     ∧ Lane32 (.qlen d q) s d (fun _ => BitVec.ofNat 32 x.entries.length))
  ∧ (∀ (s : State) (r : Run) (slot v d : Opd), let k := (s.w.scal r slot).toNat
       let back (z : Rendez) (t : State) (p : Warp → Warp → Prop) : Prop := s.w.gone = false → ∀ w, s.warp? s.g.id z.wid = some w →
         ∃ u, t.warp? s.g.id z.wid = some u ∧ p w u
           ∧ (w.run = none → w.parked = [] → ∀ l, has z.lanes l = true → has w.live l = true → u.standsAt z.pc l)
       k ≤ 31 →
       (Issues (.xsend slot v) s r → s.g.partner k false = none → Goes (exec (.xsend slot v) s) fun t =>
         t.g.rvz = s.g.rvz ++ [⟨k, true, s.w.idx, r.lanes, r.fall, 127, mkRow (s.w.src v), r, s.w.x⟩]
         ∧ t.w.run = some { r.behind 4 with exit := .block r.lanes } ∧ ∀ a, t.rd a = s.rd a)
       ∧ (Issues (.xrecv d slot) s r → s.g.partner k true = none → Goes (exec (.xrecv d slot) s) fun t =>
         t.g.rvz = s.g.rvz ++ [⟨k, false, s.w.idx, r.lanes, r.fall, d.toNat, [], r, s.w.x⟩]
         ∧ t.w.run = some { r.behind 4 with exit := .block r.lanes } ∧ ∀ a, t.rd a = s.rd a)
       ∧ (∀ z, Issues (.xsend slot v) s r → s.g.partner k false = some z → Goes (exec (.xsend slot v) s) fun t =>
         t.g.rvz = s.g.rvz.filter (fun y => y != z) ∧ (∀ a, t.rd a = s.rd a)
         ∧ back z t fun w u => ∀ j, Opd.ofBits z.reg = .v j → j.val < w.nregs → ∀ l, has z.lanes l = true → has w.live l = true →
             u.getV j.val l = if has r.lanes l then s.w.src v l else 0)
       ∧ (∀ z, s.w.gone = false → d.kind = 1 → Issues (.xrecv d slot) s r → s.g.partner k true = some z →
         Goes (exec (.xrecv d slot) s) fun t =>
           t.g.rvz = s.g.rvz.filter (fun y => y != z)
           ∧ (∀ l, has r.lanes l = true → has s.w.live l = true → t.w.src d l = if has z.lanes l then z.vals.getD l 0 else 0)
           ∧ (z.wid ≠ s.w.idx → back z t fun _ _ => True) ∧ ∀ a, t.rd a = s.rd a))

/-! ### Loads, stores and atomics -/

/-- R43, R230, R231: a load whose lanes pass the checks of R37 puts one piece on its way for each 128-byte block that
they touch; a uniform load puts one piece for the whole run. Nothing is written yet.
What is the model's own reading or choice in it: log 60. -/
def Obligations.LoadIssue : Prop :=
  ∀ (s : State) (r : Run) (d base : Opd) (off : Fin 32) (z : MSize) (sp : Space),
    let i := Instr.ld d base off z sp
    let ref (l : Nat) := s.w.ref (Space.isFab sp) base (off.val * z.bytes) l
    let signed := decide (z = .b8s ∨ z = .b16s)
    Issues i s r →
    (d.kind ≠ 2 → s.r37 ((lanesOf r.lanes).map fun l => (ref l).chk sp z.bytes false) = none →
      Goes (exec i s) fun t => ∃ new, Issued s t r 4 new ∧ OnePerBlock Acc.block new
        ∧ (allAccs new).Perm ((lanesOf r.lanes).map fun l => s.acc sp z.bytes (ref l) [])
        ∧ ∀ o ∈ new, o.kind = .load signed false ∧ o.n = z.bytes ∧ o.reg = d.toNat
          ∧ o.lanes = maskOf (o.accs.map Acc.lane) ∧ o.fab.isSome = Space.isFab sp)
    ∧ (d.kind = 2 → base.uniform = true → sp ≠ .priv → s.r37 [(ref (lowLane r.lanes)).chk sp z.bytes false] = none →
      Goes (exec i s) fun t => ∃ o, Issued s t r 4 [o] ∧ o.kind = .load signed true ∧ o.n = z.bytes ∧ o.reg = d.toNat
        ∧ o.lanes = r.lanes ∧ o.fab.isSome = Space.isFab sp
        ∧ o.accs.map Acc.bytes = [s.bytesAt sp (ref (lowLane r.lanes)).off z.bytes (lowLane r.lanes) (ref (lowLane r.lanes)).odd])

/-- R43, R44, R59, R60, R230, R232: a store whose lanes pass the checks puts one piece on its way for each block, a store
to the fabric for each block of each stream, a release for each lane; no byte changes before they are performed.
R44, R59: pieces of several streams are accepted in ascending lane order, and a byte that several lanes store goes with the
highest of them.
R37, R44, R60, R230, R232: a store and a release whose offsets are aligned, lie inside their segment and (to the fabric) name
chips of the connected group complete: the run goes on, no byte has changed yet, and for every lane a piece is on its way that
holds the lane's bytes and what the lane stores in them; of a `fab` store, those that no higher lane of the instruction stores.
What is the model's own reading or choice in it: log 60. -/
def Obligations.StoreIssue : Prop :=
  (∀ (s : State) (r : Run) (d base : Opd) (off : Fin 32) (z : MSize) (sp : Space),
    let ref (p : Space) (l : Nat) := s.w.ref (Space.isFab p) base (off.val * z.bytes) l
    let acc (p : Space) (l : Nat) : Acc :=
      ⟨l, s.bytesAt p (ref p l).off z.bytes l (ref p l).odd, s.w.storeBytes d z l, [s.party (laneBit l)]⟩
    let passes (p : Space) : Prop := s.r37 ((lanesOf r.lanes).map fun l => (ref p l).chk p z.bytes true) = none
    let room : Prop := s.fabRoom s.g.chip s.g.part s.g.vf (z.bytes * (lanesOf r.lanes).length) = true
    (Issues (.st d base off z sp) s r → sp ≠ .fab → passes sp →
      Goes (exec (.st d base off z sp) s) fun t => ∃ new, Issued s t r 4 new ∧ OnePerBlock Acc.block new
        ∧ (allAccs new).Perm ((lanesOf r.lanes).map (acc sp))
        ∧ ∀ o ∈ new, o.kind = .store ∧ o.n = z.bytes ∧ o.lanes = maskOf (o.accs.map Acc.lane) ∧ o.fab = none)
    ∧ (Issues (.st d base off z .fab) s r → passes .fab → room →
      Goes (exec (.st d base off z .fab) s) fun t => ∃ new, Issued s t r 4 new
        ∧ (allAccs new).Perm ((lanesOf r.lanes).map fun l => (acc .fab l).shown ((lanesOf r.lanes).map (acc .fab)))
        ∧ (∀ o ∈ new, ∀ a ∈ o.accs, ∀ b ∈ o.accs, (acc .fab a.lane).block = (acc .fab b.lane).block
            ∧ streamOf (ref .fab a.lane).odd = streamOf (ref .fab b.lane).odd)
        ∧ (new.Pairwise fun o p => ∀ a ∈ o.accs.head?, ∀ b ∈ p.accs.head?, a.lane < b.lane)
        ∧ (∀ l k, has r.lanes l = true → (k ∈ ((acc .fab l).shown ((lanesOf r.lanes).map (acc .fab))).bytes ↔
            k ∈ (acc .fab l).bytes ∧ ∀ h, has r.lanes h = true → l < h → k ∉ (acc .fab h).bytes))
        ∧ ∀ o ∈ new, o.fab.isSome = true ∧ (o.kind = .store ∨ o.kind = .release ∧ o.accs = []))
    ∧ (Issues (.stFabRel d base off z) s r → passes .fab → room →
      Goes (exec (.stFabRel d base off z) s) fun t => ∃ new, Issued s t r 4 new
        ∧ new.map MemOp.accs = (lanesOf r.lanes).map (fun l => [acc .fab l])
        ∧ ∀ o ∈ new, o.fab.isSome = true ∧ o.kind = .release))
  ∧ ∀ (s : State) (r : Run) (d base : Opd) (off : Fin 32) (z : MSize) (sp : Space),
    let n := z.bytes
    let ref (p : Space) (l : Nat) := s.w.ref (Space.isFab p) base (off.val * n) l
    let fits (p : Space) : Prop := ∀ l, has r.lanes l = true →
      (ref p l).off % n = 0 ∧ (ref p l).off + n ≤ segLimit (s.w.segOf p)
      ∧ (p = .fab → s.badTarget (ref p l).odd = false)
    let room : Prop := s.fabRoom s.g.chip s.g.part s.g.vf (n * (lanesOf r.lanes).length) = true
    let whole (p : Space) (l : Nat) : List (Nat × Byte) := (s.bytesAt p (ref p l).off n l (ref p l).odd).zip (s.w.storeBytes d z l)
    let own (l : Nat) : List (Nat × Byte) :=
      (whole .fab l).filter fun b => (lanesOf r.lanes).all fun h => h ≤ l || !((whole .fab h).map Prod.fst).contains b.1
    let completes (i : Instr) (bs : Nat → List (Nat × Byte)) : Prop := Goes (exec i s) fun t =>
      RunsOn s t r 4 ∧ (∀ a, t.rd a = s.rd a)
      ∧ ∀ l, has r.lanes l = true → ∃ o ∈ t.pend, s.nextId ≤ o.id ∧ has o.lanes l = true
          ∧ ∃ a ∈ o.accs, a.lane = l ∧ a.bytes = (bs l).map Prod.fst ∧ a.data = (bs l).map Prod.snd
    (∀ p l, (s.bytesAt p (ref p l).off n l (ref p l).odd).length = n ∧ (s.w.storeBytes d z l).length = n)
    ∧ (Issues (.st d base off z sp) s r → sp ≠ .con → sp ≠ .fab → fits sp → completes (.st d base off z sp) (whole sp))
    ∧ (Issues (.st d base off z .fab) s r → fits .fab → room → completes (.st d base off z .fab) own)
    ∧ (Issues (.stFabRel d base off z) s r → fits .fab → room → completes (.stFabRel d base off z) (whole .fab))

/-- R273, R274: the exact values that the special functions come from. The two neighbours between which `fsin`, `fcos` and `ftanh`
leave the choice (log 12) enclose the exact sine, cosine and hyperbolic tangent of every finite operand, to within 2^-480; `fexp2`
and `flog2` round to nearest a value that lies within 2^-150 of the exact power (relative to it) and logarithm. From 128 upwards
`fexp2` overflows, and from -256 downwards it underflows to zero. -/
def Obligations.SpecialFunctions : Prop :=
  ∀ (x : Word) (n : Bool) (m : Nat) (e : Int), f32 x = .fin n m e → m ≠ 0 →
    let real (n : Bool) (m : Nat) (e : Int) : ℝ := (if n then -1 else 1) * m * (2 : ℝ) ^ e
    let value (b : Nat) : ℝ := match F32.decode b with | .fin n m e => real n m e | _ => 0
    let X := real n m e
    let between (f : Bool → FVal → Nat × Exc) (y : ℝ) : Prop :=
      let lo := value (f false (.fin n m e)).1
      let hi := value (f true (.fin n m e)).1
      min lo hi - (2 : ℝ) ^ (-480 : Int) ≤ y ∧ y ≤ max lo hi + (2 : ℝ) ^ (-480 : Int)
    let size := toUnits false m e F32.qmin
    between sinV (Real.sin X) ∧ between cosV (Real.cos X) ∧ between tanhV (Real.tanh X)
    ∧ (size < 2 ^ 157 → ∃ M E, exp2V (.fin n m e) = F32.round .nearest false false M E
        ∧ |(M : ℝ) * (2 : ℝ) ^ (E : Int) - (2 : ℝ) ^ X| ≤ (2 : ℝ) ^ X * (2 : ℝ) ^ (-150 : Int))
    ∧ (2 ^ 156 ≤ size → n = false → exp2V (.fin n m e) = (0x7F800000, { of := true, nx := true }))
    ∧ (2 ^ 157 ≤ size → n = true → exp2V (.fin n m e) = (0, { uf := true, nx := true }))
    ∧ (n = false → ∃ M E, log2V (.fin n m e) = F32.round .nearest false (size < 2 ^ 149) M E
        ∧ |(M : ℝ) * (2 : ℝ) ^ (E : Int) - abs (Real.logb 2 X)| ≤ (2 : ℝ) ^ (-150 : Int))

/-- R233, R234, R236: an atomic or reduction whose addresses are aligned and pass the checks puts one piece on its way for
each address that its lanes name, to be performed at the home; of main memory the address is what stands below the tag (R34).
What is the model's own reading or choice in it: log 60. -/
def Obligations.AtomicIssue : Prop :=
  ∀ (s : State) (d a : Opd) (ty : AType) (sc : Scope),
    let n := AType.bytes ty
    let room (r : Run) : Prop :=
      Scope.isSys sc = true → s.fabRoom s.g.chip s.g.part s.g.vf (n * (lanesOf r.lanes).length) = true
    let shape (i : Bool → Instr) (op : AOp) (ret : Bool) : Prop := ∀ r,
      let what (m : Bool) (o : MemOp) : Prop :=
        o.kind = .atomic op ty sc m ret ∧ o.n = n ∧ o.reg = (if ret then d.toNat else 127)
          ∧ o.lanes = maskOf (o.accs.map Acc.lane)
      let va (l : Nat) : Nat := (s.w.src64 a l).toNat
      (Issues (i false) s r → room r →
        s.r37 ((lanesOf r.lanes).map fun l => (s.w.ref (Scope.isSys sc) a 0 l).chk (Scope.space sc) n true) = none →
        Goes (exec (i false) s) fun t => ∃ new, Issued s t r 4 new ∧ OnePerBlock Acc.addr new
          ∧ (∀ o ∈ new, what false o)
          ∧ (allAccs new).Perm ((lanesOf r.lanes).map fun l =>
              s.acc (Scope.space sc) n (s.w.ref (Scope.isSys sc) a 0 l) (s.w.atomData op ty d l)))
      ∧ (Issues (i true) s r → room r → (∀ l, has r.lanes l = true → (s.w.src64 a l).toNat % n = 0) →
        Goes (exec (i true) s) fun t => ∃ new, Issued s t r 4 new
          ∧ ((allAccs new).map fun x => (x.lane, x.data)).Perm ((lanesOf r.lanes).map fun l => (l, s.w.atomData op ty d l))
          ∧ (new.Pairwise fun o p => ∀ x ∈ o.accs, ∀ y ∈ p.accs, va x.lane % 2 ^ 60 ≠ va y.lane % 2 ^ 60)
          ∧ ∀ o ∈ new, what true o ∧ o.va = o.accs.map (fun x => (x.lane, va x.lane))
            ∧ (∀ x ∈ o.accs, ∀ y ∈ o.accs, va x.lane % 2 ^ 60 = va y.lane % 2 ^ 60)
            ∧ o.deferred = o.accs.any fun x => Xlate.waits (t.xlate s.g.part s.g.vf (va x.lane) true))
    shape (fun m => .atomAdd d a m ty sc) .add true ∧ shape (fun m => .atomMin d a m ty sc) .min true
    ∧ shape (fun m => .atomMax d a m ty sc) .max true ∧ shape (fun m => .atomAnd d a m ty sc) .and true
    ∧ shape (fun m => .atomOr d a m ty sc) .or true ∧ shape (fun m => .atomXor d a m ty sc) .xor true
    ∧ shape (fun m => .atomXchg d a m ty sc) .xchg true ∧ shape (fun m => .atomCas d a m ty sc) .cas true
    ∧ shape (fun m => .atomIncw d a m ty sc) .incw true ∧ shape (fun m => .atomDecw d a m ty sc) .decw true
    ∧ shape (fun m => .redAdd d a m ty sc) .add false ∧ shape (fun m => .redMin d a m ty sc) .min false
    ∧ shape (fun m => .redMax d a m ty sc) .max false ∧ shape (fun m => .redAnd d a m ty sc) .and false
    ∧ shape (fun m => .redOr d a m ty sc) .or false ∧ shape (fun m => .redXor d a m ty sc) .xor false
    ∧ shape (fun m => .redIncw d a m ty sc) .incw false ∧ shape (fun m => .redDecw d a m ty sc) .decw false

/-- R44, R60, R74, R193, R230, R231: a piece that may be performed: a load's reply reaches the lanes that still live, in
the registers that the warp still has; a store changes exactly the bytes that it names, the last lane's value over an
earlier one's; a release does so once its stream's arrivals have reached its count.
R230: a load's value fills the register, zero- or sign-extended by the access's size, or the words in order.
R58, R62, R63, R398: a request whose target can no longer be reached, or whose reply is 2^24 cycles late, fails with
trap 0x11 for its lanes, of main memory at `sys` scope too, and a reply after that is not taken; a packet that has been blocked for
8,192 cycles of the Hub takes the escape channel, where it waits for those that were behind it, and is counted.
What is the model's own reading or choice in it: log 9, 60, 66, 131, 138. -/
def Obligations.PiecePerformed : Prop :=
  (∀ (s : State) (id : Nat) (o : MemOp),
     let gone (t : State) : Prop := t.pend = s.pend.filter fun p => p.id != o.id
     let stored (t : State) : Prop :=
       ∀ a, t.rd a = ((o.accs.flatMap fun x => x.bytes.zip x.data).reverse.lookup a).getD (s.rd a)
     (∀ signed uni, o.kind = .load signed uni →
       s.due id (fun p => !MKind.writes p.kind && s.deliverable p && s.drained p && !s.overdue p) = some o → s.badWord o = none →
       Goes (exec (.loadReply id) s) fun t => gone t ∧ (∀ a, t.rd a = s.rd a)
         ∧ ∀ q l j x, s.isSel o.gid o.wid = true → Opd.ofBits o.reg = .v q → j < max (o.n / 4) 1 → q.val + j < s.w.nregs →
             q.val + j < o.cap → has o.lanes l = true → has s.w.live l = true →
             (if uni then o.accs.head? else o.accs.find? fun y => y.lane == l) = some x →
             t.w.getV (q.val + j) l = loadWord o.n signed (readLE s.mem x.bytes) j)
     ∧ (s.Inv → s.due id (fun p => MKind.isStore p.kind && s.deliverable p && s.drained p) = some o →
       Goes (exec (.storePerformed id) s) fun t => gone t ∧ stored t ∧ t.w = s.w ∧ t.g = s.g)
     ∧ (∀ f, s.Inv → o.fab = some f → s.releaseReady o f = true →
       s.due id (fun p => MKind.isRelease p.kind && s.deliverable p && s.drained p) = some o →
       Goes (exec (.releasePerform id) s) fun t => gone t ∧ stored t ∧ t.w = s.w ∧ t.g = s.g))
  ∧ (∀ (v j : Nat),
       (v < 2 ^ 8 → (loadWord 1 false v 0).toNat = v ∧ (loadWord 1 true v 0).toInt = if v < 2 ^ 7 then (v : Int) else v - 2 ^ 8)
       ∧ (v < 2 ^ 16 → (loadWord 2 false v 0).toNat = v ∧ (loadWord 2 true v 0).toInt = if v < 2 ^ 15 then (v : Int) else v - 2 ^ 16)
       ∧ ∀ n, 4 ≤ n → ∀ b, (loadWord n b v j).toNat = v / 2 ^ (32 * j) % 2 ^ 32)
  ∧ (∀ (s : State) (id : Nat) (o : MemOp) (f : Fab), s.op? id = some o → o.fab = some f →
       let failed (p : MemOp) : MemOp := { p with failed := some (0x11, BitVec.ofNat 64 o.lowest, BitVec.ofNat 32 f.dst) }
       let marks (t : State) : Prop :=
         s.pend.map (fun p => if p.id = id then failed p else p) <+: t.pend ∧ t.w = s.w ∧ t.g = s.g ∧ ∀ a, t.rd a = s.rd a
       (o.failed = none → s.linked f.dst = false → o.lanes ≠ 0 → Goes (exec (.fabricUndeliverable id) s) fun t =>
         marks t ∧ t.pend.length = s.pend.length)
       ∧ (∀ sg uni, o.failed = none → o.kind = .load sg uni → o.issued + 2 ^ 24 ≤ s.cyc o.core → s.homeAway o = false →
         exec (.loadReply id) s = .next s
         ∧ Goes (exec (.fabricRequestTimeout id) s) fun t => marks t ∧ t.pend.length = s.pend.length)
       ∧ (∀ op ty sc m, o.failed = none → o.kind = .atomic op ty sc m true → o.issued + 2 ^ 24 ≤ s.cyc o.core → s.homeAway o = false →
         Goes (exec (.fabricRequestTimeout id) s) fun t => marks t ∧ ∃ late, t.pend.drop s.pend.length = [late]
           ∧ late.kind = .atomic op ty sc m false ∧ late.lanes = 0 ∧ late.accs = o.accs)
       ∧ (∀ no h, s.heads.find? (fun h => h.port == no && h.op == id && h.since + 8192 ≤ s.clk.hub) = some h →
         Goes (exec (.escapeDivert id no) s) fun t => t.mem = s.mem ∧ t.w = s.w ∧ h ∉ t.heads
           ∧ t.pend = s.pend.map (fun (q : MemOp) => if q.id = id then
               { q with fab := some { f with
                   diverted := true, behind := s.behindOf q f h
                   units := h.units.filter fun x => s.unitInChannel x && x != (id, h.unit) } } else q)
           ∧ t.ports = s.ports.map fun q => if q.no = no then { q with divert := q.divert + 1 } else q))
  ∧ (∀ (s : State) (id : Nat) (o : MemOp) (op : AOp) (ty : AType), s.op? id = some o → o.fab = none → o.failed = none →
       o.kind = .atomic op ty .sys true true → o.issued + 2 ^ 24 ≤ s.cyc o.core → s.homeAway o = false →
       exec (.atomicAtHome id) s = .next s
       ∧ Goes (exec (.fabricRequestTimeout id) s) fun t =>
         (s.pend.map fun (p : MemOp) => if p.id = id then
             { p with failed := some (0x11, BitVec.ofNat 64 o.lowest, BitVec.ofNat 32 (s.target o)) } else p) <+: t.pend
         ∧ (∃ late, t.pend.drop s.pend.length = [late] ∧ late.kind = .atomic op ty .sys true false ∧ late.lanes = 0
             ∧ late.accs = o.accs)
         ∧ t.w = s.w ∧ t.g = s.g ∧ ∀ a, t.rd a = s.rd a)
  ∧ ∀ (s : State) (c : CopyCmd) (no : Nat) (h : VcHead), s.op? c.id = none → c ∈ s.copies → s.unitInChannel (c.id, h.unit) = true →
      s.heads.find? (fun h => h.port == no && h.op == c.id && h.since + 8192 ≤ s.clk.hub) = some h →
      Goes (exec (.escapeDivert c.id no) s) fun t => t.mem = s.mem ∧ t.w = s.w ∧ t.pend = s.pend
        ∧ ∃ q ∈ t.copies, q.id = c.id ∧ h.unit ∈ q.diverts.map Prod.fst

/-- R85: the lanes of one piece are performed in ascending order: each receives the value that the one before it left, the
first what stood before; only the word's bytes change; sums add up whatever the number of lanes.
R235: what each operation stores, by the values before it. R235, R259: `f32` sums round to nearest, and a NaN is stored canonical;
the lesser and the greater have -0 below +0, leave a number that meets a NaN, and replace a NaN that meets a number.
What is the model's own reading or choice in it: log 11. -/
def Obligations.AtomicValues : Prop :=
  (∀ (m : List Host.Cell) (op : AOp) (ty : AType) (ks : List Nat) (l : List Acc),
     let n := AType.bytes ty
     Memory.wf m → ks.Nodup → ks.length = n →
     (∀ k, k ∉ ks → readByte (rmwAll m op ty n ks l).1 k = readByte m k)
     ∧ (∀ pre a post, l = pre ++ a :: post →
         (rmwAll m op ty n ks l).2[pre.length]? = some (a.lane, readLE (rmwAll m op ty n ks pre).1 ks)
         ∧ readLE (rmwAll m op ty n ks (pre ++ [a])).1 ks
           = AOp.update op ty (readLE (rmwAll m op ty n ks pre).1 ks) (leNat (a.data.take n)) (leNat (a.data.drop n))
             % 2 ^ (8 * n))
     ∧ (op = .add → ty ≠ .f32 → readLE (rmwAll m op ty n ks l).1 ks
         = (readLE m ks + (l.map fun a => leNat (a.data.take n)).sum) % 2 ^ (8 * n)))
  ∧ (∀ (ty : AType) (old x y : Nat),
       let w := 8 * AType.bytes ty
       old < 2 ^ w → x < 2 ^ w →
       (ty ≠ .f32 → AOp.update .add ty old x y = (old + x) % 2 ^ w)
       ∧ (ty = .n32 ∨ ty = .n64 → AOp.update .min ty old x y = min old x ∧ AOp.update .max ty old x y = max old x)
       ∧ (ty = .i32 → (BitVec.ofNat 32 (AOp.update .min ty old x y)).toInt = min (BitVec.ofNat 32 old).toInt (BitVec.ofNat 32 x).toInt
           ∧ (BitVec.ofNat 32 (AOp.update .max ty old x y)).toInt = max (BitVec.ofNat 32 old).toInt (BitVec.ofNat 32 x).toInt)
       ∧ AOp.update .and ty old x y = old &&& x ∧ AOp.update .or ty old x y = old ||| x
       ∧ AOp.update .xor ty old x y = old ^^^ x ∧ AOp.update .xchg ty old x y = x
       ∧ AOp.update .cas ty old x y = (if old = x then y else old)
       ∧ AOp.update .incw ty old x y = (if old ≥ x then 0 else old + 1)
       ∧ AOp.update .decw ty old x y = (if old = 0 ∨ old > x then x else old - 1))
  ∧ ∀ (old x : Word) (y : Nat),
      let to_ (op : AOp) : Word := BitVec.ofNat 32 (AOp.update op .f32 old.toNat x.toNat y)
      let finite (p : Bool → Int → Bool → Int → Prop) : Prop := ∀ n m e k b g, f32 old = .fin n m e → f32 x = .fin k b g →
        p n (toUnits n m e F32.qmin) k (toUnits k b g F32.qmin)
      (∀ n m e k b g, f32 old = .fin n m e → f32 x = .fin k b g → toUnits n m e F32.qmin + toUnits k b g F32.qmin ≠ 0 →
        let v := toUnits n m e F32.qmin + toUnits k b g F32.qmin
        to_ .add = BitVec.ofNat 32 (F32.round .nearest false (v < 0) v.natAbs F32.qmin).1)
      ∧ (isNan32 old = true ∨ isNan32 x = true → to_ .add = 0x7FC00000)
      ∧ (finite fun n v k u => v < u ∨ v = u ∧ (n = true ∨ k = false) → to_ .min = old ∧ to_ .max = x)
      ∧ (finite fun n v k u => u < v ∨ u = v ∧ (k = true ∨ n = false) → to_ .min = x ∧ to_ .max = old)
      ∧ (f32 old = .inf true ∨ f32 x = .inf false → isNan32 old = false → isNan32 x = false → to_ .min = old ∧ to_ .max = x)
      ∧ (f32 x = .inf true ∨ f32 old = .inf false → isNan32 old = false → isNan32 x = false → to_ .min = x ∧ to_ .max = old)
      ∧ (isNan32 old = false → isNan32 x = true → to_ .min = old ∧ to_ .max = old)
      ∧ (isNan32 old = true → isNan32 x = false → to_ .min = x ∧ to_ .max = x)
      ∧ (isNan32 old = true → isNan32 x = true → to_ .min = 0x7FC00000 ∧ to_ .max = 0x7FC00000)

/-- R234, R235, R365: a piece of an atomic that may be performed is performed at its home, in lane order; with `atom` the
lanes receive the values of before. A main-memory piece goes to the page that the table gives.
What is the model's own reading or choice in it: log 11, 59, 60, 91, 138. -/
def Obligations.AtomicAtHome : Prop :=
  ∀ (s : State) (id : Nat) (o : MemOp) (op : AOp) (ty : AType) (sc : Scope) (ret : Bool),
    s.due id (fun p => MKind.isAtomic p.kind && s.deliverable p && s.drained p && !s.givenUp p) = some o → o.snap = none →
    let done (ks : List Nat) (t : State) : Prop :=
      let q := rmwAll s.mem op ty o.n ks o.accs
      let bare (p : MemOp) : MemOp := { p with snap := none }
      t.mem = q.1 ∧ t.pend.map bare = (s.pend.filter (fun p => p.id != o.id)).map bare ∧ (ret = false → t.w = s.w)
      ∧ ∀ d l j, ret = true → s.isSel o.gid o.wid = true → Opd.ofBits o.reg = .v d → j < o.n / 4 →
          d.val + j < s.w.nregs → d.val + j < o.cap → has o.lanes l = true → has s.w.live l = true →
          t.w.getV (d.val + j) l = loadWord o.n false (getKey q.2 l 0) j
    (∀ ks, o.kind = .atomic op ty sc false ret → o.accs.head?.map Acc.bytes = some ks → s.badWord o = none →
      Goes (exec (.atomicAtHome id) s) (done ks))
    ∧ ∀ pa, o.kind = .atomic op ty sc true ret → o.accs ≠ [] →
      (∀ x ∈ o.accs, s.probe o.part o.vf (getKey o.va x.lane 0) true = .ok pa) →
      (∀ c, homeChip pa = some c → s.hbmRoom c o.part o.vf (o.n * o.accs.length) = true) →
      Goes (exec (.atomicAtHome id) s) (done (places pa o.n))

/-! ### Copies, tags, barriers, objects, fences and the Hub -/

/-- R45, R46, R86, R237 to R242: a copy that passes the checks at issue with room for its commands forks them: one for each
lane (`cpy`, `cpx`) or one for the run (`cpg`, `cps`), with the core's next numbers, which the lanes receive; its tag's
bit clears and the tag counts them. No byte moves yet.
What is the model's own reading or choice in it: log 62, 106. -/
def Obligations.CopyIssue : Prop :=
  ∀ (s : State) (r : Run) (dst src len d : Opd) (tag : Fin 64) (dsp ssp : EndSp) (bar : BarSel),
    let ls := lanesOf r.lanes
    let low := lowLane r.lanes
    let room (n : Nat) : Prop := tag.val < s.g.kern.tags ∧ s.copiesOn s.g.chip s.g.core + n ≤ 64
    let forks (t : State) (qs : List (LaneMask × CopyKind × Option BarRef)) : Prop := ∃ cs,
      t.copies = s.copies ++ cs ∧ cs.map (fun c => (c.lanes, c.kind, c.bar)) = qs
      ∧ (∀ (j : Nat) c, cs[j]? = some c → c.num = getKey s.cmdNo s.coreNo 0 + BitVec.ofNat 32 j ∧ c.tag = tag.val
          ∧ c.gid = s.g.id ∧ c.wid = s.w.idx ∧ c.done = [] ∧ c.pc = r.pc ∧ c.region = s.w.region)
      ∧ (qs ≠ [] → t.g.ctb = s.g.ctb &&& ~~~ laneBit tag.val)
      ∧ getKey t.g.tagCnt tag.val 0 = getKey s.g.tagCnt tag.val 0 + qs.length
      ∧ (∀ a, t.rd a = s.rd a) ∧ OnlyWrites s t d 1 r.lanes
      ∧ (d.kind ≠ 8 → ∀ l, has r.lanes l = true → ∃ c ∈ cs, t.w.src d l = c.num
          ∧ has c.lanes (if d.kind = 2 then low else l) = true)
    let de (l : Nat) := s.w.endOf dsp dst l (headOff bar)
    let se (l : Nat) := s.w.endOf ssp src l 0
    let n := (s.w.scal r len).toNat
    let x := (Desc.ofWords (s.descWords n)).1
    let te (l : Nat) := s.tileDst dsp dst l (headOff bar) x
    (let len' (l : Nat) := (s.w.src len l).toNat
     let bs (l : Nat) := s.barOf bar (s.w.endOf dsp dst l 0)
     Issues (.cpy dst src tag dsp ssp bar len d) s r → room ls.length → (∀ l ∈ ls, badLen (len' l) = false) →
     s.checkEnds (ls.flatMap fun l => [(se l, len' l, false), (de l, len' l, true)]) (ls.flatMap fun l => (bs l).2) = none →
     (∀ l ∈ ls, s.pageTrap (se l, false) = [] ∧ s.pageTrap (de l, true) = []) →
     Goes (exec (.cpy dst src tag dsp ssp bar len d) s) fun t =>
       forks t (ls.map fun l => (laneBit l, .linear (se l) (de l) (len' l), (bs l).1)))
    ∧ (let bs (l : Nat) := s.barOf bar (s.w.endOf dsp dst l 0)
     Issues (.cpx dst src tag dsp ssp bar len d) s r → room ls.length → s.r37 [⟨.shr, n, 32, 32, false, 0⟩] = none →
     NoneBefore s r.lanes (s.bytesAt .shr n 32 0 0) → (Desc.ofWords (s.descWords n)).2 = true →
     x.ok (decide (dsp = .fab)) = true → (∀ l ∈ ls, te l ≠ none) →
     (let ge (l : Nat) := (te l).getD (.shr 0 0)
      s.checkEnds (ls.flatMap fun l => x.srcEnds (se l) ++ x.dstEnds (ge l))
        (ls.flatMap fun l => x.planes (se l) (ge l) ++ (bs l).2) = none →
      (∀ l ∈ ls, s.pastOb x (ge l) = none ∧ s.pageTrap (se l, false) = [] ∧ s.pageTrap (ge l, true) = []) →
      Goes (exec (.cpx dst src tag dsp ssp bar len d) s) fun t =>
        forks t (ls.map fun l => (laneBit l, .tile (se l) (ge l) x, (bs l).1))))
    ∧ (let b := s.barOf bar (s.w.endOf dsp dst low 0)
     Issues (.cpg dst src tag dsp ssp bar len d) s r → room 1 → badLen n = false →
     s.checkEnds ((de low, n * ls.length, true) :: ls.map fun l => (se l, n, false)) b.2 = none →
     (∀ l ∈ ls, s.pageTrap (se l, false) = []) → s.pageTrap (de low, true) = [] →
     s.pageWaits ((de low, true) :: ls.map fun l => (se l, false)) = false →
     Goes (exec (.cpg dst src tag dsp ssp bar len d) s) fun t =>
       forks t [(r.lanes, .gather (ls.map se) (de low) n, b.1)])
    ∧ (let b := s.barOf bar (se low)
     let des := ls.map fun l => s.w.endOf dsp dst l 0
     Issues (.cps dst src tag dsp ssp bar len d) s r → room 1 → badLen n = false →
     s.checkEnds ((se low, n * ls.length, false) :: des.map fun e => (e, n, true)) b.2 = none →
     (∀ e ∈ des, s.pageTrap (e, true) = []) → s.pageTrap (se low, false) = [] →
     s.pageWaits ((se low, false) :: des.map fun e => (e, true)) = false →
     Goes (exec (.cps dst src tag dsp ssp bar len d) s) fun t => forks t [(r.lanes, .scatter (se low) des n, b.1)])

/-- R46, R49, R51, R88: a command that nothing keeps back writes its bytes, the last to a place over an earlier one, and no
other byte but its barrier's, which takes the credit; its tag's bit sets when it was the tag's last. A command that
fails puts its code and number into its barrier, or is kept for its tag.
What is the model's own reading or choice in it: log 10, 72, 91. -/
def Obligations.CopyEnd : Prop :=
  ∀ (s : State) (id : Nat) (c : CopyCmd), s.Inv → s.copy? id = some c → Here s c.gid → 
    let key := c.bar.map (BarRef.key c.chip c.core)
    let inBar (a : Nat) : Prop := ∃ k, key = some k ∧ a ∈ places k 16
    let ends (t : State) : Prop := t.copies = s.copies.filter (fun q => q.id != id)
      ∧ (c.gid = s.g.id → getKey t.g.tagCnt c.tag 0 = getKey s.g.tagCnt c.tag 0 - 1
        ∧ t.g.ctb = if getKey s.g.tagCnt c.tag 0 ≤ 1 then s.g.ctb ||| laneBit c.tag else s.g.ctb)
      ∧ t.w = s.w
    let ws := c.units.flatMap fun p => s.jobWrites c p.1 p.2
    ((s.landCopy c).isSome = true → Goes (exec (.copyCommandComplete id) s) fun t => ends t
      ∧ (∀ a, ¬ inBar a → t.rd a = (ws.reverse.lookup a).getD (s.rd a))
      ∧ ∀ k, key = some k → (∀ p ∈ ws, p.1 ∉ places k 16) → t.barAt c.gid k = (s.barAt c.gid k).update (.arr c.bytes))
    ∧ ∀ code unit a, s.copyAway c = false → s.copyLost c = none → s.copyFault c code unit = some a → code < 256 →
      Goes (exec (.copyCommandFail id code unit) s) fun t => ends t ∧ (∀ a, ¬ inBar a → t.rd a = s.rd a)
        ∧ (∀ k, key = some k → t.barAt c.gid k = (s.barAt c.gid k).update (.fail code c.num.toNat))
        ∧ (key = none → c.gid = s.g.id → t.g.fails = s.g.fails ++ [⟨c.tag, code, a, c.num, false, c.wid⟩])

/-- R49, R50, R244, R245: the barrier instructions update the barriers of their lanes in ascending lane order and change
no other byte; `bcb.test` reads word 2, and `bcb.wait` does once FLAGS meets the release mask in every lane.
R48 to R50: each update of a barrier, and the completion that follows it.
What is the model's own reading or choice in it: log 60. -/
def Obligations.BarrierInstructions : Prop :=
  (∀ (s : State) (r : Run) (a v : Opd) (d : Fin 64) (dws : Bool) (rel : Fin 8),
     let ls := lanesOf r.lanes
     let place (l : Nat) := s.barPlace dws (s.w.src a l).toNat
     let readyFor (m : LaneMask) (i : Instr) : Prop := Issues i s r ∧ s.r37 (s.barChecks m dws a) = none ∧ s.Inv ∧ Here s s.g.id
       ∧ NoneBefore s m (s.barBytes m dws a)
     let ready := readyFor r.lanes
     let num (l : Nat) := (s.w.src v l).toNat
     let updates (i : Instr) (f : Nat → BarOp) : Prop := ready i → Goes (exec i s) fun t =>
       RunsOn s t r 4 ∧ t = { s with w := t.w, mem := t.mem, pend := t.pend }
       ∧ (∀ p, (∀ l ∈ ls, p ∉ places (place l) 16) → t.rd p = s.rd p)
       ∧ ∀ k, (∀ l ∈ ls, place l = k) → t.barAt s.g.id k = ls.foldl (fun b l => b.update (f l)) (s.barAt s.g.id k)
     let reads (i : Instr) : Prop := Goes (exec i s) fun t =>
       t.w.run = some (r.behind 4) ∧ OnlyWrites s t (vOpd d) 1 r.lanes ∧ (∀ p, t.rd p = s.rd p)
       ∧ ∀ l, has r.lanes l = true → has r.done l = false → t.w.getV d.val l = BitVec.ofNat 32 (s.barAt s.g.id (place l)).word2
     updates (.bcbInit a dws v) (fun l => .init (num l)) ∧ updates (.bcbInitAbandon a dws) (fun _ => .abandon)
     ∧ updates (.bcbExp a dws v) (fun l => .exp (num l)) ∧ updates (.bcbArr a dws v) (fun l => .arr (num l))
     ∧ (ready (.bcbTest d a dws) → r.done = 0 → reads (.bcbTest d a dws))
     ∧ (readyFor (r.lanes &&& ~~~ r.done) (.bcbWait d a dws rel) → (∀ l ∈ ls, has r.done l = true
         ∨ (s.barAt s.g.id (place l)).flags % 256 &&& rel.val ≠ 0) →
         reads (.bcbWait d a dws rel)))
  ∧ (∀ (b : Bar) (op : BarOp), b.exp < 2 ^ 32 → b.arr < 2 ^ 32 → b.flags < 256 → b.err < 256 → b.phase < 65536 → b.cmd < 2 ^ 32 →
       let c := b.step op
       let e := b.update op
       (∀ v, op = .init v → c.exp = v ∧ c.arr = 0 ∧ c.flags = 0 ∧ c.err = 0 ∧ c.cmd = 0 ∧ c.phase = b.phase)
       ∧ (op = .abandon → c = { b with flags := b.flags ||| 4 })
       ∧ (∀ v, op = .exp v → c = { b with exp := (b.exp + v) % 2 ^ 32 })
       ∧ (∀ v, op = .arr v → c = if b.flags.testBit 2 then b else { b with arr := (b.arr + v) % 2 ^ 32 })
       ∧ (∀ code n, op = .fail code n → (c.flags.testBit 1 = true)
           ∧ (b.flags.testBit 1 = true → c = b) ∧ (b.flags.testBit 1 = false → c.err = code ∧ c.cmd = n))
       ∧ (c.exp ≠ 0 ∧ c.exp ≤ c.arr ∧ c.flags.testBit 0 = false →
           e.flags.testBit 0 = true ∧ e.phase = (c.phase + 1) % 65536 ∧ e.arr = c.arr ∧ e.exp = c.exp)
       ∧ (¬ (c.exp ≠ 0 ∧ c.exp ≤ c.arr ∧ c.flags.testBit 0 = false) → e = c)
       ∧ (e.exp < 2 ^ 32 → e.flags < 256 → e.err < 256 → e.cmd < 2 ^ 32 → Bar.ofBytes e.toBytes = e))

/-- R46, R243: examining tags with no failed command: `tagany` and `tagall` go on once every lane's test has been met, and
hold the others' lanes until then; `tagclr` clears the bits of tags with nothing outstanding; `tagfirst` finds the lowest
finished tag. No register but its destination changes, and no byte.
What is the model's own reading or choice in it: log 14 (that a held `tagany` or `tagall` leaves the run at its word, with the lanes
released so far remembered in it). -/
def Obligations.TagInstructions : Prop :=
  ∀ (s : State) (r : Run) (m d : Opd) (tag : Fin 64),
    let one' (_ : Nat) : Dword := laneBit tag.val
    let many (l : Nat) : Dword := s.w.src64 m l
    let legal (f : Nat → Dword) : Prop := ∀ l, has r.lanes l = true → (f l).toNat < 2 ^ s.g.kern.tags
    let clean (f : Nat → Dword) : Prop :=
      ∀ q ∈ s.g.fails, q.matrix = true ∨ ∀ l, has r.lanes l = true → (f l).getLsbD q.tag = false
    let waits (i : Instr) (f : Nat → Dword) (ok : Nat → Prop) : Prop := Issues i s r → legal f → clean f →
      ((∀ l, has r.lanes l = true → has r.done l = true ∨ ok l) → Goes (exec i s) fun t =>
        RunsOn s t r 4 ∧ t = { s with w := t.w, pend := t.pend })
      ∧ ∀ l, has r.lanes l = true → has r.done l = false → ¬ ok l → Goes (exec i s) fun t => ∃ dn,
        t = { s with pend := t.pend, w := { s.w with run := some { r with done := dn } } } ∧ has dn l = false
    let clears (i : Instr) (f : Nat → Dword) : Prop := Issues i s r → legal f → Goes (exec i s) fun t =>
      RunsOn s t r 4 ∧ t = { s with w := t.w, g := { s.g with ctb := t.g.ctb } }
      ∧ ∀ k, k < 64 → (t.g.ctb.getLsbD k = true ↔ s.g.ctb.getLsbD k = true
          ∧ ¬ (getKey s.g.tagCnt k 0 = 0 ∧ ∃ l, has r.lanes l = true ∧ (f l).getLsbD k = true))
    let some' (f : Nat → Dword) (l : Nat) : Prop := f l = 0 ∨ f l &&& s.g.ctb ≠ 0
    let all (f : Nat → Dword) (l : Nat) : Prop := f l &&& s.g.ctb = f l
    waits (.tagany tag) one' (some' one') ∧ waits (.taganyMask m) many (some' many)
    ∧ waits (.tagall tag) one' (all one') ∧ waits (.tagallMask m) many (all many)
    ∧ clears (.tagclr tag) one' ∧ clears (.tagclrMask m) many
    ∧ (Issues (.tagfirst d m) s r → legal many → clean many → Goes (exec (.tagfirst d m) s) fun t =>
        t.w.run = some (r.behind 4) ∧ OnlyWrites s t d 1 r.lanes ∧ t = { s with w := t.w, pend := t.pend }
        ∧ Holds t d r.lanes fun l =>
            match (List.range 64).find? fun k => (many l).getLsbD k && s.g.ctb.getLsbD k with
            | some k => BitVec.ofNat 32 k
            | none => 0xFFFFFFFF)

/-- R79 to R82, R246, R247: binding a free object writes its words and returns what stood there; an acquire of a free
object takes it and records the hold; a release ends the hold; `stry` and `srel` say whether they did.
What is the model's own reading or choice in it: log 9 (that `stry` writes its result at issue), 61, 122. -/
def Obligations.ObjectInstructions : Prop :=
  ∀ (s : State) (r : Run) (a base len d : Opd) (sp : ObjSp) (rsp : RSpace),
    let o := s.objOf r sp a
    let ready (i : Instr) : Prop := Issues i s r ∧ s.Inv ∧ s.r37 [o.chk] = none ∧ NoneBefore s r.lanes (places o.key 16)
    let w := s.word3 o.key
    let frame (t : State) : Prop :=
      (∀ p, p ∉ places (o.key + 12) 4 → t.rd p = s.rd p) ∧ t.w.run = some (r.behind 4)
    let binds (i : Instr) (sc : Nat) (osp : ObjSp) : Prop := sp = osp → ready i →
      w3Excl w = false → w3Shared w = 0 → 
      let b := (s.w.scal64 r base).toNat
      let n := (s.w.scal r len).toNat
      s.regionOk sc rsp b n = true → (rsp = .none ∨ s.regionMeets (s.regionChip sc o.place) rsp b n = false) → Goes (exec i s) fun t =>
        t.rdN o.key 8 = b ∧ t.rdN (o.key + 8) 4 = n ∧ t.word3 o.key = sc * 2 ^ 30 + RSpace.toNat rsp * 2 ^ 28
        ∧ (∀ p, p ∉ places o.key 16 → t.rd p = s.rd p) ∧ t.w.run = some (r.behind 4) ∧ OnlyWrites s t d 1 r.lanes
        ∧ Holds t d r.lanes fun _ => BitVec.ofNat 32 w
    let takes (i : Instr) (excl : Bool) (p : State → Prop) : Prop :=
      ready i → s.objBad o = false → s.w.gone = false → s.w.holdOf o = none → s.w.holds.length < 4 →
      (∀ q ∈ s.objq, q.obj ≠ o.key) → w3Excl w = false → (excl = true → w3Shared w = 0) → w3Shared w + 1 < 2 ^ 16 →
      Goes (exec i s) fun t => frame t ∧ p t ∧ t.w.holds = s.w.holds ++ [⟨o.key, ObjSp.code sp, o.place, excl⟩]
        ∧ w3Scope (t.word3 o.key) = w3Scope w ∧ w3Excl (t.word3 o.key) = excl
        ∧ w3Shared (t.word3 o.key) = w3Shared w + if excl then 0 else 1
    binds (.sobindGrp a base rsp len d) 0 .shr ∧ binds (.sobindClu a base rsp len d) 1 .dws
    ∧ binds (.sobindChip a base rsp len d) 2 .dws ∧ binds (.sobindSys a base rsp len d) 3 .fab
    ∧ takes (.sacq a sp) true (fun _ => True) ∧ takes (.sacqSh a sp) false (fun _ => True)
    ∧ takes (.stry d a sp) true (fun t => Holds t d r.lanes fun _ => 1)
    ∧ (ready (.stry d a sp) → s.objBad o = false → s.w.holdOf o = none → s.w.holds.length < 4 →
        (∀ q ∈ s.objq, q.gid ≠ s.g.id) → (w3Excl w = true ∨ w3Shared w ≠ 0) →
        Goes (exec (.stry d a sp) s) fun t => (∀ p, t.rd p = s.rd p) ∧ t.w.holds = s.w.holds ∧ Holds t d r.lanes fun _ => 0)
    ∧ (ready (.srel d a sp) → s.objBad o = false → s.w.holdOf o = none → Goes (exec (.srel d a sp) s) fun t =>
        (∀ p, t.rd p = s.rd p) ∧ Holds t d r.lanes fun _ => 0)
    ∧ (∀ h, ready (.srel d a sp) → s.objBad o = false → s.w.holdOf o = some h → h.obj = o.key →
        (∀ q ∈ s.objq, q.obj ≠ o.key) → (h.excl = true → w3Excl w = true) → (h.excl = false → w3Shared w ≠ 0) →
        Goes (exec (.srel d a sp) s) fun t => frame t ∧ t.w.holds = s.w.holds.filter (fun q => q != h)
          ∧ (Holds t d r.lanes fun _ => 1) ∧ w3Scope (t.word3 o.key) = w3Scope w
          ∧ (h.excl = true → w3Excl (t.word3 o.key) = false ∧ w3Shared (t.word3 o.key) = w3Shared w)
          ∧ (h.excl = false → w3Shared (t.word3 o.key) = w3Shared w - 1))

/-- R77, R78: a fence whose lanes have no load outstanding goes on: every write that they see is shown to its scope, and what an
earlier fence has shown to a scope that takes them in, with a fence's scope that takes in that lane, is shown to them; `fence.sys`
goes on once nothing of the lanes is outstanding but accesses that R20 defers to their page's return; a fence changes no register and
no byte.
What is the model's own reading or choice in it: log 60, 63, 133. -/
def Obligations.Fences : Prop :=
  ∀ (s : State) (r : Run),
    let m := r.lanes
    let mine (o : MemOp) : Prop := o.gid = s.g.id ∧ o.wid = s.w.idx ∧ o.lanes &&& m ≠ 0
    let landed : Prop := ∀ l ∈ s.landing, l.gid = s.g.id → l.wid = s.w.idx → l.lanes &&& m = 0
    let after (sc : Nat) (t : State) : Prop :=
      RunsOn s t r 4 ∧ t = { s with w := t.w, pend := t.pend } ∧ t.pend.map MemOp.id = s.pend.map MemOp.id
      ∧ (∀ o ∈ t.pend, MKind.writes o.kind = true → ∀ a ∈ o.accs, a.binds s.coreNo s.g.id s.w.idx m = true →
          .fenced sc s.coreNo s.g.id ∈ a.seen)
      ∧ ∀ o ∈ t.pend, ∀ a ∈ o.accs, ∀ b c g, .fenced b c g ∈ a.seen → (b, c, g) ≠ (sc, s.coreNo, s.g.id) →
          scopeMeets b c g s.coreNo s.g.id = true → scopeMeets sc s.coreNo s.g.id c g = true → s.party m ∈ a.seen
    let shows (i : Instr) (sc : Nat) : Prop :=
      Issues i s r → landed → (∀ o ∈ s.pend, mine o → o.failed = none → MemOp.isLoad o = false) → Goes (exec i s) (after sc)
    shows .fenceGrp 0 ∧ shows .fenceClu 1 ∧ shows .fenceChip 2
    ∧ (Issues .fenceSys s r → landed →
        (∀ o ∈ s.pend, mine o → if o.failed = none then o.deferred = true ∧ MemOp.isLoad o = false else o.kind ≠ .store ∧ o.kind ≠ .release) →
        Goes (exec .fenceSys s) (after 3))

/-- R65 to R72, R249, R250: a free Hub slot opens; a member's put is kept, and the last member's completes the slot with the
combination of all; a wait on a complete slot returns result and status; the two timeouts complete and free a slot.
R66, R68, R250: each lane of a run asks, in ascending order, and is answered by its own slot number, arguments and value: a slot that is
held or that a lower lane opens is BUSY, and a second put of the run is LATE where the first has completed the slot, else DUPLICATE.
What is the model's own reading or choice in it: log 9, 132. -/
def Obligations.HubReductions : Prop :=
  ∀ (s : State) (r : Run) (slot op timeout mask d : Opd) (l : Nat) (h : HubSlot),
    let v (o : Opd) (l : Nat) := (s.w.src o l).toNat
    let no := v slot
    let k := no l
    let bad (l : Nat) : Prop := v mask l = 0 ∨ 255 < v mask l ∨ 6 < v op l ∨ 2 ^ 24 ≤ v timeout l
    let told (t : State) (l code : Nat) : Prop :=
      (d.kind = 1 ∨ d.kind = 2 ∧ l = lowLane r.lanes) → t.w.src d l = hubStatus (no l) 0 0 code
    let frame (t : State) : Prop := OnlyWrites s t d 1 r.lanes ∧ t.w.run = some (r.behind 4) ∧ ∀ a, t.rd a = s.rd a
    let quiet : Prop := ∀ l, has r.lanes l = true → ∀ h, s.hub? (no l) = some h → h.dueAt s.clk.hub = none
    let full (h : HubSlot) (l : Nat) : HubSlot :=
      { h with put := (s.g.chip, s.w.src d l) :: h.put, since := some (h.since.getD s.clk.hub) }
    (Issues (.hredOpen slot op timeout mask d) s r → hubDestOk d [slot, op, timeout, mask] = true → quiet →
      Goes (exec (.hredOpen slot op timeout mask d) s) fun t => frame t ∧ ∀ l, has r.lanes l = true →
        let taken : Prop := s.hub? (no l) ≠ none ∨ ∃ m, m < l ∧ has r.lanes m = true ∧ no m = no l ∧ ¬ bad m
        (63 < no l → told t l 7)
        ∧ (no l ≤ 63 → (taken → told t l 4) ∧ (¬ taken → bad l → told t l 7)
          ∧ (¬ taken → ¬ bad l → told t l 0
            ∧ t.hub? (no l) = some ⟨no l, s.g.part, s.g.vf, v op l, v mask l, v timeout l, [], none, false, 0, 0, 0⟩)))
    ∧ (Issues (.hredPut d slot) s r → hubDestOk d [slot] = true → quiet → (∀ l, has r.lanes l = true → ∀ q ∈ s.hubw, q.slot ≠ no l) →
      (∀ l h, has r.lanes l = true → s.hub? (no l) = some h → h.complete = false → h.served = 0 ∧ h.mask ≠ 0) →
      Goes (exec (.hredPut d slot) s) fun t => frame t ∧ ∀ l, has r.lanes l = true →
        let first : Prop := ∀ m, has r.lanes m = true → no m = no l → l ≤ m
        (63 < no l → told t l 3) ∧ (s.hub? (no l) = none → told t l 3)
        ∧ ∀ h, no l ≤ 63 → s.hub? (no l) = some h →
          let own : Prop := h.part = s.g.part ∧ h.vf = s.g.vf
          (¬ own → told t l 3) ∧ (own → h.mask.testBit s.g.chip = false → told t l 5)
          ∧ (own → h.mask.testBit s.g.chip = true →
            (h.complete = true → first → told t l 2)
            ∧ (h.complete = false → h.put.lookup s.g.chip ≠ none → told t l 6)
            ∧ (h.complete = false → h.put.lookup s.g.chip = none → first → told t l 0
              ∧ ((full h l).missing ≠ 0 → t.hub? (no l) = some (full h l)
                ∧ ∀ m, has r.lanes m = true → no m = no l → m ≠ l → told t m 6)
              ∧ ((full h l).missing = 0 → (∀ m, has r.lanes m = true → no m = no l → m ≠ l → told t m 2)
                ∧ ((∀ m, has r.lanes m = true → no m = no l → m = l) → ∃ f, t.hub? (no l) = some f ∧ f.complete = true
                    ∧ f.result = (hubCombine h.op (full h l).present).1
                    ∧ f.status = hubStatus (no l) 0 (hubCombine h.op (full h l).present).2 0)))))
    ∧ (k < 64 → lowLane r.lanes = l → d.kind = 1 → Issues (.hredWait d slot) s r → (∀ q ∈ s.hubw, q.gid ≠ s.g.id) →
      s.hub? k = some h → h.dueAt s.clk.hub = none → h.part = s.g.part → h.vf = s.g.vf → h.complete = true →
      Goes (exec (.hredWait d slot) s) fun t => t.w.run = some (r.behind 4) ∧ OnlyWrites s t d 2 r.lanes
        ∧ (∀ a, t.rd a = s.rd a)
        ∧ ∀ q, has r.lanes q = true → t.w.getAt d 0 q = h.result ∧ t.w.getAt d 1 q = h.status)
    ∧ (∀ n t0, s.hub? n = some h → h.complete = false → h.since = some t0 → h.timeout ≠ 0 → t0 + h.timeout ≤ s.clk.hub →
      (∀ q ∈ s.hubw, q.slot ≠ n) → h.served = 0 → h.mask ≠ 0 → Goes (exec (.hredTimeout n) s) fun t => t = { s with hub := t.hub }
        ∧ ∃ f, t.hub? n = some f ∧ f.complete = true ∧ f.result = (hubCombine h.op h.present).1
          ∧ f.status = hubStatus n h.missing (hubCombine h.op h.present).2 (if h.missing = 0 then 0 else 1))
    ∧ (∀ n t0, s.hub? n = some h → h.complete = true → h.since = some t0 → h.timeout ≠ 0 → t0 + h.timeout ≤ s.clk.hub →
      Goes (exec (.hredSlotExpire n) s) fun t => t.hub? n = none ∧ t = { s with hub := t.hub, hubw := t.hubw, pend := t.pend })

/-! ### Control flow -/

/-- R17, R200 to R210, R332: a control instruction sets where the lanes of its run go at the clause's end, and nothing else
changes (`call` writes v95): branches split the run by their condition, `jmpr` and `ret` send each lane to its own
address. `nop` only goes on. -/
def Obligations.ControlTransfers : Prop :=
  ∀ (s : State) (disp : BitVec 18) (c : Opd) (k : Fin 12),
    let exits (i : Instr) (e : Run → Exit) : Prop := Then i s fun r t =>
      t = { s with w := { s.w with run := some { r.behind 4 with exit := e r } } }
    let target (r : Run) : Nat := (((r.pc : Int) + 2 * disp.toInt) % 2 ^ 32).toNat
    let splits (i : Instr) (p : Nat → Bool) : Prop := Then i s fun r t => ∃ a b,
      t = { s with w := { s.w with run := some { r.behind 4 with exit := .goto [⟨target r, a⟩, ⟨r.fall, b⟩] } } }
      ∧ ∀ l, l < 64 → (has a l = (has r.lanes l && p l)) ∧ (has b l = (has r.lanes l && !p l))
    let leaps (i : Instr) (a : Nat → Word) : Prop :=
      exits i fun r => .goto ((lanesOf r.lanes).map fun l => ⟨(a l).toNat, laneBit l⟩)
    let nap (r : Run) : Nat := min (((lanesOf r.lanes).map fun l => (s.w.src c l).toNat).foldl max 0) (2 ^ 24 - 1)
    splits (.jmp disp) (fun _ => true) ∧ splits (.bz c disp) (fun l => s.w.src c l == 0)
    ∧ splits (.bnz c disp) (fun l => s.w.src c l != 0) ∧ splits (.bm k disp) (fun l => has (s.w.getM k.val) l)
    ∧ leaps (.jmpr c) (s.w.src c) ∧ leaps .ret (s.w.getV 95)
    ∧ (Then (.call disp) s fun r t => t.w.run.map Run.exit = some (.goto [⟨target r, r.lanes⟩, ⟨r.fall, 0⟩])
        ∧ RegFrame s t (.v 95) 1 r.lanes ∧ t.w.flg = s.w.flg
        ∧ ∀ l, has r.lanes l = true → t.w.getV 95 l = BitVec.ofNat 32 r.fall)
    ∧ exits (.wait k) (fun _ => .wait k.val) ∧ exits .yield (fun _ => .yield)
    ∧ exits (.sleep c) (fun r => if nap r = 0 then .yield else .sleep (nap r))
    ∧ (∀ r, Issues .endLanes s r → s.endsHolding r = false → Goes (exec .endLanes s) fun t =>
        t = { s with w := { s.w with run := some { r.behind 4 with exit := .retire } } })
    ∧ (Then .nop s fun r t => t = { s with w := { s.w with run := some (r.behind 4) } })
    ∧ (Then .nop16 s fun r t => t = { s with w := { s.w with run := some (r.behind 2) } })

/-- R14, R188 to R191, R305: a header whose clause passes the checks, whose flags are clear for the lanes at the head of the
PC table and which nothing keeps back takes those lanes into its clause; while a flag is set nothing happens.
What is the model's own reading or choice in it: log 54, 55. -/
def Obligations.ClauseStart : Prop :=
  ∀ (s : State) (e : Sub) (len : Fin 32) (fb fa : Fin 16) (wait : BitVec 12) (tr : Nat) (slots : List (Opd × Bool))
    (body : List Instr),
    let i := Instr.clauseHeader len fb fa wait
    let excess : Bool := s.w.overflows e.lanes
      ((slots.filter fun p => assigns body p.1).map fun p => if p.2 then fb.val else fa.val)
    s.w.run = none → s.w.head = some e → s.w.grow = none → s.yields = false → s.awaits e.lanes = false → s.headLost e = none →
    s.pcTrap s.g.kern e.pc = none → i.wf = true → s.scan s.g.kern fa.val fb.val len.val (e.pc + 4) [] = .ok tr slots body →
    (s.w.flagsClear wait e.lanes = true → excess = false → Goes (exec i s) fun t =>
      t.w.run = some ⟨e.lanes, e.pc, e.pc + 4, len.val, tr + 4, fa.val, fb.val, .fall, 0, 0, false, 0, false, false⟩
      ∧ t.w.pcs = removeSub s.w.pcs e.pc e.lanes ∧ t.w.clauses = s.w.clauses + 1 ∧ t.g = s.g
      ∧ KeepsRegs s.w t.w ∧ (∀ a, t.rd a = s.rd a)
      ∧ (s.startsRegion s.g.kern e.pc = false → t.w.restart = s.w.restart)
      ∧ (s.startsRegion s.g.kern e.pc = true → ∃ q, t.w.restart = some q ∧ q.pc = e.pc ∧ q.masks = s.w.m
          ∧ q.active = s.g.active ∧ q.shadow = s.g.shadow))
    ∧ (s.w.flagsClear wait e.lanes = false → Goes (exec i s) fun t => t = s)

/-- R15, R17, R189, R193, R201, R207, R209, R210: at the trailer the lanes of the run leave as its last instruction set it; a
published destination's outstanding operation, that of the clause's last instruction that writes it (log 98), counts in its flag.
The clause's x registers are left open behind the trailer (R177).
R20 to R23, R209, R210: a parked subgroup whose operations were the first to be complete returns to where its clause sends it: the
PC table, a wait set or sleep; lanes whose sleep has run out return too; late lanes are split off; a yield ends at its cycle.
What is the model's own reading or choice in it: log 4, 57, 67, 98, 108. -/
def Obligations.ClauseEnd : Prop :=
  (∀ (s : State) (r : Run) (sp : Bool) (fl : Fin 8) (d3 d2 d1 : Opd),
     let i := Instr.clauseTrailer sp fl d3 d2 d1
     let keeps (t : State) : Prop := (∀ a, t.rd a = s.rd a) ∧ KeepsRegs { s.w with x := t.w.x } t.w ∧ t.w.run = none
     let moves (t : State) (q : Nat → Nat → Prop) : Prop := ∀ p l, t.w.standsAt p l ↔ s.w.standsAt p l ∨ q p l
     let own (p l : Nat) : Prop := p = r.fall ∧ has r.lanes l = true
     s.w.run = some r → r.left = 0 → r.faulted = 0 →
     (r.exit = .fall → Goes (exec i s) fun t => keeps t ∧ moves t own
       ∧ ∀ d b, trailerSlots fl d1 d2 d3 = [(d, b)] → ∀ o ∈ s.pend, o.gid = s.g.id → o.wid = s.w.idx → o.flag = none →
           o.pc = s.lastFor r d → o.reg = d.toNat →
           (∀ p ∈ s.clauseWords 24 (r.start + 4), p.1 < r.fall → assigns [p.2] d = true → p.1 ≤ o.pc) ∧
           let f := if b then r.fb else r.fa
           (∃ q ∈ t.pend, q = { o with flag := some f, accs := q.accs } ∧ q.accs.map Acc.bytes = o.accs.map Acc.bytes
             ∧ q.accs.map Acc.data = o.accs.map Acc.data)
           ∧ ∀ l, has o.lanes l = true → s.w.flagCount f l < t.w.flagCount f l)
     ∧ (∀ ts, r.exit = .goto ts → Goes (exec i s) fun t => keeps t
         ∧ moves t fun p l => ∃ g ∈ ts, g.pc = p ∧ has g.lanes l = true)
     ∧ (∀ m, r.exit = .block m → Goes (exec i s) fun t => keeps t ∧ moves t fun p l => own p l ∧ has m l = false)
     ∧ (∀ n, r.exit = .sleep n → r.lanes ≠ 0 → Goes (exec i s) fun t => keeps t ∧ t.w.pcs = s.w.pcs
         ∧ t.w.asleep = s.w.asleep ++ [⟨r.fall, r.lanes, s.cyc s.coreNo + n⟩])
     ∧ (r.exit = .yield → Goes (exec i s) fun t => keeps t ∧ moves t own
         ∧ t.w.yielding.map Yielding.until_ = some (s.cyc s.coreNo + 64))
     ∧ (∀ k, r.exit = .wait k → r.lanes ≠ 0 → Goes (exec i s) fun t => keeps t ∧
         if s.w.getM k &&& ~~~ (s.w.waiting k ||| r.lanes) = 0 then
           (∀ q ∈ t.w.waits, q.k ≠ k)
           ∧ moves t fun p l => own p l ∨ ∃ q ∈ s.w.waits, q.k = k ∧ q.pc = p ∧ has q.lanes l = true
         else t.w.waits = s.w.waits ++ [⟨k, r.fall, r.lanes⟩] ∧ t.w.pcs = s.w.pcs)
     ∧ (r.exit = .retire → s.endsHolding r = false → s.taskAway = false → s.w.live &&& ~~~ r.lanes ≠ 0 → Goes (exec i s) fun t => (∀ a, t.rd a = s.rd a)
         ∧ t.w.live = s.w.live &&& ~~~ r.lanes ∧ ∀ k, k < 12 → t.w.getM k = s.w.getM k &&& ~~~ r.lanes))
  ∧ (∀ (s : State) (k : Nat) (e : Sub) (z : Parked) (n : Nat), s.w.gone = false →
       let keeps (t : State) : Prop := (∀ a, t.rd a = s.rd a) ∧ KeepsRegs s.w t.w ∧ t.g = s.g
       let goes := z.lanes &&& ~~~ z.blocked
       let returns (p : State → Prop) : Prop :=
         s.w.parked[k]? = some z → s.lostOf z.lanes = [] →
         (∃ a, z.back = some a ∧ ∀ q ∈ s.w.parked, ∀ b, q.back = some b → a < b ∨ a = b ∧ z.pc ≤ q.pc) →
         Goes (exec (.parkedSubgroupReturn s.g.id s.w.idx k) s) fun t => keeps t ∧ t.w.parked = s.w.parked.eraseIdx k ∧ p t
       (z.next = .fall → returns fun t => ∀ p l, t.w.standsAt p l ↔ s.w.standsAt p l ∨ p = z.pc ∧ has goes l = true)
       ∧ (z.next = .sleep n → goes ≠ 0 → returns fun t =>
           t.w.asleep = s.w.asleep ++ [⟨z.pc, goes, n⟩] ∧ t.w.pcs = s.w.pcs)
       ∧ (z.next = .wait n → goes ≠ 0 → returns fun t =>
           if s.w.getM n &&& ~~~ (s.w.waiting n ||| goes) = 0 then
             (∀ q ∈ t.w.waits, q.k ≠ n)
             ∧ ∀ p l, t.w.standsAt p l ↔ s.w.standsAt p l ∨ p = z.pc ∧ has goes l = true
                 ∨ ∃ q ∈ s.w.waits, q.k = n ∧ q.pc = p ∧ has q.lanes l = true
           else t.w.waits = s.w.waits ++ [⟨n, z.pc, goes⟩] ∧ t.w.pcs = s.w.pcs)
       ∧ (∀ z, s.w.asleep[k]? = some z → s.g.id ≠ 0 → z.wake ≤ s.cyc s.coreNo →
         Goes (exec (.sleepExpiry s.g.id s.w.idx k) s) fun t => keeps t ∧ t.w.asleep = s.w.asleep.eraseIdx k
           ∧ ∀ p l, t.w.standsAt p l ↔ s.w.standsAt p l ∨ p = z.pc ∧ has z.lanes l = true)
       ∧ (∀ y, s.w.yielding = some y → s.g.id ≠ 0 → y.until_ ≤ s.cyc s.coreNo →
         Goes (exec (.yieldTimeout s.g.id s.w.idx) s) fun t => t = { s with w := { s.w with yielding := none } })
       ∧ (s.w.head = some e → s.lateLanes e ≠ 0 → s.w.late ≠ 0 → s.w.run = none → s.w.parkedCount < 4 → s.g.issues = true →
         Goes (exec (.lateSplit s.g.id s.w.idx) s) fun t => keeps t
           ∧ t.w.parked = s.w.parked ++ [⟨e.pc, s.lateLanes e, .fall, 0, none⟩] ∧ t.w.pcs = removeSub s.w.pcs e.pc (s.lateLanes e)))

/-! ### Traps and system instructions -/

/-- R176, R190, R212, R285: an instruction of a run whose operands fail the checks at issue traps with nothing of it done,
whichever instruction it is; while the group holds a trap nothing happens (R367).
R37, R368: what one access is checked for, in order, and what its trap names.
What is the model's own reading or choice in it: log 53, 55, 117. -/
def Obligations.ChecksAtIssue : Prop :=
  (∀ (i : Instr) (s : State) (r : Run) (c : Nat), s.w.run = some r → encodeBits i ≠ none →
     (∀ len fb fa wait, i ≠ .clauseHeader len fb fa wait) → (∀ sp fl d3 d2 d1, i ≠ .clauseTrailer sp fl d3 d2 d1) →
     issueCheck i.info s.w = some c →
     (c = 1 ∨ c = 5) ∧ Goes (exec i s) fun t =>
       (s.g.trapHeld = false → TrapTaken s t r c r.addr 0) ∧ (s.g.trapHeld = true → t = s))
  ∧ (∀ (s : State) (c : Chk), 
       (c.sp = .con ∧ c.wr = true → s.r37 [c] = some (5, BitVec.ofNat 64 c.off, 0))
       ∧ (¬ (c.sp = .con ∧ c.wr = true) → c.off % c.al ≠ 0 → s.r37 [c] = some (0x0E, BitVec.ofNat 64 c.off, 0))
       ∧ (¬ (c.sp = .con ∧ c.wr = true) → c.off % c.al = 0 → segLimit (s.w.segOf c.sp) < c.off + c.n →
           s.r37 [c] = some (3, BitVec.ofNat 64 c.off, BitVec.ofNat 32 (Space.toNat c.sp)))
       ∧ (¬ (c.sp = .con ∧ c.wr = true) → c.off % c.al = 0 → c.off + c.n ≤ segLimit (s.w.segOf c.sp) →
           s.r37 [c] = if c.sp = .fab ∧ s.badTarget c.odd = true
             then some (0x11, BitVec.ofNat 64 c.off, BitVec.ofNat 32 (c.odd % 2 ^ 11)) else none))

/-- R37, R190, R212, R234, R302 to R304, R370: where forms trap instead of taking effect: an access that fails its checks, a
misaligned atomic, a privileged instruction outside a system warp, a read-only register, growth beyond 96 registers,
shrinking below 8, a `rfe` with no trap held, a header inside a clause.
R172, R211, R212, R367, R368: `trap` and `brk` take their traps in a kernel that enables them, with the number in TRAPV
and the instruction's address in TRAPA, and act as `nop` in one that does not.
What is the model's own reading or choice in it: log 53, 54, 56. -/
def Obligations.TrapsTaken : Prop :=
  (∀ (s : State) (d a : Opd) (off : Fin 32) (z : MSize) (sp : Space) (x : SReg) (ty : AType) (sc : Scope),
     (∀ r q, s.g.trapHeld = false → Issues (.st d a off z sp) s r →
       s.r37 ((lanesOf r.lanes).map fun l => (s.w.ref (Space.isFab sp) a (off.val * z.bytes) l).chk sp z.bytes true) = some q →
       Goes (exec (.st d a off z sp) s) fun t => TrapTaken s t r q.1 q.2.1 q.2.2)
     ∧ (∀ r q, s.g.trapHeld = false → d.kind ≠ 2 → Issues (.ld d a off z sp) s r →
       s.r37 ((lanesOf r.lanes).map fun l => (s.w.ref (Space.isFab sp) a (off.val * z.bytes) l).chk sp z.bytes false) = some q →
       Goes (exec (.ld d a off z sp) s) fun t => TrapTaken s t r q.1 q.2.1 q.2.2)
     ∧ (∀ r l, s.g.trapHeld = false → Issues (.atomAdd d a true ty sc) s r → lanesOf r.lanes = [l] →
       (s.w.src64 a l).toNat % AType.bytes ty ≠ 0 →
       Goes (exec (.atomAdd d a true ty sc) s) fun t => TrapTaken s t r 0x0E (s.w.src64 a l) 0)
     ∧ (s.g.sys = false → Traps (.segld x a) s 0x0D Run.addr fun _ => 0)
     ∧ (s.g.sys = false → Traps (.rfe a) s 0x0D Run.addr fun _ => 0)
     ∧ (s.g.sys = true → s.g.holds = none → Traps (.rfe a) s 5 Run.addr fun _ => 0)
     ∧ (x ≠ .flg → x ≠ .late → x ≠ .seed → Traps (.swr x a) s 5 Run.addr fun _ => 0)
     ∧ (∀ r, s.g.trapHeld = false → Issues (.rgrow a) s r → (s.w.scal r a).toNat ≠ 0 →
         96 < s.w.nregs + 8 * (s.w.scal r a).toNat →
         Goes (exec (.rgrow a) s) fun t => TrapTaken s t r 0x0F r.addr (s.w.scal r a))
     ∧ (∀ r, s.g.trapHeld = false → Issues (.rshrink a) s r → (s.w.scal r a).toNat ≠ 0 →
         s.w.nregs < 8 * (s.w.scal r a).toNat + 8 → Goes (exec (.rshrink a) s) fun t => TrapTaken s t r 5 r.addr 0)
     ∧ ∀ r len fb fa wait, s.g.trapHeld = false → s.w.run = some r →
         Goes (exec (.clauseHeader len fb fa wait) s) fun t => TrapTaken s t r 2 r.addr 0)
  ∧ (∀ (s : State) (n : Fin 64),
       (s.g.kern.trapen = true → Traps (.trap n) s 0x0C Run.addr fun _ => BitVec.ofNat 32 n.val)
       ∧ (s.g.kern.brken = true → Traps (.brk n) s 0x0B Run.addr fun _ => BitVec.ofNat 32 n.val)
       ∧ (s.g.kern.trapen = false → Then (.trap n) s fun r t => RunsOn s t r 4 ∧ t = { s with w := t.w })
       ∧ (s.g.kern.brken = false → Then (.brk n) s fun r t => RunsOn s t r 4 ∧ t = { s with w := t.w }))

/-- R12, R56, R105, R299 to R303, R367, R369: reading a status register, each by what it holds (in a system warp the trap registers
are those of the trap that it holds), and writing FLG, LATE, SEED and, in a system warp, a
segment register that stays within its store. -/
def Obligations.StatusRegisters : Prop :=
  ∀ (s : State) (d a : Opd) (x : SReg),
    let val (l : Nat) := s.statusReg x l
    (x.span ≠ 2 → Lane32 (.srd d x) s d fun l => BitVec.ofNat 32 (val l))
    ∧ (x.span = 2 → Lane64 (.srd d x) s d fun l => BitVec.ofNat 64 (val l))
    ∧ (∀ l, s.statusReg .core l = s.g.core ∧ s.statusReg .cyc l = s.cyc s.coreNo ∧ s.statusReg .flg l = (s.w.getFlg l).toNat
        ∧ s.statusReg .late l = s.w.late.toNat ∧ s.statusReg .seed l = s.w.seed.toNat ∧ s.statusReg .helpd l = s.g.helpd
        ∧ s.statusReg .pmode l = s.g.pmode ∧ s.statusReg .ctb l = s.g.ctb.toNat % 2 ^ s.g.kern.tags
        ∧ s.statusReg .segpriv l = (s.w.getSeg 0).toNat ∧ s.statusReg .segshr l = (s.w.getSeg 1).toNat
        ∧ s.statusReg .segdws l = (s.w.getSeg 2).toNat ∧ s.statusReg .segcon l = (s.w.getSeg 3).toNat
        ∧ s.statusReg .segfab l = (s.w.getSeg 4).toNat ∧ s.statusReg .segob l = (s.w.getSeg 5).toNat)
    ∧ (∀ l, s.statusReg .warpw l = 64
        ∧ (∀ j, j < 6 → s.statusReg .widf l / 2 ^ (8 * j) % 2 ^ 8 = s.g.kern.widths.getD j 0 % 256)
        ∧ s.statusReg .widf l / 2 ^ 48 = s.g.kern.nf % 8
        ∧ s.statusReg .clus l = (4 * s.g.chip + s.g.core / 4) * 4 + s.g.core / 4
        ∧ s.statusReg .chip l = (if s.md.valid then s.md.number * 8 + s.g.chip else s.g.chip) * 8 + s.g.chip
        ∧ s.statusReg .modl l = (if s.md.valid then 256 + s.md.number % 256 else 0)
        ∧ s.statusReg .deg l = (s.engine (4 * s.g.chip + s.g.core / 4)).deg.toNat)
    ∧ (∀ l h, s.g.sys = true → s.g.holds = some h → s.statusReg .trapc l = h.cause + (if h.repeated then 256 else 0)
        ∧ s.statusReg .trapa l = h.addr.toNat ∧ s.statusReg .trapv l = h.value.toNat ∧ s.statusReg .trapt l = h.owner.toNat
        ∧ s.statusReg .traph l = h.helper.toNat)
    ∧ (∀ l, s.g.sys = false → s.statusReg .trapc l = s.g.trapc.toNat ∧ s.statusReg .trapa l = s.g.trapa.toNat
        ∧ s.statusReg .trapv l = s.g.trapv.toNat ∧ s.statusReg .trapt l = s.g.trapt.toNat ∧ s.statusReg .traph l = s.g.traph.toNat)
    ∧ (Then (.swr .flg a) s fun r t => t.w = { s.w with flg := t.w.flg, run := some (r.behind 4) } ∧ t = { s with w := t.w }
        ∧ ∀ l, l < 64 → t.w.getFlg l = if has r.lanes l then s.w.src a l &&& 0x1F else s.w.getFlg l)
    ∧ (Then (.swr .late a) s fun r t => t = { s with w := { s.w with late := s.w.src a (lowLane r.lanes), run := some (r.behind 4) } })
    ∧ (Then (.swr .seed a) s fun r t => t.w.seed = s.w.src a (lowLane r.lanes) ∧ t = { s with w := t.w }
        ∧ t.w = { s.w with seed := t.w.seed, gen := t.w.gen, run := some (r.behind 4) }
        ∧ ∀ l, l < 64 → t.w.getGen l = seedGen t.w.seed l)
    ∧ (∀ r, s.g.sys = true → Issues (.segld x a) s r → s.segOk s.g.chip (segNo x) (s.w.scal64 r a) = true →
        Goes (exec (.segld x a) s) fun t => t.w.getSeg (segNo x) = s.w.scal64 r a
          ∧ (∀ k, k ≠ segNo x → t.w.getSeg k = s.w.getSeg k)
          ∧ t = { s with w := { s.w with seg := t.w.seg, run := some (r.behind 4) } })

/-- R25 to R27, R304: growth that the core's pool can meet takes effect at once and leaves every register of before; growth
that it cannot meet waits, and is granted when it can; shrinking gives registers back, which nothing outstanding writes any more.
In what order requests that wait are granted (`older`, and the order by the warps' indices in a group), and that one that waits in
the same group holds a new one back, is the model's choice: log 105.
What is the model's own reading or choice in it: log 4, 94, 105. -/
def Obligations.RegisterAllocation : Prop :=
  ∀ (s : State) (a : Opd) (r : Run),
    let k := (s.w.scal r a).toNat
    let older : Bool :=
      (s.growers s.g.chip s.g.core).any fun q => q.1 ≤ s.g.age && !(q.2.1 == s.g.id && q.2.2.1 == s.w.idx)
    let grows (t : State) (n : Nat) : Prop := t.w.nregs = s.w.nregs + 8 * n ∧ (∀ p, t.rd p = s.rd p) ∧ t.g = s.g
      ∧ (∀ q l, q < s.w.nregs → t.w.getV q l = s.w.getV q l) ∧ t.w.grow = none ∧ t.w.s = s.w.s ∧ t.w.m = s.w.m
      ∧ ∀ j l, j < 8 * n → l < 64 → t.w.getV (s.w.nregs + j) l = Config.freeWord (s.free + 64 * j + l)
    s.w.gone = false →
    (Issues (.rgrow a) s r → k ≠ 0 → s.w.grow = none → s.w.nregs + 8 * k ≤ 96 → older = false →
      s.canGrow s.g.chip s.g.core s.g.id s.w.idx k = true → Goes (exec (.rgrow a) s) fun t => grows t k)
    ∧ (Issues (.rgrow a) s r → k ≠ 0 → s.w.nregs + 8 * k ≤ 96 →
      (older = true ∨ s.canGrow s.g.chip s.g.core s.g.id s.w.idx k = false) → Goes (exec (.rgrow a) s) fun t =>
        t = { s with w := { s.w with grow := some k, growAt := r.fall - 4, run := some (r.behind 4) } })
    ∧ (Issues (.rshrink a) s r → 8 * k + 8 ≤ s.w.nregs → Goes (exec (.rshrink a) s) fun t =>
        t = { s with
          w := { s.w with nregs := s.w.nregs - 8 * k, run := some (r.behind 4) }
          pend := t.pend, laps := t.laps, landing := t.landing, engines := t.engines }
        ∧ (k ≠ 0 → let own (gid wid : Nat) : Prop := gid = s.g.id ∧ wid = s.w.idx
          (∀ o ∈ t.pend, own o.gid o.wid → o.cap ≤ s.w.nregs - 8 * k) ∧ (∀ o ∈ t.laps, own o.gid o.wid → o.cap ≤ s.w.nregs - 8 * k)
          ∧ ∀ c ∈ (t.engine s.g.clu).cmds, own c.gid c.wid → c.cap ≤ s.w.nregs - 8 * k))
    ∧ (∀ n, s.g.id ≠ 0 → s.w.grow = some n →
        (∀ q ∈ s.growers s.g.chip s.g.core, s.g.age < q.1 ∨ s.g.age = q.1 ∧ s.w.idx ≤ q.2.2.1) →
        s.canGrow s.g.chip s.g.core s.g.id s.w.idx n = true →
        Goes (exec (.rgrowGrant s.g.id s.w.idx) s) fun t => grows t n)

/-! ### The matrix engine -/

/-- R113 to R115, R122, R289, R290: a group with a window reserves a range that meets none of its own and lies in the window,
or one that its record describes; takes a free tile, whose elements and row flags are zero; and releases both. A range that was
released, and that no command names any more, leaves its bytes first (R114).
That the window of the group's kernel bounds a reservation, whatever SEGOB holds, is the model's reading: log 106.
What is the model's own reading or choice in it: log 22, 50, 106. -/
def Obligations.MatrixResources : Prop :=
  ∀ (s : State) (r : Run) (d a : Opd) (f : Fin 64), s.g.kern.obwin ≠ 0 →
    let v := (s.w.scal r a).toNat
    let len := (v + 4095) / 4096 * 4096
    let tells (t : State) (h : Nat) : Prop := (Holds t d r.lanes fun _ => word h) ∧ OnlyWrites s t d 1 r.lanes
      ∧ t.w.run = some (r.behind 4) ∧ ∀ p, t.rd p = s.rd p
    let e := s.myEngine
    let old := (s.reapRanges s.g.id).g.ranges
    (∀ h b, Issues (.obres d a f) s r → len ≠ 0 → f.val ≤ 14 → freeHandle 8 (s.g.held.map Range.h) = some h →
      firstFit len s.g.kern.obwin (old.map fun x => (x.base, x.len)) = some b →
      b + len ≤ s.g.kern.obwin ∧ (∀ x ∈ old, x.len = 0 ∨ b + len ≤ x.base ∨ x.base + x.len ≤ b)
      ∧ Goes (exec (.obres d a f) s) fun t => tells t h ∧ ∃ x, t.g = { s.g with ranges := old ++ [x] }
        ∧ x.h = h ∧ x.base = b ∧ x.len = len ∧ x.fmt = f.val ∧ x.gone = false)
    ∧ (∀ h, Issues (.obrec d a) s r → s.r37 [⟨.shr, v, 32, 32, false, 0⟩] = none →
      NoneBefore s r.lanes (s.bytesAt .shr v 32 0 0) → freeHandle 8 (s.g.held.map Range.h) = some h →
      (let x := Range.ofWords (s.descWords v) h s.w.region
       x.ok (s.descWords v) s.g.kern.obwin old = true →
       Goes (exec (.obrec d a) s) fun t => tells t h ∧ t.g = { s.g with ranges := old ++ [x] }))
    ∧ (∀ x ∈ old, x ∈ s.g.ranges) ∧ (∀ x ∈ s.g.ranges, x ∉ old → x.gone = true)
    ∧ (∀ x, Issues (.obrel a) s r → s.g.range? v = some x → Goes (exec (.obrel a) s) fun t =>
        RunsOn s t r 4 ∧ (∀ p, t.rd p = s.rd p) ∧ (∀ y ∈ t.g.ranges, y.h = v → y.gone = true)
        ∧ t.g.active = s.g.active.without v ∧ t.g.shadow = s.g.shadow.without v)
    ∧ (∀ p ps, Issues (.accget d) s r → e.freeTiles = p :: ps → Goes (exec (.accget d) s) fun t => ∃ h, tells t h
        ∧ t.myEngine.tiles = ⟨h, p, s.g.id, [s.w.region], false, false⟩ :: e.tiles
        ∧ ∀ row col, row < 64 → col < 512 → t.myEngine.elem p row col = 0 ∧ t.myEngine.rowFlags p row = 0)
    ∧ (∀ x, Issues (.accput a) s r → e.tile? s.g.id v = some x → Goes (exec (.accput a) s) fun t =>
        RunsOn s t r 4 ∧ (∀ p, t.rd p = s.rd p) ∧ x ∉ t.myEngine.tiles)
    ∧ (Issues (.mstat d) s r → Goes (exec (.mstat d) s) fun t => tells t
        ((e.ofGroup s.g.id).length * 2 ^ 28 + e.freeTiles.length * 2 ^ 23
          + ((e.tilesOf s.g.id).filter fun t => !t.freed).length * 2 ^ 18 + s.g.held.length * 2 ^ 14
          + e.cmds.length * 2 ^ 8 + e.deg.toNat % 64))

/-- R118 to R120, R124, R129, R286 to R290: a matrix command whose handles and rows are right enters its engine's reservation
table with the core's next number, which its lanes receive; `mload` fills the shadow descriptor, and `mswap` exchanges
the two.
R103, R127, R291: `mwait` goes on once the group's commands on its tile have retired, and FLG takes in the row flags;
`mpoll` says whether they have.
What is the model's own reading or choice in it: log 26, 53. -/
def Obligations.MatrixCommands : Prop :=
  (∀ (s : State) (r : Run) (d t' h c : Opd) (ctr : Fin 16) (bar : BarSel),
     let e := s.myEngine
     let hd := (s.w.scal r h).toNat
     let tl := (s.w.scal r t').toNat
     let row := (s.w.scal r c).toNat
     let room : Prop := e.cmds.length < 32 ∧ (e.ofGroup s.g.id).length < 8
     let barrier := s.barOf bar (.shr 0 0)
     let num := getKey s.cmdNo s.coreNo 0
     let sends (t : State) (k : MatKind) (b : Option BarRef) : Prop := ∃ q, t.myEngine.cmds = e.cmds ++ [q] ∧ q.kind = k
       ∧ q.num = num ∧ q.lanes = r.lanes ∧ q.bar = b ∧ q.granted = false ∧ q.gid = s.g.id ∧ q.wid = s.w.idx ∧ q.pc = r.pc
       ∧ t.w.run = some (r.behind 4) ∧ (∀ p, t.rd p = s.rd p) ∧ getKey t.cmdNo s.coreNo 0 = num + 1
     let told (t : State) : Prop := (Holds t d r.lanes fun _ => num) ∧ OnlyWrites s t d 1 r.lanes
     s.g.kern.obwin ≠ 0 → room →
     (∀ x, Issues (.mload d h bar c) s r → s.g.range? hd = some x → row + 512 ≤ x.rows → s.r37 barrier.2 = none →
       s.swapWaits = false → Goes (exec (.mload d h bar c) s) fun t =>
         sends t (.load (x.at_ s.obBase) row) barrier.1 ∧ told t ∧ t.g.shadow = ⟨1, hd, row, true, s.nextId⟩ ∧ t.g.active = s.g.active)
     ∧ (∀ x y z, Issues (.mstream d t' ctr bar c h) s r → ctr.val = 0 → s.g.range? hd = some x → e.tile? s.g.id tl = some z →
       row + highLane r.lanes + 1 ≤ x.rows → s.g.active.st ≠ 0 → s.g.range? s.g.active.range = some y →
       mixes x.fmt y.fmt = true → s.r37 barrier.2 = none → Goes (exec (.mstream d t' ctr bar c h) s) fun t =>
         sends t (.stream tl (x.at_ s.obBase) row s.g.active (y.at_ s.obBase)) barrier.1 ∧ told t ∧ t.g = s.g)
     ∧ (∀ z, Issues (.mzero d t') s r → e.tile? s.g.id tl = some z → Goes (exec (.mzero d t') s) fun t =>
         sends t (.zero tl) none ∧ told t ∧ t.g = s.g)
     ∧ (∀ z, let n := (s.w.scal r h).toNat
       Issues (.mdrain d t' h c) s r → e.tile? s.g.id tl = some z → 1 ≤ n → n ≤ 32 → row + n ≤ 512 → d.toNat + n ≤ s.w.nregs →
       s.meetsLong r d n = false → Goes (exec (.mdrain d t' h c) s) fun t => sends t (.drain tl d.toNat row n) none ∧ RunsOn s t r 4 ∧ t.g = s.g)
     ∧ (Issues .mswap s r → s.g.shadow.st ≠ 0 → s.swapWaits = false → s.g.shadow.busy = false →
       (∀ q ∈ s.g.fails, q.matrix = false ∨ q.tag < 16) → Goes (exec .mswap s) fun t => RunsOn s t r 4
         ∧ t = { s with w := t.w, g := { s.g with active := s.g.shadow, shadow := s.g.active, autoSwap := none } })
     ∧ (Issues .mswapAuto s r → s.g.shadow.st ≠ 0 → (∀ q ∈ s.g.fails, q.matrix = false ∨ q.tag < 16) →
       Goes (exec .mswapAuto s) fun t => RunsOn s t r 4
         ∧ t = { s with w := t.w, g := { s.g with active := s.g.shadow, shadow := s.g.active, autoSwap := some s.nextId } }))
  ∧ (∀ (s : State) (r : Run) (d a : Opd) (x : Tile),
       let tl := (s.w.scal r a).toNat
       let busy : Prop := ∃ c ∈ s.myEngine.ofGroup s.g.id, c.tile = some tl
       s.g.kern.obwin ≠ 0 → s.myEngine.tile? s.g.id tl = some x →
       (Issues (.mwait a) s r → ¬ busy → (∀ q ∈ s.g.fails, q.matrix = false ∨ q.tag ≠ tl ∨ q.wid ≠ s.w.idx) →
         Goes (exec (.mwait a) s) fun t => t = { s with w := { s.w with flg := t.w.flg, run := some (r.behind 4) }, pend := t.pend }
           ∧ ∀ l, l < 64 → t.w.getFlg l =
               if has r.lanes l then s.w.getFlg l ||| word (s.myEngine.rowFlags x.p l) else s.w.getFlg l)
       ∧ (Issues (.mpoll d a) s r → (∀ q ∈ s.g.fails, q.matrix = false ∨ q.tag ≠ tl ∨ q.wid ≠ s.w.idx) →
         Goes (exec (.mpoll d a) s) fun t => t.w.run = some (r.behind 4) ∧ OnlyWrites s t d 1 r.lanes
           ∧ (∀ p, t.rd p = s.rd p) ∧ (busy → Holds t d r.lanes fun _ => 0) ∧ (¬ busy → Holds t d r.lanes fun _ => 1)))

/-- R104, R106: the sum of the products of a chunk is exact: in units of any exponent that all of them reach it is the sum of
their values; a zero sum is negative only when every product is.
R104: a chunk of finite operands adds the exact sum of its exact products to the accumulator with one rounding to nearest and that
rounding's exceptions; a NaN operand or accumulator gives the canonical NaN and no exception; 0 times an infinity, and infinite
products of both signs, the canonical NaN and invalid; an infinite product otherwise the infinity of its sign. The chunks of an
element follow one another, each on what the ones before it left, and the c-th chunk of a row is its values 32c to 32c + 31.
An infinite product that meets an accumulator of the other sign's infinity is the model's reading (log 111); the sign of a zero
product of integer elements is its choice (log 115). -/
def Obligations.MatrixExactSum : Prop :=
  (∀ (l : List FVal) (e0 : Int), (∀ v ∈ l, ∃ n m e, v = .fin n m e ∧ e0 ≤ e) → l ≠ [] →
    ∃ n m e, sumFin l = .fin n m e ∧ e0 ≤ e
      ∧ toUnits n m e e0 = (l.map fun v => match v with | .fin n m e => toUnits n m e e0 | _ => 0).sum
      ∧ (m = 0 → (n = true ↔ ∀ v ∈ l, ∃ k e, v = .fin true k e)))
  ∧ (∀ (acc : Word) (l : List ((Bool × Nat × Int) × (Bool × Nat × Int))), isNan32 acc = false →
      let fin (p : Bool × Nat × Int) : FVal := .fin p.1 p.2.1 p.2.2
      chunkStep acc (l.map fun p => fin p.1) (l.map fun p => fin p.2) =
        w32 (F32.add .nearest (f32 acc) (sumFin (l.map fun p => fin (p.1.1 != p.2.1, p.1.2.1 * p.2.2.1, p.1.2.2 + p.2.2.2)))))
  ∧ (∀ (acc : Word) (a b : List FVal), a.length = b.length →
      let nans : Prop := isNan32 acc = true ∨ ∃ v ∈ a ++ b, v.isNan = true
      let clash : Prop := ∃ p ∈ a.zip b, ∃ n k e, p = (.inf n, .fin k 0 e) ∨ p = (.fin k 0 e, .inf n)
      let infinite (s : Bool) : Prop := ∃ p ∈ a.zip b, ∃ n k, s = (n != k) ∧
        (p = (.inf n, .inf k) ∨ ∃ m e, m ≠ 0 ∧ (p = (.inf n, .fin k m e) ∨ p = (.fin n m e, .inf k)))
      (nans → chunkStep acc a b = (0x7FC00000, {}))
      ∧ (¬ nans → clash ∨ infinite false ∧ infinite true → chunkStep acc a b = (0x7FC00000, { nv := true }))
      ∧ ∀ s, ¬ nans → ¬ clash → infinite s → ¬ infinite (!s) →
          chunkStep acc a b = if f32 acc = .inf (!s) then (0x7FC00000, { nv := true })
            else (if s then 0xFF800000 else 0x7F800000, {}))
  ∧ (∀ (as bs : List (List FVal)) (a b : List FVal) (acc : Word) (e : Exc), as.length = bs.length →
      let p := chunksInto as bs acc e
      let q := chunkStep p.1 a b
      chunksInto [] [] acc e = (acc, e) ∧ chunksInto (as ++ [a]) (bs ++ [b]) acc e = (q.1, p.2.or q.2))
  ∧ ∀ (mode f : Nat) (vs : List FVal),
      (rowChunks mode f vs).length = vs.length / 32
      ∧ ∀ c, c < vs.length / 32 →
          let l := (vs.drop (32 * c)).take 32
          (rowChunks mode f vs)[c]? = some (if mode = 2 ∧ narrows f = true then narrow32 l else l)

/-- R123, R125 to R128, R357: a grant goes to an overdue request, else to one of the highest priority; a command that is ready
and need not fail does its work and leaves the table; one that fails leaves it too, with its code in its barrier or kept
for its tag. A pass multiplies the rows that it streams with what its plane's load has put into the engine, or with the rows of the
range where no load stands. No grant is given while a quadrant is to be retired (R401).
R127: the barrier that a retiring command names is credited with its bytes, and its counter is decremented by 1; one that fails
decrements none.
What is the model's own reading or choice in it: log 51, 52. -/
def Obligations.MatrixEnd : Prop :=
  ∀ (s : State) (clu id : Nat) (c : MatCmd),
    let e := s.engine clu
    let left (t : State) : Prop := ∀ q ∈ (t.engine clu).cmds, q.id ≠ id
    let runs : Prop := s.cmd? clu id = some c ∧ e.ready c = true
    let good : Prop := e.mustFail c = false ∧ s.anyBad (s.cmdPlaces clu c) = false ∧ ∀ z ∈ e.tiles, z.freed = false
    let retires (p : State → Prop) : Prop := runs → good → c.ctr = none →
      Goes (exec (.matrixCommandRetire clu id) s) fun t => left t ∧ p t
    let told (t : State) (code : Nat) : Prop :=
      (c.bar = none → (∀ p, t.rd p = s.rd p) ∧ (c.gid = s.g.id → t.g.fails = s.g.fails ++
        [⟨match c.kind with | .load x _ => 16 + x.h | _ => c.tile.getD 0, code, 0, c.num, true, c.wid⟩]))
      ∧ ∀ b, c.bar = some b → s.Inv → Here s c.gid → let k := b.key (clu / 4) c.core
          t.barAt c.gid k = (s.barAt c.gid k).update (.fail code c.num.toNat)
    (e.due = false → chooseGrant (s.requests clu) = some c → Goes (exec (.matrixGrant clu) s) fun t => t.w = s.w ∧ t.g = s.g ∧ t.mem = s.mem
      ∧ (33 ≤ c.passed ∨ ∀ x ∈ s.requests clu, x.passed < 33 ∧ x.prio ≤ c.prio) ∧ c ∈ s.requests clu
      ∧ (t.engine clu).cmds = e.cmds.map fun x => if x.id = c.id then { x with granted := true }
          else if x.id ∈ (s.requests clu).map MatCmd.id then { x with passed := x.passed + 1 } else x)
    ∧ (∀ tl z, c.kind = .zero tl → e.tileOf c = some z → retires fun t =>
        ∀ row col, row < 64 → col < 512 → (t.engine clu).elem z.p row col = 0)
    ∧ (∀ tl reg col n z, c.kind = .drain tl reg col n → e.tileOf c = some z → s.isSel c.gid c.wid = true → retires fun t =>
        ∀ q j l, Opd.ofBits reg = .v q → j < n → q.val + j < s.w.nregs → q.val + j < c.cap → has c.lanes l = true → has s.w.live l = true →
          t.w.getV (q.val + j) l = e.elem z.p l (col + j))
    ∧ (∀ tl x rb pl y z, c.kind = .stream tl x rb pl y → e.tileOf c = some z → retires fun t =>
        ∀ i j, has c.lanes i = true → j < 512 → (t.engine clu).elem z.p i j =
          (chunksInto ((s.freshen clu pl).streamRow clu c x rb i) ((s.freshen clu pl).weightRow clu pl y j) (e.elem z.p i j) {}).1)
    ∧ (∀ x rb i, c.taken = [] → s.streamRow clu c x rb i = s.rowOf clu e.mode x (rb + i))
    ∧ (∀ pl y j, e.plane? pl.load = none → j < 512 → s.weightRow clu pl y j = s.rowOf clu e.mode y (pl.row0 + j))
    ∧ (∀ x r0, c.kind = .load x r0 → c.gid = s.g.id → s.g.id ≠ 0 → retires fun t => s.g.shadow.load = id →
        t.g.shadow = { s.g.shadow with busy := false }
        ∧ ∃ d ∈ (t.engine clu).planes, d.load = id ∧ d.vals = s.sliceNow clu x r0 c.taken)
    ∧ (∀ b, c.bar = some b → s.Inv → Here s c.gid → retires fun t => let k := b.key (clu / 4) c.core
        t.barAt c.gid k = (s.barAt c.gid k).update (.arr c.bytes))
    ∧ (∀ x r0, c.kind = .load x r0 → c.bytes = 512 * (rowData x.fmt (planar x) + rowScale x.fmt (planar x)))
    ∧ (∀ tl x rb pl y, c.kind = .stream tl x rb pl y → c.bytes = (lanesOf c.lanes).length * 2048)
    ∧ (∀ a k, c.ctr = some a → c.bar = none → runs → good → s.Inv → s.objAt (clu / 4) c.part c.vf a 16 = .ok k →
        s.objRoom (clu / 4) c.part c.vf a 16 = true → 1 < s.rdN k 4 →
        s.rdN k 4 ≤ 2 ^ 31 - 1 → Goes (exec (.matrixCommandRetire clu id) s) fun t => left t ∧ t.rdN k 4 = s.rdN k 4 - 1
          ∧ ∀ p, p ∉ places k 4 → t.rd p = s.rd p)
    ∧ (runs → e.mustFail c = true ∨ s.anyBad (s.cmdPlaces clu c) = true →
        Goes (exec (.matrixCommandRetire clu id) s) fun t => left t ∧ told t 1)
    ∧ (runs → c.isPass = true → Goes (exec (.matrixCommandFail clu id 9 false) s) fun t => left t ∧ told t 9)

/-! ### Tasks -/

/-- R131 to R140, R146, R284, R292 to R294: spawning, forking, joining, counting down, ending, and the futures and lock words of
tasks, each where it neither traps nor waits.
What is the model's own reading or choice in it: log 22, 23, 24. -/
def Obligations.TaskInstructions : Prop :=
  ∀ (s : State) (r : Run) (d a : Opd) (sb : Fin 64) (k : Nat), s.Inv → s.w.gone = false →
    let x := s.w.scal64 r a
    let g := s.g
    let at' (n : Nat) : Prop := s.objAt g.chip g.part g.vf x n = .ok k ∧ s.objRoom g.chip g.part g.vf x n = true
      ∧ NoneBefore s r.lanes (places k n)
    let frame (t : State) (n : Nat) : Prop := (∀ p, p ∉ places k n → t.rd p = s.rd p) ∧ t.w.run = some (r.behind 4)
    (Issues (.tspawn d a) s r → at' 64 → s.recState k = 0 →
      (∃ y, s.slot? g.part g.vf (s.recSlot k) = some y ∧ y.closed = false) → Goes (exec (.tspawn d a) s) fun t =>
        frame t 64 ∧ t.recState k = 1 ∧ t.ready = s.ready ++ [⟨g.chip, g.part, g.vf, s.recPrio k, x⟩]
        ∧ (Holds t d r.lanes fun _ => 1) ∧ OnlyWrites s t d 1 r.lanes)
    ∧ (∀ par off u, Issues (.tfork d a sb) s r → g.task ≠ 0 → s.unitAt g.chip g.part g.vf g.task 64 = .ok par →
      x.toNat % 2 = 0 → g.kern.entry ≤ x.toNat → x.toNat < g.kern.entry + g.kern.codesz → s.nchild par < 255 →
      s.takeFrame g.part g.vf g.chip g.kern.frame 0 = some (off, u) → k = frameKey g.part g.chip (off + 0x40) →
      (par + 64 ≤ frameKey g.part g.chip off ∨ frameKey g.part g.chip off + 256 ≤ par) → Goes (exec (.tfork d a sb) s) fun t =>
        t.rdD k = x ∧ t.rdD (k + 8) = s.w.idxS64 sb ∧ t.recState k = 1 ∧ t.recFlag k 5 = true ∧ t.nchild par = s.nchild par + 1
        ∧ t.ready = s.ready ++ [⟨g.chip, g.part, g.vf, s.recPrio par, objFrame off⟩]
        ∧ (∀ p, p ∉ places (frameKey g.part g.chip off) 256 → p ≠ par + 41 → t.rd p = s.rd p) ∧ t.w.run = some (r.behind 4)
        ∧ ∀ l, has r.lanes l = true → t.w.src64 d l = objFrame off)
    ∧ (∀ par, Issues .tsync s r → g.task ≠ 0 → s.unitAt g.chip g.part g.vf g.task 64 = .ok par → s.nchild par = 0 →
      Goes (exec .tsync s) fun t => RunsOn s t r 4 ∧ t = { s with w := t.w, pend := t.pend })
    ∧ (let c := s.rdN k 4
      let n := (s.w.scal r d).toNat
      Issues (.tpost a d) s r → at' 16 → g.task ≠ 0 → (s.rdN (k + 4) 4).testBit 31 = false → n < 2 ^ 31 →
      0 < (c + n) % 2 ^ 32 → (c + n) % 2 ^ 32 < 2 ^ 31 → Goes (exec (.tpost a d) s) fun t => frame t 16
        ∧ t.rdN k 4 = (c + n) % 2 ^ 32 ∧ t.rdN (k + 4) 4 = s.rdN (k + 4) 4 ||| 2 ^ 31 ∧ t.ready = s.ready)
    ∧ (let c := s.rdN k 4
      Issues (.tdec a) s r → at' 16 → g.task ≠ 0 → 1 < c → c ≤ 2 ^ 31 - 1 → Goes (exec (.tdec a) s) fun t => frame t 16
        ∧ t.rdN k 4 = c - 1 ∧ t.ready = s.ready)
    ∧ (∀ z, Issues (.tdec a) s r → at' 16 → g.task ≠ 0 → s.rdN k 4 = 1 → (s.rdN (k + 4) 4).testBit 31 = true →
      (s.rdN (k + 4) 4).testBit 30 = false → s.objAt g.chip g.part g.vf (s.rdD (k + 8)) 64 = .ok z →
      (k + 16 ≤ z ∨ z + 64 ≤ k) → s.recState z = 0 → Goes (exec (.tdec a) s) fun t => t.rdN k 4 = 0 ∧ t.recState z = 1
        ∧ t.ready = s.ready ++ [⟨g.chip, g.part, g.vf, s.recPrio z, s.rdD (k + 8)⟩] ∧ t.w.run = some (r.behind 4))
    ∧ Lane64 (.tself d) s d (fun _ => g.task)
    ∧ (Issues (.tdone a) s r → g.task ≠ 0 → s.endsHolding r = false → Goes (exec (.tdone a) s) fun t =>
        t = { s with w := { s.w with run := some { r.behind 4 with exit := .retire } }, g := { g with tdone := some (g.tdone.getD x) } })
    ∧ (Issues (.fwait d a) s r → at' 32 → g.task ≠ 0 → (s.futState k = 1 ∨ s.futState k = 2) → Goes (exec (.fwait d a) s) fun t =>
        frame t 0 ∧ OnlyWrites s t d 3 r.lanes ∧ ∀ l, has r.lanes l = true →
          t.w.src64 d l = (if s.futState k = 1 then s.rdD k else 0) ∧ t.w.getAt d 2 l = if s.futState k = 1 then 1 else 2)
    ∧ (Issues (.fset a d) s r → at' 32 → s.futState k = 0 → Goes (exec (.fset a d) s) fun t => frame t 24
        ∧ t.rdD k = s.w.scal64 r d ∧ t.futState k = 1 ∧ (∀ w ∈ t.waiters, w.obj ≠ k))
    ∧ (Issues (.lkacq d a) s r → at' 16 → g.task ≠ 0 → (s.lockState k = 0 ∨ s.lockState k = 2 ∨ s.lockState k = 3 ∧ s.rdD k = g.task) →
      Goes (exec (.lkacq d a) s) fun t => frame t 16 ∧ t.lockState k = 1 ∧ t.rdD k = g.task ∧ t.rdN (k + 12) 4 = 1
        ∧ (Holds t d r.lanes fun _ => BitVec.ofNat 32 (s.lockState k)) ∧ OnlyWrites s t d 1 r.lanes)
    ∧ (Issues (.lkacq d a) s r → at' 16 → g.task ≠ 0 → s.lockState k = 1 → s.rdD k = g.task → s.rdN (k + 12) 4 + 1 < 2 ^ 32 →
      Goes (exec (.lkacq d a) s) fun t => frame t 16 ∧ t.rdN (k + 12) 4 = s.rdN (k + 12) 4 + 1 ∧ Holds t d r.lanes fun _ => 1)
    ∧ (Issues (.lkrel a) s r → at' 16 → g.task ≠ 0 → s.lockState k = 1 → s.rdD k = g.task → (∀ w ∈ s.waiters, w.obj ≠ k) →
      Goes (exec (.lkrel a) s) fun t => frame t 16 ∧ RunsOn s t r 4
        ∧ if 1 < s.rdN (k + 12) 4 then t.rdN (k + 12) 4 = s.rdN (k + 12) 4 - 1 ∧ t.lockState k = 1
          else t.lockState k = 0 ∧ t.rdD k = 0)

/-! ### Gangs and long contexts -/

/-- R148, R152, R160: what `gwidth`, `gview` and `grank` read of a record that the group may name, and how `gset` and `gset.x`
ask for a width: a sequence with no token takes it at once, one with tokens begins to move.
What is the model's own reading or choice in it: log 38, 40. -/
def Obligations.GangRecords : Prop :=
  ∀ (s : State) (r : Run) (d sq : Opd) (n : Fin 64) (q : Seq), s.seqOf (s.w.scal r sq) = some q →
    s.linked (s.homeNo q.slot) = true →
    let tells (t : State) (v : Word) : Prop := (Holds t d r.lanes fun _ => v) ∧ OnlyWrites s t d 1 r.lanes
      ∧ t.w.run = some (r.behind 4) ∧ ∀ p, t.rd p = s.rd p
    let w := (s.w.idxS n).toNat
    let may (u : Seq) (w : Nat) : Prop := u.state = 1 ∧ 0 < w ∧ w ≤ 64 ∧ w ≠ u.width ∧ (u.members.take w).dedup.length = w
      ∧ ∀ c ∈ (u.members.take w).drop 1, s.qualifies u c = true
    (Issues (.gwidth d sq) s r → Goes (exec (.gwidth d sq) s) fun t =>
      tells t (BitVec.ofNat 32 (q.width + q.pend * 2 ^ 8 + q.state * 2 ^ 16 + q.lasterr * 2 ^ 24)))
    ∧ (Issues (.gview d sq) s r → d.kind = 1 → Goes (exec (.gview d sq) s) fun t => OnlyWrites s t d 2 r.lanes
        ∧ t.w.run = some (r.behind 4) ∧ (∀ p, t.rd p = s.rd p)
        ∧ ∀ l, has r.lanes l = true → t.w.src64 d l = BitVec.ofNat 64 (q.view + q.cut * 2 ^ 32))
    ∧ (Issues (.grank d sq) s r → Goes (exec (.grank d sq) s) fun t => tells t
        (if s.myChip ∈ q.current then BitVec.ofNat 32 (q.current.idxOf s.myChip) else 0xFFFFFFFF))
    ∧ (Issues (.gset d sq n) s r → may q w → q.tokens = 0 → Goes (exec (.gset d sq n) s) fun t => tells t 0
        ∧ ∃ u, t.seq? q.slot = some u ∧ u.width = w ∧ u.view = (q.view + 1) % 65536 ∧ u.state = 1 ∧ u.pend = 0)
    ∧ (Issues (.gset d sq n) s r → may q w → q.tokens ≠ 0 → Goes (exec (.gset d sq n) s) fun t => tells t 0
        ∧ ∃ u m, t.seq? q.slot = some u ∧ u.width = q.width ∧ u.pend = w ∧ u.state = 2 ∧ u.move = some m ∧ m.width = w
          ∧ m.phase = 0 ∧ m.pos = 0)
    ∧ (∀ u, Issues (.gsetX d sq n) s r → s.r37 [⟨.shr, w, 256, 16, false, 0⟩] = none →
        NoneBefore s r.lanes (s.bytesAt .shr w 256 0 0) →
        (let b (o k : Nat) := leNat ((((s.bytesAt .shr w 256 0 0).map s.rd).drop o).take k)
         q.ofImage b = some u → b 2 1 = u.width → Goes (exec (.gsetX d sq n) s) fun t => tells t 0 ∧ t.seq? q.slot = some u))

/-- R150, R151, R160 to R163, R297: addresses of positions, appends, truncations and forks, and the free list: a block that a
virtual function takes is no longer free, and counts until it is given back.
R149: the layout of positions: every position has one place, and its rank is one of the members. What a block that was last written
under another key pair holds (R391) is left open (log 73).
What is the model's own reading or choice in it: log 27, 38, 41, 73. -/
def Obligations.KvInstructions : Prop :=
  (∀ (s : State) (r : Run) (d sq : Opd) (n : Fin 64) (q : Seq),
     let named : Prop := s.seqOf (s.w.scal r sq) = some q ∧ s.linked (s.homeNo q.slot) = true
     let turn : Prop := q.held = false ∧ q.queue = []
     let tells (t : State) (v : Word) : Prop := (Holds t d r.lanes fun _ => v) ∧ OnlyWrites s t d 1 r.lanes
       ∧ t.w.run = some (r.behind 4)
     let p := (s.w.idxS n).toNat
     let x := place q.width q.gran q.tokens
     let b := (s.w.scal r sq).toNat
     (Issues (.kvx d sq n) s r → named → d.kind = 1 → Goes (exec (.kvx d sq n) s) fun t => OnlyWrites s t d 2 r.lanes
         ∧ (∀ a, t.rd a = s.rd a) ∧ ∀ l, has r.lanes l = true →
           let pos := (s.w.getV n.val l).toNat
           let y := place q.width q.gran pos
           t.w.src64 d l = if q.tokens ≤ pos then 0 else match q.entry y.1 y.2.1 with | some e => s.kvAddr q e y.2.2 | none => 0)
     ∧ (Issues (.kvapp d sq n) s r → named → turn → p < q.tokens → Goes (exec (.kvapp d sq n) s) fun t =>
         tells t (BitVec.ofNat 32 p) ∧ t = { s with w := t.w })
     ∧ (∀ o, Issues (.kvapp d sq n) s r → named → turn → p = q.tokens → q.tokens < 2 ^ 32 - 1 → x.2.2 ≠ 0 →
         q.entry x.1 x.2.1 = some o → (∀ k, s.blockOf o = some k → k.refc ≤ 1) → Goes (exec (.kvapp d sq n) s) fun t =>
           tells t (BitVec.ofNat 32 p) ∧ t.seq? q.slot = some { q with tokens := q.tokens + 1 } ∧ ∀ a, t.rd a = s.rd a)
     ∧ (Issues (.kvfree d sq n) s r → named → turn → p ≤ q.tokens → q.move = none → q.policy ≠ 1 →
         Goes (exec (.kvfree d sq n) s) fun t => ∃ u, t.seq? q.slot = some u ∧ u.tokens = p
           ∧ (∀ e, e ∈ u.fst ↔ e ∈ q.fst ∧ placeInv q.width q.gran e.rank e.blk 0 < p) ∧ (∀ a, t.rd a = s.rd a)
           ∧ tells t (BitVec.ofNat 32 (cutEntries q.width q.gran p q.fst).length))
     ∧ (∀ o, Issues (.kvfork d sq n) s r → named → s.seqOf (s.w.idxS n) = some o → s.ownSlot q = true → s.ownSlot o = true →
         q.tokens = 0 → q.state = 1 → o.state = 1 →
         r.entry = 0 → (s.share (sortEntries o.fst) 0).2.1 = none → Goes (exec (.kvfork d sq n) s) fun t =>
           ∃ u, t.seq? q.slot = some u ∧ u.tokens = o.tokens ∧ u.width = o.width ∧ u.members = o.members
             ∧ u.fst.length = o.fst.length ∧ tells t (BitVec.ofNat 32 o.fst.length) ∧ ∀ a, t.rd a = s.rd a)
     ∧ (∀ k u, Issues (.flpop d sq) s r → b ≤ 1 → s.popBlock s.g.part s.g.vf s.myChip b = some (k, u) →
         Goes (exec (.flpop d sq) s) fun t => tells t (BitVec.ofNat 32 (b * 2 ^ 23 + k))
           ∧ ∃ y, t.kv = y :: s.kv ∧ y.block = k ∧ y.tier = b ∧ y.part = s.g.part ∧ y.vf = s.g.vf ∧ y.refc = 1
             ∧ (∀ a, a / 2 ^ 14 ≠ y.frame → t.rd a = s.rd a)
             ∧ ((∀ x ∈ s.md.keyed, x.1 = y.frame → x.2 = s.keySerial y.key) → ∀ a, t.rd a = s.rd a))
     ∧ (∀ k, Issues (.flpush d sq) s r → b < 2 ^ 24 → s.kvBlock s.myChip (b / 2 ^ 23) (b % 2 ^ 23) = some k → k.chip < 8 →
         k.part = s.g.part → k.vf = s.g.vf → k.refc = 1 → Goes (exec (.flpush d sq) s) fun t => tells t 1 ∧ k ∉ t.kv ∧ ∀ a, t.rd a = s.rd a))
  ∧ (∀ (w gran p : Nat), 0 < w →
       let x := place w gran p
       x.1 < w ∧ x.2.2 < 64 ∧ placeInv w gran x.1 x.2.1 x.2.2 = p
       ∧ ∀ p', place w gran p' = x → p' = p)

/-- R157 to R159: a lap that its member may issue is taken in with the run's triples; at the highest rank, at its deadline or
with the message of the rank above it completes: its lanes receive the merged triples and the cover, and the rank below
a message; `glate` returns the result once every rank is covered or its time has passed, or what an earlier one has answered.
What is the model's own reading or choice in it: log 44, 45. -/
def Obligations.Laps : Prop :=
  ∀ (s : State) (r : Run) (d sq : Opd) (n : Fin 64) (q : Seq) (l : Lap) (m : LapMsg),
    let lap := (s.w.idxS n).toNat
    let mem := s.member q.slot s.myChip
    let triple (n : Nat) (tr : Triples) (c : Dword) (i j : Nat) : Word :=
      if j < n + 2 then (tr.getD i []).getD j 0 else BitVec.ofNat 32 (c.toNat / 2 ^ (32 * (j - (n + 2))))
    let ends (i : Instr) (tr : Triples) (c : Dword) : Prop := Goes (exec i s) fun t =>
      t.laps = s.laps.filter (fun x => x.id != l.id) ∧ (∀ a, t.rd a = s.rd a)
      ∧ (l.rank ≠ 0 → s.linked ((((s.seq? l.slot).map fun q => q.viewOf l.lap).getD []).getD (l.rank - 1) 0) = true →
          t.msgs.getLast? = some ⟨l.id, l.slot, l.lap, l.rank, l.rank - 1, l.n, c, tr⟩)
      ∧ (t.member l.slot l.chip).result = some (l.lap, l.width, tr, c)
      ∧ (s.isSel l.gid l.wid = false → t.w = s.w)
      ∧ ∀ k, s.isSel l.gid l.wid = true → Opd.ofBits l.reg = .v k →
          (∀ j i, j < l.n + 4 → k.val + j < s.w.nregs → k.val + j < l.cap → has l.lanes i = true → has s.w.live i = true →
            t.w.getV (k.val + j) i = triple l.n tr c i j)
          ∧ (∀ p i, i < 64 → ¬ (k.val ≤ p ∧ p < k.val + l.n + 4 ∧ has l.lanes i = true) → t.w.getV p i = s.w.getV p i)
          ∧ t.w.s = s.w.s ∧ t.w.x = s.w.x ∧ t.w.m = s.w.m ∧ t.w.flg = s.w.flg
    let own : Dword := BitVec.ofNat 64 (2 ^ l.rank)
    let found : Prop := s.laps.find? (fun x => x.id == l.id) = some l
    (∀ k, Issues (.gstep d sq n) s r → s.seqOf (s.w.scal r sq) = some q → lapRegsOk s d q.hdim = true →
      s.meetsLong r d (q.hdim + 4) = false → mem.holds lap = false →
      rankIn (q.viewOf lap) s.myChip = some k → (mem.issued = true → mem.last < lap) → Goes (exec (.gstep d sq n) s) fun t =>
        RunsOn s t r 4 ∧ (∀ a, t.rd a = s.rd a) ∧ (t.member q.slot s.myChip).last = lap
        ∧ ∃ x, t.laps = s.laps ++ [x] ∧ x.lap = lap ∧ x.rank = k ∧ x.width = (q.viewOf lap).length ∧ x.lanes = r.lanes
          ∧ x.reg = d.toNat ∧ x.n = q.hdim
          ∧ ∀ i j, has r.lanes i = true → j < q.hdim + 2 → (x.own.getD i []).getD j 0 = s.w.getV (d.toNat + j) i)
    ∧ (found → l.rank + 1 = l.width → ends (.lapMessage l.id) l.own own)
    ∧ (∀ t0, found → l.rank + 1 < l.width → l.due = some t0 → t0 ≤ s.cyc l.core → ends (.lapDeadline l.id) l.own own)
    ∧ (found → l.rank + 1 ≠ l.width → s.lapMsg? l = some m → (∀ t0, l.due = some t0 → s.cyc l.core ≤ t0) →
        ends (.lapMessage l.id) (mergeAll m.triples l.own) (m.cover ||| own))
    ∧ (∀ n' w tr c u v, Issues (.glate d sq) s r → s.seqOf (s.w.scal r sq) = some q → lapRegsOk s d q.hdim = true →
        rankIn q.current s.myChip = some 0 → mem.result = some (n', w, tr, c) →
        (mem.lateOf n' = none ∧ u = (s.lateOf q n').foldl (fun x e => mergeAll e.2 x) tr
            ∧ v = (s.lateOf q n').foldl (fun x e => x ||| e.1) c ∨ mem.lateOf n' = some (u, v)) → s.w.live = BitVec.allOnes 64 →
        (mem.lateOf n' = none → s.hbmRoomAll q.part q.vf ((q.lateRanks n').flatMap fun k => (s.latePlaces q k).getD []) = true) →
        ((∀ k, k < w → c.getLsbD k = true) ∨ s.gtimer s.g.id s.w.idx = some 0) → Goes (exec (.glate d sq) s) fun t =>
          (∀ a, t.rd a = s.rd a) ∧ t.w.run = some (r.behind 4) ∧ OnlyWrites s t d (q.hdim + 4) r.lanes
          ∧ ∀ j i, j < q.hdim + 4 → has r.lanes i = true → t.w.getV (d.toNat + j) i = triple q.hdim u v i j)
    ∧ (∀ gid wid t0 g, s.gtimer gid wid = some t0 → s.group? gid = some g → t0 ≤ s.cyc (16 * g.chip + g.core) →
        Goes (exec (.glateTimeout gid wid) s) fun t => t.gtimer gid wid = some 0 ∧ t = { s with gtimers := t.gtimers })
    ∧ (s.msgs.find? (fun x => x.id == m.id) = some m → s.seq? m.slot = some q → s.passedOver q m = true →
        (q.lbuf = 0 ∨ m.lap < q.latelap) → Goes (exec (.lateArrival m.id) s) fun t =>
          t = { s with msgs := s.msgs.filter fun y => y != m, parts := t.parts })
    ∧ (∀ ks, s.msgs.find? (fun x => x.id == m.id) = some m → s.seq? m.slot = some q → s.passedOver q m = true →
        q.lbuf ≠ 0 → q.latelap ≤ m.lap → s.vaWaits q.part q.vf true ((m.late q.lbuf).map Prod.fst) = false →
        s.vaPlaces q.part q.vf true ((m.late q.lbuf).map Prod.fst) = some ks → s.partial? ks = none →
        s.hbmRoomAll q.part q.vf ks = true → s.Inv →
        Goes (exec (.lateArrival m.id) s) fun t =>
          m ∉ t.msgs ∧ (∀ a, a ∉ ks → t.rd a = s.rd a) ∧ (ks.Nodup → ks.map t.rd = (m.late q.lbuf).map Prod.snd)
          ∧ ∃ u, t.seq? m.slot = some u ∧ u.latelap = m.lap
            ∧ u.latemask.getLsbD m.src = decide (m.src < 64))

/-- R153 to R155: how a move goes on: the walk over a position that both views keep in place, SWITCH at its end, the members'
holds and replies, CUT beyond every lap that a member has admitted, the reports, the new view after the last of them, and an
abandoned move.
R155: ABORT releases what a member holds, and its acknowledgement ends the home's wait for it.
What is the model's own reading or choice in it: log 39, 42, 116. -/
def Obligations.GangMoves : Prop :=
  (∀ (s : State) (q : Seq) (m : Move) (c : Nat), s.seq? q.slot = some q → q.move = some m → c ∈ q.both →
     let k := q.slot
     let x := s.member k c
     let admitted : Prop := ∀ h ∈ x.held, m.cut ≤ h.2.2 ∨ s.stands h.1 h.2.1 = false
     let now (t : State) (u : Seq) : Prop := t.seq? k = some u ∧ t.mem = s.mem ∧ t.w = s.w ∧ t.g = s.g
     (m.phase = 0 → m.pos < q.tokens → q.keeps m.width (place m.width q.gran m.pos).1 (place m.width q.gran m.pos).2.1 = true →
       Goes (exec (.gangWalk k) s) fun t => now t { q with move := some { m with pos := m.pos + 1 } })
     ∧ (m.phase = 0 → q.tokens ≤ m.pos → q.aborting = [] → Goes (exec (.gangWalk k) s) fun t =>
         now t { q with state := 3, move := some { m with phase := 1, since := s.homeCyc k } })
     ∧ (m.phase = 1 → s.linked c = true → x.hold = 0 → Goes (exec (.switchMsg k c) s) fun t =>
         now t q ∧ t.member k c = { x with hold := 1, bound := x.last })
     ∧ (m.phase = 1 → x.hold = 1 → m.replies.lookup c = none → (∃ y ∈ q.both, y ≠ c ∧ m.replies.lookup y = none) →
         Goes (exec (.switchReply k c) s) fun t => now t { q with move := some { m with replies := (c, x.bound) :: m.replies } })
     ∧ (m.phase = 1 → x.hold = 1 → m.replies.lookup c = none → (∀ y ∈ q.both, y ≠ c → m.replies.lookup y ≠ none) →
         Goes (exec (.switchReply k c) s) fun t => ∃ u, now t u ∧ (∃ n, u.move = some n ∧ n.phase = 2 ∧ n.cut = u.cut)
           ∧ u.cut < 2 ^ 32 ∧ (x.bound < 2 ^ 32 - 1 → (∀ y ∈ m.replies, y.2 < 2 ^ 32 - 1) →
             x.bound < u.cut ∧ ∀ y ∈ m.replies, y.2 < u.cut))
     ∧ (m.phase = 2 → s.linked c = true → x.hold = 1 → Goes (exec (.cutMsg k c) s) fun t =>
         now t q ∧ t.member k c = { x with hold := 2, bound := m.cut })
     ∧ (m.phase = 2 → x.hold = 2 → c ∉ m.reports → (∀ l ∈ s.laps, l.slot = k → l.chip = c → m.cut ≤ l.lap) → admitted →
         (∃ y ∈ q.both, y ≠ c ∧ y ∉ m.reports) → Goes (exec (.lapReport k c) s) fun t =>
           now t { q with move := some { m with reports := c :: m.reports } })
     ∧ (m.phase = 2 → x.hold = 2 → c ∉ m.reports → (∀ l ∈ s.laps, l.slot = k → l.chip = c → m.cut ≤ l.lap) → admitted →
         (∀ y ∈ q.both, y ≠ c → y ∈ m.reports) → q.tokens ≤ m.begun → Goes (exec (.lapReport k c) s) fun t => ∃ u, now t u
           ∧ u.width = m.width ∧ u.view = (q.view + 1) % 65536 ∧ u.state = 1 ∧ u.pend = 0 ∧ u.move = none ∧ u.cut = q.cut
           ∧ ∀ y ∈ q.both, (t.member k y).hold = 0)
     ∧ (m.phase = 1 → m.replies.lookup c = none → m.since + 2 ^ 24 ≤ s.homeCyc k → Goes (exec (.switchTimeout k c) s) fun t =>
         ∃ u, now t u ∧ u.state = 1 ∧ u.pend = 0 ∧ u.move = none ∧ u.lasterr = 3 ∧ u.cut = m.oldCut ∧ u.width = q.width
           ∧ u.aborting = q.both.map fun y => (y, false)))
  ∧ (∀ (s : State) (q : Seq) (c : Nat), s.seq? q.slot = some q →
       (q.aborting.lookup c = some false → s.linked c = true → Goes (exec (.abortMsg q.slot c) s) fun t =>
         (t.member q.slot c).hold = 0 ∧ ∃ u, t.seq? q.slot = some u ∧ u.aborting.lookup c = some true)
       ∧ (q.aborting.lookup c = some true → Goes (exec (.abortAcknowledgement q.slot c) s) fun t =>
         t.seq? q.slot = some { q with aborting := q.aborting.filter fun p => p.1 != c } ∧ t = { s with seqs := t.seqs }))

/-! ### Launch, scheduling and pre-emption -/

/-- R347 to R351, R356: a launch record at a queue's head that is not refused, and needs no page that is migrating, takes effect
by its kind: nothing, a grid whose groups are shared among its chips, an open slot, a closed one; and a record whose work is done completes.
R348: every queue's tail register holds what was last written to it; the host's writes take effect in their order (R353).
What is the model's own reading or choice in it: log 30, 31, 119, 120. -/
def Obligations.LaunchRecords : Prop :=
  ∀ (s : State) (p v n : Nat) (a : Partition) (f : Vf) (x : LaunchQ) (y : Fetched) (k : Kernel),
    s.part? p = some a → s.vf? p v = some f → f.queue? n = some x → 
    let got (kind : Nat) : Prop := a.stopped = false ∧ s.fetch p v x = .got y ∧ y.l.kind = kind ∧ s.refusal a f y.l = 0
      ∧ s.recordHere p v y.addr y.l.done y.l.kh = true
    let named : Prop := y.next.kernelAt p v y.l.kh = some k
    let keeps (t : State) : Prop := t.w = s.w ∧ t.g = s.g ∧ t.groups = s.groups ∧ t.pend = s.pend
    (∀ w, s.behindHost p v = false → Goes (exec (.qtail p v n w) s) fun t => keeps t ∧ t.mem = s.mem
      ∧ ∃ g, t.vf? p v = some g
        ∧ g.queue? n = some { x with tail := w.toNat % 65536, again := x.again && s.queueOff p v x })
    ∧ (∀ (m : Nat) w, s.behindHost p v = false → Goes (exec (.qtail p v m w) s) fun t => keeps t ∧ t.mem = s.mem
      ∧ ∃ g, t.vf? p v = some g ∧ g.tailOf m = w.toNat % 65536 ∧ ∀ j, j ≠ m → g.tailOf j = f.tailOf j)
    ∧ (∀ ks, got 0 → y.l.done = 0 → y.next.Inv → y.next.vaRun p v (y.addr + 4) 4 true = some ks → ks.Nodup →
      Goes (exec (.launchNone p v n) s) fun t => keeps t ∧ readLE t.mem ks = 2 ∧ ∀ q, q ∉ ks → t.rd q = y.next.rd q)
    ∧ (got 1 → named → y.l.groups k ≠ 0 → Goes (exec (.grid p v n) s) fun t => keeps t ∧ ∃ r, t.records = s.records ++ [r]
        ∧ r.id = s.nextId ∧ r.part = p ∧ r.vf = v ∧ r.kern = k ∧ r.addr = y.addr ∧ r.chips = y.l.chipList a
        ∧ (r.todo.flatMap Prod.snd).Perm (List.range (y.l.groups k)) ∧ r.todo.map Prod.fst = r.chips)
    ∧ (got 2 → named → Goes (exec (.openSlot p v n) s) fun t => keeps t ∧ ∃ z, t.slot? p v y.l.slot = some z
        ∧ z.kern = k ∧ z.closed = false ∧ z.maxg = y.l.maxg ∧ z.chips = y.l.chips)
    ∧ (got 3 → Goes (exec (.closeSlot p v n) s) fun t => keeps t ∧ (∀ z, t.slot? p v y.l.slot = some z → z.closed = true)
        ∧ ∃ r, t.records = s.records ++ [r] ∧ r.kind = 3 ∧ r.slot = y.l.slot ∧ r.part = p ∧ r.vf = v)
    ∧ ∀ r, s.records.find? (fun q => q.id == r.id) = some r → s.recordDone r = true →
      s.recordHere r.part r.vf r.addr r.done r.addr = true → Goes (exec (.recordComplete r.id) s) fun t => keeps t
          ∧ t.records = s.records.filter fun q => q.id != r.id

/-- R6, R7, R335, R354 to R356: the group that is next becomes resident on a core with room, its warps at the kernel's entry
with all lanes live and the argument in s2 and s3; a chip with none left takes groups of a record from another.
R132, R133, R355: a Posted task whose slot and core have room is Claimed by a group of its own there; then it runs, from its entry.
What is the model's own reading or choice in it: log 22, 32, 70, 95, 104, 118. -/
def Obligations.GroupDispatch : Prop :=
  (∀ (s u : State) (chip p v core n : Nat) (rest : List Nat) (f : Vf) (r : Record) (seat : Seat) (thief victim : Nat),
     (s.partCore p chip core = true → s.takeSlice chip p v = some u → u.vf? p v = some f → u.nextRecord f chip p = some r →
       r.todo.find? (fun t => t.1 == chip) = some (chip, n :: rest) → 
       u.seat? chip core r.kern r.kern.warps (r.kern.warps * r.kern.regs) 0 = some seat → r.kern.consz = 0 →
       Goes (exec (.groupDispatch chip p v core) s) fun t => (∀ a, t.rd a = u.rd a)
         ∧ (∀ y ∈ t.records, y.id = r.id → u.nextId ∈ y.gids)
         ∧ ∃ g, t.groups = u.groups ++ [g] ∧ g.id = u.nextId ∧ g.chip = chip ∧ g.core = core ∧ g.part = r.part ∧ g.vf = r.vf
           ∧ g.kern = r.kern ∧ g.coord = BitVec.ofNat 64 (coordOf r.kern r.ext n) ∧ g.others.length = r.kern.warps
           ∧ ∀ w ∈ g.others, w.pcs = [⟨r.kern.entry, BitVec.allOnes 64⟩] ∧ w.live = BitVec.allOnes 64 ∧ w.nregs = r.kern.regs
             ∧ w.getS 3 ++ w.getS 2 = r.arg)
     ∧ (s.records.find? (fun q => q.id == r.id) = some r → s.mayStealNow r thief victim = true → (r.todo.map Prod.fst).Nodup →
       thief ∈ r.todo.map Prod.fst → Goes (exec (.stealRequest r.id thief victim) s) fun t => ∃ q,
         t.records.find? (fun y => y.id == r.id) = some q ∧ q.left victim ++ q.left thief = r.left victim ∧ q.left thief ≠ []
         ∧ (∀ c, c ≠ thief → c ≠ victim → q.left c = r.left c) ∧ t.w = s.w ∧ t.mem = s.mem))
  ∧ (∀ (s u : State) (chip p v core k pr : Nat) (q : Ready) (x : TaskSlot),
       s.partCore p chip core = true → s.takeSlice chip p v = some u → u.Inv →
       u.bestPrio chip p v (u.ofChip chip p v) = some pr → (u.ofChip chip p v).find? (fun y => y.prio == pr) = some q →
       u.unitAt chip p v q.rec_ 64 = .ok k → u.slot? p v (u.recSlot k) = some x → x.chips.testBit chip = true →
       (x.maxg = 0 ∨ u.slotGroups chip p v x.slot < x.maxg) → u.recState k = 1 → objKind q.rec_ = 2 → x.kern.consz = 0 →
       (∃ seat, u.seat? chip core x.kern x.kern.warps (x.kern.warps * x.kern.regs) 0 = some seat) →
       (∀ g ∈ u.allGroups, g.id ≠ u.nextId) → u.nextId ≠ 0 → Goes (exec (.taskDispatch chip p v core) s) fun t =>
         q ∉ t.ready ∧ t.recState k = 2 ∧ (∀ a, a ≠ k + 40 → t.rd a = u.rd a)
         ∧ ∃ g ∈ t.groups, g.id = u.nextId ∧ g.chip = chip ∧ g.core = core ∧ g.part = p ∧ g.vf = v ∧ g.task = q.rec_
           ∧ g.slot = x.slot ∧ g.serves = true ∧ g.others = [] ∧ g.claim = some (x.kern.warps, x.kern.warps * x.kern.regs, x.slot))
  ∧ (∀ (s : State) (k : Nat) (g : Group) (c : Nat × Nat × Nat) (x : TaskSlot),
       s.group? g.id = some g → g.claim = some c → g.isSaved = false → s.unitAt g.chip g.part g.vf g.task 64 = .ok k →
       s.slot? g.part g.vf c.2.2 = some x → x.kern.consz = 0 → g.helpd = 0 → s.Inv →
       let t := s.startTask g.id
       t.recState k = 3 ∧ (∀ a, a ≠ k + 40 → t.rd a = s.rd a)
       ∧ ∃ h, t.group? g.id = some h ∧ h.claim = none ∧ h.task = g.task ∧ h.coord = s.rdD (k + 16)
         ∧ h.others.length = x.kern.warps ∧ ∀ w ∈ h.others, w.pcs = [⟨s.rdN k 8, BitVec.allOnes 64⟩])

/-- R26 to R32, R354, R374, R375: a slice that has run out passes the cores on; a group that can stop leaves its core with its
SRAM saved; a saved group stands on a core with room again; a core dead in `rgrow` loses a group.
What is the model's own reading or choice in it: log 22, 24, 88, 94. -/
def Obligations.Preemption : Prop :=
  ∀ (s u : State) (chip p gid core v : Nat) (g : Group) (o : SliceOwner) (seat : Seat),
    (s.group? gid = some g → gid ≠ 0 → s.canStop g = true → Goes (exec (.preemptStop gid) s) fun t =>
      ((∀ q ∈ s.objq, q.gid ≠ gid) → g.frame = none → ∀ a, a < areaKey 0 0 0 → t.rd a = s.rd a)
      ∧ ∃ h, t.group? gid = some h ∧ h.stand = .saved ∧ h.kern = g.kern ∧ h.room = g.room
        ∧ ((∀ q ∈ s.objq, q.gid ≠ gid) → h.savedShr = s.shrImage g))
    ∧ (s.group? gid = some g → g.isSaved = true → gid ≠ 0 → s.partCore g.part g.chip core = true →
      s.roomToResume g = true →
      s.unselect.takeSlice g.chip g.part g.vf = some u →
      u.seat? g.chip core g.shape g.slots g.regs g.savedTiles.length = some seat →
      Goes (exec (.groupResume gid core) s) fun t => ∃ h, t.group? gid = some h ∧ h.stand = .resident ∧ h.core = core
        ∧ h.room = seat.room ∧ h.win = seat.win ∧ h.others.length = g.others.length ∧ h.kern = g.kern)
    ∧ (s.growDead chip core = true → s.onCore chip core = [g] → g.sys = false → g.id ≠ 0 →
      Goes (exec (.rgrowDeadlockPreempt chip core) s) fun t => ∃ h, t.group? g.id = some h ∧ h.stand ≠ .resident)
    ∧ (s.owner? chip p = some o → o.next = none → o.since + o.len ≤ s.chipCyc chip → s.nextVf chip p o.vf = some o.vf →
      Goes (exec (.vfSliceEnd chip p) s) fun t => t.w = s.w ∧ t.mem = s.mem ∧ t.groups = s.groups
        ∧ ∃ q, t.owner? chip p = some q ∧ q.vf = o.vf ∧ q.since = s.chipCyc chip ∧ q.next = none)
    ∧ (s.owner? chip p = some o → o.next = none → o.since + o.len ≤ s.chipCyc chip → s.nextVf chip p o.vf = some v → v ≠ o.vf →
      s.standing chip p o.vf = [] → Goes (exec (.vfSliceEnd chip p) s) fun t => t.w = s.w ∧ t.mem = s.mem
        ∧ ∃ q, t.owner? chip p = some q ∧ q.vf = v ∧ q.since = s.chipCyc chip ∧ q.next = none)

/-- R361 to R366: a mailbox request that nothing keeps back and that is right changes its virtual function's table, tags or
queues and is answered; a page that migrates is write-protected, then copied, then stands in its new frame.
R366: the three steps of a page's migration. The places `viewAt` of a frame are the frame itself and what it holds as seen under other
key pairs (R391, log 73), which the page takes along.
What is the model's own reading or choice in it: log 21, 22, 59, 71, 73. -/
def Obligations.MailboxRequests : Prop :=
  (∀ (s : State) (p v : Nat) (f : Vf) (q : MailReq) (rest : List MailReq) (ks : List Nat),
     s.vf? p v = some f → f.mail = q :: rest → s.holdsKind 2 = false → s.behindHeld q = false → f.working q = false →
     q.addr % 64 = 0 → s.vaRun p v q.addr 64 false = some ks → s.vaAway p v (q.addr + 4) 4 true = false →
     let m := mailOf (ks.map s.rdMain)
     let ls := m.leaves f
     let quiet : Prop := ∀ l ∈ ls, l.dest = none ∧ recSlot l.pa = none
     let turns (i : Instr) (c : State → Vf → Prop) : Prop := Goes (exec i s) fun t => t.w = s.w ∧ t.g = s.g
       ∧ ∃ g, t.vf? p v = some g ∧ c t g
     let answered (g : Vf) : Prop := g.mail = f.mail.filter fun x => x.id != q.id
     (∀ fs, m.op = 1 → m.bad f = false → m.moff % pageBytes m.size = 0 → (m.tc = false ∨ m.tier = 0) → m.framesIn s f = some fs →
       s.guestKey p v m.key = true → m.overlaps f = false → m.mixes f = false → m.crowds f = false → turns (.map p v) fun _ g => answered g
         ∧ g.table = (m.pages.zip fs).map (fun x => ⟨x.1, m.size, x.2, m.w, m.tc, m.key, true, false, none, 0⟩) ++ f.table)
     ∧ (m.op = 2 → m.bad f = false → m.allMapped f = true → quiet → turns (.unmap p v) fun _ g => answered g
         ∧ ∀ l, l ∈ g.table ↔ l ∈ f.table ∧ l ∉ ls)
     ∧ (m.op = 3 → m.bad f = false → (m.tc = false ∨ ∀ l ∈ ls, tierOf l.pa ≠ 1) → s.guestKey p v m.key = true →
       m.allMapped f = true → quiet → turns (.protect p v) fun _ g => answered g
         ∧ g.table = f.table.map fun l => if l ∈ ls then { l with w := m.w, tc := m.tc, key := m.key } else l)
     ∧ (m.op = 4 → m.bad f = false → (∀ l ∈ ls, tierOf l.pa ≠ 1) → m.allMapped f = true → quiet →
       turns (.settag p v) fun t g => answered g ∧ g.table = f.table
         ∧ ∀ l ∈ ls, ∀ j, j < pageBytes l.size / 64 → getKey t.tagsMem (l.pa / 64 + j) 0 = BitVec.ofNat 4 m.tag)
     ∧ (∀ tb, m.op = 5 → m.bad f = false → (m.tier = 0 ∨ ∀ l ∈ ls, l.tc = false) → m.allMapped f = true →
       (∀ l ∈ ls, tierOf l.pa ≠ m.tier) → m.tier < 2 → quiet → s.chooseFrames f m.tier q.id ls f.table = some tb →
       turns (.move p v) fun t g => g.mail = f.mail ∧ g.table = tb ∧ t.mem = s.mem)
     ∧ (∀ kd, m.op = 6 → s.vaRun p v m.qdesc 32 false = some kd → m.zero = true → m.flags / 2 ^ 20 = 0 → m.qnum ≤ 63 →
         queueDescOk (kd.map s.rdMain) = true →
       turns (.regq p v) fun _ g => answered g
         ∧ g.queue? m.qnum = some ⟨m.qnum, m.qdesc, f.tailOf m.qnum, false⟩))
  ∧ (∀ (s : State) (p v tier d : Nat) (f : Vf) (l : Leaf), s.vf? p v = some f → f.table.find? (fun x => x.va == l.va) = some l →
       l.dest = some d →
       let steps (c : State → Leaf → Prop) : Prop := Goes (exec (.pageMigration p v l.va tier) s) fun t => t.w = s.w ∧ t.g = s.g
         ∧ ∃ g x, t.vf? p v = some g ∧ g.table.find? (fun x => x.va == l.va) = some x ∧ c t x
       (l.v = true → l.mig = false → steps fun t x => x = { l with mig := true } ∧ t.mem = s.mem)
       ∧ (l.v = true → l.mig = true → s.Inv → (l.pa + pageBytes l.size ≤ d ∨ d + pageBytes l.size ≤ l.pa) →
         steps fun t x => x = { l with v := false } ∧ (∀ j, j < pageBytes l.size → t.rd (d + j) = s.rd (l.pa + j))
           ∧ ∀ a, (∀ no, a ∉ places (viewAt d no) (pageBytes l.size)) → t.rd a = s.rd a)
       ∧ (l.v = false → s.statusAway p v l = false → steps fun _ x => x = { l with pa := d, v := true, mig := false, dest := none, req := 0 }))

/-- R390, R392 to R395: an interval's record closes with the next number and the counts start again; a sample adds the blocks
held; a window refills the allowances of its chip.
What is the model's own reading or choice in it: log 69, 77, 91. -/
def Obligations.Metering : Prop :=
  ∀ (s : State) (p v : Nat) (q : Partition) (f : Vf) (chip : Nat),
    let keeps (t : State) : Prop := t.w = s.w ∧ t.g = s.g ∧ t.groups = s.groups
    (s.part? p = some q → s.vf? p v = some f → f.opened + q.intv * 2 ^ 20 ≤ s.clk.hub → s.canClose p = true → q.ring = none →
      Goes (exec (.usageIntervalEnd p v) s) fun t => keeps t ∧ t.mem = s.mem
        ∧ (t.logOf p).seq = (s.logOf p).seq + 1 ∧ (t.logOf p).closed.length = (s.logOf p).closed.length + 1
        ∧ ∃ g, t.vf? p v = some g ∧ g.issue = 0 ∧ g.passes = [] ∧ g.hbmBytes = 0 ∧ g.fabBytes = 0 ∧ g.kvhold = 0
          ∧ g.opened = s.clk.hub)
    ∧ (s.md.sampled + 1200000 ≤ s.clk.hub → s.vf? p v = some f → Goes (exec .kvholdSample s) fun t => keeps t ∧ t.mem = s.mem
        ∧ t.md.sampled = s.md.sampled + 1200000 ∧ t.vf? p v = some { f with kvhold := f.kvhold + f.kvHeld })
    ∧ (getKey s.md.windows chip 0 + 12000 ≤ s.clk.hub → Goes (exec (.quotaWindow chip) s) fun t => keeps t ∧ t.mem = s.mem
        ∧ getKey t.md.windows chip 0 = getKey s.md.windows chip 0 + 12000
        ∧ ∀ u ∈ t.uses, u.chip = chip → u.hbm = 0 ∧ u.copy = 0)

/-! ### Return from a trap, delivery, the operator, firmware and links -/

/-- R212, R367 to R370: in a system warp that holds a trap taken at issue, `rfe` with action 0 sends the trapped lanes back to
the instruction, with action 1 to behind the clause; the segment registers of the record that SET names are taken over, the
group can trap again, and the system warp holds nothing more. A system warp is started with the trap record at the start of its
`shr`.
What is the model's own reading or choice in it: log 28. -/
def Obligations.ReturnFromTrap : Prop :=
  ∀ (s : State) (a : Opd) (r q : Run) (h : TrapRec) (g : Group) (w : Warp) (t : Trapped),
    let seg (v : Warp) : Prop := ∀ k, k < 6 → v.getSeg k =
      if (s.rdN (s.g.shrBase + 48) 4).testBit k then s.rdD (s.g.shrBase + 56 + 8 * k) else w.getSeg k
    let returns (act : Nat) (p : State → Warp → Prop) : Prop :=
      s.g.sys = true → s.g.holds = some h → h.gid ≠ s.g.id → s.group? h.gid = some g → s.warp? h.gid h.wid = some w →
      w.trapped = some t → t.point = .atIssue → t.run = some q → t.ops = [] → s.recordSegs g.chip ≠ none → Issues (.rfe a) s r →
      NoneBefore s r.lanes s.g.recordPlaces →
      (s.w.scal r a).toNat % 4 = act → Goes (exec (.rfe a) s) fun u => u.w = { s.w with run := some (r.behind 4) }
        ∧ u.g = { s.g with holds := none } ∧ u.mem = s.mem
        ∧ ∃ x v, u.group? h.gid = some x ∧ x.trapHeld = false ∧ u.warp? h.gid h.wid = some v ∧ v.trapped = none ∧ seg v ∧ p u v
    (h.repeated = false → returns 0 fun u v => u.pend = s.pend ∧ v = { w with seg := v.seg, trapped := none, resume := v.resume }
        ∧ v.resume = w.resume ++ [({ q with again := (h.cause == 7), entry := (s.resumeEntry h).getD q.entry }, t.x)])
    ∧ (h.cause ≠ 7 → (∀ y ∈ s.objq, y.gid = h.gid → y.wid ≠ h.wid) → returns 1 fun u v => u.pend = s.pend
        ∧ v = { w with seg := v.seg, trapped := none, pcs := insertSub w.pcs q.fall t.lanes })
    ∧ ∀ (chip part core : Nat) (z : Partition) (k : Kernel) (seat : Seat), s.nextTrap chip part = some (h, g) →
      s.part? part = some z → z.handler = some k → s.partCore part chip core = true → 128 ≤ k.shr → k.consz = 0 →
      s.seat? chip core k 1 k.regs 0 = some seat → s.warp? h.gid h.wid = some w → s.g.id < s.nextId →
      (∀ y ∈ s.groups, y.id < s.nextId) → s.Inv → Goes (exec (.trapDelivery chip part core) s) fun u =>
        u.w = s.w ∧ u.g = s.g ∧ u.traps = s.traps.filter (fun y => y != h)
        ∧ (places (poolKey chip core (seat.room.getD 0 (0, 0)).1) 128).map u.rd = h.bytes w
        ∧ (∀ p, p ∉ places (poolKey chip core (seat.room.getD 0 (0, 0)).1) 128 → u.rd p = s.rd p)
        ∧ ∃ x, u.groups = s.groups ++ [x] ∧ x.id = s.nextId ∧ x.sys = true ∧ x.holds = some h ∧ x.chip = chip ∧ x.core = core
          ∧ x.kern = k ∧ ∃ y, x.others = [y] ∧ y.pcs = [⟨k.entry, BitVec.allOnes 64⟩] ∧ y.live = BitVec.allOnes 64

/-- R71, R147, R363, R385 to R389, R391, R394: the oldest operator request, met by its OP: what a request that is in order
changes, and its STATUS; the bad ones are refused with 5, those that meet what stands in their way with 4. What the frames that come
under a new key pair, or lose theirs, then hold is left open (log 73).
What is the model's own reading or choice in it: log 22, 34, 35, 36, 73, 74, 80. -/
def Obligations.OperatorRequests : Prop :=
  ∀ (s : State) (q : MailReq) (rest : List MailReq) (bs d : List Byte) (y : Partition),
    s.md.opmail = q :: rest → s.Inv → s.holdsKind 1 = false → q.addr % 64 = 0 → s.physBytes q.addr 64 = some bs →
    let op := field bs 0 4
    let p := field bs 8 1
    let b := field bs 9 1
    let e := field bs 10 1
    let operand (n : Nat) : Prop := s.physBytes (field bs 16 8) n = some d
    let done (i : Instr) (c : State → Prop) : Prop := Goes (exec i s) fun t => c t ∧ t.w = s.w ∧ t.g = s.g
      ∧ t.md.opmail = s.md.opmail.filter fun x => x.id != q.id
    let answers (i : Instr) (st : Nat) (c : State → Prop) : Prop := done i fun t => c t
      ∧ readLE t.mem (places (q.addr + 4) 4) = st ∧ ∀ a, (a < q.addr + 4 ∨ q.addr + 8 ≤ a) → t.rd a = s.rd a
    let clear (f a : Nat) : Prop := ∀ no, a ∉ places (viewAt (f * 2 ^ 14) no) (2 ^ 14)
    let under (k : KeySlot) : List Nat := ((s.md.keyed.filter fun x => x.2 == k.serial).map Prod.fst)
      ++ (s.md.views.filter fun x => x.serial == k.serial).map KeyView.frame
    let loads (k : KeySlot) : Prop := done .kload fun t => t.md.keys = k :: s.md.keys
      ∧ readLE t.mem (places (q.addr + 4) 4) = 1
      ∧ ∀ a, (a < q.addr + 4 ∨ q.addr + 8 ≤ a) → (∀ f ∈ s.keyPages k ++ s.keyBlocks k, clear f a) → t.rd a = s.rd a
    let others := s.parts.filter fun x => x.idx != p
    let x := partDescOf d
    let z (hbm cxl : List Nat) : Partition :=
      { idx := p, clumask := BitVec.ofNat 32 x.clumask, pool := x.pool, pmodes := x.pmodes, vfn := x.vfn, degm := x.degm
        intv := x.intv, fpool := x.fpool, hbm := hbm, cxl := cxl, handler := none, ring := none, vfs := [] }
    (∀ hbm cxl, op = 16 → operand 64 → p < 24 → x.bad = false → s.partBusy p = false →
      (∀ o ∈ others, o.clumask.toNat &&& x.clumask = 0) → s.takeUnits (hbmUnits (maskChips x.clumask)) (s.unitsHeld p) x.hbmg = some hbm →
      s.takeUnits cxlUnits (s.unitsHeld p) x.cxlg = some cxl → s.slicesMove others (z hbm cxl) = false →
      s.canCloseVfs p = true → (∀ o, s.part? p = some o → o.ring = none) →
      answers .pset 1 fun t => t.parts = others ++ [z hbm cxl])
    ∧ (op = 16 → operand 64 → (23 < p ∨ x.bad = true) → answers .pset 5 fun t => t.parts = s.parts)
    ∧ (op = 16 → operand 64 → p < 24 → x.bad = false → s.partBusy p = true → answers .pset 4 fun t => t.parts = s.parts)
    ∧ (∀ kvw sq hbm cxl, op = 17 → operand 64 → s.part? p = some y → b < y.vfn → (vfDescOf d).bad = false →
      s.chooseKvw p b (vfDescOf d) = some kvw → s.assignSeqs p b (vfDescOf d).seqn y.chips = some sq →
      (let held := (y.vfs.filter fun f => f.vf != b).flatMap Vf.unitsUsed
       shareOf (y.hbm.take (y.hbm.length - poolUnits y.fpool y.chips.length)) held (vfDescOf d).hbmv = some hbm
       ∧ shareOf y.cxl held (vfDescOf d).cxlv = some cxl) →
      answers .vset 1 fun t => t.seqs = s.seqs ++ sq ∧ ∃ f, t.vf? p b = some f ∧ f.slice = (vfDescOf d).slice
        ∧ f.weight = (vfDescOf d).weight ∧ f.kvkey = (vfDescOf d).kvkey ∧ f.kvw = kvw ∧ f.hbm = hbm ∧ f.cxl = cxl
        ∧ (f.passq, f.hbmsh, f.cpysh, f.fabq, f.kvq, f.seqn) = ((vfDescOf d).passq, (vfDescOf d).hbmsh, (vfDescOf d).cpysh,
          (vfDescOf d).fabq, (vfDescOf d).kvq, (vfDescOf d).seqn)
        ∧ ∀ o, s.vf? p b = some o → f.table = o.table ∧ f.queues = o.queues ∧ f.mail = o.mail)
    ∧ (op = 17 → operand 64 → s.part? p = some y → (y.vfn ≤ b ∨ (vfDescOf d).bad = true) →
      answers .vset 5 fun t => t.parts = s.parts)
    ∧ (op = 18 → s.part? p = some y → (s.logOf p).closed.length + y.vfs.length ≤ 64 → Goes (exec .pdel s) fun t => t.part? p = none
        ∧ t.md.keys = s.md.keys.filter (fun k => k.part != p) ∧ (∀ k ∈ t.kv, k.part ≠ p) ∧ (∀ k ∈ t.seqs, k.part ≠ p)
        ∧ (∀ h ∈ t.hub, h.part ≠ p)
        ∧ ∀ a, y.zeroes a = true → (a < q.addr + 4 ∨ q.addr + 8 ≤ a) → t.rd a = 0)
    ∧ (op = 19 → operand 96 → p < 24 → answers .enroll 1 fun t => (t.logOf p).pubkey = BitVec.ofNat 768 (beNat d)
        ∧ (t.logOf p).events = (s.logOf p).events ∧ ∀ o, o ≠ p → t.logOf o = s.logOf o)
    ∧ (∀ f, op = 20 → p ≠ 0 → field bs 11 1 = 0 → s.vf? b e = some f → (∀ k ∈ s.md.keys, k.slot ≠ p) →
      loads ⟨p, b, e, Config.generatedKey s.md.keyGen, s.nextId + 1⟩)
    ∧ (∀ f k, op = 20 → p ≠ 0 → field bs 11 1 = 1 → s.vf? b e = some f → (∀ k ∈ s.md.keys, k.slot ≠ p) → operand 72 →
      Config.unwrapKey (s.logOf b).pubkey (BitVec.ofNat 576 (beNat d)) = some k →
      loads ⟨p, b, e, k, s.nextId + 1⟩)
    ∧ (∀ f k, op = 20 → p ≠ 0 → field bs 11 1 < 2 → s.vf? b e = some f → k ∈ s.md.keys → k.slot = p →
      answers .kload 4 fun t => t.md.keys = s.md.keys)
    ∧ (op = 21 → p ≠ 0 → (b.testBit 0 = true ∨ ∀ k ∈ s.md.keys, k.slot = p → s.keyUsed k = false) →
      done .kclr fun t => t.md.keys = s.md.keys.filter (fun k => k.slot != p) ∧ readLE t.mem (places (q.addr + 4) 4) = 1
        ∧ ∀ a, (a < q.addr + 4 ∨ q.addr + 8 ≤ a) → (∀ k ∈ s.md.keys, k.slot = p → ∀ f ∈ under k, clear f a) → t.rd a = s.rd a)
    ∧ (∀ k, op = 21 → p ≠ 0 → b.testBit 0 = false → k ∈ s.md.keys → k.slot = p → s.keyUsed k = true →
      answers .kclr 4 fun t => t.md.keys = s.md.keys)
    ∧ (op = 22 → s.part? p = some y → y.ring = none → s.canClose p = true → answers .lsign 1 fun t =>
      (t.logOf p).seq = (s.logOf p).seq + 1 ∧ (t.logOf p).closed.length = (s.logOf p).closed.length + 1)
    ∧ (∀ f, op = 24 → s.vf? p b = some f → answers .hfree 1 fun t => t.hub = s.hub.filter fun h =>
        s.hub.all fun o => o.idx != h.idx || !(o.part == p && o.vf == b && (field bs 16 8).testBit o.idx))
    ∧ ∀ pt vf, Goes (exec (.functionLevelReset pt vf) s) fun t => t.w = s.w ∧ t.mem = s.mem
      ∧ t.hub = s.hub.filter fun h => s.hub.all fun o => o.idx != h.idx || !(o.part == pt && o.vf == vf)

/-- R377 to R383, R403, R404: booting with an image of every kind, or waiting in recovery without one; losing power; power and
coolant; quotes; and a replacement from its start to its commit or its fall back.
What is the model's own reading or choice in it: log 13, 36, 37, 75, 79. -/
def Obligations.PowerAndReplacement : Prop :=
  ∀ (s : State) (a b c m : FlashImage) (new old : Firmware) (k v p : Nat),
    let R := s.md.repl
    let keeps (t : State) : Prop := t.w = s.w ∧ t.g = s.g ∧ t.mem = s.mem ∧ t.parts = s.parts ∧ t.groups = s.groups
    let repl (i : Instr) (f : State → Prop) : Prop := Goes (exec i s) fun t => keeps t ∧ f t
    let back (i : Instr) (code missed : Nat) : Prop := repl i fun t => t.md.firm = s.md.firm
      ∧ t.md.meas0 = extendMeas s.md.meas0 old.digest ∧ t.md.repl.phase = 0 ∧ t.md.repl.go = false ∧ t.md.repl.code = code
      ∧ t.md.repl.missed = missed
    (s.md.power = .off → s.bootImage 1 = some a → s.bootImage 2 = some b → s.bootImage 3 = some c → Goes (exec .powerOn s) fun t =>
      t.md.power = .booting ∧ t.md.boots = s.md.boots + 1 ∧ t.md.firm = s.md.firm ++ [a.firm 0, b.firm 0, c.firm 0]
      ∧ t.md.meas0 = extendMeas (extendMeas (extendMeas s.md.meas0 a.digest) b.digest) c.digest
      ∧ t.ports = s.ports.map Port.inTraining ∧ (∀ x ∈ t.ports, x.no < 32 → x.state = 1) ∧ t.md.retired = deadChannels (s.md.boots + 1))
    ∧ (s.md.power = .booting → s.md.stored = [] → s.parts = [] → Goes (takeTurnOff .trained s) fun t => t.md.power = .on
        ∧ t.md.firm = s.md.firm ∧ t.w = s.w ∧ t.mem = s.mem
        ∧ t.ports = s.ports.map fun x => { x with
            lmask := if 32 ≤ x.no then 1 else if Config.portTrains s.md.boots x.no then 0xFF else x.lmask
            state := if 32 ≤ x.no ∨ Config.portTrains s.md.boots x.no = true then 2 else 0 })
    ∧ (∀ y, s.md.power = .booting → s.md.stored = [] → s.parts = [y] → y.idx = p → s.flashOf 0 4 p = none →
        Goes (takeTurnOff .trained s) fun t => t.parts = [{ y with stopped := true }] ∧ (1, p) ∈ t.md.reports ∧ t.groups = s.groups)
    ∧ (s.md.power = .off → s.bootImage 1 = none → Goes (exec .powerOn s) fun t => keeps t ∧ t.md.power = .recovery 1
        ∧ t.md.boots = s.md.boots + 1 ∧ t.md.meas0 = s.md.meas0)
    ∧ (let lost (i : Instr) (reports : List (Nat × Nat)) : Prop := Goes (exec i s) fun t => t.md.power = .off ∧ t.mem = []
          ∧ t.allGroups = [] ∧ t.parts = [] ∧ t.md.keys = [] ∧ t.md.meas0 = 0 ∧ t.md.logs = [] ∧ t.md.firm = [] ∧ t.md.valid = false
          ∧ t.md.flash = s.md.flash ∧ t.md.stored = s.md.stored ∧ t.md.boots = s.md.boots ∧ t.md.reports = reports
       lost .powerLoss s.md.reports ∧ lost .coolantCritical (s.md.reports ++ [(2, 0)]))
    ∧ (s.md.powerAt + 1200000 ≤ s.clk.hub → repl (.powerInterval v) fun t => t.md.throttle = decide (3200 < v)
        ∧ t.md.powerAt = s.md.powerAt + 1200000)
    ∧ (repl (.attestationQuote p) fun t => ∃ sig, t.md = { s.md with
        quote := some (s.md.meas0, (s.logOf p).meas1, (s.logOf p).events, sig, Config.recordPublic s.md.boots p) })
    ∧ (R.phase ≠ 0 → repl (.replctlGo k) fun t => t = { s with md := { s.md with repl := { R with code := 3 } } })
    ∧ (R.phase = 0 → k % 4 = 0 → repl (.replctlGo k) fun t => t.md.repl.code = 2 ∧ t.md.repl.phase = 0 ∧ t.md.firm = s.md.firm)
    ∧ (R.phase = 0 → k % 4 ≠ 0 → repl (.replctlGo k) fun t => t.md.repl.phase = 1 ∧ t.md.repl.go = true
        ∧ t.md.repl.kind = k % 4 ∧ t.md.firm = s.md.firm)
    ∧ (R.phase = 1 → s.staged R.kind = none → Goes (takeTurn .verified s) fun t => keeps t ∧ t.md.repl.code = 2 ∧ t.md.repl.phase = 0
        ∧ t.md.repl.go = false ∧ t.md.firm = s.md.firm)
    ∧ (R.phase = 1 → s.staged R.kind = some m → Goes (takeTurn .verified s) fun t => keeps t ∧ t.md.repl.phase = 2
        ∧ t.md.repl.go = R.go ∧ t.md.repl.kind = R.kind ∧ t.md.repl.trial = some (m.firm 0) ∧ t.md.firm = s.md.firm)
    ∧ (R.trial = some new → s.running R.kind = some old →
        (let blk := Config.stateBlock old.kind old.seq
         let ks := stateKeys (Config.stateOffset old.kind old.seq) blk.length
         R.phase = 2 → s.inProgress R.kind = false → R.handed = false → Goes (exec .quiesceComplete s) fun t =>
          t.w = s.w ∧ t.g = s.g ∧ t.parts = s.parts ∧ t.md.firm = s.md.firm ∧ t.md.repl = { R with handed := true }
          ∧ (handOf old).sdig = sha384 blk ∧ (handOf old).slen = BitVec.ofNat 64 blk.length
          ∧ (∀ n, n ∉ ks → n ∉ recordKeys → t.rd n = s.rd n)
          ∧ (s.Inv → recordKeys.map t.rd = (handOf old).bytes ∧ (blk.length ≤ unitBytes → ks.map t.rd = blk)))
        ∧ (R.phase = 2 → s.inProgress R.kind = false → R.handed = true → accepts new s.handFound (s.blockFound s.handFound) = true →
          repl .quiesceComplete fun t => t.md.repl.phase = 3 ∧ t.md.repl.count = 0 ∧ t.md.repl.handed = true
            ∧ t.md.firm = s.md.firm ∧ t.md.meas0 = extendMeas s.md.meas0 new.digest)
        ∧ (R.phase = 2 → s.inProgress R.kind = false → R.handed = true → accepts new s.handFound (s.blockFound s.handFound) = false →
          back .quiesceComplete 4 R.missed)
        ∧ (R.phase = 3 → R.since + 2400000 ≤ s.clk.hub → R.beaten = false → back (.hbeat v) 5 R.count)
        ∧ (R.phase = 3 → s.clk.hub < R.since + 2400000 → v % 256 = R.cur → R.count = 31 → R.beaten = false → repl (.hbeat v) fun t =>
          t.md.firm = s.md.firm.map (fun f => if f.kind = old.kind then { new with seq := old.seq + 1 } else f)
          ∧ t.md.repl.phase = 0 ∧ t.md.repl.go = false ∧ t.md.repl.code = 1)
        ∧ (R.phase = 3 → R.since + 2400000 ≤ s.clk.hub → R.beaten = false → back .heartbeatIntervalEnd 5 R.count)
        ∧ (R.phase = 3 → R.since + 2400000 ≤ s.clk.hub → R.beaten = true → repl .heartbeatIntervalEnd fun t =>
          t.md.repl = { R with cur := (R.cur + 1) % 256, beaten := false, since := R.since + 2400000, count := R.count + 1 })
        ∧ (R.phase = 3 → s.clk.hub < R.since + 2400000 → back .imageFault 5 R.count)
        ∧ (R.phase = 3 → R.since + 2400000 ≤ s.clk.hub → R.beaten = false → back .imageFault 5 R.count)
        ∧ (R.phase = 3 → R.since + 2400000 ≤ s.clk.hub → s.clk.hub < R.since + 4800000 → R.beaten = true → back .imageFault 5 (R.count + 1)))
    ∧ (s.clk.hub < R.since + 2400000 → v % 256 = R.cur → (R.phase ≠ 3 ∨ R.count ≠ 31) → repl (.hbeat v) fun t =>
        t = { s with md := { s.md with repl := { R with beat := R.cur, beaten := true } } })
    ∧ (s.clk.hub < R.since + 2400000 → v % 256 ≠ R.cur → repl (.hbeat v) fun t => t = s)
    ∧ (let cur := (R.cur + 1) % 256
       R.phase ≠ 3 → R.since + 2400000 ≤ s.clk.hub → s.clk.hub < R.since + 4800000 → repl (.hbeat v) fun t =>
        t.md.firm = s.md.firm ∧ t.md.repl.cur = cur ∧ t.md.repl.beaten = decide (v % 256 = cur)
        ∧ t.md.repl.since = R.since + 2400000)

/-- R348, R353, R362, R371, R385, R397 to R402: the host's writes; circuits; and the health of links, quadrants and channels.
What is the model's own reading or choice in it: log 30, 81 to 86. -/
def Obligations.LinksAndHost : Prop :=
  ∀ (s : State) (q : MailReq) (rest : List MailReq) (bs hd es : List Byte) (p : Port) (n wave bits now : Nat) (x : Word),
    let keeps (t : State) : Prop := t.w = s.w ∧ t.g = s.g ∧ t.mem = s.mem ∧ t.groups = s.groups
    let port (i : Instr) (f : Port) : Prop := Goes (exec i s) fun t => keeps t ∧ t.port? n = some f
    let gen := BitVec.ofNat 64 (field hd 8 8)
    let plan := planOf es (field hd 1 1)
    let stays (t : State) : Prop := t.w = { s.w with holds := t.w.holds } ∧ t.g = { s.g with others := t.g.others }
    let job : CsetWork := ⟨q.id, field hd 0 1, gen, plan, [], s.clk.hub, (s.toldOf gen).map fun p => (p.serial, p.ends)⟩
    (s.md.opmail = q :: rest → s.holdsKind 3 = false → q.addr % 64 = 0 → s.physBytes q.addr 64 = some bs → field bs 0 4 = 23 →
      s.physBytes (field bs 16 8) 16 = some hd → s.physBytes (field bs 16 8 + 16) (16 * field hd 1 1) = some es →
      field hd 1 1 ≤ 32 → s.md.cset = none →
      ((planBad plan = true ∨ s.planRefused job = true) → q.addr + 8 ≤ physEnd → s.Inv →
        Goes (exec .cset s) fun t => t.md.circuits = s.md.circuits ∧ t.md.valid = s.md.valid ∧ t.md.number = s.md.number
          ∧ readLE t.mem (places (q.addr + 4) 4) = 5 ∧ t.w = s.w ∧ t.g = s.g)
      ∧ (planBad plan = false → s.planRefused job = false → s.circuitsBusy = false → Goes (exec .cset s) fun t => t.md.circuits = plan
        ∧ (field hd 1 1 = 0 → t.md.valid = true ∧ t.md.number = field hd 0 1 ∧ t.md.gen = gen ∧ t.md.group = [field hd 0 1]
          ∧ t.md.cset = none ∧ t.md.opmail = s.md.opmail.filter fun y => y.id != q.id)
        ∧ (field hd 1 1 ≠ 0 → t.md.valid = false ∧ t.md.cset = some job ∧ t.md.opmail = s.md.opmail)))
    ∧ (∀ c serial, s.md.cset = some c → n < 256 →
        let peers := (serial, n) :: c.peers.filter fun y => y.1 != serial
        let x := { c with peers := peers }
        (x.clash = false → x.full = true → x.wide = false → s.planUp c = true →
          Goes (exec (.genExchange serial n c.gen) s) fun t => t.md.valid = true ∧ t.md.number = c.module ∧ t.md.gen = c.gen
            ∧ t.md.cset = none ∧ t.md.group = c.module :: (peers.filter fun p => x.others.contains p.1).map Prod.snd ∧ stays t)
        ∧ ((x.clash = true ∨ (x.full = true ∧ x.wide = true)) → s.md.opmail = q :: rest → q.id = c.req →
            q.addr + 8 ≤ physEnd → s.Inv →
          Goes (exec (.genExchange serial n c.gen) s) fun t => t.md.valid = false ∧ t.md.cset = none
            ∧ readLE t.mem (places (q.addr + 4) 4) = 5 ∧ stays t))
    ∧ (∀ c, s.md.cset = some c → c.start + 2 ^ 32 ≤ s.clk.hub → s.md.opmail = q :: rest → q.id = c.req → q.addr + 8 ≤ physEnd → s.Inv →
        Goes (exec .csetTimeout s) fun t => t.md.cset = none ∧ readLE t.mem (places (q.addr + 4) 4) = 4 ∧ t.w = s.w ∧ t.g = s.g)
    ∧ (s.port? n = some p → now = s.clk.hub →
        (n < 32 → wave < 8 → p.lmask.testBit wave = true → bits ≤ 1073 →
          port (.fecWindow n wave bits) { p with feccor := p.feccor + BitVec.ofNat 64 bits })
        ∧ (n < 32 → wave < 8 → p.lmask.testBit wave = true → 1073 < bits → p.training = none →
          port (.fecWindow n wave bits) { p with feccor := p.feccor + BitVec.ofNat 64 bits, lmask := p.lmask - 2 ^ wave
                                                 retrain := p.retrain + 1, training := some (wave, now) })
        ∧ (∀ at_, p.training = some (wave, at_) → p.waiting = [] → now < at_ + 2 ^ 21 →
          port (.retrainDone n) { p with lmask := including p.lmask wave, training := none
                                         failures := p.failures.filter fun y => y.1 != wave })
        ∧ (∀ at_, p.training = some (wave, at_) → p.waiting = [] → at_ + 2 ^ 21 ≤ now → 2 ≤ getKey p.failures wave 0 →
          3 < 8 - waves (including p.retired wave) →
          port (.retrainTimeout n) { p with retired := including p.retired wave, training := none
                                            failures := p.failures.filter fun y => y.1 != wave })
        ∧ Goes (exec (.crcRetry n) s) fun t => keeps t ∧ ∃ f, t.port? n = some f ∧ f.crcretry = p.crcretry + 1
            ∧ f = { p with crcretry := f.crcretry, fecunc := f.fecunc })
    ∧ (∀ clu quad, clu < 32 → quad < 4 → (s.engine clu).deg.getLsbD 3 = false → (∀ c ∈ (s.engine clu).cmds, c.granted = false) →
        ((s.engine clu).worn quad = true ∨ s.untested (s.engine clu) = true) → Goes (exec (.quadrantRetire clu quad) s) fun t =>
        keeps t ∧ ∃ mode, (mode = 1 ∨ mode = 2) ∧ (t.engine clu).deg = BitVec.ofNat 32 (16 * quad + 8 + mode)
          ∧ ∀ y, s.partOfClu clu = some y → mode = if y.degm = 0 then 1 else 2)
    ∧ (∀ chip ch, chip < 8 → ch < 64 → s.channelWorn (64 * chip + ch) = true → Goes (exec (.hbmChannelRetire chip ch) s) fun t =>
        t.w = s.w ∧ t.g = s.g ∧ ((∀ y ∈ s.parts, ∀ f ∈ y.vfs, f.kvUnits = []) → t.mem = s.mem)
        ∧ 64 * chip + ch ∈ t.md.retired ∧ ∀ c ∈ s.md.retired, c ∈ t.md.retired)
    ∧ (∀ pt v k (f : Vf) (y : LaunchQ), pt < 24 → k < 64 → s.behindHost pt v = false → s.vf? pt v = some f → f.queue? k = some y →
        Goes (exec (.registerWrite pt v (8 * k) x) s) fun t => keeps t
          ∧ ∃ g, t.vf? pt v = some g ∧ g.queue? k = some { y with tail := x.toNat % 65536, again := y.again && s.queueOff pt v y })
    ∧ (∀ pt v (f : Vf), pt < 24 → s.behindHost pt v = false → s.vf? pt v = some f → Goes (exec (.registerWrite pt v 0x1004 x) s) fun t => keeps t
        ∧ ∃ g, t.vf? pt v = some g ∧ g.mbreq = x ++ f.mbreq.extractLsb' 0 32
          ∧ (f.mail.length < 16 → g.mail = f.mail ++ [⟨s.nextId, g.mbreq.toNat⟩] ∧ g.mbovf = f.mbovf)
          ∧ (16 ≤ f.mail.length → g.mail = f.mail ∧ g.mbovf = true))
    ∧ (∀ pt v, 24 ≤ pt → Goes (exec (.registerWrite pt v 0x3004 x) s) fun t => keeps t ∧ t.md.opreq = x ++ s.md.opreq.extractLsb' 0 32
        ∧ (s.md.opmail.length < 16 → t.md.opmail = s.md.opmail ++ [⟨s.nextId, t.md.opreq.toNat⟩] ∧ t.md.opovf = s.md.opovf)
        ∧ (16 ≤ s.md.opmail.length → t.md.opmail = s.md.opmail ∧ t.md.opovf = true))
    ∧ ∀ pt v va bytes ks, s.hostPlaces pt v va (List.length bytes) = some ks → ks.length = bytes.length → ks.Nodup → s.partial? ks = none →
        s.behindHost pt v = false → s.Inv → Goes (exec (.hostWrite pt v va bytes) s) fun t => ks.map t.rd = bytes ∧ (∀ a, a ∉ ks → t.rd a = s.rd a)
          ∧ t.w = s.w ∧ t.g = s.g

/-! ### Encoding, steps, reset, memory and invariants -/

/-- R178, R186, R187: decoding what `encode` gives for a well-formed instruction of a warp gives that instruction and its length,
whatever bytes follow, for every instruction and every value of its operands. -/
def Obligations.EncodeDecode : Prop :=
  ∀ (i : Instr) (w n : Nat) (rest : List Byte), WellFormed i → encodeBits i = some (w, n) →
    (encode i).length = n ∧ n = i.info.len ∧ decodeAt (encode i ++ rest) = some (i, n)

/-- R14, R178, R187, R190: when the agenda's next turn is a warp that can issue, and the bytes at its run's address (or, between
clauses, at the head of its PC table) decode to a well-formed instruction, the step runs that instruction, with the issue cycle
counted (R392), notes whether its run is held there, and then the clocks go on. The agenda, and the order it gives the turns, are the
model's own (log 5); what counts as held for a yield, which `State.noteHeld` notes, is the model's reading of R209 (log 29).
What is the model's own reading or choice in it: log 5, 6, 29, 69. -/
def Obligations.StepRunsDecoded : Prop :=
  ∀ (s t : State) (gid wid : Nat) (rest : List Turn) (i : Instr) (n : Nat),
    s.md.power = .on → s.agenda = .issue gid wid :: rest → State.ready? { s with agenda := rest } gid wid = some t →
    let at_ (pc : Nat) : Prop := decodeAt (t.codeAt t.g.kern.img pc maxInstrBytes) = some (i, n)
    (∀ r, t.w.run = some r → at_ r.pc → WellFormed i → step s = andThen State.tick (andThen (State.noteHeld gid wid t.w.run) (exec i t.meterIssue)))
    ∧ (∀ e, t.w.run = none → t.w.head = some e → at_ e.pc → (∃ len fb fa wait, i = .clauseHeader len fb fa wait) →
      step s = andThen State.tick (andThen (State.noteHeld gid wid t.w.run) (exec i t.meterIssue)))

/-- R174, R178 to R181, R184 to R188, R211: a few words, each written out from the fields that the spec gives its format. -/
def Obligations.DecodeWords : Prop :=
  -- 16 bits: op in 4:1, d in 10:5, b in 15:11; `iadd` is op 1, x2 is code 18; the word 0 is the canonical `nop`
  decodeTableWord 16 (1 * 2 + 5 * 2 ^ 5 + 18 * 2 ^ 11) = some (.iadd16 5 (.x 2)) ∧ decodeTableWord 16 0 = some .nop16
  -- VA: bit 0 set, major in 6:1, sub in 10:7, d in 17:11, a in 24:18, b in 31:25; s1 is code 97, constant 2 is code 122
  ∧ decodeTableWord 32 (1 + 0x01 * 2 + 0 * 2 ^ 7 + 1 * 2 ^ 11 + 2 * 2 ^ 18 + 3 * 2 ^ 25) = some (.iadd (.v 1) (.v 2) (.v 3))
  ∧ decodeTableWord 32 (1 + 0x08 * 2 + 1 * 2 ^ 7 + 4 * 2 ^ 11 + 97 * 2 ^ 18 + 122 * 2 ^ 25) = some (.fadd (.v 4) (.s 1) (.k 2) .rz)
  -- M: space in 9:7, size in 12:10, data in 19:13, base in 26:20, off5 in 31:27
  ∧ decodeTableWord 32 (1 + 0x22 * 2 + 1 * 2 ^ 7 + 4 * 2 ^ 10 + 8 * 2 ^ 13 + 9 * 2 ^ 20 + 3 * 2 ^ 27) = some (.ld (.v 8) (.v 9) 3 .b32 .shr)
  -- A: op in 10:7, scope in 12:11, type in 14:13, main in 15, d in 22:16, address in 29:23
  ∧ decodeTableWord 32 (1 + 0x25 * 2 + 0 * 2 ^ 7 + 2 * 2 ^ 11 + 1 * 2 ^ 13 + 1 * 2 ^ 15 + 5 * 2 ^ 16 + 6 * 2 ^ 23)
    = some (.atomAdd (.v 5) (.v 6) true .i32 .chip)
  -- B: condition in 13:7, disp18 in 31:14
  ∧ decodeTableWord 32 (1 + 0x30 * 2 + 100 * 2 ^ 14) = some (.jmp 100)
  -- K: wait mask in 18:7, flag A in 22:19, flag B in 26:23, length in 31:27
  ∧ decodeTableWord 32 (1 + 0x3F * 2 + 10 * 2 ^ 7 + 2 * 2 ^ 19 + 15 * 2 ^ 23 + 3 * 2 ^ 27) = some (.clauseHeader 3 15 2 10)
  -- T: d1 in 13:7, d2 in 20:14, d3 in 27:21 (127 for none), flags in 30:28, the safe point in 31
  ∧ decodeTableWord 32 (1 + 0x3E * 2 + 8 * 2 ^ 7 + 127 * 2 ^ 14 + 127 * 2 ^ 21 + 1 * 2 ^ 31)
    = some (.clauseTrailer true 0 (.k 7) (.k 7) (.v 8))
  -- a unary VA instruction, `iabs`, with b not 0 (R181), and a word of major 0 (R186), are none
  ∧ decodeTableWord 32 (1 + 0x01 * 2 + 6 * 2 ^ 7 + 1 * 2 ^ 11 + 2 * 2 ^ 18 + 1 * 2 ^ 25) = none ∧ decodeTableWord 32 1 = none

/-- R56, R71, R378, R385, R404: what the spec gives for reset: no power, no measurement, key, log, request or image; VALID 0; no
Hub slot held, nothing outstanding; and the memory has its form (log 1: that it lists nothing is the model's choice). -/
def Obligations.ResetState : Prop :=
  State.reset.md.power = .off ∧ State.reset.md.meas0 = 0 ∧ State.reset.md.keys = [] ∧ State.reset.md.logs = []
  ∧ State.reset.md.firm = [] ∧ State.reset.md.valid = false ∧ State.reset.md.opmail = [] ∧ State.reset.md.repl.phase = 0
  ∧ State.reset.hub = [] ∧ State.reset.parts = [] ∧ State.reset.allGroups = [] ∧ State.reset.pend = [] ∧ State.reset.copies = []
  ∧ State.reset.Inv ∧ State.reset.modl = 0

/-- The memory's one form (log 1) holds after every step that starts from it, whatever turn the step takes. -/
def Obligations.MemoryInvariant : Prop := ∀ s t : State, s.Inv → step s = .next t → t.Inv

/-- R44: memory: bytes written to different places are read back, in order, and every other place reads as before; of two writes
to one place the later one counts; the number read from places is the one written; and equal memories are equal data (log 1). -/
def Obligations.MemoryLaws : Prop :=
  ∀ (m m' : List Host.Cell) (l : List (Nat × Byte)) (a v n : Nat) (b : Byte), Memory.wf m →
    ((l.map Prod.fst).Nodup → ∀ p ∈ l, readByte (writeBytes m l) p.1 = p.2)
    ∧ (a ∉ l.map Prod.fst → readByte (writeBytes m l) a = readByte m a)
    ∧ readByte (writeBytes m (l ++ [(a, b)])) a = b
    ∧ readLE (writeBytes m ((places a n).zip (leBytes n v))) (places a n) = v % 2 ^ (8 * n)
    ∧ (Memory.wf m' → (∀ k, readByte m k = readByte m' k) → m = m')

/-- Whatever the state, a step ends in a next state: no data and no order of turns stops a run. R190 to R212 give every word, good
or bad, an effect; that a turn that is not due changes nothing is the model's choice (log 7), and so is the one fault, of an instruction
outside a run, which no step meets (log 90). -/
def Obligations.StepNeverStops : Prop := ∀ s : State, Safe s
end

