-- ==== Sys2Proof/Laws/State.lean ====
section
/-! SUPPORT. What each update of a state, a warp or a register file leaves and gives, field by field. -/

namespace Sys2Proof.Machine

/-! ### The selected warp and group -/

@[simp] theorem State.setW_w (s : State) (w : Warp) : (s.setW w).w = w := rfl
@[simp] theorem State.setW_g (s : State) (w : Warp) : (s.setW w).g = s.g := rfl
@[simp] theorem State.setW_mem (s : State) (w : Warp) : (s.setW w).mem = s.mem := rfl
@[simp] theorem State.setW_rd (s : State) (w : Warp) (a : Nat) : (s.setW w).rd a = s.rd a := rfl
@[simp] theorem State.setG_w (s : State) (g : Group) : (s.setG g).w = s.w := rfl
@[simp] theorem State.setG_g (s : State) (g : Group) : (s.setG g).g = g := rfl
@[simp] theorem State.setG_mem (s : State) (g : Group) : (s.setG g).mem = s.mem := rfl
@[simp] theorem State.wrs_w (s : State) (l : List (Nat × Byte)) : (s.wrs l).w = s.w := rfl
@[simp] theorem State.wrs_g (s : State) (l : List (Nat × Byte)) : (s.wrs l).g = s.g := rfl
@[simp] theorem State.wrs_mem (s : State) (l : List (Nat × Byte)) : (s.wrs l).mem = writeBytes s.mem l := rfl
@[simp] theorem State.wrs_pend (s : State) (l : List (Nat × Byte)) : (s.wrs l).pend = s.pend := rfl
@[simp] theorem State.setW_pend (s : State) (w : Warp) : (s.setW w).pend = s.pend := rfl
@[simp] theorem State.setW_groups (s : State) (w : Warp) : (s.setW w).groups = s.groups := rfl
@[simp] theorem State.setW_landing (s : State) (w : Warp) : (s.setW w).landing = s.landing := rfl
@[simp] theorem State.setW_copies (s : State) (w : Warp) : (s.setW w).copies = s.copies := rfl
@[simp] theorem State.setW_engines (s : State) (w : Warp) : (s.setW w).engines = s.engines := rfl
@[simp] theorem State.setG_pend (s : State) (g : Group) : (s.setG g).pend = s.pend := rfl
@[simp] theorem State.setG_groups (s : State) (g : Group) : (s.setG g).groups = s.groups := rfl
@[simp] theorem State.setG_landing (s : State) (g : Group) : (s.setG g).landing = s.landing := rfl
@[simp] theorem State.setG_copies (s : State) (g : Group) : (s.setG g).copies = s.copies := rfl
@[simp] theorem State.setG_engines (s : State) (g : Group) : (s.setG g).engines = s.engines := rfl
@[simp] theorem State.wrs_groups (s : State) (l : List (Nat × Byte)) : (s.wrs l).groups = s.groups := rfl
@[simp] theorem State.wrs_landing (s : State) (l : List (Nat × Byte)) : (s.wrs l).landing = s.landing := rfl
@[simp] theorem State.wrs_copies (s : State) (l : List (Nat × Byte)) : (s.wrs l).copies = s.copies := rfl
@[simp] theorem State.wrs_engines (s : State) (l : List (Nat × Byte)) : (s.wrs l).engines = s.engines := rfl
@[simp] theorem State.setW_md (s : State) (w : Warp) : (s.setW w).md = s.md := rfl
@[simp] theorem State.setG_md (s : State) (g : Group) : (s.setG g).md = s.md := rfl
@[simp] theorem State.wrs_md (s : State) (l : List (Nat × Byte)) : (s.wrs l).md = s.md := rfl
@[simp] theorem State.setW_hostq (s : State) (w : Warp) : (s.setW w).hostq = s.hostq := rfl
@[simp] theorem State.setG_hostq (s : State) (g : Group) : (s.setG g).hostq = s.hostq := rfl
@[simp] theorem State.wrs_hostq (s : State) (l : List (Nat × Byte)) : (s.wrs l).hostq = s.hostq := rfl
@[simp] theorem State.setW_seqs (s : State) (w : Warp) : (s.setW w).seqs = s.seqs := rfl
@[simp] theorem State.setG_seqs (s : State) (g : Group) : (s.setG g).seqs = s.seqs := rfl
@[simp] theorem State.wrs_seqs (s : State) (l : List (Nat × Byte)) : (s.wrs l).seqs = s.seqs := rfl
@[simp] theorem State.setW_kv (s : State) (w : Warp) : (s.setW w).kv = s.kv := rfl
@[simp] theorem State.setG_kv (s : State) (g : Group) : (s.setG g).kv = s.kv := rfl
@[simp] theorem State.wrs_kv (s : State) (l : List (Nat × Byte)) : (s.wrs l).kv = s.kv := rfl
@[simp] theorem State.setW_hub (s : State) (w : Warp) : (s.setW w).hub = s.hub := rfl
@[simp] theorem State.setG_hub (s : State) (g : Group) : (s.setG g).hub = s.hub := rfl
@[simp] theorem State.wrs_hub (s : State) (l : List (Nat × Byte)) : (s.wrs l).hub = s.hub := rfl
@[simp] theorem State.setW_laps (s : State) (w : Warp) : (s.setW w).laps = s.laps := rfl
@[simp] theorem State.setG_laps (s : State) (g : Group) : (s.setG g).laps = s.laps := rfl
@[simp] theorem State.wrs_laps (s : State) (l : List (Nat × Byte)) : (s.wrs l).laps = s.laps := rfl
@[simp] theorem State.setW_strays (s : State) (w : Warp) : (s.setW w).strays = s.strays := rfl
@[simp] theorem State.setG_strays (s : State) (g : Group) : (s.setG g).strays = s.strays := rfl
@[simp] theorem State.wrs_strays (s : State) (l : List (Nat × Byte)) : (s.wrs l).strays = s.strays := rfl
@[simp] theorem State.setW_ended (s : State) (w : Warp) : (s.setW w).ended = s.ended := rfl
@[simp] theorem State.setG_ended (s : State) (g : Group) : (s.setG g).ended = s.ended := rfl
@[simp] theorem State.wrs_ended (s : State) (l : List (Nat × Byte)) : (s.wrs l).ended = s.ended := rfl
@[simp] theorem State.setW_ecc (s : State) (w : Warp) : (s.setW w).ecc = s.ecc := rfl
@[simp] theorem State.setG_ecc (s : State) (g : Group) : (s.setG g).ecc = s.ecc := rfl
@[simp] theorem State.setW_parts (s : State) (w : Warp) : (s.setW w).parts = s.parts := rfl
@[simp] theorem State.setG_parts (s : State) (g : Group) : (s.setG g).parts = s.parts := rfl
@[simp] theorem State.wrs_parts (s : State) (l : List (Nat × Byte)) : (s.wrs l).parts = s.parts := rfl
@[simp] theorem State.setW_ready (s : State) (w : Warp) : (s.setW w).ready = s.ready := rfl
@[simp] theorem State.setG_ready (s : State) (g : Group) : (s.setG g).ready = s.ready := rfl
@[simp] theorem State.wrs_ready (s : State) (l : List (Nat × Byte)) : (s.wrs l).ready = s.ready := rfl
@[simp] theorem State.setW_waiters (s : State) (w : Warp) : (s.setW w).waiters = s.waiters := rfl
@[simp] theorem State.setG_waiters (s : State) (g : Group) : (s.setG g).waiters = s.waiters := rfl
@[simp] theorem State.wrs_waiters (s : State) (l : List (Nat × Byte)) : (s.wrs l).waiters = s.waiters := rfl
@[simp] theorem State.setW_frames (s : State) (w : Warp) : (s.setW w).frames = s.frames := rfl
@[simp] theorem State.setG_frames (s : State) (g : Group) : (s.setG g).frames = s.frames := rfl
@[simp] theorem State.wrs_frames (s : State) (l : List (Nat × Byte)) : (s.wrs l).frames = s.frames := rfl
@[simp] theorem State.setW_images (s : State) (w : Warp) : (s.setW w).images = s.images := rfl
@[simp] theorem State.setG_images (s : State) (g : Group) : (s.setG g).images = s.images := rfl
@[simp] theorem State.wrs_images (s : State) (l : List (Nat × Byte)) : (s.wrs l).images = s.images := rfl

/-! ### Outstanding operations and codewords -/

@[simp] theorem State.mapOp_mem (s : State) (id : Nat) (f : MemOp → MemOp) : (s.mapOp id f).mem = s.mem := rfl
@[simp] theorem State.mapOp_w (s : State) (id : Nat) (f : MemOp → MemOp) : (s.mapOp id f).w = s.w := rfl
@[simp] theorem State.mapOp_g (s : State) (id : Nat) (f : MemOp → MemOp) : (s.mapOp id f).g = s.g := rfl
@[simp] theorem State.mapOp_groups (s : State) (id : Nat) (f : MemOp → MemOp) : (s.mapOp id f).groups = s.groups := rfl
@[simp] theorem State.mapOp_landing (s : State) (id : Nat) (f : MemOp → MemOp) : (s.mapOp id f).landing = s.landing := rfl
@[simp] theorem State.mapOp_copies (s : State) (id : Nat) (f : MemOp → MemOp) : (s.mapOp id f).copies = s.copies := rfl
@[simp] theorem State.dropOp_mem (s : State) (id : Nat) : (s.dropOp id).mem = s.mem := rfl
@[simp] theorem State.dropOp_w (s : State) (id : Nat) : (s.dropOp id).w = s.w := rfl
@[simp] theorem State.dropOp_g (s : State) (id : Nat) : (s.dropOp id).g = s.g := rfl
@[simp] theorem State.dropOp_groups (s : State) (id : Nat) : (s.dropOp id).groups = s.groups := rfl
@[simp] theorem State.dropOp_landing (s : State) (id : Nat) : (s.dropOp id).landing = s.landing := rfl
@[simp] theorem State.dropOp_copies (s : State) (id : Nat) : (s.dropOp id).copies = s.copies := rfl
@[simp] theorem State.eccWritten_mem (s : State) (l : List Nat) : (s.eccWritten l).mem = s.mem := rfl
@[simp] theorem State.eccWritten_w (s : State) (l : List Nat) : (s.eccWritten l).w = s.w := rfl
@[simp] theorem State.eccWritten_g (s : State) (l : List Nat) : (s.eccWritten l).g = s.g := rfl
@[simp] theorem State.eccWritten_groups (s : State) (l : List Nat) : (s.eccWritten l).groups = s.groups := rfl
@[simp] theorem State.eccWritten_pend (s : State) (l : List Nat) : (s.eccWritten l).pend = s.pend := rfl
@[simp] theorem State.eccWritten_copies (s : State) (l : List Nat) : (s.eccWritten l).copies = s.copies := rfl
@[simp] theorem State.mapOp_md (s : State) (id : Nat) (f : MemOp → MemOp) : (s.mapOp id f).md = s.md := rfl
@[simp] theorem State.dropOp_md (s : State) (id : Nat) : (s.dropOp id).md = s.md := rfl
@[simp] theorem State.eccWritten_md (s : State) (l : List Nat) : (s.eccWritten l).md = s.md := rfl

/-! ### Association lists and rows -/

@[simp] theorem getKey_setKey_self {β : Type} (l : List (Nat × β)) (k : Nat) (v d : β) : getKey (setKey l k v) k d = v := by
  simp [getKey, setKey]

theorem getKey_setKey_ne {β : Type} (l : List (Nat × β)) {k j : Nat} (v d : β) (h : j ≠ k) :
    getKey (setKey l k v) j d = getKey l j d := by
  have hf : (l.filter fun p => p.1 != k).lookup j = l.lookup j := by
    induction l with
    | nil => rfl
    | cons p t ih =>
      rcases p with ⟨a, b⟩
      by_cases ha : a = k
      · have hja : (j == a) = false := by rw [ha]; simpa using h
        simp [List.lookup, ih, ha, show (j == k) = false by simpa using h]
      · simp [ha, List.lookup, ih]
  have hj : (j == k) = false := by simpa using h
  simp only [getKey, setKey, List.lookup, hj, hf]

theorem mkRow_getD (f : Nat → Word) {l : Nat} (h : l < 64) (d : Word) : (mkRow f)[l]?.getD d = f l := by
  simp [mkRow, h]

theorem has_lt {m : LaneMask} {l : Nat} (h : has m l = true) : l < 64 := BitVec.lt_of_getLsbD h

/-! ### Registers -/

theorem Warp.getV_putV (w : Warp) (r k l : Nat) (m : LaneMask) (f : Nat → Word) (hl : l < 64) :
    (w.putV r m f).getV k l = if k = r ∧ has m l = true then f l else w.getV k l := by
  by_cases h : k = r
  · subst h
    simp [Warp.getV, Warp.putV, mkRow_getD, hl]
  · simp [Warp.getV, Warp.putV, getKey_setKey_ne, h]

theorem Warp.getX_putX (w : Warp) (r k l : Nat) (m : LaneMask) (f : Nat → Word) (hl : l < 64) :
    (w.putX r m f).getX k l = if k = r ∧ has m l = true then f l else w.getX k l := by
  by_cases h : k = r
  · subst h
    simp [Warp.getX, Warp.putX, mkRow_getD, hl]
  · simp [Warp.getX, Warp.putX, getKey_setKey_ne, h]

theorem Warp.getS_putS (w : Warp) (r k : Nat) (v : Word) : (w.putS r v).getS k = if k = r then v else w.getS k := by
  by_cases h : k = r
  · subst h
    simp [Warp.getS, Warp.putS]
  · simp [Warp.getS, Warp.putS, getKey_setKey_ne, h]

@[simp] theorem Warp.getV_putX (w : Warp) (r k l : Nat) (m : LaneMask) (f : Nat → Word) :
    (w.putX r m f).getV k l = w.getV k l := rfl
@[simp] theorem Warp.getV_putS (w : Warp) (r k l : Nat) (v : Word) : (w.putS r v).getV k l = w.getV k l := rfl
@[simp] theorem Warp.getV_putFlg (w : Warp) (k l : Nat) (m : LaneMask) (f : Nat → Word) :
    (w.putFlg m f).getV k l = w.getV k l := rfl
@[simp] theorem Warp.getX_putV (w : Warp) (r k l : Nat) (m : LaneMask) (f : Nat → Word) :
    (w.putV r m f).getX k l = w.getX k l := rfl
@[simp] theorem Warp.getX_putS (w : Warp) (r k l : Nat) (v : Word) : (w.putS r v).getX k l = w.getX k l := rfl
@[simp] theorem Warp.getX_putFlg (w : Warp) (k l : Nat) (m : LaneMask) (f : Nat → Word) :
    (w.putFlg m f).getX k l = w.getX k l := rfl
@[simp] theorem Warp.getS_putV (w : Warp) (r k : Nat) (m : LaneMask) (f : Nat → Word) :
    (w.putV r m f).getS k = w.getS k := rfl
@[simp] theorem Warp.getS_putX (w : Warp) (r k : Nat) (m : LaneMask) (f : Nat → Word) :
    (w.putX r m f).getS k = w.getS k := rfl
@[simp] theorem Warp.getS_putFlg (w : Warp) (k : Nat) (m : LaneMask) (f : Nat → Word) :
    (w.putFlg m f).getS k = w.getS k := rfl

theorem Warp.getFlg_putFlg (w : Warp) (m : LaneMask) (f : Nat → Word) {l : Nat} (hl : l < 64) :
    (w.putFlg m f).getFlg l = if has m l = true then f l else w.getFlg l := by
  simp [Warp.getFlg, Warp.putFlg, mkRow_getD, hl]

/-! ### What a returned word leaves (R207, R304) -/

@[simp] theorem Warp.putV_nregs (w : Warp) (r : Nat) (m : LaneMask) (f : Nat → Word) : (w.putV r m f).nregs = w.nregs := rfl
@[simp] theorem Warp.putV_live (w : Warp) (r : Nat) (m : LaneMask) (f : Nat → Word) : (w.putV r m f).live = w.live := rfl
@[simp] theorem Warp.putV_pcs (w : Warp) (r : Nat) (m : LaneMask) (f : Nat → Word) : (w.putV r m f).pcs = w.pcs := rfl
@[simp] theorem Warp.putS_nregs (w : Warp) (r : Nat) (v : Word) : (w.putS r v).nregs = w.nregs := rfl
@[simp] theorem Warp.putS_live (w : Warp) (r : Nat) (v : Word) : (w.putS r v).live = w.live := rfl
@[simp] theorem Warp.putS_pcs (w : Warp) (r : Nat) (v : Word) : (w.putS r v).pcs = w.pcs := rfl

/-- R304: nothing is written at or above the allocation, or the bound that the operation carries. -/
theorem Warp.land_above (w : Warp) (cap j : Nat) (r : Fin 96) (m : LaneMask) (f : Nat → Word) (h : min w.nregs cap ≤ r.val + j) :
    w.land cap (.v r) j m f = w := by
  simp only [Warp.land]
  exact if_neg (Nat.not_lt.mpr h)

/-- R207: a returned value of retired lanes is discarded. -/
theorem Warp.land_retired (w : Warp) (cap j : Nat) (r : Fin 16) (m : LaneMask) (f : Nat → Word) (h : m &&& w.live = 0) :
    w.land cap (.s r) j m f = w := by
  simp only [Warp.land, h, if_true]

/-- R207, R304: any other vector word reaches the lanes that live. -/
theorem Warp.land_v (w : Warp) (cap j : Nat) (r : Fin 96) (m : LaneMask) (f : Nat → Word) (h : r.val + j < min w.nregs cap) :
    w.land cap (.v r) j m f = w.putV (r.val + j) (m &&& w.live) f := by
  simp only [Warp.land]
  exact if_pos h

end Sys2Proof.Machine
end

