-- ==== Sys2Proof/Laws/Issue.lean ====
section
/-! SUPPORT. What issuing an instruction, stepping behind it and taking a trap do, said once. -/

namespace Sys2Proof.Machine

/-! ### Outcomes -/

theorem Goes.mono {o : Host.Outcome State Fault Refusal} {p q : State → Prop} (h : Goes o p) (hpq : ∀ t, p t → q t) : Goes o q :=
  let ⟨t, ht, hp⟩ := h
  ⟨t, ht, hpq t hp⟩

theorem goes_next {t : State} {p : State → Prop} (h : p t) : Goes (.next t) p := ⟨t, rfl, h⟩

theorem goes_iff {t : State} {p : State → Prop} : Goes (.next t) p ↔ p t :=
  ⟨fun ⟨u, hu, hp⟩ => by injection hu with hu; exact hu ▸ hp, goes_next⟩

theorem andThen_next (f : State → State) (t : State) : andThen f (.next t) = .next (f t) := rfl

/-! ### Issuing (R190) -/

theorem issue_ok {i : Instr} {s t : State} {r : Run} {body : Run → Act} (h : Issues i s r) (hb : body r = .ok t) :
    issue i s body = .next (advance i.info.len t) := by
  simp only [issue, h.1, h.2, hb]

theorem issue_trap {i : Instr} {s : State} {r : Run} {body : Run → Act} {c : Nat} {a : Dword} {v : Word} (h : Issues i s r)
    (hb : body r = .trap c a v) : issue i s body = .next (takeTrap s r c a v) := by
  simp only [issue, h.1, h.2, hb]

theorem issue_hold {i : Instr} {s t : State} {r : Run} {body : Run → Act} (h : Issues i s r) (hb : body r = .hold t) :
    issue i s body = .next t := by
  simp only [issue, h.1, h.2, hb]

theorem issue_refused {i : Instr} {s : State} {r : Run} {body : Run → Act} {c : Nat} (h : s.w.run = some r)
    (hc : issueCheck i.info s.w = some c) : issue i s body = .next (takeTrap s r c r.addr 0) := by
  simp only [issue, h, hc]

/-- Everything that issuing an instruction can come to. -/
theorem issue_cases {i : Instr} {s t : State} {body : Run → Act} (h : issue i s body = .next t) :
    ∃ r, s.w.run = some r ∧ ((∃ c, issueCheck i.info s.w = some c ∧ t = takeTrap s r c r.addr 0)
      ∨ (issueCheck i.info s.w = none ∧ ((∃ u, body r = .ok u ∧ t = advance i.info.len u)
          ∨ (∃ c a v, body r = .trap c a v ∧ t = takeTrap s r c a v) ∨ body r = .hold t))) := by
  simp only [issue] at h
  split at h
  · cases h
  rename_i r hr
  refine ⟨r, hr, ?_⟩
  split at h
  · rename_i c hc
    injection h with h
    exact .inl ⟨c, hc, h.symm⟩
  · rename_i hn
    refine .inr ⟨hn, ?_⟩
    split at h <;> rename_i hb <;> injection h with h
    · exact .inl ⟨_, hb, h.symm⟩
    · exact .inr (.inl ⟨_, _, _, hb, h.symm⟩)
    · exact .inr (.inr (h ▸ hb))

/-! ### The step behind an instruction -/

@[simp] theorem advance_mem (n : Nat) (s : State) : (advance n s).mem = s.mem := by
  simp only [advance]; split <;> rfl
@[simp] theorem advance_g (n : Nat) (s : State) : (advance n s).g = s.g := by
  simp only [advance]; split <;> rfl
@[simp] theorem advance_pend (n : Nat) (s : State) : (advance n s).pend = s.pend := by
  simp only [advance]; split <;> rfl
@[simp] theorem advance_groups (n : Nat) (s : State) : (advance n s).groups = s.groups := by
  simp only [advance]; split <;> rfl

/-- Stepping behind an instruction changes the selected warp's run alone. -/
theorem advance_frame (n : Nat) (s : State) : advance n s = { s with w := { s.w with run := (advance n s).w.run } } := by
  simp only [advance]
  split
  · rfl
  · rfl

/-! ### Taking a trap (R212, R367 to R370) -/

/-- While the group holds a trap a further cause has no effect. -/
theorem takeTrap_held {s : State} (h : s.g.trapHeld = true) (r : Run) (c : Nat) (a : Dword) (v : Word) :
    takeTrap s r c a v = s := by
  simp [takeTrap, trapWith, h]

/-- A trap at issue that is not a repeated one. -/
theorem takeTrap_taken {s : State} (h : s.g.trapHeld = false) (r : Run) (c : Nat) (a : Dword) (v : Word)
    (hc : (r.again && c == 7) = false) : TrapTaken s (takeTrap s r c a v) r c a v := by
  have e : takeTrap s r c a v = trapWith s ⟨r.lanes, r.pc, r.pc, .atIssue, some r, s.w.x, [], none⟩ c false a v := by
    simp only [takeTrap, hc]
  rw [e]
  constructor <;> simp [trapWith, h, Group.trapRegs, State.rd]

/-- Taking a trap changes no byte of memory. -/
@[simp] theorem takeTrap_mem (s : State) (r : Run) (c : Nat) (a : Dword) (v : Word) : (takeTrap s r c a v).mem = s.mem := by
  simp only [takeTrap, trapWith]; split <;> rfl

/-! ### Selecting a warp -/

theorem select_self {s : State} {gid wid : Nat} (h : s.isSel gid wid = true) : s.select gid wid = s := by
  simp [State.select, h]

theorem select_mem (s : State) (gid wid : Nat) : (s.select gid wid).mem = s.mem := by
  simp only [State.select]
  split
  · rfl
  · split
    · rfl
    · split <;> rfl

end Sys2Proof.Machine
end

