-- ==== Sys2Proof/Laws/Lanewise.lean ====
section
/-! SUPPORT. What the shared operations over lanes do, said once: the result in each lane, FLG, and the frame. -/

namespace Sys2Proof.Machine

/-! ### Writing an operand -/

theorem Warp.writeAt_v (w : Warp) (o : Opd) (j : Nat) (m : LaneMask) (f : Nat → Word) (k l : Nat) (hl : l < 64) :
    (w.writeAt o j m f).getV k l =
      if (o.kind = 1 ∧ k = o.num + j) ∧ has m l = true then f l else w.getV k l := by
  cases o <;> simp [Warp.writeAt, Opd.kind, Opd.num, Warp.getV_putV, hl]

theorem Warp.writeAt_x (w : Warp) (o : Opd) (j : Nat) (m : LaneMask) (f : Nat → Word) (k l : Nat) (hl : l < 64) :
    (w.writeAt o j m f).getX k l =
      if (o.kind = 4 ∧ k = o.num + j) ∧ has m l = true then f l else w.getX k l := by
  cases o <;> simp [Warp.writeAt, Opd.kind, Opd.num, Warp.getX_putX, hl]

theorem Warp.writeAt_s (w : Warp) (o : Opd) (j : Nat) (m : LaneMask) (f : Nat → Word) (k : Nat) :
    (w.writeAt o j m f).getS k = if o.kind = 2 ∧ k = o.num + j then f (lowLane m) else w.getS k := by
  cases o <;> simp [Warp.writeAt, Opd.kind, Opd.num, Warp.getS_putS]

theorem Warp.writeAt_rest (w : Warp) (o : Opd) (j : Nat) (m : LaneMask) (f : Nat → Word) :
    w.writeAt o j m f =
      { w with v := (w.writeAt o j m f).v, x := (w.writeAt o j m f).x, s := (w.writeAt o j m f).s } := by
  cases o <;> rfl

/-- A warp that differs from another in register files alone, and in them as `d`, `n` and `m` allow. -/
structure RegsOnly (w u : Warp) (d : Opd) (n : Nat) (m : LaneMask) : Prop where
  rest : u = { w with v := u.v, x := u.x, s := u.s }
  v : ∀ k l, l < 64 → ¬ (d.hits n 1 k ∧ has m l = true) → u.getV k l = w.getV k l
  x : ∀ k l, l < 64 → ¬ (d.hits n 4 k ∧ has m l = true) → u.getX k l = w.getX k l
  s : ∀ k, ¬ d.hits n 2 k → u.getS k = w.getS k

theorem RegsOnly.refl (w : Warp) (d : Opd) (n : Nat) (m : LaneMask) : RegsOnly w w d n m :=
  ⟨rfl, fun _ _ _ _ => rfl, fun _ _ _ _ => rfl, fun _ _ => rfl⟩

theorem RegsOnly.writeAt {w u : Warp} {d : Opd} {n : Nat} {m : LaneMask} (h : RegsOnly w u d n m) {j : Nat}
    (hj : j < n) (f : Nat → Word) : RegsOnly w (u.writeAt d j m f) d n m := by
  refine ⟨?_, ?_, ?_, ?_⟩
  · rw [Warp.writeAt_rest, h.rest]
  · intro k l hl hn
    rw [Warp.writeAt_v _ _ _ _ _ _ _ hl, if_neg, h.v k l hl hn]
    rintro ⟨⟨h1, rfl⟩, h2⟩
    exact hn ⟨⟨h1, by omega, by omega⟩, h2⟩
  · intro k l hl hn
    rw [Warp.writeAt_x _ _ _ _ _ _ _ hl, if_neg, h.x k l hl hn]
    rintro ⟨⟨h1, rfl⟩, h2⟩
    exact hn ⟨⟨h1, by omega, by omega⟩, h2⟩
  · intro k hn
    rw [Warp.writeAt_s, if_neg, h.s k hn]
    rintro ⟨h1, rfl⟩
    exact hn ⟨h1, by omega, by omega⟩

/-- What a register of the written operand reads as afterwards. -/
theorem Warp.getAt_writeAt (w : Warp) (o : Opd) (j i : Nat) (m : LaneMask) (f : Nat → Word) (l : Nat)
    (hm : has m l = true) (hk : o.kind ≠ 8) :
    (w.writeAt o j m f).getAt o i l =
      if i = j then f (if o.kind = 2 then lowLane m else l) else w.getAt o i l := by
  have hl := has_lt hm
  cases o with
  | k c => simp [Opd.kind] at hk
  | v r => simp [Warp.getAt, Warp.writeAt, Warp.getV_putV, hl, hm, Opd.kind]
  | s r => simp [Warp.getAt, Warp.writeAt, Warp.getS_putS, Opd.kind]
  | x r => simp [Warp.getAt, Warp.writeAt, Warp.getX_putX, hl, hm, Opd.kind]

/-! ### From the registers to the state -/

/-- The step behind an instruction changes the run alone. -/
theorem advance_of_run {s : State} {r : Run} (n : Nat) (h : s.w.run = some r) :
    advance n s = s.setW { s.w with run := some (r.behind n) } := by
  simp [advance, h, Run.behind]

/-- What the block of an instruction over lanes leaves of the warp: registers as `d`, `n` and `f` say, FLG, generators. -/
structure BlockDoes (w u : Warp) (r : Run) (d : Opd) (n : Nat) (f : Run → Nat → Nat → Word)
    (e : Option (Run → Nat → Exc)) (g : Option (Run → Nat → Word)) : Prop where
  rest : u = { w with v := u.v, x := u.x, s := u.s, flg := u.flg, gen := u.gen }
  v : ∀ k l, l < 64 → ¬ (d.hits n 1 k ∧ has r.lanes l = true) → u.getV k l = w.getV k l
  x : ∀ k l, l < 64 → ¬ (d.hits n 4 k ∧ has r.lanes l = true) → u.getX k l = w.getX k l
  s : ∀ k, ¬ d.hits n 2 k → u.getS k = w.getS k
  flg : match e with
    | none => u.flg = w.flg
    | some f => ∀ l, l < 64 → u.getFlg l = if has r.lanes l then w.getFlg l ||| (f r l).bits else w.getFlg l
  gen : match g with
    | none => u.gen = w.gen
    | some f => ∀ l, l < 64 → u.getGen l = f r l
  res : ∀ j l, j < n → has r.lanes l = true → d.kind ≠ 8 →
    u.getAt d j l = f r j (if d.kind = 2 then lowLane r.lanes else l)

/-- An instruction whose block does that is one over lanes. -/
theorem lanewise_of_block {i : Instr} {s : State} {d : Opd} {n : Nat} {f : Run → Nat → Nat → Word}
    {e : Option (Run → Nat → Exc)} {g : Option (Run → Nat → Word)} {u : Run → Warp}
    (hi : exec i s = issue i s fun r => .ok (s.setW (u r))) (hu : ∀ r, BlockDoes s.w (u r) r d n f e g) :
    Lanewise i s d n f e g := by
  rintro r ⟨h1, h2⟩
  have h := hu r
  have hrun : (u r).run = some r := by rw [h.rest]; exact h1
  refine ⟨advance i.info.len (s.setW (u r)), ?_, ?_⟩
  · rw [hi]; simp only [issue, h1, h2]
  rw [advance_of_run i.info.len (r := r) (by exact hrun)]
  refine ⟨rfl, ⟨fun _ => rfl, rfl, ?_, h.v, h.x, h.s⟩, ?_, ?_, ?_⟩
  · simp only [State.setW_w]
    rw [h.rest]
  · have := h.flg
    cases e <;> exact this
  · have := h.gen
    cases g <;> exact this
  · intro j l hj hm hk
    rw [← h.res j l hj hm hk]
    cases d <;> rfl

theorem RegsOnly.block {w u : Warp} {r : Run} {d : Opd} {n : Nat} {f : Run → Nat → Nat → Word}
    (h : RegsOnly w u d n r.lanes)
    (hf : ∀ j l, j < n → has r.lanes l = true → d.kind ≠ 8 →
      u.getAt d j l = f r j (if d.kind = 2 then lowLane r.lanes else l)) : BlockDoes w u r d n f none none where
  rest := by rw [h.rest]
  v := h.v
  x := h.x
  s := h.s
  flg := by show u.flg = w.flg; rw [h.rest]
  gen := by show u.gen = w.gen; rw [h.rest]
  res := hf

/-- R102: exceptions go into FLG on top of what a block does. -/
theorem BlockDoes.raise {w u : Warp} {r : Run} {d : Opd} {n : Nat} {f : Run → Nat → Nat → Word}
    {g : Option (Run → Nat → Word)} (h : BlockDoes w u r d n f none g) (x : Run → Nat → Exc) :
    BlockDoes w (u.raise r.lanes (x r)) r d n f (some x) g where
  rest := by rw [Warp.raise, Warp.putFlg, h.rest]
  v := h.v
  x := h.x
  s := h.s
  flg := by
    intro l hl
    have hw : u.getFlg l = w.getFlg l := by have := h.flg; simp only at this; simp only [Warp.getFlg, this]
    simp only [Warp.raise, Warp.getFlg_putFlg _ _ _ hl, hw]
  gen := by have := h.gen; cases g <;> exact this
  res := by
    intro j l hj hm hk
    rw [← h.res j l hj hm hk]
    cases d <;> rfl

/-- R98: generators advance on top of what a block does. -/
theorem BlockDoes.putGen {w u : Warp} {r : Run} {d : Opd} {n : Nat} {f : Run → Nat → Nat → Word}
    {e : Option (Run → Nat → Exc)} (h : BlockDoes w u r d n f e none) (m : LaneMask) (x : Nat → Word) :
    BlockDoes w (u.putGen m x) r d n f e (some fun _ l => if has m l then x l else w.getGen l) where
  rest := by rw [Warp.putGen, h.rest]
  v := h.v
  x := h.x
  s := h.s
  flg := by have := h.flg; cases e <;> exact this
  gen := by
    intro l hl
    have hw : u.getGen l = w.getGen l := by have := h.gen; simp only at this; simp only [Warp.getGen, this]
    have : (u.putGen m x).getGen l = if has m l = true then x l else u.getGen l := by
      simp [Warp.getGen, Warp.putGen, mkRow_getD, hl]
    rw [this, hw]
  res := by
    intro j l hj hm hk
    rw [← h.res j l hj hm hk]
    cases d <;> rfl

theorem write_block (w : Warp) (r : Run) (d : Opd) (f : Run → Nat → Word) :
    BlockDoes w (w.write d r.lanes (f r)) r d 1 (fun r _ => f r) none none :=
  ((RegsOnly.refl w d 1 r.lanes).writeAt (by omega) _).block fun j l hj hm hk => by
    rw [Warp.getAt_writeAt _ _ _ _ _ _ _ hm hk]
    obtain rfl : j = 0 := by omega
    simp

theorem write64_block (w : Warp) (r : Run) (d : Opd) (f : Run → Nat → Dword) :
    BlockDoes w (w.write64 d r.lanes (f r)) r d 2 (fun r j l => pairWord (f r l) j) none none :=
  (((RegsOnly.refl w d 2 r.lanes).writeAt (by omega) _).writeAt (by omega) _).block fun j l hj hm hk => by
    rw [Warp.getAt_writeAt _ _ _ _ _ _ _ hm hk, Warp.getAt_writeAt _ _ _ _ _ _ _ hm hk]
    obtain rfl | rfl : j = 0 ∨ j = 1 := by omega
    all_goals simp [pairWord]

theorem writeRun_regs (w : Warp) (d : Opd) (n : Nat) (m : LaneMask) (f : Nat → Nat → Word) :
    RegsOnly w (w.writeRun d n m f) d n m ∧
      ∀ j l, j < n → has m l = true → d.kind ≠ 8 →
        (w.writeRun d n m f).getAt d j l = f j (if d.kind = 2 then lowLane m else l) := by
  suffices h : ∀ k, k ≤ n → RegsOnly w (w.writeRun d k m f) d n m ∧
      ∀ j l, j < k → has m l = true → d.kind ≠ 8 →
        (w.writeRun d k m f).getAt d j l = f j (if d.kind = 2 then lowLane m else l) from h n le_rfl
  intro k
  induction k with
  | zero => exact fun _ => ⟨RegsOnly.refl _ _ _ _, fun j l hj => absurd hj (by omega)⟩
  | succ k ih =>
    intro hk
    obtain ⟨h1, h2⟩ := ih (by omega)
    have he : w.writeRun d (k + 1) m f = (w.writeRun d k m f).writeAt d k m (f k) := by
      simp [Warp.writeRun, List.range_succ]
    rw [he]
    refine ⟨h1.writeAt (by omega) _, fun j l hj hm hk' => ?_⟩
    rw [Warp.getAt_writeAt _ _ _ _ _ _ _ hm hk']
    by_cases hjk : j = k
    · subst hjk; simp
    · simp [hjk, h2 j l (by omega) hm hk']

/-! ### The shared operations -/

/-- R198: one result a lane. -/
theorem laneOp_lanewise {i : Instr} {s : State} {d : Opd} (f : Warp → Nat → Word) (h : exec i s = laneOp i s d f) :
    Lane32 i s d (f s.w) :=
  lanewise_of_block h fun r => write_block s.w r d fun _ => f s.w

/-- R198: one 64-bit result a lane. -/
theorem laneOp64_lanewise {i : Instr} {s : State} {d : Opd} (f : Warp → Nat → Dword)
    (h : exec i s = laneOp64 i s d f) : Lane64 i s d (f s.w) :=
  lanewise_of_block h fun r => write64_block s.w r d fun _ => f s.w

/-- R198, R102: one result a lane with its exceptions. -/
theorem fpOp_lanewise {i : Instr} {s : State} {d : Opd} (f : Warp → Nat → Word × Exc) (h : exec i s = fpOp i s d f) :
    Lane32E i s d (f s.w) :=
  lanewise_of_block h fun r => (write_block s.w r d fun _ l => (f s.w l).1).raise fun _ l => (f s.w l).2

/-- R198, R102: one 64-bit result a lane with its exceptions. -/
theorem fpOp64_lanewise {i : Instr} {s : State} {d : Opd} (f : Warp → Nat → Dword × Exc)
    (h : exec i s = fpOp64 i s d f) : Lane64E i s d (f s.w) :=
  lanewise_of_block h fun r => (write64_block s.w r d fun _ l => (f s.w l).1).raise fun _ l => (f s.w l).2

end Sys2Proof.Machine
end

