-- ==== Sys2Proof/Laws/Memory.lean ====
section
/-! SUPPORT. The one form of a memory (log 1): every operation on memory keeps it, and what a byte reads as after each. -/

namespace Sys2Proof.Machine

theorem Memory.wf_nil : Memory.wf [] := ⟨List.Pairwise.nil, by simp⟩

theorem Memory.wf_tail {c : Host.Cell} {m : List Host.Cell} (h : Memory.wf (c :: m)) : Memory.wf m :=
  ⟨(List.pairwise_cons.mp h.1).2, fun d hd => h.2 d (List.mem_cons_of_mem _ hd)⟩

theorem Memory.wf_filter {m : List Host.Cell} (h : Memory.wf m) (p : Host.Cell → Bool) : Memory.wf (m.filter p) :=
  ⟨h.1.filter _, fun c hc => h.2 c (List.mem_of_mem_filter hc)⟩

/-- The addresses of a written memory are those of before and the one written. -/
theorem writeByte_addr {m : List Host.Cell} {a : Nat} {b : Byte} {c : Host.Cell} (h : c ∈ writeByte m a b) :
    c.1 = a ∨ c ∈ m := by
  induction m with
  | nil => simp only [writeByte] at h; split at h <;> simp_all
  | cons p t ih =>
    obtain ⟨x, y⟩ := p
    simp only [writeByte] at h
    split at h
    · split at h
      · exact .inr h
      · rcases List.mem_cons.mp h with rfl | h
        · exact .inl rfl
        · exact .inr h
    · split at h
      · split at h
        · exact .inr (List.mem_cons_of_mem _ h)
        · rcases List.mem_cons.mp h with rfl | h
          · exact .inl rfl
          · exact .inr (List.mem_cons_of_mem _ h)
      · rcases List.mem_cons.mp h with rfl | h
        · exact .inr List.mem_cons_self
        · rcases ih h with h | h
          · exact .inl h
          · exact .inr (List.mem_cons_of_mem _ h)

theorem Memory.wf_cons {c : Host.Cell} {m : List Host.Cell} (h : Memory.wf m) (h0 : c.2 ≠ 0) (h1 : ∀ d ∈ m, c.1 < d.1) :
    Memory.wf (c :: m) :=
  ⟨List.pairwise_cons.mpr ⟨h1, h.1⟩, fun d hd => by rcases List.mem_cons.mp hd with rfl | hd; exacts [h0, h.2 d hd]⟩

theorem Memory.wf_writeByte {m : List Host.Cell} (h : Memory.wf m) (a : Nat) (b : Byte) : Memory.wf (writeByte m a b) := by
  induction m with
  | nil =>
    simp only [writeByte]
    split
    · exact wf_nil
    · exact wf_cons wf_nil (by assumption) (by simp)
  | cons p t ih =>
    obtain ⟨x, y⟩ := p
    have ht := wf_tail h
    have hx : ∀ d ∈ t, x < d.1 := (List.pairwise_cons.mp h.1).1
    simp only [writeByte]
    split
    · split
      · exact h
      · refine wf_cons h (by assumption) fun d hd => ?_
        rcases List.mem_cons.mp hd with rfl | hd
        · assumption
        · have := hx d hd; simp only; omega
    · split
      · rename_i hax
        subst hax
        split
        · exact ht
        · exact wf_cons ht (by assumption) hx
      · refine wf_cons (ih ht) (h.2 (x, y) List.mem_cons_self) fun d hd => ?_
        rcases writeByte_addr hd with hd | hd
        · simp only; omega
        · exact hx d hd

theorem Memory.wf_writeBytes {m : List Host.Cell} (h : Memory.wf m) (l : List (Nat × Byte)) : Memory.wf (writeBytes m l) := by
  induction l generalizing m with
  | nil => exact h
  | cons p t ih => exact ih (wf_writeByte h p.1 p.2)

theorem Memory.wf_clearMem {m : List Host.Cell} (h : Memory.wf m) (lo n : Nat) : Memory.wf (clearMem m lo n) := wf_filter h _
theorem Memory.wf_cutMem {m : List Host.Cell} (h : Memory.wf m) (lo n : Nat) : Memory.wf (cutMem m lo n) := wf_filter h _

theorem Memory.wf_rmwAll {m : List Host.Cell} (h : Memory.wf m) (op : AOp) (ty : AType) (n : Nat) (ks : List Nat) (l : List Acc) :
    Memory.wf (rmwAll m op ty n ks l).1 := by
  induction l generalizing m with
  | nil => exact h
  | cons a t ih => exact ih (wf_writeBytes h _)

/-! ### The updates of a state's memory -/

theorem State.wf_wrs {s : State} (h : Memory.wf s.mem) (l : List (Nat × Byte)) : Memory.wf (s.wrs l).mem := Memory.wf_writeBytes h l
theorem State.wf_wrN {s : State} (h : Memory.wf s.mem) (a n v : Nat) : Memory.wf (s.wrN a n v).mem := Memory.wf_writeBytes h _

theorem State.wf_putImage {s : State} (h : Memory.wf s.mem) (img : List Host.Cell) (old new : List (Nat × Nat)) :
    Memory.wf (s.putImage img old new).mem := by
  have hm : ∀ (m : List Host.Cell), Memory.wf m → Memory.wf (new.foldl (fun m e => clearMem m e.1 e.2) m) := by
    induction new with
    | nil => exact fun _ h => h
    | cons e t ih => exact fun m h => ih _ (Memory.wf_clearMem h _ _)
  exact Memory.wf_writeBytes (hm _ h) _

/-- What each of some updates keeps, all of them keep. -/
theorem foldl_keeps {α β : Type} (P : β → Prop) (f : β → α → β) (hf : ∀ b a, P b → P (f b a)) (l : List α) {b : β} (h : P b) :
    P (l.foldl f b) := by
  induction l generalizing b with
  | nil => exact h
  | cons a t ih => exact ih (hf b a h)

theorem State.wf_copyPage {s : State} (h : Memory.wf s.mem) (old new n : Nat) : Memory.wf (s.copyPage old new n).mem :=
  foldl_keeps Memory.wf _ (fun _ _ h => Memory.wf_writeBytes (Memory.wf_clearMem h _ _) _) _ h

theorem State.wf_garble {s : State} (h : Memory.wf s.mem) (l : List Nat) : Memory.wf (s.garble l).mem := by
  unfold State.garble
  split
  · exact h
  · exact Memory.wf_writeBytes h _
theorem State.wf_copyBytes {s : State} (h : Memory.wf s.mem) (a b n : Nat) : Memory.wf (s.copyBytes a b n).mem :=
  Memory.wf_writeBytes h _
theorem State.wf_noteView {s : State} (h : Memory.wf s.mem) (f no : Nat) : Memory.wf (s.noteView f no).mem :=
  State.wf_copyBytes h (viewAt (f * 2 ^ 14) (no + 512)) (viewAt (f * 2 ^ 14) no) (2 ^ 14)
theorem State.wf_addView {s : State} (h : Memory.wf s.mem) (x : KeyView) : Memory.wf (s.addView x).mem := h
theorem State.wf_rekeyFrame {s : State} (h : Memory.wf s.mem) (n f : Nat) : Memory.wf (s.rekeyFrame n f).mem := by
  unfold State.rekeyFrame
  split
  · exact h
  · split
    · exact h
    · exact foldl_keeps (fun t : State => Memory.wf t.mem) (fun u j => u.noteView f j) (fun u j h => State.wf_noteView h f j) _
        (State.wf_addView (State.wf_garble h _) _)
theorem State.wf_rekey {s : State} (h : Memory.wf s.mem) (fs : List Nat) (k : Nat) : Memory.wf (s.rekey fs k).mem :=
  foldl_keeps (fun t : State => Memory.wf t.mem) _ (fun _ _ h => State.wf_rekeyFrame h _ _) _ h
theorem State.wf_rekeyBlock {s : State} (h : Memory.wf s.mem) (f k : Nat) : Memory.wf (s.rekeyBlock f k).mem := by
  unfold State.rekeyBlock
  simp only
  split
  · exact State.wf_garble h _
  · exact h
theorem State.wf_syncSector {s : State} (h : Memory.wf s.mem) (js : List Nat) (a : Nat) : Memory.wf (s.syncSector js a).mem := by
  unfold State.syncSector
  simp only
  split
  · exact h
  · refine foldl_keeps (fun t : State => Memory.wf t.mem) _ (fun u i h => ?_) _ (State.wf_garble h _)
    exact State.wf_copyBytes h (viewAt a (i + 512)) (viewAt a i) 64
theorem State.wf_syncViews {s : State} (h : Memory.wf s.mem) : Memory.wf s.syncViews.mem :=
  foldl_keeps (fun t : State => Memory.wf t.mem) _
    (fun _ _ h => foldl_keeps (fun t : State => Memory.wf t.mem) _ (fun _ _ h => State.wf_syncSector h _ _) _ h) _ h
/-- Where no frame is seen under two key pairs, nothing is to be brought in line. -/
@[simp] theorem State.syncViews_nil {s : State} (h : s.md.views = []) : s.syncViews = s := by simp [State.syncViews, h]

theorem Memory.wf_moveCells {m : List Host.Cell} (h : Memory.wf m) (f : Nat → Nat) : Memory.wf (moveCells f m) :=
  Memory.wf_writeBytes (wf_filter h _) _
theorem State.wf_rename {s : State} (h : Memory.wf s.mem) (no : Nat → Nat) : Memory.wf (s.rename no).mem := Memory.wf_moveCells h _

/-- The memory at reset has its form. -/
theorem reset_wf : Memory.wf State.reset.mem := Memory.wf_nil

/-! ### Reading -/

theorem readByte_of_lt {m : List Host.Cell} {a : Nat} (h : ∀ c ∈ m, a < c.1) : readByte m a = Memory.unlisted := by
  have : m.lookup a = none := by
    induction m with
    | nil => rfl
    | cons p t ih =>
      have hp : (a == p.1) = false := by simpa using Nat.ne_of_lt (h p List.mem_cons_self)
      simp only [List.lookup, hp]
      exact ih fun c hc => h c (List.mem_cons_of_mem _ hc)
  simp [readByte, this]

theorem readByte_cons (x : Nat) (y : Byte) (m : List Host.Cell) (a : Nat) :
    readByte ((x, y) :: m) a = if a = x then y else readByte m a := by
  by_cases h : a = x
  · subst h; simp [readByte]
  · simp only [readByte, List.lookup, show (a == x) = false by simpa using h, if_neg h]

/-- A write of one byte: that place reads as written, every other as before. -/
theorem readByte_writeByte {m : List Host.Cell} (h : Memory.wf m) (a : Nat) (b : Byte) (k : Nat) :
    readByte (writeByte m a b) k = if k = a then b else readByte m k := by
  induction m with
  | nil =>
    by_cases hb : b = 0
    · simp [writeByte, hb, readByte, Memory.unlisted]
    · simp only [writeByte, hb, if_false, readByte_cons]
  | cons p t ih =>
    obtain ⟨x, y⟩ := p
    have hx : ∀ d ∈ t, x < d.1 := (List.pairwise_cons.mp h.1).1
    simp only [writeByte]
    split
    · rename_i hax
      split
      · rename_i hb
        by_cases hk : k = a
        · subst hk
          rw [if_pos rfl, hb]
          exact readByte_of_lt fun c hc => by
            rcases List.mem_cons.mp hc with rfl | hc
            · exact hax
            · exact Nat.lt_trans hax (hx c hc)
        · rw [if_neg hk]
      · rw [readByte_cons]
    · split
      · rename_i hax
        subst hax
        split
        · rename_i hb
          by_cases hk : k = a
          · subst hk
            rw [if_pos rfl, hb, readByte_of_lt hx]
            rfl
          · rw [if_neg hk, readByte_cons, if_neg hk]
        · simp only [readByte_cons]
          split <;> rfl
      · rename_i h1 h2
        simp only [readByte_cons, ih (Memory.wf_tail h)]
        split
        · rename_i hk
          subst hk
          rw [if_neg (fun h => h2 h.symm)]
        · rfl

end Sys2Proof.Machine
end

