-- ==== Sys2Proof/Tests/Slice0.lean ====
section
/-! SUPPORT. Tests: what well-formedness refuses, words decoded, states that meet the hypotheses of the statements, and single
steps with the results that the spec gives. -/

namespace Sys2Proof.Tests

set_option Elab.async false

open Sys2Proof.Machine

/-! ### Well-formedness (R174, R175, R181, R190, R283) -/

/-- R179: the word that would be `mov v0, v0` is the 16-bit `nop`. -/
theorem test_wf_own_word : Instr.wf (.mov16 0 (.v 0)) = false ∧ Instr.wf (.mov16 1 (.v 0)) = true := by decide
/-- R174: a constant is no destination. -/
theorem test_wf_constant_destination : Instr.wf (.iadd (.k 1) (.v 1) (.v 2)) = false ∧ Instr.wf (.iadd (.x 1) (.v 1) (.v 2)) = true := by
  decide
/-- R175: a uniform operation takes scalar and constant sources alone. -/
theorem test_wf_uniform : Instr.wf (.iadd (.s 1) (.v 1) (.k 2)) = false ∧ Instr.wf (.iadd (.s 1) (.s 1) (.k 2)) = true := by decide
/-- R283: a matrix command takes scalars. -/
theorem test_wf_operand_class : Instr.wf (.mwait (.v 1)) = false ∧ Instr.wf (.mwait (.s 1)) = true := by decide
/-- R184: a store of a sign-extending size is none. -/
theorem test_wf_store_size : Instr.wf (.st (.v 1) (.v 2) 0 .b8s .shr) = false ∧ Instr.wf (.st (.v 1) (.v 2) 0 .b8z .shr) = true := by
  decide

/-! ### Decoding: words written out from the spec's encodings -/

/-- A word from its fixed bits and its fields, each with its lowest bit. -/
def word (base : Nat) (l : List (Nat × Nat)) : Nat := l.foldl (fun n p => n + p.1 * 2 ^ p.2) base
noncomputable def decodes (l : List (Nat × Nat × Instr)) : Bool := l.all fun p => decide (decodeTableWord p.1 p.2.1 = some p.2.2)

/-- R179 to R195 and the encodings of the opcode table: the words of a family, each from its fixed bits and its fields. -/
theorem test_decode_sixteen_bit : decodes [
    (16, word 0x0000 [(8, 5), (18, 11)], .mov16 8 (.x 2)),
    (16, word 0x0000 [], .nop16),
    (16, word 0x0002 [(8, 5), (18, 11)], .iadd16 8 (.x 2)),
    (16, word 0x0004 [(8, 5), (18, 11)], .isub16 8 (.x 2)),
    (16, word 0x0006 [(8, 5), (18, 11)], .imul16 8 (.x 2)),
    (16, word 0x0008 [(8, 5), (18, 11)], .and16 8 (.x 2)),
    (16, word 0x000A [(8, 5), (18, 11)], .or16 8 (.x 2)),
    (16, word 0x000C [(8, 5), (18, 11)], .xor16 8 (.x 2)),
    (16, word 0x000E [(8, 5), (18, 11)], .shl16 8 (.x 2)),
    (16, word 0x0010 [(8, 5), (18, 11)], .shr16 8 (.x 2)),
    (16, word 0x0012 [(8, 5), (18, 11)], .sar16 8 (.x 2)),
    (16, word 0x0014 [(8, 5), (18, 11)], .iminI3216 8 (.x 2)),
    (16, word 0x0016 [(8, 5), (18, 11)], .imaxI3216 8 (.x 2)),
    (16, word 0x0018 [(8, 5), (18, 11)], .fadd16 8 (.x 2)),
    (16, word 0x001A [(8, 5), (18, 11)], .fsub16 8 (.x 2)),
    (16, word 0x001C [(8, 5), (18, 11)], .fmul16 8 (.x 2)),
    (16, word 0x001E [(8, 5), (18, 11)], .fmax16 8 (.x 2))] = true := by decide

/-- R179 to R195 and the encodings of the opcode table: the words of a family, each from its fixed bits and its fields. -/
theorem test_decode_integer : decodes [
    (32, word 0x00000003 [(8, 11), (16, 18), (24, 25)], .iadd (.v 8) (.v 16) (.v 24)),
    (32, word 0x00000083 [(8, 11), (16, 18), (24, 25)], .isub (.v 8) (.v 16) (.v 24)),
    (32, word 0x00000103 [(8, 11), (16, 18), (24, 25)], .imul (.v 8) (.v 16) (.v 24)),
    (32, word 0x00000183 [(8, 11), (16, 18), (24, 25)], .imulhI32 (.v 8) (.v 16) (.v 24)),
    (32, word 0x00000203 [(8, 11), (16, 18), (24, 25)], .imulhN32 (.v 8) (.v 16) (.v 24)),
    (32, word 0x00000283 [(8, 11), (16, 18), (24, 25)], .imad (.v 8) (.v 16) (.v 24)),
    (32, word 0x00000303 [(8, 11), (16, 18)], .iabs (.v 8) (.v 16)),
    (32, word 0x00000383 [(8, 11), (16, 18), (24, 25)], .lea (.v 8) (.v 16) (.v 24)),
    (32, word 0x00000403 [(8, 11), (16, 18)], .mov (.v 8) (.v 16)),
    (32, word 0x00000483 [(8, 11), (16, 18)], .popc (.v 8) (.v 16)),
    (32, word 0x00000503 [(8, 11), (16, 18)], .clz (.v 8) (.v 16)),
    (32, word 0x00000583 [(8, 11), (16, 18)], .ctz (.v 8) (.v 16)),
    (32, word 0x00000603 [(8, 11), (16, 18)], .brev (.v 8) (.v 16)),
    (32, word 0x00000683 [(8, 11), (16, 18), (24, 25)], .bfe (.v 8) (.v 16) (.v 24)),
    (32, word 0x00000703 [(8, 11), (16, 18), (24, 25)], .bfi (.v 8) (.v 16) (.v 24)),
    (32, word 0x00000005 [(8, 11), (16, 18), (24, 25)], .and (.v 8) (.v 16) (.v 24)),
    (32, word 0x00000085 [(8, 11), (16, 18), (24, 25)], .or (.v 8) (.v 16) (.v 24)),
    (32, word 0x00000105 [(8, 11), (16, 18), (24, 25)], .xor (.v 8) (.v 16) (.v 24)),
    (32, word 0x00000185 [(8, 11), (16, 18), (24, 25)], .andn (.v 8) (.v 16) (.v 24)),
    (32, word 0x00000205 [(8, 11), (16, 18), (24, 25)], .shl (.v 8) (.v 16) (.v 24)),
    (32, word 0x00000285 [(8, 11), (16, 18), (24, 25)], .shr (.v 8) (.v 16) (.v 24)),
    (32, word 0x00000305 [(8, 11), (16, 18), (24, 25)], .sar (.v 8) (.v 16) (.v 24)),
    (32, word 0x00000385 [(8, 11), (16, 18), (24, 25)], .rol (.v 8) (.v 16) (.v 24))] = true := by decide

/-- R179 to R195 and the encodings of the opcode table: the words of a family, each from its fixed bits and its fields. -/
theorem test_decode_compare_select : decodes [
    (32, word 0x00000007 [(8, 11), (16, 18), (24, 25)], .cmpEqI32 (.v 8) (.v 16) (.v 24)),
    (32, word 0x00000087 [(8, 11), (16, 18), (24, 25)], .cmpNeI32 (.v 8) (.v 16) (.v 24)),
    (32, word 0x00000107 [(8, 11), (16, 18), (24, 25)], .cmpLtI32 (.v 8) (.v 16) (.v 24)),
    (32, word 0x00000187 [(8, 11), (16, 18), (24, 25)], .cmpLeI32 (.v 8) (.v 16) (.v 24)),
    (32, word 0x00000207 [(8, 11), (16, 18), (24, 25)], .cmpGtI32 (.v 8) (.v 16) (.v 24)),
    (32, word 0x00000287 [(8, 11), (16, 18), (24, 25)], .cmpGeI32 (.v 8) (.v 16) (.v 24)),
    (32, word 0x00000307 [(8, 11), (16, 18), (24, 25)], .cmpEqN32 (.v 8) (.v 16) (.v 24)),
    (32, word 0x00000387 [(8, 11), (16, 18), (24, 25)], .cmpNeN32 (.v 8) (.v 16) (.v 24)),
    (32, word 0x00000407 [(8, 11), (16, 18), (24, 25)], .cmpLtN32 (.v 8) (.v 16) (.v 24)),
    (32, word 0x00000487 [(8, 11), (16, 18), (24, 25)], .cmpLeN32 (.v 8) (.v 16) (.v 24)),
    (32, word 0x00000507 [(8, 11), (16, 18), (24, 25)], .cmpGtN32 (.v 8) (.v 16) (.v 24)),
    (32, word 0x00000587 [(8, 11), (16, 18), (24, 25)], .cmpGeN32 (.v 8) (.v 16) (.v 24)),
    (32, word 0x00000607 [(8, 11), (16, 18), (24, 25)], .iminI32 (.v 8) (.v 16) (.v 24)),
    (32, word 0x00000687 [(8, 11), (16, 18), (24, 25)], .imaxI32 (.v 8) (.v 16) (.v 24)),
    (32, word 0x00000707 [(8, 11), (16, 18), (24, 25)], .iminN32 (.v 8) (.v 16) (.v 24)),
    (32, word 0x00000787 [(8, 11), (16, 18), (24, 25)], .imaxN32 (.v 8) (.v 16) (.v 24)),
    (32, word 0x00000009 [(8, 11), (4, 7), (24, 18), (32, 25)], .selMask (.v 8) 4 (.v 24) (.v 32)),
    (32, word 0x00000609 [(8, 11), (16, 18), (24, 25)], .sel (.v 8) (.v 16) (.v 24))] = true := by decide

/-- R179 to R195 and the encodings of the opcode table: the words of a family, each from its fixed bits and its fields. -/
theorem test_decode_packed_wide : decodes [
    (32, word 0x0000000B [(8, 14), (16, 20), (24, 26), (3, 11), (1, 13)], .iaddPacked 8 16 24 .n16x2 true),
    (32, word 0x0000008B [(8, 14), (16, 20), (24, 26), (3, 11), (1, 13)], .isubPacked 8 16 24 .n16x2 true),
    (32, word 0x0000010B [(8, 14), (16, 20), (24, 26), (3, 11)], .iminPacked 8 16 24 .n16x2),
    (32, word 0x0000018B [(8, 14), (16, 20), (24, 26), (3, 11)], .imaxPacked 8 16 24 .n16x2),
    (32, word 0x0000020B [(8, 14), (16, 20), (24, 26), (3, 11)], .shlPacked 8 16 24 .n16x2),
    (32, word 0x0000028B [(8, 14), (16, 20), (24, 26), (3, 11)], .shrPacked 8 16 24 .n16x2),
    (32, word 0x0000030B [(8, 14), (16, 20), (24, 26), (3, 11)], .sarPacked 8 16 24 .n16x2),
    (32, word 0x0000038B [(8, 14), (16, 20), (24, 26), (1, 11)], .idot4 8 16 24 true),
    (32, word 0x0000138B [(8, 14), (16, 20), (24, 26), (1, 11)], .idot2 8 16 24 true),
    (32, word 0x0000000D [(8, 11), (16, 18), (24, 25)], .iadd64 (.v 8) (.v 16) (.v 24)),
    (32, word 0x0000008D [(8, 11), (16, 18), (24, 25)], .isub64 (.v 8) (.v 16) (.v 24)),
    (32, word 0x0000010D [(8, 11), (16, 18), (24, 25)], .shl64 (.v 8) (.v 16) (.v 24)),
    (32, word 0x0000018D [(8, 11), (16, 18), (24, 25)], .shr64 (.v 8) (.v 16) (.v 24)),
    (32, word 0x0000020D [(8, 11), (16, 18), (24, 25)], .imulwI32 (.v 8) (.v 16) (.v 24)),
    (32, word 0x0000028D [(8, 11), (16, 18), (24, 25)], .imulwN32 (.v 8) (.v 16) (.v 24)),
    (32, word 0x0000030D [(8, 11), (16, 18), (24, 25)], .cmp64Eq (.v 8) (.v 16) (.v 24)),
    (32, word 0x0000038D [(8, 11), (16, 18), (24, 25)], .cmp64Ne (.v 8) (.v 16) (.v 24)),
    (32, word 0x0000040D [(8, 11), (16, 18), (24, 25)], .cmp64LtI64 (.v 8) (.v 16) (.v 24)),
    (32, word 0x0000048D [(8, 11), (16, 18), (24, 25)], .cmp64LtN64 (.v 8) (.v 16) (.v 24)),
    (32, word 0x0000050D [(8, 11), (16, 18), (24, 25)], .cmp64LeI64 (.v 8) (.v 16) (.v 24)),
    (32, word 0x0000058D [(8, 11), (16, 18), (24, 25)], .cmp64LeN64 (.v 8) (.v 16) (.v 24)),
    (32, word 0x0000060D [(8, 11), (16, 18), (24, 25)], .idivI32 (.v 8) (.v 16) (.v 24)),
    (32, word 0x0000068D [(8, 11), (16, 18), (24, 25)], .idivN32 (.v 8) (.v 16) (.v 24)),
    (32, word 0x0000070D [(8, 11), (16, 18), (24, 25)], .iremI32 (.v 8) (.v 16) (.v 24)),
    (32, word 0x0000078D [(8, 11), (16, 18), (24, 25)], .iremN32 (.v 8) (.v 16) (.v 24))] = true := by decide

/-- R179 to R195 and the encodings of the opcode table: the words of a family, each from its fixed bits and its fields. -/
theorem test_decode_float : decodes [
    (32, word 0x00000011 [(8, 11), (16, 18), (24, 25), (2, 7)], .fadd (.v 8) (.v 16) (.v 24) .rp),
    (32, word 0x00000211 [(8, 11), (16, 18), (24, 25), (2, 7)], .fsub (.v 8) (.v 16) (.v 24) .rp),
    (32, word 0x00000411 [(8, 11), (16, 18), (24, 25), (2, 7)], .fmul (.v 8) (.v 16) (.v 24) .rp),
    (32, word 0x00000611 [(8, 11), (16, 18), (24, 25), (2, 7)], .ffma (.v 8) (.v 16) (.v 24) .rp),
    (32, word 0x00000013 [(8, 11), (16, 18), (24, 25)], .fcmpEq (.v 8) (.v 16) (.v 24)),
    (32, word 0x00000093 [(8, 11), (16, 18), (24, 25)], .fcmpNe (.v 8) (.v 16) (.v 24)),
    (32, word 0x00000113 [(8, 11), (16, 18), (24, 25)], .fcmpLt (.v 8) (.v 16) (.v 24)),
    (32, word 0x00000193 [(8, 11), (16, 18), (24, 25)], .fcmpLe (.v 8) (.v 16) (.v 24)),
    (32, word 0x00000213 [(8, 11), (16, 18), (24, 25)], .fcmpGt (.v 8) (.v 16) (.v 24)),
    (32, word 0x00000293 [(8, 11), (16, 18), (24, 25)], .fcmpGe (.v 8) (.v 16) (.v 24)),
    (32, word 0x00000313 [(8, 11), (16, 18), (24, 25)], .fcmpUn (.v 8) (.v 16) (.v 24)),
    (32, word 0x00000393 [(8, 11), (16, 18), (24, 25)], .fmin (.v 8) (.v 16) (.v 24)),
    (32, word 0x00000413 [(8, 11), (16, 18), (24, 25)], .fmax (.v 8) (.v 16) (.v 24)),
    (32, word 0x00000493 [(8, 11), (16, 18)], .fabs (.v 8) (.v 16)),
    (32, word 0x00000513 [(8, 11), (16, 18)], .fneg (.v 8) (.v 16)),
    (32, word 0x00000593 [(8, 11), (16, 18)], .frndRn (.v 8) (.v 16)),
    (32, word 0x00000613 [(8, 11), (16, 18)], .frndRz (.v 8) (.v 16)),
    (32, word 0x00000693 [(8, 11), (16, 18)], .frndRp (.v 8) (.v 16)),
    (32, word 0x00000713 [(8, 11), (16, 18)], .frndRm (.v 8) (.v 16)),
    (32, word 0x00000793 [(8, 11), (16, 18)], .ffrac (.v 8) (.v 16))] = true := by decide

/-- R179 to R195 and the encodings of the opcode table: the words of a family, each from its fixed bits and its fields. -/
theorem test_decode_packed_float : decodes [
    (32, word 0x00000015 [(8, 11), (16, 18), (24, 25), (2, 7)], .hadd2 (.v 8) (.v 16) (.v 24) .rp),
    (32, word 0x00000215 [(8, 11), (16, 18), (24, 25), (2, 7)], .hmul2 (.v 8) (.v 16) (.v 24) .rp),
    (32, word 0x00000415 [(8, 11), (16, 18), (24, 25), (2, 7)], .hfma2 (.v 8) (.v 16) (.v 24) .rp),
    (32, word 0x00000017 [(8, 11), (16, 18), (24, 25), (2, 7)], .badd2 (.v 8) (.v 16) (.v 24) .rp),
    (32, word 0x00000217 [(8, 11), (16, 18), (24, 25), (2, 7)], .bmul2 (.v 8) (.v 16) (.v 24) .rp),
    (32, word 0x00000417 [(8, 11), (16, 18), (24, 25), (2, 7)], .bfma2 (.v 8) (.v 16) (.v 24) .rp),
    (32, word 0x00000019 [(8, 11), (16, 18), (24, 25), (2, 7)], .dadd (.v 8) (.v 16) (.v 24) .rp),
    (32, word 0x00000219 [(8, 11), (16, 18), (24, 25), (2, 7)], .dmul (.v 8) (.v 16) (.v 24) .rp),
    (32, word 0x00000419 [(8, 11), (16, 18), (24, 25), (2, 7)], .dfma (.v 8) (.v 16) (.v 24) .rp)] = true := by decide

/-- R179 to R195 and the encodings of the opcode table: the words of a family, each from its fixed bits and its fields. -/
theorem test_decode_convert_special : decodes [
    (32, word 0x0000001B [(8, 11), (16, 18), (2, 28), (1, 25), (4, 7)], .cvt (.v 8) (.v 16) .f16 .f32 .rs),
    (32, word 0x8000001B [(8, 11), (16, 18), (2, 28), (1, 25), (4, 7)], .cvtPk (.v 8) (.v 16) .f16 .f32 .rs),
    (32, word 0x0000001D [(8, 11), (16, 18), (9, 28), (4, 7)], .cvtBlkPack (.v 8) (.v 16) 9 .rs),
    (32, word 0x0200001D [(8, 11), (16, 18), (9, 28)], .cvtBlkUnpack (.v 8) (.v 16) 9),
    (32, word 0x0400001D [(8, 11), (16, 18), (2, 28), (4, 7)], .cvtBlkpPack (.v 8) (.v 16) 2 .rs),
    (32, word 0x0600001D [(8, 11), (16, 18), (2, 28)], .cvtBlkpUnpack (.v 8) (.v 16) 2),
    (32, word 0x0000001F [(8, 11), (16, 18)], .frcp (.v 8) (.v 16)),
    (32, word 0x0000009F [(8, 11), (16, 18)], .frsq (.v 8) (.v 16)),
    (32, word 0x0000011F [(8, 11), (16, 18)], .fsqrt (.v 8) (.v 16)),
    (32, word 0x0000019F [(8, 11), (16, 18)], .fexp2 (.v 8) (.v 16)),
    (32, word 0x0000021F [(8, 11), (16, 18)], .flog2 (.v 8) (.v 16)),
    (32, word 0x0000029F [(8, 11), (16, 18)], .fsin (.v 8) (.v 16)),
    (32, word 0x0000031F [(8, 11), (16, 18)], .fcos (.v 8) (.v 16)),
    (32, word 0x0000039F [(8, 11), (16, 18)], .ftanh (.v 8) (.v 16))] = true := by decide

/-- R179 to R195 and the encodings of the opcode table: the words of a family, each from its fixed bits and its fields. -/
theorem test_decode_lanes : decodes [
    (32, word 0x00000021 [(8, 11), (16, 18), (24, 25)], .lshfUp (.v 8) (.v 16) (.v 24)),
    (32, word 0x000000A1 [(8, 11), (16, 18), (24, 25)], .lshfDn (.v 8) (.v 16) (.v 24)),
    (32, word 0x00000121 [(8, 11), (16, 18), (24, 25)], .lshfXor (.v 8) (.v 16) (.v 24)),
    (32, word 0x000001A1 [(8, 11), (16, 18), (24, 25)], .lshfIdx (.v 8) (.v 16) (.v 24)),
    (32, word 0x00000221 [(8, 11), (16, 18), (5, 25)], .lshfUpW (.v 8) (.v 16) 5),
    (32, word 0x000002A1 [(8, 11), (16, 18), (5, 25)], .lshfDnW (.v 8) (.v 16) 5),
    (32, word 0x00000321 [(8, 11), (16, 18), (5, 25)], .lshfXorW (.v 8) (.v 16) 5),
    (32, word 0x000003A1 [(8, 11), (16, 18), (24, 25)], .lbcast (.v 8) (.v 16) (.v 24)),
    (32, word 0x00000421 [(8, 11), (16, 18), (3, 25)], .lred (.v 8) (.v 16) .fmax),
    (32, word 0x000004A1 [(8, 11), (16, 18), (3, 25)], .lscan (.v 8) (.v 16) .fmax),
    (32, word 0x00000521 [(8, 11), (16, 18)], .lvoteAny (.v 8) (.v 16)),
    (32, word 0x000005A1 [(8, 11), (16, 18)], .lvoteAll (.v 8) (.v 16)),
    (32, word 0x00000621 [(8, 11), (16, 18)], .lvoteBallot (.v 8) (.v 16)),
    (32, word 0x000006A1 [(8, 11), (7, 25)], .lidx (.v 8) .all),
    (32, word 0x00000721 [(8, 11), (16, 18), (24, 25)], .lget (.v 8) (.v 16) (.v 24))] = true := by decide

/-- R179 to R195 and the encodings of the opcode table: the words of a family, each from its fixed bits and its fields. -/
theorem test_decode_masks_queues : decodes [
    (32, word 0x00000023 [(3, 11)], .join 3),
    (32, word 0x000000A3 [(3, 11)], .leave 3),
    (32, word 0x00000123 [(3, 18)], .wait 3),
    (32, word 0x000001A3 [(3, 11), (16, 18)], .mset 3 (.v 16)),
    (32, word 0x00000223 [(8, 11), (12, 18)], .mget (.v 8) 12),
    (32, word 0x000002A3 [(3, 11), (4, 18), (5, 25)], .mand 3 4 5),
    (32, word 0x00000323 [(3, 11), (4, 18), (5, 25)], .mor 3 4 5),
    (32, word 0x000003A3 [(3, 11), (4, 18), (5, 25)], .mxor 3 4 5),
    (32, word 0x00000423 [(3, 11), (4, 18)], .mnot 3 4),
    (32, word 0x000004A3 [(8, 11), (12, 18)], .mpop (.v 8) 12),
    (32, word 0x00000523 [(8, 11), (12, 18)], .mfirst (.v 8) 12),
    (32, word 0x00000025 [(8, 18), (16, 25)], .xsend (.v 8) (.v 16)),
    (32, word 0x000000A5 [(8, 11), (16, 18)], .xrecv (.v 8) (.v 16)),
    (32, word 0x00000125 [(3, 11), (5, 18), (16, 25)], .qpush 3 5 (.v 16)),
    (32, word 0x000001A5 [(8, 11), (4, 25), (5, 18)], .qpop (.v 8) 4 5),
    (32, word 0x00000225 [(8, 11), (4, 25), (5, 18)], .qpopw (.v 8) 4 5),
    (32, word 0x000002A5 [(8, 11), (5, 18)], .qlen (.v 8) 5)] = true := by decide

/-- R179 to R195 and the encodings of the opcode table: the words of a family, each from its fixed bits and its fields. -/
theorem test_decode_immediate : decodes [
    (32, word 0x00000031 [(8, 7), (16, 14), (2046, 21)], .iaddi (.v 8) (.v 16) 0x7FE),
    (32, word 0x00000033 [(8, 7), (16, 14), (2046, 21)], .andi (.v 8) (.v 16) 0x7FE),
    (32, word 0x00000035 [(8, 7), (16, 14), (2046, 21)], .ori (.v 8) (.v 16) 0x7FE),
    (32, word 0x00000037 [(8, 7), (16, 14), (2046, 21)], .xori (.v 8) (.v 16) 0x7FE),
    (32, word 0x00000039 [(8, 7), (16, 14), (9, 21)], .shli (.v 8) (.v 16) 9),
    (32, word 0x20000039 [(8, 7), (16, 14), (9, 21)], .shri (.v 8) (.v 16) 9),
    (32, word 0x40000039 [(8, 7), (16, 14), (9, 21)], .sari (.v 8) (.v 16) 9),
    (32, word 0x0000003B [(8, 7), (16, 14), (10, 28), (125, 21)], .cmpi (.v 8) (.v 16) .gtN 0x7D),
    (32, word 0x0000003D [(8, 7), (16, 14), (2046, 21)], .imuli (.v 8) (.v 16) 0x7FE),
    (32, word 0x0000003F [(8, 7), (10, 21)], .movsFromScalar (.v 8) 10),
    (32, word 0x0800003F [(10, 21), (104, 14)], .movsToScalar 10 (.s 8)),
    (32, word 0x00000041 [(8, 7), (262128, 14)], .movl (.v 8) 0x3FFF0),
    (32, word 0x00000043 [(8, 7), (262128, 14)], .movh (.v 8) 0x3FFF0)] = true := by decide

/-- R179 to R195 and the encodings of the opcode table: the words of a family, each from its fixed bits and its fields. -/
theorem test_decode_load_store : decodes [
    (32, word 0x00000045 [(8, 13), (16, 20), (3, 27), (4, 10), (2, 7)], .ld (.v 8) (.v 16) 3 .b32 .dws),
    (32, word 0x00000047 [(8, 13), (16, 20), (3, 27), (4, 10), (2, 7)], .st (.v 8) (.v 16) 3 .b32 .dws),
    (32, word 0x00000249 [(8, 13), (16, 20), (3, 27), (4, 10)], .stFabRel (.v 8) (.v 16) 3 .b32)] = true := by decide

/-- R179 to R195 and the encodings of the opcode table: the words of a family, each from its fixed bits and its fields. -/
theorem test_decode_atomics : decodes [
    (32, word 0x0000004B [(8, 16), (16, 23), (1, 15), (0, 13), (2, 11)], .atomAdd (.v 8) (.v 16) true .n32 .chip),
    (32, word 0x000000CB [(8, 16), (16, 23), (1, 15), (0, 13), (2, 11)], .atomMin (.v 8) (.v 16) true .n32 .chip),
    (32, word 0x0000014B [(8, 16), (16, 23), (1, 15), (0, 13), (2, 11)], .atomMax (.v 8) (.v 16) true .n32 .chip),
    (32, word 0x000001CB [(8, 16), (16, 23), (1, 15), (0, 13), (2, 11)], .atomAnd (.v 8) (.v 16) true .n32 .chip),
    (32, word 0x0000024B [(8, 16), (16, 23), (1, 15), (0, 13), (2, 11)], .atomOr (.v 8) (.v 16) true .n32 .chip),
    (32, word 0x000002CB [(8, 16), (16, 23), (1, 15), (0, 13), (2, 11)], .atomXor (.v 8) (.v 16) true .n32 .chip),
    (32, word 0x0000034B [(8, 16), (16, 23), (1, 15), (0, 13), (2, 11)], .atomXchg (.v 8) (.v 16) true .n32 .chip),
    (32, word 0x000003CB [(8, 16), (16, 23), (1, 15), (0, 13), (2, 11)], .atomCas (.v 8) (.v 16) true .n32 .chip),
    (32, word 0x0000044B [(8, 16), (16, 23), (1, 15), (0, 13), (2, 11)], .atomIncw (.v 8) (.v 16) true .n32 .chip),
    (32, word 0x000004CB [(8, 16), (16, 23), (1, 15), (0, 13), (2, 11)], .atomDecw (.v 8) (.v 16) true .n32 .chip),
    (32, word 0x0000004D [(8, 16), (16, 23), (1, 15), (0, 13), (2, 11)], .redAdd (.v 8) (.v 16) true .n32 .chip),
    (32, word 0x000000CD [(8, 16), (16, 23), (1, 15), (0, 13), (2, 11)], .redMin (.v 8) (.v 16) true .n32 .chip),
    (32, word 0x0000014D [(8, 16), (16, 23), (1, 15), (0, 13), (2, 11)], .redMax (.v 8) (.v 16) true .n32 .chip),
    (32, word 0x000001CD [(8, 16), (16, 23), (1, 15), (0, 13), (2, 11)], .redAnd (.v 8) (.v 16) true .n32 .chip),
    (32, word 0x0000024D [(8, 16), (16, 23), (1, 15), (0, 13), (2, 11)], .redOr (.v 8) (.v 16) true .n32 .chip),
    (32, word 0x000002CD [(8, 16), (16, 23), (1, 15), (0, 13), (2, 11)], .redXor (.v 8) (.v 16) true .n32 .chip),
    (32, word 0x0000044D [(8, 16), (16, 23), (1, 15), (0, 13), (2, 11)], .redIncw (.v 8) (.v 16) true .n32 .chip),
    (32, word 0x000004CD [(8, 16), (16, 23), (1, 15), (0, 13), (2, 11)], .redDecw (.v 8) (.v 16) true .n32 .chip)] = true := by decide

/-- R179 to R195 and the encodings of the opcode table: the words of a family, each from its fixed bits and its fields. -/
theorem test_decode_copies_tags_barriers : decodes [
    (64, word 0x0000004F [(1, 32), (8, 17), (16, 24), (10, 11), (1, 62), (3, 60), (69, 53), (24, 46), (32, 39)], .cpy (.v 8) (.v 16) 10 .dws .mem (.dws 5) (.v 24) (.v 32)),
    (64, word 0x000000CF [(1, 32), (8, 17), (16, 24), (10, 11), (1, 62), (3, 60), (69, 53), (24, 46), (32, 39)], .cpx (.v 8) (.v 16) 10 .dws .mem (.dws 5) (.v 24) (.v 32)),
    (64, word 0x0000014F [(1, 32), (8, 17), (16, 24), (10, 11), (1, 62), (3, 60), (69, 53), (24, 46), (32, 39)], .cpg (.v 8) (.v 16) 10 .dws .mem (.dws 5) (.v 24) (.v 32)),
    (64, word 0x000001CF [(1, 32), (8, 17), (16, 24), (10, 11), (1, 62), (3, 60), (69, 53), (24, 46), (32, 39)], .cps (.v 8) (.v 16) 10 .dws .mem (.dws 5) (.v 24) (.v 32)),
    (32, word 0x01000051 [(10, 11)], .tagany 10),
    (32, word 0x010000D1 [(10, 11)], .tagall 10),
    (32, word 0x010001D1 [(10, 11)], .tagclr 10),
    (32, word 0x00000051 [(8, 17)], .taganyMask (.v 8)),
    (32, word 0x000000D1 [(8, 17)], .tagallMask (.v 8)),
    (32, word 0x000001D1 [(8, 17)], .tagclrMask (.v 8)),
    (32, word 0x00000151 [(8, 24), (16, 17)], .tagfirst (.v 8) (.v 16)),
    (32, word 0x00000251 [(8, 17), (1, 11), (16, 24)], .bcbInit (.v 8) true (.v 16)),
    (32, word 0x000002D1 [(8, 17), (1, 11)], .bcbInitAbandon (.v 8) true),
    (32, word 0x00000351 [(8, 17), (1, 11), (16, 24)], .bcbExp (.v 8) true (.v 16)),
    (32, word 0x000003D1 [(8, 17), (1, 11), (16, 24)], .bcbArr (.v 8) true (.v 16)),
    (32, word 0x00000451 [(8, 11), (16, 17), (1, 27), (5, 24)], .bcbWait 8 (.v 16) true 5),
    (32, word 0x000004D1 [(8, 11), (16, 17), (1, 27)], .bcbTest 8 (.v 16) true)] = true := by decide

/-- R179 to R195 and the encodings of the opcode table: the words of a family, each from its fixed bits and its fields. -/
theorem test_decode_objects_fences_hub : decodes [
    (64, word 0x00000053 [(1, 32), (8, 17), (16, 24), (2, 11), (24, 46), (32, 39)], .sobindGrp (.v 8) (.v 16) .dws (.v 24) (.v 32)),
    (64, word 0x000000D3 [(1, 32), (8, 17), (16, 24), (2, 11), (24, 46), (32, 39)], .sobindClu (.v 8) (.v 16) .dws (.v 24) (.v 32)),
    (64, word 0x00000153 [(1, 32), (8, 17), (16, 24), (2, 11), (24, 46), (32, 39)], .sobindChip (.v 8) (.v 16) .dws (.v 24) (.v 32)),
    (64, word 0x000001D3 [(1, 32), (8, 17), (16, 24), (2, 11), (24, 46), (32, 39)], .sobindSys (.v 8) (.v 16) .dws (.v 24) (.v 32)),
    (32, word 0x00000253 [(8, 17), (1, 11)], .sacq (.v 8) .dws),
    (32, word 0x000002D3 [(8, 17), (1, 11)], .sacqSh (.v 8) .dws),
    (32, word 0x00000353 [(8, 24), (16, 17), (1, 11)], .stry (.v 8) (.v 16) .dws),
    (32, word 0x000003D3 [(8, 24), (16, 17), (1, 11)], .srel (.v 8) (.v 16) .dws),
    (32, word 0x00000453 [], .fenceGrp),
    (32, word 0x000004D3 [], .fenceClu),
    (32, word 0x00000553 [], .fenceChip),
    (32, word 0x000005D3 [], .fenceSys),
    (64, word 0x00000055 [(1, 32), (8, 17), (16, 24), (24, 53), (32, 46), (40, 39)], .hredOpen (.v 8) (.v 16) (.v 24) (.v 32) (.v 40)),
    (32, word 0x000000D5 [(8, 24), (16, 17)], .hredPut (.v 8) (.v 16)),
    (32, word 0x00000155 [(8, 24), (16, 17)], .hredWait (.v 8) (.v 16))] = true := by decide

/-- R179 to R195 and the encodings of the opcode table: the words of a family, each from its fixed bits and its fields. -/
theorem test_decode_control : decodes [
    (32, word 0x00000061 [(262128, 14)], .jmp 0x3FFF0),
    (32, word 0x00000063 [(8, 7), (262128, 14)], .bz (.v 8) 0x3FFF0),
    (32, word 0x00000065 [(8, 7), (262128, 14)], .bnz (.v 8) 0x3FFF0),
    (32, word 0x00000067 [(3, 7), (262128, 14)], .bm 3 0x3FFF0),
    (32, word 0x00000069 [(262128, 14)], .call 0x3FFF0),
    (32, word 0x0000006B [(8, 17)], .jmpr (.v 8)),
    (32, word 0x000000EB [], .ret),
    (32, word 0x0000016B [], .endLanes),
    (32, word 0x000001EB [], .nop),
    (32, word 0x0000026B [], .yield),
    (32, word 0x000002EB [(8, 17)], .sleep (.v 8)),
    (32, word 0x0000036B [(10, 11)], .trap 10),
    (32, word 0x000003EB [(10, 11)], .brk 10),
    (32, word 0x0000046B [(8, 17)], .rfe (.v 8))] = true := by decide

/-- R179 to R195 and the encodings of the opcode table: the words of a family, each from its fixed bits and its fields. -/
theorem test_decode_matrix : decodes [
    (32, word 0x0000006D [(104, 24), (106, 17), (10, 11)], .obres (.s 8) (.s 10) 10),
    (32, word 0x000000ED [(104, 24), (106, 17)], .obrec (.s 8) (.s 10)),
    (32, word 0x0000016D [(104, 17)], .obrel (.s 8)),
    (64, word 0x000001ED [(1, 32), (104, 24), (106, 17), (69, 53), (108, 39)], .mload (.s 8) (.s 10) (.dws 5) (.s 12)),
    (32, word 0x0000026D [], .mswap),
    (32, word 0x000002ED [], .mswapAuto),
    (64, word 0x0000036D [(1, 32), (104, 24), (106, 17), (9, 60), (69, 53), (108, 46), (110, 39)], .mstream (.s 8) (.s 10) 9 (.dws 5) (.s 12) (.s 14)),
    (32, word 0x000003ED [(104, 24), (106, 17)], .mzero (.s 8) (.s 10)),
    (64, word 0x0000046D [(1, 32), (104, 24), (106, 17), (108, 46), (110, 39)], .mdrain (.s 8) (.s 10) (.s 12) (.s 14)),
    (32, word 0x000004ED [(104, 17)], .mwait (.s 8)),
    (32, word 0x0000056D [(104, 24), (106, 17)], .mpoll (.s 8) (.s 10)),
    (32, word 0x000005ED [(104, 24)], .accget (.s 8)),
    (32, word 0x0000066D [(104, 17)], .accput (.s 8)),
    (32, word 0x000006ED [(104, 24)], .mstat (.s 8))] = true := by decide

/-- R179 to R195 and the encodings of the opcode table: the words of a family, each from its fixed bits and its fields. -/
theorem test_decode_tasks : decodes [
    (32, word 0x0000006F [(104, 24), (106, 17)], .tspawn (.s 8) (.s 10)),
    (32, word 0x000000EF [(104, 24), (106, 17), (10, 11)], .tfork (.s 8) (.s 10) 10),
    (32, word 0x0000016F [], .tsync),
    (32, word 0x000001EF [(104, 17), (106, 24)], .tpost (.s 8) (.s 10)),
    (32, word 0x0000026F [(104, 17)], .tdec (.s 8)),
    (32, word 0x000002EF [(104, 24)], .tself (.s 8)),
    (32, word 0x0000036F [(104, 17)], .tdone (.s 8)),
    (32, word 0x000003EF [(104, 24), (106, 17)], .fwait (.s 8) (.s 10)),
    (32, word 0x0000046F [(104, 17), (106, 24)], .fset (.s 8) (.s 10)),
    (32, word 0x000004EF [(104, 24), (106, 17)], .lkacq (.s 8) (.s 10)),
    (32, word 0x0000056F [(104, 17)], .lkrel (.s 8))] = true := by decide

/-- R179 to R195 and the encodings of the opcode table: the words of a family, each from its fixed bits and its fields. -/
theorem test_decode_gangs : decodes [
    (32, word 0x00000071 [(104, 24), (106, 17)], .gwidth (.s 8) (.s 10)),
    (32, word 0x000000F1 [(104, 24), (106, 17), (10, 11)], .gset (.s 8) (.s 10) 10),
    (32, word 0x00000171 [(104, 24), (106, 17), (10, 11)], .gsetX (.s 8) (.s 10) 10),
    (32, word 0x000001F1 [(104, 24), (106, 17)], .gview (.s 8) (.s 10)),
    (32, word 0x00000271 [(104, 24), (106, 17)], .grank (.s 8) (.s 10)),
    (32, word 0x000002F1 [(104, 24), (106, 17), (10, 11)], .gstep (.s 8) (.s 10) 10),
    (32, word 0x00000371 [(104, 24), (106, 17)], .glate (.s 8) (.s 10)),
    (32, word 0x000003F1 [(104, 24), (106, 17), (10, 11)], .kvx (.s 8) (.s 10) 10),
    (32, word 0x00000471 [(104, 24), (106, 17), (10, 11)], .kvapp (.s 8) (.s 10) 10),
    (32, word 0x000004F1 [(104, 24), (106, 17), (10, 11)], .kvfork (.s 8) (.s 10) 10),
    (32, word 0x00000571 [(104, 24), (106, 17), (10, 11)], .kvfree (.s 8) (.s 10) 10),
    (32, word 0x000005F1 [(104, 24), (106, 17)], .flpop (.s 8) (.s 10)),
    (32, word 0x00000671 [(104, 24), (106, 17)], .flpush (.s 8) (.s 10))] = true := by decide

/-- R179 to R195 and the encodings of the opcode table: the words of a family, each from its fixed bits and its fields. -/
theorem test_decode_system : decodes [
    (32, word 0x00000073 [(104, 24), (3, 11)], .srd (.s 8) .clus),
    (32, word 0x000000F3 [(3, 11), (104, 24)], .swr .clus (.s 8)),
    (32, word 0x00000173 [(3, 11), (104, 17)], .segld .clus (.s 8)),
    (32, word 0x000001F3 [(104, 17)], .rgrow (.s 8)),
    (32, word 0x00000273 [(104, 17)], .rshrink (.s 8))] = true := by decide

/-- R179 to R195 and the encodings of the opcode table: the words of a family, each from its fixed bits and its fields. -/
theorem test_decode_clause : decodes [
    (32, word 0x0000007F [(3, 27), (15, 23), (2, 19), (10, 7)], .clauseHeader 3 15 2 0x00A),
    (32, word 0x0000007D [(1, 31), (5, 28), (127, 21), (16, 14), (8, 7)], .clauseTrailer true 5 (.k 7) (.v 16) (.v 8))] = true := by decide

/-! ### States for the witnesses -/

/-- A run of lanes 0 and 5 in the middle of a clause. -/
def run2 : Run := ⟨0x21, 0x100, 0x108, 2, 0x110, 0, 1, .fall, 0, 0, false, 0, false, false⟩
/-- A run of lane 0 alone. -/
def run1 : Run := { run2 with lanes := 1 }
/-- A segment at the start of its store, of 4096 bytes. -/
def seg4k : Dword := 0x0000100000000000
def warp2 : Warp := { Warp.blank with live := BitVec.allOnes 64, run := some run2, seg := (List.range 6).map fun k => (k, seg4k) }
def kern2 : Kernel := { Kernel.blank with shr := 4096, obwin := 8192, regs := 32, entry := 0x100 }
def group2 : Group := { Group.blank with id := 1, kern := kern2, shape := kern2, room := [(0, 4096), (4096, 4096), (8192, 0)], win := (0, 8192) }
def part2 : Partition :=
  { idx := 0, clumask := 0xF, pool := 1, pmodes := 3, vfn := 8, degm := 0, intv := 1, fpool := 1, hbm := List.range 4, cxl := []
    handler := some kern2, ring := none, vfs := [Vf.fresh 0 0] }
/-- A module with power and a partition, whose selected warp issues. -/
def st2 : State :=
  { State.reset with
    nextId := 10, g := group2, w := warp2, parts := [part2], poolSz := [(0, 2 ^ 20)], md := { Module.reset with power := .on } }
/-- The same with one lane in the run. -/
def st1 : State := st2.setW { warp2 with run := some run1 }
/-- Registers for the witnesses. -/
def withV (s : State) (r : Nat) (x : Word) : State := s.setW (s.w.putV r (BitVec.allOnes 64) fun _ => x)
def withS (s : State) (r : Nat) (x : Word) : State := s.setW (s.w.putS r x)

/-- A well-formed instruction is about to issue. -/
def goes (s : State) (i : Instr) : Bool := i.wf && s.w.run.isSome && (issueCheck i.info s.w).isNone

theorem issues_of_goes {s : State} {i : Instr} {r : Run} (h : s.w.run = some r) (hg : goes s i = true) : Issues i s r := by
  simp only [goes, Bool.and_eq_true, Option.isNone_iff_eq_none] at hg
  exact ⟨h, hg.2⟩

/-! ### The hypotheses of the statements are met: instructions over lanes -/

theorem wit_IntegerArithmetic : ([.iadd (.v 1) (.v 2) (.k 7), .isub (.v 1) (.s 2) (.x 7), .imul (.s 1) (.s 2) (.k 7),
    .imad (.v 95) (.v 2) (.v 3), .iabs (.v 1) (.v 2), .lea (.v 1) (.v 2) (.v 3), .mov (.v 1) (.x 0), .and (.v 1) (.v 2) (.v 3),
    .or (.v 1) (.v 2) (.v 3), .xor (.v 1) (.v 2) (.v 3), .andn (.v 1) (.v 2) (.v 3), .iaddi (.v 1) (.v 2) 0x400,
    .imuli (.v 1) (.v 2) 0x3FF, .andi (.v 1) (.v 2) 1, .ori (.v 1) (.v 2) 1, .xori (.v 1) (.v 2) 1, .mov16 63 (.x 7), .iadd16 0 (.k 7),
    .isub16 1 (.v 15), .imul16 1 (.v 2), .and16 1 (.v 2), .or16 1 (.v 2), .xor16 1 (.v 2), .movl (.v 1) 0x20000, .movh (.s 15) 0x3FFFF,
    .movsFromScalar (.v 1) 63, .movsToScalar 63 (.s 2)] : List Instr).all (goes st2) = true := by decide
theorem wit_IntegerExact : ([.imulhI32 (.v 1) (.v 2) (.v 3), .imulhN32 (.v 1) (.v 2) (.v 3), .imulwI32 (.v 2) (.v 4) (.v 6),
    .imulwN32 (.v 94) (.v 4) (.v 6), .idivI32 (.v 1) (.v 2) (.k 0), .iremI32 (.v 1) (.v 2) (.v 3), .idivN32 (.v 1) (.v 2) (.v 3),
    .iremN32 (.v 1) (.v 2) (.v 3)] : List Instr).all (goes st2) = true := by decide
theorem wit_IntegerShifts : ([.shl (.v 1) (.v 2) (.v 3), .shr (.v 1) (.v 2) (.v 3), .sar (.v 1) (.v 2) (.v 3), .rol (.v 1) (.v 2) (.v 3),
    .shli (.v 1) (.v 2) 255, .shri (.v 1) (.v 2) 32, .sari (.v 1) (.v 2) 31, .shl16 1 (.v 2), .shr16 1 (.v 2), .sar16 1 (.v 2),
    .shl64 (.v 2) (.v 4) (.v 6), .shr64 (.v 2) (.v 4) (.v 6)] : List Instr).all (goes st2) = true := by decide
theorem wit_IntegerCompareSelect : ([.cmpEqI32 (.v 1) (.v 2) (.v 3), .cmpEqN32 (.v 1) (.v 2) (.v 3), .cmpNeI32 (.v 1) (.v 2) (.v 3),
    .cmpNeN32 (.v 1) (.v 2) (.v 3), .cmpLtI32 (.v 1) (.v 2) (.v 3), .cmpLtN32 (.v 1) (.v 2) (.v 3), .cmpLeI32 (.v 1) (.v 2) (.v 3),
    .cmpLeN32 (.v 1) (.v 2) (.v 3), .cmpGtI32 (.v 1) (.v 2) (.v 3), .cmpGtN32 (.v 1) (.v 2) (.v 3), .cmpGeI32 (.v 1) (.v 2) (.v 3),
    .cmpGeN32 (.v 1) (.v 2) (.v 3), .cmp64Eq (.v 1) (.v 2) (.v 4), .cmp64Ne (.v 1) (.v 2) (.v 4), .cmp64LtI64 (.v 1) (.v 2) (.v 4),
    .cmp64LtN64 (.v 1) (.v 2) (.v 4), .cmp64LeI64 (.v 1) (.v 2) (.v 4), .cmp64LeN64 (.v 1) (.v 2) (.v 4), .iminI32 (.v 1) (.v 2) (.v 3),
    .imaxI32 (.v 1) (.v 2) (.v 3), .iminN32 (.v 1) (.v 2) (.v 3), .imaxN32 (.v 1) (.v 2) (.v 3), .iminI3216 1 (.v 2), .imaxI3216 1 (.v 2),
    .selMask (.v 1) 11 (.v 2) (.v 3), .sel (.v 1) (.v 2) (.v 3), .iadd64 (.v 2) (.v 4) (.k 7), .isub64 (.v 2) (.v 4) (.v 6),
    .cmpi (.v 1) (.v 2) .ltI 0x40, .cmpi (.s 1) (.s 2) .geN 0x3F] : List Instr).all (goes st2) = true := by decide
theorem wit_IntegerBits : ([.popc (.v 1) (.v 2), .clz (.v 1) (.v 2), .ctz (.v 1) (.v 2), .brev (.v 1) (.v 2), .bfe (.v 1) (.v 2) (.v 3),
    .bfi (.v 1) (.v 2) (.v 3)] : List Instr).all (goes st2) = true := by decide
theorem wit_PackedInteger : ([.iaddPacked 1 2 3 .i8x4 true, .isubPacked 1 2 3 .n16x2 true, .iminPacked 1 2 3 .i16x2, .imaxPacked 1 2 3 .n8x4,
    .shlPacked 1 2 3 .i8x4, .shrPacked 1 2 3 .n8x4, .sarPacked 1 2 3 .i16x2, .idot4 1 2 3 true, .idot2 63 2 3 false] : List Instr).all
      (goes st2) = true := by decide
/-- The element index at both ends of its range. -/
theorem wit_PackedInteger_elements : (0 : Nat) < 32 / 8 ∧ (3 : Nat) < 32 / 8 ∧ (1 : Nat) < 32 / 16 := by decide
theorem wit_FloatArithmetic : ([.fadd (.v 1) (.v 2) (.v 3) .rn, .fsub (.v 1) (.v 2) (.v 3) .rz, .fmul (.v 1) (.v 2) (.k 7) .rp,
    .ffma (.v 1) (.v 2) (.v 3) .rm, .fadd16 1 (.v 2), .fsub16 1 (.v 2), .fmul16 1 (.v 2), .dadd (.v 2) (.v 4) (.v 6) .rn,
    .dmul (.v 2) (.v 4) (.k 1) .rz, .dfma (.v 2) (.v 4) (.v 6) .rm, .hadd2 (.v 1) (.v 2) (.v 3) .rn, .hmul2 (.v 1) (.v 2) (.v 3) .rn,
    .hfma2 (.v 1) (.v 2) (.v 3) .rn, .badd2 (.v 1) (.v 2) (.v 3) .rn, .bmul2 (.v 1) (.v 2) (.v 3) .rn, .bfma2 (.v 1) (.v 2) (.v 3) .rn]
    : List Instr).all (goes st2) = true := by decide
theorem wit_FloatCompareAndSpecial : ([.fcmpEq (.v 1) (.v 2) (.v 3), .fcmpNe (.v 1) (.v 2) (.v 3), .fcmpLt (.v 1) (.v 2) (.v 3),
    .fcmpLe (.v 1) (.v 2) (.v 3), .fcmpGt (.v 1) (.v 2) (.v 3), .fcmpGe (.v 1) (.v 2) (.v 3), .fcmpUn (.v 1) (.v 2) (.v 3),
    .fmin (.v 1) (.v 2) (.v 3), .fmax (.v 1) (.v 2) (.v 3), .fmax16 1 (.v 2), .fabs (.v 1) (.v 2), .fneg (.v 1) (.v 2), .frndRn (.v 1) (.v 2),
    .frndRz (.v 1) (.v 2), .frndRp (.v 1) (.v 2), .frndRm (.v 1) (.v 2), .ffrac (.v 1) (.v 2), .frcp (.v 1) (.v 2), .frsq (.v 1) (.v 2),
    .fsqrt (.v 1) (.v 2), .fexp2 (.v 1) (.v 2), .flog2 (.v 1) (.v 2), .fsin (.v 1) (.v 2), .fcos (.v 1) (.v 2), .ftanh (.v 1) (.v 2)]
    : List Instr).all (goes st2) = true := by decide
/-- Values that are finite: 1.0, the least number below zero and the largest; a quiet and a signalling NaN. -/
theorem wit_FloatCompareAndSpecial_values : (∃ m e, f32 0x3F800000 = .fin false m e) ∧ (∃ m e, f32 0x80000001 = .fin true m e)
    ∧ (∃ m e, f32 0x7F7FFFFF = .fin false m e) ∧ isNan32 0x7FC00000 = true ∧ isNan32 0x7F800001 = true :=
  ⟨⟨_, _, rfl⟩, ⟨_, _, rfl⟩, ⟨_, _, rfl⟩, by decide, by decide⟩
/-- A finite value of each format, and a value with and without a remainder, a tie among them. -/
theorem wit_FloatRounding : (∃ n m e, F64.decode 1 = .fin n m e) ∧ (∃ n m e, F32.decode 0x80000000 = .fin n m e)
    ∧ (∃ n m e, F16.decode 0x7BFF = .fin n m e) ∧ (∃ n m e, BF16.decode 0x3F80 = .fin n m e)
    ∧ (∃ n m e, E4M3.decode 0x7E = .fin n m e) ∧ (∃ n m e, E5M2.decode 0x7B = .fin n m e)
    ∧ 8 % 2 ^ 3 = 0 ∧ 9 % 2 ^ 3 ≠ 0 ∧ 2 * (12 % 2 ^ 3) = 2 ^ 3 := by
  refine ⟨?_, ?_, ?_, ?_, ?_, ?_, ?_⟩
  all_goals first | exact ⟨_, _, _, rfl⟩ | decide
theorem wit_Conversions : ([.cvt (.v 2) (.v 4) .f64 .f32 .rn, .cvt (.v 1) (.v 4) .n32 .f64 .rz, .cvtPk (.v 4) (.v 1) .f32 .e4m3 .rn,
    .cvtPk (.v 1) (.v 4) .e5m2 .f32 .rs] : List Instr).all (goes st2) = true ∧ CFmt.packN .f32 = 0 ∧ CFmt.packN .e5m2 ≠ 0 := by decide
theorem wit_BlockConversions : ([.cvtBlkPack (.v 1) (.v 2) 6 .rn, .cvtBlkpPack (.v 1) (.v 2) 14 .rs, .cvtBlkUnpack (.v 1) (.v 2) 6,
    .cvtBlkpUnpack (.v 1) (.v 2) 14] : List Instr).all (goes st2) = true := by decide
theorem wit_CrossLane : ([.lshfUp (.v 1) (.v 2) (.v 3), .lshfUpW (.v 1) (.v 2) 7, .lshfDn (.v 1) (.v 2) (.v 3), .lshfDnW (.v 1) (.v 2) 1,
    .lshfXor (.v 1) (.v 2) (.v 3), .lshfXorW (.v 1) (.v 2) 6, .lshfIdx (.v 1) (.v 2) (.v 3), .lbcast (.v 1) (.v 2) (.s 3),
    .lget (.v 1) (.v 2) (.v 3), .lred (.s 1) (.s 2) .fadd, .lscan (.v 1) (.v 2) .add, .lvoteAny (.s 1) (.s 2), .lvoteAll (.v 1) (.v 2),
    .lvoteBallot (.v 2) (.v 2), .lidx (.v 2) .all, .lidx (.v 1) (.field 5)] : List Instr).all (goes st2) = true := by decide
theorem wit_Masks : ([.join 11, .leave 0, .mset 3 (.s 2), .mand 1 2 3, .mor 1 2 3, .mxor 1 2 3, .mnot 1 1, .mget (.v 2) 12,
    .mpop (.s 1) 12, .mfirst (.s 1) 0] : List Instr).all (goes st2) = true := by decide

/-- A queue with two entries, and one that is full. -/
def stQ (n : Nat) : State := { st2 with hwq := [⟨0, 0, 0, 0, 3, List.replicate n (7, 0), 0, []⟩] }
theorem wit_QueuesAndRendezvous : ([.qpush 1 3 (.v 2), .qpop (.v 1) 1 3, .qpopw (.v 1) 1 3, .qlen (.v 1) 3, .xsend (.k 0) (.v 1),
    .xrecv (.v 1) (.k 0)] : List Instr).all (goes st2) = true ∧ st2.w.gone = false ∧ run2.done = 0 := by decide
theorem wit_QueuesAndRendezvous_room : ((stQ 62).queue 3).blocked = [] ∧ ((stQ 62).queue 3).entries.length + (lanesOf run2.lanes).length ≤ 64
    ∧ ((stQ 64).queue 3).blocked = [] ∧ (lanesOf run2.lanes).take (64 - ((stQ 63).queue 3).entries.length) = [0]
    ∧ (lanesOf run2.lanes).length ≤ ((stQ 2).queue 3).entries.length := by decide
/-- A rendezvous with and without a partner, at the first and the last slot. -/
theorem wit_QueuesAndRendezvous_partner : let s := (withS st2 1 31).setG { group2 with rvz := [⟨31, true, 1, 3, 0x200, 127, [], run2, []⟩, ⟨0, false, 1, 3, 0x200, 1, [], run2, []⟩] }
    (s.w.scal run2 (.s 1)).toNat = 31 ∧ (s.g.partner 31 true).isSome ∧ s.g.partner 31 false = none ∧ (s.g.partner 0 false).isSome
    ∧ s.g.partner 0 true = none ∧ goes s (.xrecv (.v 1) (.s 1)) = true := by decide
/-- The partner's warp stands at no clause. -/
theorem wit_QueuesAndRendezvous_waiting : let s := st2.setG { group2 with others := [{ warp2 with idx := 1, run := none, parked := [] }] }
    (s.warp? s.g.id 1).map (fun w => (w.run, w.parked, w.nregs, has w.live 0)) = some (none, [], 96, true) ∧ Opd.ofBits 1 = .v 1
    ∧ s.w.gone = false ∧ (1 : Nat) ≠ s.w.idx := by decide

/-! ### Loads, stores and atomics -/

/-- Register 2 at the last place where the access still fits, and one byte beyond it. -/
theorem wit_LoadIssue : let s := withV st2 2 (4096 - 16)
    goes s (.ld (.v 4) (.v 2) 0 .b128 .shr) = true ∧ (Opd.v 4).kind ≠ 2
    ∧ s.r37 ((lanesOf run2.lanes).map fun l => (s.w.ref false (.v 2) 0 l).chk .shr 16 false) = none := by decide
theorem wit_LoadIssue_uniform : let s := withS st2 2 (4096 - 31)
    goes s (.ld (.s 4) (.s 2) 30 .b8s .shr) = true ∧ (Opd.s 4).kind = 2 ∧ (Opd.s 2).uniform = true
    ∧ s.r37 [(s.w.ref false (.s 2) 30 (lowLane run2.lanes)).chk .shr 1 false] = none := by decide
theorem wit_StoreIssue : let s := withV st2 2 0
    goes s (.st (.v 4) (.v 2) 31 .b32 .shr) = true
    ∧ s.r37 ((lanesOf run2.lanes).map fun l => (s.w.ref false (.v 2) (31 * 4) l).chk .shr 4 true) = none := by decide
/-- A module with a virtual function that has a fabric share, and a register pair that names the chip itself. -/
def part2f : Partition := { part2 with vfs := [{ Vf.fresh 0 0 with fabq := 1, hbmsh := 1, cpysh := 1, passq := 100 }] }
def st3 : State := { st2 with parts := [part2f] }
theorem wit_StoreIssue_fab :
    goes st3 (.st (.v 4) (.v 2) 0 .b32 .fab) = true ∧ goes st3 (.stFabRel (.v 4) (.v 2) 0 .b32) = true
    ∧ st3.r37 ((lanesOf run2.lanes).map fun l => (st3.w.ref true (.v 2) 0 l).chk .fab 4 true) = none
    ∧ st3.fabRoom st3.g.chip st3.g.part st3.g.vf (4 * 2) = true := by decide
theorem wit_AtomicIssue : goes st3 (.atomAdd (.v 4) (.v 2) false .n32 .grp) = true
    ∧ goes st3 (.atomCas (.v 4) (.v 2) false .n32 .clu) = true ∧ goes st3 (.redMax (.v 4) (.v 2) false .f32 .sys) = true
    ∧ st3.fabRoom st3.g.chip st3.g.part st3.g.vf (4 * (lanesOf run2.lanes).length) = true
    ∧ st3.r37 ((lanesOf run2.lanes).map fun l => (st3.w.ref true (.v 2) 0 l).chk .fab 4 true) = none
    ∧ st3.r37 ((lanesOf run2.lanes).map fun l => (st3.w.ref false (.v 2) 0 l).chk .shr 4 true) = none
    ∧ st3.r37 ((lanesOf run2.lanes).map fun l => (st3.w.ref false (.v 2) 0 l).chk .dws 4 true) = none := by decide
theorem wit_AtomicIssue_main : goes st3 (.atomIncw (.v 4) (.v 2) true .n32 .chip) = true
    ∧ goes st3 (.redAdd (.v 4) (.v 2) true .n64 .sys) = true
    ∧ ∀ l, l < 64 → has run2.lanes l = true → (st3.w.src64 (.v 2) l).toNat % 8 = 0 := by decide
/-- A piece on its way: a load, a store, a release and an atomic. -/
def op2 (k : MKind) (fab : Option Fab) : MemOp :=
  ⟨1, 1, 0, 0, k, 4, [⟨0, [0, 1, 2, 3], [9, 8, 7, 6], []⟩], 1, [(0, 64)], 1, none, 0, 0x104, fab, false, none, 96, none, 0, 0⟩
def fab2 : Fab := { src := 0, dst := 0, stream := 0, count := 0, diverted := false }
theorem wit_PiecePerformed_load : let s := { st3 with pend := [op2 (.load true false) none] }
    s.due 1 (fun p => !MKind.writes p.kind && s.deliverable p && s.drained p && !s.overdue p) = some (op2 (.load true false) none)
    ∧ s.badWord (op2 (.load true false) none) = none ∧ 1 < (op2 (.load true false) none).cap
    ∧ s.isSel 1 0 = true ∧ Opd.ofBits 1 = .v 1 ∧ 0 < max (4 / 4) 1 ∧ 1 < s.w.nregs ∧ has s.w.live 0 = true := by decide
theorem wit_PiecePerformed_store : let s := { st3 with pend := [op2 .store none] }
    Memory.wf s.mem ∧ s.due 1 (fun p => MKind.isStore p.kind && s.deliverable p && s.drained p) = some (op2 .store none) := by decide
theorem wit_PiecePerformed_release : let s := { st3 with pend := [op2 .release (some fab2)] }
    Memory.wf s.mem ∧ s.releaseReady (op2 .release (some fab2)) fab2 = true
    ∧ s.due 1 (fun p => MKind.isRelease p.kind && s.deliverable p && s.drained p) = some (op2 .release (some fab2)) := by decide
theorem wit_PiecePerformed_values : (0xFF : Nat) < 2 ^ 8 ∧ (0xFFFF : Nat) < 2 ^ 16 ∧ 4 ≤ 16 := by decide
theorem wit_PiecePerformed_undeliverable :
    let o := op2 (.load false false) (some { fab2 with dst := 0x7FF })
    let s := { st3 with pend := [o] }
    s.op? 1 = some o ∧ s.linked 0x7FF = false ∧ o.failed = none ∧ o.lanes ≠ 0 := by decide
theorem wit_PiecePerformed_timeout :
    let o (k : MKind) := op2 k (some fab2)
    let s (k : MKind) := { st3 with pend := [o k], clk := { st3.clk with core := [2 ^ 24] } }
    (s (.load false false)).op? 1 = some (o (.load false false)) ∧ (s (.load false false)).cyc 0 = 2 ^ 24
    ∧ (∀ k ∈ [MKind.load false false, .atomic .add .n32 .sys false true], (s k).homeAway (o k) = false)
    ∧ (s (.atomic .add .n32 .sys false true)).op? 1 = some (o (.atomic .add .n32 .sys false true)) := by decide
theorem wit_PiecePerformed_divert : let s := { st3 with pend := [op2 .store (some fab2)], heads := [{ port := 0, vc := 0, op := 1, since := 0 }], clk := { st3.clk with hub := 8192 } }
    s.op? 1 = some (op2 .store (some fab2))
    ∧ s.heads.find? (fun h => h.port == 0 && h.op == 1 && h.since + 8192 ≤ s.clk.hub) = some { port := 0, vc := 0, op := 1, since := 0 }
    ∧ (s.ports.find? fun (q : Port) => q.no == 0).isSome = true := by decide
theorem wit_AtomicValues : Memory.wf [] ∧ [0, 1, 2, 3].Nodup ∧ [0, 1, 2, 3].length = AType.bytes .n32
    ∧ ([⟨0, [], [1, 0, 0, 0], []⟩] : List Acc) = [] ++ ⟨0, [], [1, 0, 0, 0], []⟩ :: [] ∧ AType.n32 ≠ .f32
    ∧ 0xFFFFFFFF < 2 ^ (8 * AType.bytes .i32) ∧ 0xFFFFFFFFFFFFFFFF < 2 ^ (8 * AType.bytes .n64) := by decide
theorem wit_AtomicAtHome : let o := op2 (.atomic .add .n32 .grp false true) none
    let s := { st3 with pend := [o] }
    s.due 1 (fun p => MKind.isAtomic p.kind && s.deliverable p && s.drained p && !s.givenUp p) = some o ∧ o.snap = none ∧ s.badWord o = none ∧ 1 < o.cap ∧ o.accs.head?.map Acc.bytes = some [0, 1, 2, 3]
    ∧ s.isSel 1 0 = true ∧ Opd.ofBits o.reg = .v 1 ∧ 0 < o.n / 4 ∧ 1 < s.w.nregs ∧ has o.lanes 0 = true ∧ has s.w.live 0 = true := by
  decide
/-- A virtual function with a page at address 0. -/
def leaf2 : Leaf := ⟨0, 0, 2 ^ 31, true, false, 0, true, false, none, 0⟩
def st4 : State := { st3 with parts := [{ part2f with vfs := part2f.vfs.map fun f => { f with table := [leaf2] } }] }
theorem wit_AtomicAtHome_main : let o := op2 (.atomic .add .n32 .chip true false) none
    let s := { st4 with pend := [o] }
    s.due 1 (fun p => MKind.isAtomic p.kind && s.deliverable p && s.drained p && !s.givenUp p) = some o ∧ o.snap = none ∧ (o.part, o.vf) = (0, 0)
    ∧ o.va.head?.map Prod.snd = some 64 ∧ s.probe 0 0 64 true = .ok (2 ^ 31 + 64) ∧ s.hbmRoom 0 0 0 (o.n * o.accs.length) = true := by decide +kernel

/-! ### Copies, tags, barriers, objects, fences and the Hub -/

theorem noneBefore_nil {s : State} {m : LaneMask} {ks : List Nat} (h : s.pend = []) (he : s.ecc = []) : NoneBefore s m ks := by
  refine ⟨fun o ho => ?_, fun k _ => ?_⟩
  · rw [h] at ho
    cases ho
  · simp [State.eccAt, he, getKey]
theorem here_of {s : State} {k : Nat} {g : Group} (h : s.group? k = some g) (hs : Group.isSaved g = false) : Here s k := by
  intro q hq
  rw [h] at hq
  cases hq
  exact hs

/-- A group with tags, a copy length of 16 bytes in v3, destinations behind one another, and the length in s3. -/
def st5 : State := let s := (withV (withS st4 3 16) 3 16).setG { st4.g with kern := { kern2 with tags := 64 } }
  s.setW (s.w.putV 4 (BitVec.allOnes 64) fun l => BitVec.ofNat 32 (16 * l + 32))
theorem wit_CopyIssue_cpy : let ls := lanesOf run2.lanes
    goes st5 (.cpy (.v 4) (.v 2) 63 .shr .shr .none (.v 3) (.v 1)) = true
    ∧ 63 < st5.g.kern.tags ∧ st5.copiesOn st5.g.chip st5.g.core + ls.length ≤ 64
    ∧ (∀ l ∈ ls, badLen (st5.w.src (.v 3) l).toNat = false)
    ∧ st5.checkEnds (ls.flatMap fun l => [(st5.w.endOf .shr (.v 2) l 0, 16, false), (st5.w.endOf .shr (.v 4) l 0, 16, true)])
        (ls.flatMap fun l => (st5.barOf .none (st5.w.endOf .shr (.v 4) l 0)).2) = none
    ∧ ∀ l ∈ ls, st5.pageTrap (st5.w.endOf .shr (.v 2) l 0, false) = [] ∧ st5.pageTrap (st5.w.endOf .shr (.v 4) l 0, true) = [] := by
  decide
/-- The headed form, from main memory. -/
theorem wit_CopyIssue_cpg : let ls := lanesOf run2.lanes
    goes st5 (.cpg (.v 4) (.v 6) 0 .shr .mem .headed (.s 3) (.v 1)) = true ∧ badLen (st5.w.scal run2 (.s 3)).toNat = false
    ∧ st5.checkEnds ((st5.w.endOf .shr (.v 4) 0 16, 16 * 2, true) :: ls.map fun l => (st5.w.endOf .mem (.v 6) l 0, 16, false))
        (st5.barOf .headed (st5.w.endOf .shr (.v 4) 0 0)).2 = none
    ∧ (∀ l ∈ ls, st5.pageTrap (st5.w.endOf .mem (.v 6) l 0, false) = []) ∧ st5.pageTrap (st5.w.endOf .shr (.v 4) 0 16, true) = []
    ∧ st5.pageWaits ((st5.w.endOf .shr (.v 4) 0 16, true) :: ls.map fun l => (st5.w.endOf .mem (.v 6) l 0, false)) = false := by
  decide +kernel
theorem wit_CopyIssue_cps : let ls := lanesOf run2.lanes
    let des := ls.map fun l => st5.w.endOf .dws (.v 4) l 0
    goes st5 (.cps (.v 4) (.v 2) 0 .dws .shr .none (.s 3) (.v 1)) = true
    ∧ st5.checkEnds ((st5.w.endOf .shr (.v 2) 0 0, 16 * 2, false) :: des.map fun e => (e, 16, true))
        (st5.barOf .none (st5.w.endOf .shr (.v 2) 0 0)).2 = none
    ∧ (∀ e ∈ des, st5.pageTrap (e, true) = []) ∧ st5.pageTrap (st5.w.endOf .shr (.v 2) 0 0, false) = []
    ∧ st5.pageWaits ((st5.w.endOf .shr (.v 2) 0 0, false) :: des.map fun e => (e, true)) = false := by decide
/-- A descriptor of one row of 16 bytes at offset 1024. -/
def st5x : State := let k := poolKey 0 0 1024
  withS (((((st5.wrN k 4 1).wrN (k + 4) 4 16).wrN (k + 8) 4 16).wrN (k + 12) 4 16).wrN (k + 16) 4 0xFFFF0000) 3 1024
theorem wit_CopyIssue_cpx : let ls := lanesOf run2.lanes
    let x := Desc.ofWords (st5x.descWords 1024)
    let te (l : Nat) := st5x.tileDst .shr (.v 4) l 0 x.1
    let ge (l : Nat) := (te l).getD (.shr 0 0)
    let se (l : Nat) := st5x.w.endOf .shr (.v 2) l 0
    goes st5x (.cpx (.v 4) (.v 2) 0 .shr .shr .none (.s 3) (.v 1)) = true ∧ st5x.r37 [⟨.shr, 1024, 32, 32, false, 0⟩] = none
    ∧ x.2 = true ∧ x.1.ok (decide (EndSp.shr = .fab)) = true ∧ (∀ l ∈ ls, te l ≠ none)
    ∧ st5x.checkEnds (ls.flatMap fun l => x.1.srcEnds (se l) ++ x.1.dstEnds (ge l))
        (ls.flatMap fun l => x.1.planes (se l) (ge l) ++ (st5x.barOf .none (ge l)).2) = none
    ∧ ∀ l ∈ ls, st5x.pastOb x.1 (ge l) = none ∧ st5x.pageTrap (se l, false) = [] ∧ st5x.pageTrap (ge l, true) = [] := by decide
theorem wit_CopyIssue_cpx_before : NoneBefore st5x run2.lanes (st5x.bytesAt .shr 1024 32 0 0) := noneBefore_nil rfl rfl
/-- A command of 16 bytes with a barrier behind its destination. -/
def copy2 (bar : Option BarRef) : CopyCmd := ⟨5, 1, 1, 0, 0, 0, 0, 0, 3, bar, 0, .linear (.shr 0 0) (.shr 0 32) 16, [], 1, false, 0x104, 0, [], [], [], 0, []⟩
def st5c (bar : Option BarRef) : State := { st5 with copies := [copy2 bar] }
theorem wit_CopyEnd : let c := copy2 (some (.shr 64))
    Memory.wf (st5c (some (.shr 64))).mem ∧ (st5c (some (.shr 64))).copy? 5 = some c ∧ ((st5c (some (.shr 64))).landCopy c).isSome = true
    ∧ ∀ p ∈ c.units.flatMap (fun p => (st5c (some (.shr 64))).jobWrites c p.1 p.2), p.1 ∉ places (BarRef.key 0 0 (.shr 64)) 16 := by decide
theorem wit_CopyEnd_here : Here (st5c (some (.shr 64))) 1 ∧ Here (st5c none) 1 := ⟨here_of rfl rfl, here_of rfl rfl⟩
theorem wit_CopyEnd_fails : let c := copy2 none
    (st5c none).copy? 5 = some c ∧ (st5c none).copyAway c = false ∧ (st5c none).copyLost c = none
    ∧ ((st5c none).copyFault c 9 0).isSome = true ∧ 9 < 256 ∧ c.gid = (st5c none).g.id
    ∧ ∀ f ∈ (st5c none).g.fails, f.matrix = true ∨ f.tag ≠ c.tag := by decide
/-- A barrier at the last place of the segment; v2 names it. -/
def stB : State := withV st4 2 4080
theorem wit_BarrierInstructions : goes stB (.bcbInit (.v 2) false (.k 1)) = true ∧ goes stB (.bcbInitAbandon (.v 2) true) = true
    ∧ goes stB (.bcbExp (.v 2) false (.v 3)) = true ∧ goes stB (.bcbArr (.v 2) false (.v 3)) = true
    ∧ goes stB (.bcbTest 1 (.v 2) false) = true ∧ goes stB (.bcbWait 1 (.v 2) false 5) = true
    ∧ stB.r37 (stB.barChecks run2.lanes false (.v 2)) = none ∧ stB.r37 (stB.barChecks run2.lanes true (.v 2)) = none ∧ Memory.wf stB.mem
    ∧ run2.done = 0 ∧ ∀ l ∈ lanesOf run2.lanes, stB.barPlace false (stB.w.src (.v 2) l).toNat = poolKey 0 0 4080 := by decide
theorem wit_BarrierInstructions_here : Here stB stB.g.id ∧ NoneBefore stB run2.lanes (stB.barBytes run2.lanes false (.v 2)) :=
  ⟨here_of rfl rfl, noneBefore_nil rfl rfl⟩
/-- A barrier that is complete, met by a wait; and barriers before each of the updates. -/
theorem wit_BarrierInstructions_release : let s := stB.wrN (poolKey 0 0 4080 + 8) 4 0x01000000
    Memory.wf s.mem ∧ goes s (.bcbWait 1 (.v 2) false 1) = true
    ∧ ∀ l ∈ lanesOf run2.lanes, (s.barAt 1 (s.barPlace false (s.w.src (.v 2) l).toNat)).flags % 256 &&& (1 : Fin 8).val ≠ 0 := by decide
def bar2 : Bar := { exp := 16, arr := 15, phase := 0xFFFF, err := 0, flags := 0, cmd := 0 }
theorem wit_BarrierInstructions_complete : let c := bar2.step (.arr 1)
    bar2.exp < 2 ^ 32 ∧ bar2.arr < 2 ^ 32 ∧ bar2.flags < 256 ∧ bar2.err < 256 ∧ bar2.phase < 65536 ∧ bar2.cmd < 2 ^ 32
    ∧ c.exp ≠ 0 ∧ c.exp ≤ c.arr ∧ c.flags.testBit 0 = false ∧ (bar2.step (.fail 9 7)).flags.testBit 1 = true
    ∧ (bar2.update (.arr 1)).exp < 2 ^ 32 ∧ (bar2.update (.arr 1)).flags < 256 ∧ (bar2.update (.arr 1)).cmd < 2 ^ 32 := by decide
/-- Tag 63, finished; tag 0 outstanding. -/
def stT : State := let s := withV st5 2 0
  s.setG { s.g with ctb := 0x8000000000000000, tagCnt := [(0, 1)] }
theorem wit_TagInstructions : goes stT (.tagany 63) = true ∧ goes stT (.taganyMask (.v 2)) = true ∧ goes stT (.tagall 0) = true
    ∧ goes stT (.tagallMask (.v 2)) = true ∧ goes stT (.tagclr 63) = true ∧ goes stT (.tagclrMask (.s 2)) = true
    ∧ goes stT (.tagfirst (.v 1) (.v 2)) = true ∧ (laneBit 63).toNat < 2 ^ stT.g.kern.tags
    ∧ (∀ q ∈ stT.g.fails, q.matrix = true) ∧ laneBit 63 &&& stT.g.ctb ≠ 0 ∧ laneBit 0 &&& stT.g.ctb = 0
    ∧ ∀ l, l < 64 → (stT.w.src64 (.v 2) l).toNat < 2 ^ stT.g.kern.tags := by decide
/-- An object at offset 4080 of the store, of the group's scope; v2 and v3 name it. -/
theorem wit_ObjectInstructions : (goes stB (.sobindGrp (.v 2) (.k 0) .shr (.s 6) (.v 1)) = true
    ∧ goes stB (.sacq (.v 2) .shr) = true ∧ goes stB (.sacqSh (.v 2) .shr) = true ∧ goes stB (.stry (.v 1) (.v 2) .shr) = true
    ∧ goes stB (.srel (.v 1) (.v 2) .shr) = true)
    ∧ (let o := stB.objOf run2 .shr (.v 2)
       Memory.wf stB.mem ∧ stB.r37 [o.chk] = none ∧ w3Excl (stB.word3 o.key) = false ∧ w3Shared (stB.word3 o.key) = 0
       ∧ stB.regionOk 0 .shr 0 4096 = true ∧ stB.regionMeets (stB.regionChip 0 o.place) .shr 0 4096 = false ∧ stB.objBad o = false ∧ stB.w.gone = false
       ∧ stB.w.holdOf o = none ∧ stB.w.holds.length < 4 ∧ (∀ q ∈ stB.objq, q.obj ≠ o.key) ∧ ∀ q ∈ stB.objq, q.gid ≠ stB.g.id) := by
  decide
theorem wit_ObjectInstructions_before : NoneBefore stB run2.lanes (places (stB.objOf run2 .shr (.v 2)).key 16) := noneBefore_nil rfl rfl
theorem wit_ObjectInstructions_scopes : (goes stB (.sobindClu (.v 2) (.k 0) .dws (.s 6) (.v 1)) = true
    ∧ goes stB (.sobindChip (.v 2) (.k 0) .mem (.s 6) (.v 1)) = true ∧ goes st4 (.sobindSys (.v 2) (.k 0) .none (.s 6) (.v 1)) = true)
    ∧ stB.r37 [(stB.objOf run2 .dws (.v 2)).chk] = none ∧ st4.r37 [(st4.objOf run2 .fab (.v 2)).chk] = none
    ∧ stB.regionOk 1 .dws 0 4096 = true ∧ stB.regionOk 2 .mem 0 4096 = true := by decide
/-- A held object, exclusive and shared. -/
def stH (w : Nat) (excl : Bool) : State := let s := stB.setWord3 (poolKey 0 0 4080) w
  s.setW { s.w with holds := [⟨poolKey 0 0 4080, 1, 4080, excl⟩] }
theorem wit_ObjectInstructions_held : ∀ q ∈ [((0x08000000, true) : Nat × Bool), (1, false)],
    let s := stH q.1 q.2
    let o := s.objOf run2 .shr (.v 2)
    goes s (.srel (.v 1) (.v 2) .shr) = true ∧ Memory.wf s.mem ∧ s.objBad o = false
    ∧ s.w.holdOf o = some ⟨o.key, 1, 4080, q.2⟩ ∧ (∀ p ∈ s.objq, p.obj ≠ o.key) ∧ (q.2 = true → w3Excl (s.word3 o.key) = true)
    ∧ (q.2 = false → w3Shared (s.word3 o.key) ≠ 0) := by decide
/-- An object that another warp holds. -/
theorem wit_ObjectInstructions_busy : let s := stB.setWord3 (poolKey 0 0 4080) 0x08000000
    goes s (.stry (.v 1) (.v 2) .shr) = true ∧ w3Excl (s.word3 (s.objOf run2 .shr (.v 2)).key) = true
    ∧ s.objBad (s.objOf run2 .shr (.v 2)) = false ∧ s.w.holdOf (s.objOf run2 .shr (.v 2)) = none := by decide
/-- A store of the warp is outstanding; a reduction for `fence.sys`. -/
theorem wit_Fences : let s := { st3 with pend := [op2 .store none] }
    goes s .fenceGrp = true ∧ goes s .fenceClu = true ∧ goes s .fenceChip = true ∧ (∀ o ∈ s.pend, MemOp.isLoad o = false)
    ∧ (op2 .store none).gid = s.g.id ∧ (op2 .store none).wid = s.w.idx ∧ has run2.lanes 0 = true := by decide
theorem wit_Fences_sys : goes st3 .fenceSys = true ∧ st3.pend = []
    ∧ (let o := { op2 (.atomic .add .n32 .sys true true) none with deferred := true }
       o.failed = none ∧ o.deferred = true ∧ MemOp.isLoad o = false) := by decide
/-- One lane, with the slot in v1, the operation in v2, the timeout in v3 and the members in v4. -/
def st1h : State := withV (withV (withV st1 1 63) 3 0xFFFFFF) 4 0xFF
/-- The same with lanes 0 and 5, of one slot. -/
def st2h : State := withV (withV (withV st2 1 63) 3 0xFFFFFF) 4 0xFF
theorem wit_HubReductions_open : ∀ s ∈ [st1h, st2h], goes s (.hredOpen (.v 1) (.v 2) (.v 3) (.v 4) (.v 5)) = true
    ∧ hubDestOk (.v 5) [.v 1, .v 2, .v 3, .v 4] = true ∧ hubDestOk (.s 5) [.s 1, .k 0] = true ∧ s.hub = []
    ∧ (∀ l ∈ [0, 5], (s.w.src (.v 1) l).toNat = 63 ∧ (s.w.src (.v 4) l).toNat < 256 ∧ (s.w.src (.v 4) l).toNat ≠ 0
      ∧ (s.w.src (.v 2) l).toNat ≤ 6 ∧ (s.w.src (.v 3) l).toNat < 2 ^ 24) := by decide
def hub2 (mask : Nat) (complete : Bool) (since : Option Nat) : HubSlot := ⟨63, 0, 0, 0, mask, 5, [], since, complete, 0, 0, 0⟩
theorem wit_HubReductions_put : ∀ m ∈ [(1 : Nat), 0xFF], ∀ t ∈ [st1h, st2h],
    let h := hub2 m false none
    let s := { t with hub := [h] }
    goes s (.hredPut (.v 5) (.v 1)) = true ∧ hubDestOk (.v 5) [.v 1] = true ∧ s.hub? 63 = some h ∧ h.dueAt s.clk.hub = none
    ∧ h.part = s.g.part ∧ h.vf = s.g.vf ∧ h.served = 0 ∧ h.mask ≠ 0 ∧ h.complete = false
    ∧ h.mask.testBit s.g.chip = true ∧ h.put.lookup s.g.chip = none ∧ s.hubw = []
    ∧ (({ h with put := [(0, 0)] } : HubSlot).missing = 0 ↔ m = 1) := by decide
theorem wit_HubReductions_wait : let h := hub2 1 true (some 0)
    let s := { st1h with hub := [h] }
    goes s (.hredWait (.v 6) (.v 1)) = true ∧ lowLane run1.lanes = 0 ∧ (∀ q ∈ s.hubw, q.gid ≠ s.g.id) ∧ s.hub? 63 = some h
    ∧ h.dueAt s.clk.hub = none ∧ h.complete = true := by decide
theorem wit_HubReductions_timeouts : ∀ b ∈ [true, false],
    let h := hub2 1 b (some 0)
    let s := { st1h with hub := [h], clk := { st1h.clk with hub := 5 } }
    s.hub? 63 = some h ∧ h.since = some 0 ∧ h.timeout ≠ 0 ∧ 0 + h.timeout ≤ s.clk.hub ∧ (∀ q ∈ s.hubw, q.slot ≠ 63)
    ∧ h.served = 0 ∧ h.mask ≠ 0 := by decide

/-! ### Control flow -/

theorem wit_ControlTransfers : ([.jmp 0x1FFFF, .bz (.v 1) 0x20000, .bnz (.v 1) 4, .bm 11 4, .jmpr (.v 2), .ret, .call 4, .wait 0, .yield,
    .sleep (.v 2), .endLanes, .nop, .nop16] : List Instr).all (goes st2) = true ∧ st2.endsHolding run2 = false := by decide
/-- A clause of one instruction that publishes v1 under flag 2, at the head of the PC table. -/
noncomputable def hdr2 : Instr := .clauseHeader 1 15 2 0x004
def addr2 : Instr := .iadd (.v 1) (.v 2) (.k 7)
noncomputable def trl2 : Instr := .clauseTrailer false 0 (.k 7) (.k 7) (.v 1)
noncomputable def stC : State := let s := st4.setW { warp2 with run := none, pcs := [⟨0x100, 0x21⟩] }
  s.wrs ((places (codeKey 0 0x100) 12).zip (encode hdr2 ++ encode addr2 ++ encode trl2))
theorem wit_ClauseStart : stC.w.run = none ∧ stC.w.head = some ⟨0x100, 0x21⟩ ∧ stC.w.grow = none ∧ stC.awaits 0x21 = false
    ∧ stC.headLost ⟨0x100, 0x21⟩ = none ∧ stC.pcTrap stC.g.kern 0x100 = none ∧ hdr2.wf = true
    ∧ stC.w.flagsClear 4 0x21 = true ∧ stC.w.overflows 0x21 [2] = false
    ∧ (({ stC.w with flags := [(64 * 2 + 5, 1)] } : Warp).flagsClear 4 0x21 = false) := by decide
theorem wit_ClauseStart_yields : stC.yields = false := rfl
def scanIs (x : Scan) (tr : Nat) (slots : List (Opd × Bool)) (body : List Instr) : Bool :=
  match x with | .ok a b c => decide (a = tr ∧ b = slots ∧ c = body) | _ => false
theorem scan_of_is {x : Scan} {tr slots body} (h : scanIs x tr slots body = true) : x = .ok tr slots body := by
  cases x <;> simp_all [scanIs]
theorem wit_ClauseStart_scan : stC.scan stC.g.kern 2 15 1 0x104 [] = .ok 0x108 [(.v 1, false)] [addr2] := scan_of_is (by decide +kernel)
theorem wit_ClauseStart_region : let k : Kernel := { kern2 with rgcnt := 1, rgoff := 0x200 }
    (stC.wrN (rgKey 0 0x200) 4 0x100).startsRegion k 0x100 = true ∧ stC.startsRegion kern2 0x100 = false := by decide
/-- The run stands at its trailer. -/
def stE (e : Exit) : State := st4.setW { warp2 with run := some { run2 with left := 0, exit := e } }
theorem wit_ClauseEnd : ∀ e ∈ [Exit.fall, .goto [⟨0x200, 0x21⟩], .block 0x20, .sleep 64, .yield, .wait 11, .retire],
    (stE e).w.run.map Run.exit = some e ∧ (stE e).w.run.map Run.left = some 0 ∧ (stE e).w.run.map Run.faulted = some 0
    ∧ (stE e).w.live &&& ~~~ run2.lanes ≠ 0 := by decide
theorem wit_ClauseEnd_publishes : let s := { stE .fall with pend := [{ op2 (.load false false) none with pc := (stE .fall).lastFor run2 (.v 1) }] }
    trailerSlots 0 (.v 1) (.k 7) (.k 7) = [(.v 1, false)]
    ∧ ∀ o ∈ s.pend, o.gid = s.g.id ∧ o.wid = s.w.idx ∧ o.flag = none ∧ o.pc = s.lastFor run2 (.v 1) ∧ o.reg = (Opd.v 1).toNat := by
  decide +kernel
/-- A mask whose every lane waits once the run's do, and one with another lane. -/
theorem wit_ClauseEnd_wait : let s (m : Nat) := (stE (.wait 11)).setW ((stE (.wait 11)).w.setM 11 (BitVec.ofNat 64 m))
    (s 0x21).w.getM 11 &&& ~~~ ((s 0x21).w.waiting 11 ||| run2.lanes) = 0
    ∧ (s 0x23).w.getM 11 &&& ~~~ ((s 0x23).w.waiting 11 ||| run2.lanes) ≠ 0 := by decide
theorem wit_ClauseEnd_returns : let s := stC.setW { stC.w with parked := [⟨0x100, 2, .fall, 0, some 0⟩], asleep := [⟨0x100, 4, 0⟩], yielding := some ⟨[], 0⟩ }
    s.w.gone = false ∧ s.w.parked[0]? = some ⟨0x100, 2, .fall, 0, some 0⟩ ∧ s.lostOf 2 = []
    ∧ (∀ q ∈ s.w.parked, ∀ b, q.back = some b → 0 < b ∨ 0 = b ∧ 0x100 ≤ q.pc) ∧ s.w.asleep[0]? = some ⟨0x100, 4, 0⟩ ∧ s.g.id ≠ 0 ∧ 0 ≤ s.cyc s.coreNo
    ∧ s.w.yielding = some ⟨[], 0⟩ := by decide
/-- A load from another chip that lane 0 has waited for, with LATE at 512. -/
theorem wit_ClauseEnd_late : let o := { op2 (.load false false) (some fab2) with flag := some 2 }
    let s := { stC with pend := [o], clk := { stC.clk with core := [512] } }
    s.w.head = some ⟨0x100, 0x21⟩ ∧ s.lateLanes ⟨0x100, 0x21⟩ = 1 ∧ s.w.late ≠ 0 ∧ s.w.run = none ∧ s.w.parkedCount < 4
    ∧ s.g.issues = true := by decide

/-! ### Traps and system instructions -/

/-- A register beyond the allocation, and a pair at an odd register. -/
theorem wit_ChecksAtIssue : let s := st2.setW { warp2 with nregs := 8 }
    issueCheck (Instr.iadd (.v 8) (.v 0) (.v 7)).info s.w = some 5 ∧ issueCheck (Instr.iadd (.v 7) (.v 0) (.v 7)).info s.w = none
    ∧ issueCheck (Instr.iadd64 (.v 1) (.v 2) (.v 4)).info s.w = some 1 ∧ (encodeBits (.iadd (.v 8) (.v 0) (.v 7))).isSome
    ∧ s.g.trapHeld = false := by decide
theorem wit_ChecksAtIssue_access : let c (sp : Space) (off : Nat) : Chk := ⟨sp, off, 4, 4, false, 0⟩
    (c .shr 4092).off % 4 = 0 ∧ 4092 + 4 ≤ segLimit (st3.w.segOf .shr) ∧ segLimit (st3.w.segOf .shr) < 4096 + 4 ∧ (c .shr 4093).off % 4 ≠ 0
    ∧ st3.badTarget 0 = false ∧ st3.badTarget 0x7FF = true := by decide
theorem wit_TrapsTaken_store : let s := withV st3 2 4096
    goes s (.st (.v 4) (.v 2) 0 .b32 .shr) = true ∧ goes s (.ld (.v 4) (.v 2) 0 .b32 .shr) = true ∧ s.g.trapHeld = false
    ∧ ∀ wr, s.r37 ((lanesOf run2.lanes).map fun l => (s.w.ref false (.v 2) 0 l).chk .shr 4 wr) = some (3, 4096, 1) := by decide
theorem wit_TrapsTaken_atomic : let s := withV st1 2 2
    goes s (.atomAdd (.v 4) (.v 2) true .n32 .chip) = true ∧ lanesOf run1.lanes = [0] ∧ (s.w.src64 (.v 2) 0).toNat % 4 ≠ 0
    ∧ s.g.trapHeld = false := by decide
theorem wit_TrapsTaken_privileged : st2.g.sys = false ∧ goes st2 (.segld .segob (.s 2)) = true ∧ goes st2 (.rfe (.s 1)) = true
    ∧ goes st2 (.swr .core (.s 1)) = true ∧ SReg.core ≠ .flg := by decide
theorem wit_TrapsTaken_rfe : let s := st2.setG { group2 with sys := true }
    goes s (.rfe (.s 1)) = true ∧ s.g.sys = true ∧ s.g.holds = none ∧ s.g.trapHeld = false := by decide
/-- Growth of a warp of 96 registers, and shrinking one of 16 by 2 × 8. -/
theorem wit_TrapsTaken_registers : goes st2 (.rgrow (.k 1)) = true ∧ (st2.w.scal run2 (.k 1)).toNat ≠ 0
    ∧ 96 < st2.w.nregs + 8 * (st2.w.scal run2 (.k 1)).toNat
    ∧ (let s := st2.setW { warp2 with nregs := 16 }
       goes s (.rshrink (.k 2)) = true ∧ s.w.nregs < 8 * (s.w.scal run2 (.k 2)).toNat + 8) := by decide
theorem wit_TrapsTaken_enabled : goes st2 (.trap 63) = true ∧ goes st2 (.brk 0) = true ∧ st2.g.kern.trapen = false ∧ st2.g.kern.brken = false
    ∧ (let s := st2.setG { group2 with kern := { kern2 with trapen := true, brken := true } }
       goes s (.trap 63) = true ∧ goes s (.brk 63) = true ∧ s.g.kern.trapen = true ∧ s.g.kern.brken = true ∧ s.g.trapHeld = false) := by
  decide
theorem wit_StatusRegisters : ([.srd (.v 1) .flg, .srd (.v 2) .cyc, .srd (.s 1) .core, .swr .flg (.v 1), .swr .late (.s 1), .swr .seed (.k 1)]
    : List Instr).all (goes st2) = true ∧ SReg.flg.span ≠ 2 ∧ SReg.cyc.span = 2 ∧ st2.g.sys = false := by decide
/-- A segment that ends with the core's pool. -/
theorem wit_StatusRegisters_segment : let s := (withS st2 3 0x100000).setG { group2 with sys := true }
    goes s (.segld .segshr (.s 2)) = true ∧ s.g.sys = true ∧ s.segOk s.g.chip (segNo .segshr) (s.w.scal64 run2 (.s 2)) = true := by decide
/-- A warp of 88 registers grows to 96; with a pool that is full it waits. -/
def stR (n : Nat) (grow : Option Nat) : State :=
  st2.select 1 0 |>.setW { warp2 with nregs := n, grow := grow } |>.setG { group2 with others := [] }
theorem wit_RegisterAllocation : let s := stR 88 none
    goes s (.rgrow (.k 1)) = true ∧ s.w.gone = false ∧ (s.w.scal run2 (.k 1)).toNat = 1 ∧ s.w.nregs + 8 * 1 ≤ 96
    ∧ ((s.growers s.g.chip s.g.core).any fun q => q.1 ≤ s.g.age && !(q.2.1 == s.g.id && q.2.2.1 == s.w.idx)) = false
    ∧ s.canGrow s.g.chip s.g.core s.g.id s.w.idx 1 = true ∧ goes s (.rshrink (.k 1)) = true ∧ 8 * 1 + 8 ≤ s.w.nregs := by decide
theorem wit_RegisterAllocation_waits :
    let s := (stR 88 none).setG { (stR 88 none).g with others := (List.range 22).map fun k => { warp2 with idx := k + 1 } }
    goes s (.rgrow (.k 1)) = true ∧ s.canGrow s.g.chip s.g.core s.g.id s.w.idx 1 = false := by decide
theorem wit_RegisterAllocation_grant : let s := stR 88 (some 1)
    s.g.id ≠ 0 ∧ s.w.grow = some 1 ∧ s.canGrow s.g.chip s.g.core s.g.id s.w.idx 1 = true
    ∧ ∀ q ∈ s.growers s.g.chip s.g.core, s.g.age < q.1 ∨ s.g.age = q.1 ∧ s.w.idx ≤ q.2.2.1 := by decide

/-! ### The matrix engine -/

/-- A range of 1024 rows in F16 at the start of the window, and a held tile. -/
def rng2 : Range := { h := 0, base := 0, len := 2 ^ 20, fmt := 0, blk := 0, layout := 0, soff := 0, rowb := 1024, srowb := 0, region := 0, gone := false }
def tile2 : Tile := ⟨3, 15, 1, [0], false, false⟩
def stM : State := let s := st4.setG { st4.g with ranges := [rng2], kern := { kern2 with obwin := 2 ^ 21 }, shadow := ⟨1, 0, 512, false, 7⟩, active := ⟨1, 0, 0, false, 0⟩ }
  withS { s with engines := [(0, { Engine.empty with tiles := [tile2] })] } 3 3
theorem wit_MatrixResources : stM.g.kern.obwin ≠ 0 ∧ goes stM (.obres (.s 1) (.s 4) 14) = true
    ∧ (let s := withS stM 4 1
       ((s.w.scal run2 (.s 4)).toNat + 4095) / 4096 * 4096 = 4096 ∧ freeHandle 8 (s.g.held.map Range.h) = some 1
       ∧ firstFit 4096 s.g.kern.obwin (s.g.ranges.map fun x => (x.base, x.len)) = some (2 ^ 20)) := by decide
/-- A record of 32 bytes in the store at 1024: a range of one page behind the other. -/
def stMr : State := let k := poolKey 0 0 1024
  withS ((((stM.wrN k 4 (2 ^ 20)).wrN (k + 4) 4 4096).wrN (k + 8) 4 0).wrN (k + 16) 4 1024) 4 1024
theorem wit_MatrixResources_record : goes stMr (.obrec (.s 1) (.s 4)) = true ∧ stMr.r37 [⟨.shr, 1024, 32, 32, false, 0⟩] = none
    ∧ (Range.ofWords (stMr.descWords 1024) 1 stMr.w.region).ok (stMr.descWords 1024) stMr.g.kern.obwin stMr.g.ranges = true := by decide
theorem wit_MatrixResources_before : NoneBefore stMr run2.lanes (stMr.bytesAt .shr 1024 32 0 0) := noneBefore_nil rfl rfl
theorem wit_MatrixResources_release : goes stM (.obrel (.k 0)) = true ∧ (stM.g.range? (stM.w.scal run2 (.k 0)).toNat).isSome = true
    ∧ goes stM (.accget (.s 1)) = true ∧ stM.myEngine.freeTiles ≠ [] ∧ goes stM (.accput (.s 3)) = true
    ∧ stM.myEngine.tile? stM.g.id (stM.w.scal run2 (.s 3)).toNat = some tile2 ∧ goes stM (.mstat (.s 1)) = true := by decide
/-- The last row from which a plane fits. -/
theorem wit_MatrixCommands_load : let s := withS stM 5 512
    goes s (.mload (.s 1) (.k 0) .none (.s 5)) = true ∧ s.g.range? (s.w.scal run2 (.k 0)).toNat = some rng2
    ∧ (s.w.scal run2 (.s 5)).toNat + 512 ≤ rng2.rows ∧ s.r37 (s.barOf .none (.shr 0 0)).2 = none ∧ s.swapWaits = false
    ∧ s.myEngine.cmds.length < 32 ∧ (s.myEngine.ofGroup s.g.id).length < 8 := by decide
theorem wit_MatrixCommands : goes stM (.mstream (.s 1) (.s 3) 0 .none (.s 5) (.k 0)) = true
    ∧ stM.myEngine.tile? stM.g.id (stM.w.scal run2 (.s 3)).toNat = some tile2 ∧ (stM.w.scal run2 (.s 5)).toNat + highLane run2.lanes + 1 ≤ rng2.rows
    ∧ stM.g.active.st ≠ 0 ∧ stM.g.range? stM.g.active.range = some rng2 ∧ mixes rng2.fmt rng2.fmt = true
    ∧ goes stM (.mzero (.s 1) (.s 3)) = true ∧ goes stM (.mdrain (.v 64) (.s 3) (.s 6) (.s 5)) = true
    ∧ goes stM .mswap = true ∧ goes stM .mswapAuto = true ∧ stM.g.shadow.st ≠ 0 ∧ stM.g.shadow.busy = false
    ∧ (∀ q ∈ stM.g.fails, q.matrix = false) := by decide
/-- The last columns of a row, into the last registers. -/
theorem wit_MatrixCommands_drain : let s := withS (withS stM 6 32) 5 480
    (s.w.scal run2 (.s 6)).toNat = 32 ∧ (s.w.scal run2 (.s 5)).toNat + 32 ≤ 512 ∧ (Opd.v 64).toNat + 32 ≤ s.w.nregs := by decide
/-- A command in the engine's table. -/
def cmd2 (k : MatKind) : MatCmd :=
  ⟨7, 1, 1, 0, 0, 0, 0, 0, k, 0x21, none, none, 127, none, 0x104, 0, true, 0, 96, [], 0, 0⟩
def stMc (k : MatKind) (granted : Bool) : State :=
  { stM with engines := [(0, { Engine.empty with tiles := [tile2], cmds := [{ cmd2 k with granted := granted }] })] }
theorem wit_MatrixCommands_wait : goes stM (.mwait (.s 3)) = true ∧ (stM.myEngine.ofGroup stM.g.id) = []
    ∧ goes stM (.mpoll (.s 1) (.s 3)) = true ∧ ((stMc (.zero 3) true).myEngine.ofGroup 1).map MatCmd.tile = [some 3] := by decide
theorem wit_MatrixExactSum : (∀ v ∈ [FVal.fin false 3 0, .fin true 1 (-2)], ∃ n m e, v = .fin n m e ∧ -2 ≤ e)
    ∧ [FVal.fin false 3 0, .fin true 1 (-2)] ≠ [] := by
  constructor
  · intro v hv
    rcases List.mem_cons.mp hv with rfl | hv
    · exact ⟨_, _, _, rfl, by decide⟩
    · rcases List.mem_cons.mp hv with rfl | hv
      · exact ⟨_, _, _, rfl, by decide⟩
      · cases hv
  · simp
theorem wit_MatrixEnd : ∀ k ∈ [MatKind.zero 3, .drain 3 1 511 1, .stream 3 rng2 0 ⟨1, 0, 0, false, 0⟩ rng2, .load rng2 512],
    let s := stMc k true
    s.cmd? 0 7 = some (cmd2 k) ∧ (s.engine 0).ready (cmd2 k) = true ∧ (s.engine 0).mustFail (cmd2 k) = false
    ∧ (∀ z ∈ (s.engine 0).tiles, z.freed = false) ∧ s.isSel 1 0 = true ∧ (k ≠ .load rng2 512 → (s.engine 0).tileOf (cmd2 k) = some tile2)
    ∧ s.g.shadow.range = rng2.h ∧ s.g.shadow.row0 = 512 := by decide
theorem wit_MatrixEnd_grant : let k := MatKind.stream 3 rng2 0 ⟨1, 0, 0, false, 0⟩ rng2
    chooseGrant ((stMc k false).requests 0) = some { cmd2 k with granted := false } ∧ (cmd2 k).isPass = true ∧ (cmd2 k).gid = stM.g.id := by
  decide

/-! ### Tasks -/

/-- One lane of a task; its record at 128 of the chip's `dws`, an object at 64; s2 and s3 name the object; a frame pool. -/
def slot2 : TaskSlot := ⟨0, kern2, 0, 8, 0, 0, 512, 1, 2, 0xFF, false⟩
def part2t : Partition := { part2f with vfs := part2f.vfs.map fun f => { f with slots := [slot2] } }
def obj2 : Dword := 0x0400000000000040
def stK : State :=
  let s := (withS (withS st1 2 0x40) 3 0x04000000).setG { group2 with task := 0x0400000000000080, kern := { kern2 with task := true, frame := 256 } }
  { s with parts := [part2t] }
def key2 : Nat := dwsKey 0 64
theorem wit_TaskInstructions : Memory.wf stK.mem ∧ stK.w.gone = false ∧ stK.w.scal64 run1 (.s 2) = obj2
    ∧ stK.objAt 0 0 0 obj2 64 = .ok key2 ∧ stK.objAt 0 0 0 obj2 32 = .ok key2 ∧ stK.objAt 0 0 0 obj2 16 = .ok key2 ∧ stK.g.task ≠ 0
    ∧ goes stK (.tspawn (.v 1) (.s 2)) = true ∧ stK.recState key2 = 0 ∧ (stK.slot? 0 0 (stK.recSlot key2)).map TaskSlot.closed = some false
    ∧ goes stK .tsync = true ∧ stK.unitAt 0 0 0 stK.g.task 64 = .ok (dwsKey 0 128) ∧ stK.nchild (dwsKey 0 128) = 0
    ∧ goes stK (.tself (.s 14)) = true ∧ goes stK (.tdone (.s 2)) = true ∧ stK.endsHolding run1 = false := by decide
theorem wit_TaskInstructions_before : NoneBefore stK run1.lanes (places key2 64) := noneBefore_nil rfl rfl
theorem wit_TaskInstructions_fork : let s := withS (withS stK 2 0x100) 3 0
    goes s (.tfork (.s 4) (.s 2) 0) = true ∧ (s.w.scal64 run1 (.s 2)).toNat % 2 = 0 ∧ s.g.kern.entry ≤ (s.w.scal64 run1 (.s 2)).toNat
    ∧ (s.w.scal64 run1 (.s 2)).toNat < s.g.kern.entry + s.g.kern.codesz ∧ s.nchild (dwsKey 0 128) < 255
    ∧ (s.takeFrame 0 0 0 256 0).map Prod.fst = some 0 ∧ dwsKey 0 128 + 64 ≤ frameKey 0 0 0x40 := by decide
/-- A counter of 1 with an armed record at 256 behind it, one of 2, and one that `tpost` can raise to the most. -/
theorem wit_TaskInstructions_counters : (let s := withS stK 4 0x7FFFFFFF
      goes s (.tpost (.s 2) (.s 4)) = true ∧ (s.rdN (key2 + 4) 4).testBit 31 = false ∧ (s.w.scal run1 (.s 4)).toNat < 2 ^ 31
      ∧ 0 < (s.rdN key2 4 + (s.w.scal run1 (.s 4)).toNat) % 2 ^ 32 ∧ (s.rdN key2 4 + (s.w.scal run1 (.s 4)).toNat) % 2 ^ 32 < 2 ^ 31)
    ∧ (let s := stK.wrN key2 4 2
       goes s (.tdec (.s 2)) = true ∧ Memory.wf s.mem ∧ s.rdN key2 4 = 2)
    ∧ (let s := ((stK.wrN key2 4 1).wrN (key2 + 4) 4 0x80000000).wrN (key2 + 8) 8 0x0400000000000100
       goes s (.tdec (.s 2)) = true ∧ Memory.wf s.mem ∧ s.rdN key2 4 = 1 ∧ (s.rdN (key2 + 4) 4).testBit 31 = true
       ∧ (s.rdN (key2 + 4) 4).testBit 30 = false ∧ s.objAt 0 0 0 (s.rdD (key2 + 8)) 64 = .ok (dwsKey 0 256)
       ∧ key2 + 16 ≤ dwsKey 0 256 ∧ s.recState (dwsKey 0 256) = 0) := by decide
theorem wit_TaskInstructions_futures : goes stK (.fset (.s 2) (.s 4)) = true ∧ stK.futState key2 = 0
    ∧ (let s := stK.wrN (key2 + 16) 4 1
       goes s (.fwait (.s 12) (.s 2)) = true ∧ s.futState key2 ≠ 0 ∧ Memory.wf s.mem) := by decide
theorem wit_TaskInstructions_locks : goes stK (.lkacq (.v 1) (.s 2)) = true ∧ stK.lockState key2 = 0
    ∧ (let s := stK.setLock key2 stK.g.task 1 1
       goes s (.lkacq (.v 1) (.s 2)) = true ∧ goes s (.lkrel (.s 2)) = true ∧ s.lockState key2 = 1 ∧ s.rdD key2 = s.g.task
       ∧ s.rdN (key2 + 12) 4 + 1 < 2 ^ 32 ∧ (∀ w ∈ s.waiters, w.obj ≠ key2) ∧ Memory.wf s.mem) := by decide

/-! ### Gangs and long contexts -/

/-- A sequence of two ranks, chips 0 and 1, with a token and a block of this chip. -/
def seq2 (tokens : Nat) : Seq :=
  { slot := 3, part := 0, vf := 0, view := 0, width := 2, pend := 0, state := 1, policy := 0, gran := 0, lasterr := 0, tokens := tokens,
    deadline := 0, tpm := 1, minw := 1, maxw := 2, cut := 0, hdim := 1, lbuf := 0, latemask := 0, latelap := 0, members := [0, 1, 2],
    fst := [⟨0, 0, 0, 0, 7⟩], move := none, aborting := [], views := [] }
def part2g : Partition :=
  { part2 with vfs := [{ Vf.fresh 0 0 with kvq := 16, freeKv := [(0, 0, 9, 9), (0, 1, 8, 8)] }] }
def stG (tokens : Nat) : State := let s := withS st1 1 3
  { s with parts := [part2g], seqs := [seq2 tokens], kv := [⟨0, 0, 7, 0, 0, 1, 0, 0, 7⟩] }
theorem wit_GangRecords : let s := withS (stG 0) 4 1
    s.seqOf (s.w.scal run1 (.s 1)) = some (seq2 0) ∧ goes s (.gwidth (.v 1) (.s 1)) = true ∧ goes s (.gview (.v 2) (.s 1)) = true
    ∧ goes s (.grank (.v 1) (.s 1)) = true ∧ goes s (.gset (.v 1) (.s 1) 4) = true ∧ goes s (.gsetX (.v 1) (.s 1) 4) = true := by decide
/-- Widths 1 and 3, from 2. -/
theorem wit_GangRecords_width : ∀ n ∈ [0, 1],
    let q := seq2 n
    ∀ w ∈ [1, 3], q.state = 1 ∧ 0 < w ∧ w ≤ 64 ∧ w ≠ q.width ∧ (q.members.take w).dedup.length = w
      ∧ ∀ c ∈ (q.members.take w).drop 1, (stG n).qualifies q c = true := by decide

/-- Tokens 1 and the next position in the same block; the last block free again. -/
theorem wit_KvInstructions : let s := withS (stG 3) 4 3
    let q := seq2 3
    goes s (.kvx (.v 2) (.s 1) 6) = true ∧ s.seqOf (s.w.scal run1 (.s 1)) = some q ∧ goes s (.kvapp (.v 1) (.s 1) 4) = true ∧ q.held = false
    ∧ (s.w.idxS 4).toNat = q.tokens ∧ (place q.width q.gran q.tokens).2.2 ≠ 0
    ∧ q.entry (place q.width q.gran q.tokens).1 (place q.width q.gran q.tokens).2.1 = none
    ∧ goes s (.kvfree (.v 1) (.s 1) 4) = true ∧ q.move = none ∧ q.policy ≠ 1 := by decide
theorem wit_KvInstructions_append : let s := withS (stG 2) 4 2
    let q := seq2 2
    goes s (.kvapp (.v 1) (.s 1) 4) = true ∧ (s.w.idxS 4).toNat = q.tokens ∧ (place q.width q.gran q.tokens).2.2 ≠ 0
    ∧ q.entry (place q.width q.gran q.tokens).1 (place q.width q.gran q.tokens).2.1 = some ⟨0, 0, 0, 0, 7⟩
    ∧ (s.blockOf ⟨0, 0, 0, 0, 7⟩).map KvBlock.refc = some 1 := by decide
theorem wit_KvInstructions_fork : let o := { seq2 3 with slot := 4 }
    let s := withS { stG 0 with seqs := [seq2 0, o] } 4 4
    goes s (.kvfork (.v 1) (.s 1) 4) = true ∧ s.seqOf (s.w.scal run1 (.s 1)) = some (seq2 0) ∧ s.seqOf (s.w.idxS 4) = some o
    ∧ (seq2 0).state = 1 ∧ o.state = 1 ∧ run1.entry = 0 ∧ (s.share (sortEntries o.fst) 0).2.1 = none := by decide
theorem wit_KvInstructions_lists : goes (stG 0) (.flpop (.v 1) (.k 1)) = true ∧ ((stG 0).w.scal run1 (.k 1)).toNat ≤ 1
    ∧ ((stG 0).popBlock (stG 0).g.part (stG 0).g.vf (stG 0).myChip 1).map Prod.fst = some 8 ∧ goes (stG 0) (.flpush (.v 1) (.s 2)) = true
    ∧ (let s := withS (stG 0) 2 7
       (s.w.scal run1 (.s 2)).toNat < 2 ^ 24 ∧ s.kvBlock s.myChip 0 7 = some ⟨0, 0, 7, 0, 0, 1, 0, 0, 7⟩) := by decide
theorem wit_KvInstructions_place : 0 < 1 ∧ place 3 6 0xFFFFFFFF = place 3 6 0xFFFFFFFF := by decide
/-- A lap of rank 0 of 2 that waits, and one of the highest rank. -/
def lap2 (rank : Nat) (due : Option Nat) : Lap := ⟨6, 1, 0, 3, 0, 5, rank, 2, 1, 1, 1, [[0, 0, 0]], 0x104, none, 0, due, 96⟩
def msg2 : LapMsg := ⟨8, 3, 5, 1, 0, 1, 2, [[0, 0, 0]]⟩
theorem wit_Laps : let s := withS (stG 1) 4 5
    goes s (.gstep (.v 1) (.s 1) 4) = true ∧ s.seqOf (s.w.scal run1 (.s 1)) = some (seq2 1) ∧ lapRegsOk s (.v 1) (seq2 1).hdim = true
    ∧ (s.member 3 s.myChip).holds 5 = false ∧ rankIn ((seq2 1).viewOf 5) s.myChip = some 0 ∧ (s.member 3 s.myChip).issued = false := by
  decide
theorem wit_Laps_complete : (let s := { stG 1 with laps := [lap2 1 none] }
      s.laps.find? (fun x => x.id == 6) = some (lap2 1 none) ∧ (lap2 1 none).rank + 1 = (lap2 1 none).width)
    ∧ (let s := { stG 1 with laps := [lap2 0 (some 0)] }
       s.laps.find? (fun x => x.id == 6) = some (lap2 0 (some 0)) ∧ (lap2 0 none).rank + 1 < 2 ∧ 0 ≤ s.cyc 0)
    ∧ (let s := { stG 1 with laps := [lap2 0 (some 0)], msgs := [msg2] }
       s.lapMsg? (lap2 0 (some 0)) = some msg2 ∧ (lap2 0 none).rank + 1 ≠ 2 ∧ s.cyc 0 ≤ 0) := by decide
/-- A result that every rank has reached, and one whose time has passed. -/
def stLate (c : Dword) : State := { stG 1 with members := [⟨3, 0, 5, true, some (5, 2, [[0, 0, 0]], c), 0, 0, [], none, []⟩], gtimers := [(1, 0, 0)] }
theorem wit_Laps_late : goes (stLate 3) (.glate (.v 1) (.s 1)) = true ∧ lapRegsOk (stLate 3) (.v 1) 1 = true
    ∧ rankIn (seq2 1).current (stLate 3).myChip = some 0 ∧ (seq2 1).latelap ≠ 5 ∧ (stLate 3).w.live = BitVec.allOnes 64
    ∧ ((stLate 3).member 3 (stLate 3).myChip).result = some (5, 2, [[0, 0, 0]], 3) := by decide
theorem wit_Laps_cover : (3 : Dword).getLsbD 0 = true ∧ (3 : Dword).getLsbD 1 = true ∧ (stLate 1).gtimer 1 0 = some 0
    ∧ ((stLate 1).group? 1).isSome = true ∧ 0 ≤ (stLate 1).cyc 0 := by decide
/-- A message that its member has passed over: discarded without a buffer. -/
theorem wit_Laps_arrival : let s := { stG 1 with members := [⟨3, 0, 5, true, none, 0, 0, [], none, []⟩], msgs := [msg2] }
    s.msgs.find? (fun x => x.id == 8) = some msg2 ∧ s.seq? msg2.slot = some (seq2 1) ∧ s.passedOver (seq2 1) msg2 = true
    ∧ (seq2 1).lbuf = 0 := by decide
/-- The same with a buffer in main memory at 64. -/
def seq3 : Seq := { seq2 1 with lbuf := 64 }
def stL : State := { st4 with seqs := [seq3], members := [⟨3, 0, 5, true, none, 0, 0, [], none, []⟩], msgs := [msg2] }
theorem wit_Laps_arrival_buffer : stL.seq? msg2.slot = some seq3 ∧ stL.passedOver seq3 msg2 = true ∧ seq3.lbuf ≠ 0 ∧ seq3.latelap ≤ msg2.lap
    ∧ stL.vaWaits 0 0 true ((msg2.late seq3.lbuf).map Prod.fst) = false
    ∧ (stL.vaPlaces 0 0 true ((msg2.late seq3.lbuf).map Prod.fst)).isSome = true := by decide +kernel
/-- Moves from width 2 to 3 in each phase, with what the members hold. -/
def move2 (phase pos : Nat) (replies : List (Nat × Nat)) (reports : List Nat) : Move := ⟨3, pos, phase, [], replies, reports, 0, 6, 0, 1⟩
def seqM (m : Move) : Seq := { seq2 1 with move := some m, state := 2, cut := 6 }
def stV (m : Move) (hold : Nat) : State := { stG 1 with seqs := [seqM m], members := [⟨3, 0, 5, true, none, hold, 5, [], none, []⟩] }
theorem wit_GangMoves_walk : (let m := move2 0 0 [] []
      (stV m 0).seq? 3 = some (seqM m) ∧ m.pos < (seqM m).tokens ∧ (0 : Nat) ∈ (seqM m).both)
    ∧ (let m := move2 0 1 [] []
       (seqM m).tokens ≤ m.pos ∧ (seqM m).aborting = []) := by decide
/-- From width 2 to 1 and back the positions of block 0 of rank 0 keep their places when one block holds them all. -/
theorem wit_GangMoves_keeps : ({ seqM { move2 0 0 [] [] with width := 2 } with gran := 0 } : Seq).keeps 2 (place 2 0 0).1 (place 2 0 0).2.1 = true := by
  decide
theorem wit_GangMoves_switch : let m := move2 1 1 [] []
    (stV m 0).linked 0 = true ∧ ((stV m 0).member 3 0).hold = 0 ∧ ((stV m 1).member 3 0).hold = 1 ∧ m.replies.lookup 0 = none
    ∧ 1 ∈ (seqM m).both ∧ (1 : Nat) ≠ 0 ∧ m.replies.lookup 1 = none ∧ 0 < 2 ^ 32 - 1 := by decide
theorem wit_GangMoves_cut : let m := move2 1 1 [(1, 5), (2, 4)] []
    m.replies.lookup 0 = none ∧ (∀ y ∈ (seqM m).both, y ≠ 0 → m.replies.lookup y ≠ none) ∧ ((stV m 1).member 3 0).bound < 2 ^ 32 - 1
    ∧ ∀ y ∈ m.replies, y.2 < 2 ^ 32 - 1 := by decide
theorem wit_GangMoves_reports : (let m := move2 2 1 [] []
      (stV m 1).linked 0 = true ∧ ((stV m 2).member 3 0).hold = 2 ∧ (0 : Nat) ∉ m.reports ∧ (∀ l ∈ (stV m 2).laps, m.cut ≤ l.lap)
      ∧ 1 ∈ (seqM m).both ∧ (1 : Nat) ∉ m.reports)
    ∧ (let m := move2 2 1 [] [1, 2]
       (∀ y ∈ (seqM m).both, y ≠ 0 → y ∈ m.reports) ∧ (seqM m).tokens ≤ m.begun ∧ (0 : Nat) ∉ m.reports) := by decide
theorem wit_GangMoves_timeout : let m := move2 1 1 [] []
    let s := { stV m 0 with clk := { st1.clk with core := [2 ^ 24] } }
    m.replies.lookup 1 = none ∧ m.since + 2 ^ 24 ≤ s.homeCyc 3 := by decide
theorem wit_GangMoves_abort : ∀ b ∈ [true, false],
    let q := { seq2 1 with aborting := [(0, b)] }
    let s := { stG 1 with seqs := [q] }
    s.seq? 3 = some q ∧ q.aborting.lookup 0 = some b ∧ s.linked 0 = true := by decide

/-! ### Launch, scheduling and pre-emption -/

/-- A virtual function with a queue whose descriptor stands at 0, its ring at 128; the record's kernel header at 4096. -/
noncomputable def vf7 : Vf := { Vf.fresh 0 0 with table := [leaf2], queues := [⟨0, 0, 1, false⟩] }
noncomputable def part7 : Partition := { part2 with vfs := [vf7] }
noncomputable def base7 : Nat := 2 ^ 31
noncomputable def st7 (kind : Nat) : State :=
  let s := { st2 with parts := [part7], images := [⟨0, 0, 0, 4096, 64, 0, 0⟩], poolSz := [(0, 2 ^ 20)] }
  let t := (((s.wrN base7 8 128).wrN (base7 + 8) 4 0x1004).wrN (base7 + 128) 4 kind).wrN (base7 + 136) 8 4096
  (((((t.wrN (base7 + 4096) 4 0x100).wrN (base7 + 4100) 4 64).wrN (base7 + 4096 + 32) 2 0x0406).wrN (base7 + 4096 + 38) 4 0x01402002).wrN
    (base7 + 4096 + 42) 1 0x64).wrN (base7 + 4096 + 44) 4 (frameSize 16 0 0)
noncomputable def fetched (kind : Nat) (p : Fetched → Bool) : Bool := match (st7 kind).fetch 0 0 ⟨0, 0, 1, false⟩ with | .got y => p y | _ => false
theorem wit_LaunchRecords_free : (st7 1).behindHost 0 0 = false ∧ part7.stopped = false
    ∧ ∀ k ∈ [0, 1, 2, 3], fetched k (fun y => (st7 k).recordHere 0 0 y.addr y.l.done y.l.kh) = true := by decide +kernel
theorem wit_LaunchRecords : (st7 0).part? 0 = some part7 ∧ (st7 0).vf? 0 0 = some vf7 ∧ vf7.queue? 0 = some ⟨0, 0, 1, false⟩ := by decide +kernel
theorem wit_LaunchRecords_none : fetched 0 (fun y => y.l.kind == 0 && y.l.done == 0 && decide (Memory.wf y.next.mem)
    && (y.next.vaRun 0 0 (y.addr + 4) 4 true == some [base7 + 132, base7 + 133, base7 + 134, base7 + 135])
    && ((st7 0).refusal part7 vf7 y.l == 0)) = true := by decide +kernel
theorem wit_LaunchRecords_kernel : ∀ k ∈ [1, 2], fetched k (fun y => y.l.kind == k && match y.next.kernelAt 0 0 y.l.kh with
    | some q => y.l.groups q != 0 && (q.warps == 16) | none => false) = true := by decide +kernel
/-- A launch that nothing refuses, with no window of `dws`. -/
theorem refusal_zero {s : State} {q : Partition} {f : Vf} {l : Launch} {k : Kernel} (hk : s.kernelAt q.idx f.vf l.kh = some k)
    (h4 : l.kind < 4) (hz : l.zero = true) (h0 : l.kind ≠ 0) (h3 : l.kind ≠ 3) (hw : l.widOk k = true) (hm : l.modes q k ≠ 0)
    (h5 : k.task = true) (ho : s.slot? q.idx f.vf l.slot = none) (hc : (l.chipList q).isEmpty = false)
    (hf : (l.chipList q).any (s.fitsEmpty k) = true) (hd : l.dwsOff = 0) (hx : k.dws = 0) : s.refusal q f l = 0 := by
  have : ¬ 4 ≤ l.kind := by omega
  have hf' := List.any_eq_true.mp hf
  simp [State.refusal, hk, hz, h0, h3, hw, hm, h5, ho, hd, hx, this, hf'] at hc ⊢
  exact hc
noncomputable def l7 (kind : Nat) : Launch := launchOf ((places (base7 + 128) 128).map (st7 kind).rd)
noncomputable def k7 : Kernel := kernelOf ((places (base7 + 4096) 64).map (st7 1).rd) 4096 0
theorem wit_LaunchRecords_fetched : ∀ k ∈ [1, 2, 3], fetched k (fun y => y.l == l7 k) = true := by decide +kernel
/-- The records 1 and 2 are launches of kernel 7 that nothing refuses. -/
theorem refusal_l7 {n : Nat} (hn : n = 1 ∨ n = 2) : (st7 n).refusal part7 vf7 (l7 n) = 0 := by
  rcases hn with rfl | rfl <;> refine refusal_zero (k := k7) ?_ ?_ ?_ ?_ ?_ ?_ ?_ ?_ ?_ ?_ ?_ ?_ ?_ <;> decide +kernel
theorem wit_LaunchRecords_grid : (st7 1).refusal part7 vf7 (l7 1) = 0 := refusal_l7 (.inl rfl)
theorem wit_LaunchRecords_openSlot : (st7 2).refusal part7 vf7 (l7 2) = 0 := refusal_l7 (.inr rfl)
/-- A slot to close, and a record whose work is done. -/
noncomputable def part7s : Partition := { part2 with vfs := [{ vf7 with slots := [{ slot2 with kern := k7 }] }] }
theorem wit_LaunchRecords_closeSlot : ({ st7 3 with parts := [part7s] } : State).refusal part7s { vf7 with slots := [{ slot2 with kern := k7 }] } (l7 3) = 0 := by
  decide +kernel
noncomputable def rec7 (todo : List (Nat × List Nat)) : Record :=
  { id := 4, part := 0, vf := 0, q := 0, proc := 0, prio := 0, addr := 128, kind := 1, slot := 0, notify := false, done := 0, kern := kern2
    ext := [1, 1, 1, 1], arg := 0, dwsBase := 0, fablim := 0, late := 512, seed := 1, pmode := 6, pin := false, chips := [0, 1], todo := todo, gids := [] }
theorem wit_LaunchRecords_done : let s := { st7 1 with records := [rec7 [(0, [])]] }
    s.records.find? (fun q => q.id == (rec7 []).id) = some (rec7 [(0, [])]) ∧ s.recordDone (rec7 [(0, [])]) = true := by decide +kernel
/-- Group 0 of a record for core 1 of chip 0. -/
noncomputable def stD : State := { st2 with parts := [{ part2 with clumask := 0xFF }], records := [rec7 [(0, [0, 1, 2]), (1, [])]], poolSz := [(0, 2 ^ 20), (1, 2 ^ 20)] }
noncomputable def uD : State := (stD.takeSlice 0 0 0).getD stD
theorem wit_GroupDispatch : stD.partCore 0 0 1 = true ∧ (stD.takeSlice 0 0 0).isSome = true ∧ (uD.vf? 0 0).isSome = true
    ∧ (uD.vf? 0 0).bind (fun f => uD.nextRecord f 0 0) = some (rec7 [(0, [0, 1, 2]), (1, [])])
    ∧ (rec7 [(0, [0, 1, 2]), (1, [])]).todo.find? (fun t => t.1 == 0) = some (0, 0 :: [1, 2])
    ∧ (uD.seat? 0 1 kern2 kern2.warps (kern2.warps * kern2.regs) 0).isSome = true ∧ kern2.consz = 0 := by decide +kernel
theorem wit_GroupDispatch_steal : let r := rec7 [(0, [0, 1, 2]), (1, [])]
    stD.records.find? (fun q => q.id == r.id) = some r ∧ stD.mayStealNow r 1 0 = true ∧ (r.todo.map Prod.fst).Nodup
    ∧ 1 ∈ r.todo.map Prod.fst := by decide +kernel
/-- A Posted record in frame 0 of the pool. -/
noncomputable def stDt : State := { (st2.wrN (frameKey 0 0 0x40 + 40) 1 1) with
  parts := [part2t], ready := [⟨0, 0, 0, 0, objFrame 0⟩], frames := [⟨0, 0, 0, 256, objFrame 0, none, 0, 0, [], none, 0xFFFFFFFF, 0⟩] }
noncomputable def uDt : State := (stDt.takeSlice 0 0 0).getD stDt
theorem wit_GroupDispatch_task : stDt.partCore 0 0 1 = true ∧ (stDt.takeSlice 0 0 0).isSome = true ∧ Memory.wf uDt.mem
    ∧ uDt.bestPrio 0 0 0 (uDt.ofChip 0 0 0) = some 0
    ∧ (uDt.ofChip 0 0 0).find? (fun y => y.prio == 0) = some ⟨0, 0, 0, 0, objFrame 0⟩ ∧ uDt.unitAt 0 0 0 (objFrame 0) 64 = .ok (frameKey 0 0 0x40)
    ∧ uDt.slot? 0 0 (uDt.recSlot (frameKey 0 0 0x40)) = some slot2 ∧ slot2.chips.testBit 0 = true ∧ uDt.slotGroups 0 0 0 slot2.slot < slot2.maxg
    ∧ uDt.recState (frameKey 0 0 0x40) = 1 ∧ objKind (objFrame 0) = 2 ∧ slot2.kern.consz = 0
    ∧ (uDt.seat? 0 1 slot2.kern slot2.kern.warps (slot2.kern.warps * slot2.kern.regs) 0).isSome = true
    ∧ (∀ g ∈ uDt.allGroups, g.id ≠ uDt.nextId) ∧ uDt.nextId ≠ 0 := by decide +kernel
/-- A group that stops in discard mode, one that is saved, and a core whose one warp waits in `rgrow` for ever. -/
noncomputable def gStop : Group := { group2 with stand := .stopping, pmode := 2, others := [warp2] }
noncomputable def gSaved : Group := { group2 with stand := .saved, shape := { kern2 with obwin := 0 }, others := [{ warp2 with run := none }] }
noncomputable def idle (g : Group) : State := { st2 with g := Group.blank, w := { Warp.blank with gone := true }, groups := [g] }
theorem wit_Preemption_stop : (idle gStop).group? 1 = some gStop ∧ gStop.id ≠ 0 := by decide +kernel
theorem wit_Preemption_canStop : (idle gStop).canStop gStop = true := by decide +kernel
theorem wit_Preemption_resume : let s := idle gSaved
    let u := (s.unselect.takeSlice 0 0 0).getD s
    s.group? 1 = some gSaved ∧ gSaved.isSaved = true ∧ s.partCore 0 0 1 = true ∧ (s.unselect.takeSlice 0 0 0).isSome = true
    ∧ (u.seat? 0 1 gSaved.shape gSaved.slots gSaved.regs gSaved.savedTiles.length).isSome = true := by decide +kernel
noncomputable def gGrow : Group := { group2 with others := (List.range 32).map fun k => { warp2 with idx := k, run := none, grow := some 1, nregs := 64 } }
theorem wit_Preemption_rgrow : (idle gGrow).growDead 0 0 = true ∧ (idle gGrow).onCore 0 0 = [gGrow] ∧ gGrow.sys = false ∧ gGrow.id ≠ 0 := by
  decide +kernel
/-- A slice that is over: with the same virtual function next, and with another. -/
theorem wit_Preemption_slices : (let s := { st2 with slices := [⟨0, 0, 0, 0, 0, none, false⟩] }
      s.owner? 0 0 = some ⟨0, 0, 0, 0, 0, none, false⟩ ∧ 0 + 0 ≤ s.chipCyc 0 ∧ s.nextVf 0 0 0 = some 0)
    ∧ (let s := { idle { gSaved with vf := 1 } with parts := [{ part2 with vfs := [Vf.fresh 0 0, Vf.fresh 1 0], vfn := 2 }], slices := [⟨0, 0, 0, 0, 0, none, false⟩] }
       s.owner? 0 0 = some ⟨0, 0, 0, 0, 0, none, false⟩ ∧ s.nextVf 0 0 0 = some 1 ∧ s.standing 0 0 0 = []) := by decide +kernel

/-! ### Mailboxes, meters, the operator, firmware and links -/

/-- A virtual function with a page for its requests, one at 16384, a unit of each tier, and a request of an OP at 0. -/
noncomputable def leaf8 : Leaf := ⟨16384, 0, base7 + 16384, true, false, 0, true, false, none, 0⟩
noncomputable def vf8 : Vf := { Vf.fresh 0 0 with table := [leaf2, leaf8], hbm := [32], cxl := [16384], mail := [⟨5, 0⟩] }
noncomputable def part8 : Partition := { part2 with vfs := [vf8] }
noncomputable def st8 (op va count flags moff qnum : Nat) : State :=
  let s := { st2 with parts := [part8] }
  (((((s.wrN base7 4 op).wrN (base7 + 8) 8 va).wrN (base7 + 16) 4 count).wrN (base7 + 20) 4 flags).wrN (base7 + 24) 8 moff).wrN (base7 + 32) 16
    (1024 + qnum * 2 ^ 64)
noncomputable def mail8 (op va count flags moff qnum : Nat) : Mail := mailOf ((places base7 64).map (st8 op va count flags moff qnum).rd)
theorem wit_MailboxRequests : ((st8 1 32768 1 1 32768 0).vf? 0 0).map Vf.mail = some [⟨5, 0⟩] ∧ (st8 1 32768 1 1 32768 0).holdsKind 2 = false
    ∧ vf8.working ⟨5, 0⟩ = false ∧ (st8 1 32768 1 1 32768 0).vaRun 0 0 0 64 false = some (places base7 64) := by decide +kernel
theorem wit_MailboxRequests_map : let m := mail8 1 32768 1 1 32768 0
    let s := st8 1 32768 1 1 32768 0
    m.op = 1 ∧ m.bad vf8 = false ∧ m.moff % pageBytes m.size = 0 ∧ m.tc = false ∧ m.framesIn s vf8 = some [base7 + 32768]
    ∧ m.overlaps vf8 = false := by decide +kernel
theorem wit_MailboxRequests_pages : ∀ op ∈ [2, 3, 4],
    let m := mail8 op 16384 1 0xF0000 0 0
    m.op = op ∧ (op = 4 → m.tag = 15) ∧ m.bad vf8 = false ∧ m.tc = false ∧ m.allMapped vf8 = true
    ∧ (∀ l ∈ m.leaves vf8, l.dest = none ∧ tierOf l.pa ≠ 1) := by decide +kernel
theorem wit_MailboxRequests_move : let m := mail8 5 16384 1 0x10 0 0
    let s := st8 5 16384 1 0x10 0 0
    m.op = 5 ∧ m.bad vf8 = false ∧ m.tier = 1 ∧ (∀ l ∈ m.leaves vf8, l.tc = false ∧ tierOf l.pa ≠ m.tier ∧ l.dest = none)
    ∧ m.allMapped vf8 = true ∧ (s.chooseFrames vf8 m.tier 5 (m.leaves vf8) vf8.table).isSome = true := by decide +kernel
theorem wit_MailboxRequests_queue : let m := mail8 6 0 0 0 0 63
    let s := st8 6 0 0 0 0 63
    m.op = 6 ∧ m.zero = true ∧ m.qnum ≤ 63 ∧ s.vaRun 0 0 m.qdesc 32 false = some (places (base7 + 1024) 32)
    ∧ queueDescOk ((places (base7 + 1024) 32).map s.rd) = true := by decide +kernel
/-- A page on its way, in each of the three steps. -/
noncomputable def leafG (v mig : Bool) : Leaf := { leaf8 with v := v, mig := mig, dest := some (base7 + 32768) }
theorem wit_MailboxRequests_steps : ∀ l ∈ [leafG true false, leafG true true, leafG false true],
    let s := { st2 with parts := [{ part8 with vfs := [{ vf8 with table := [leaf2, l] }] }] }
    ((s.vf? 0 0).map Vf.table).bind (fun t => t.find? fun x => x.va == l.va) = some l ∧ l.dest = some (base7 + 32768) ∧ Memory.wf s.mem
    ∧ l.pa + pageBytes l.size ≤ base7 + 32768 := by decide +kernel
theorem wit_Metering : let s := { st2 with clk := { st2.clk with hub := 2 ^ 20 } }
    s.part? 0 = some part2 ∧ (s.vf? 0 0).map Vf.opened = some 0 ∧ 0 + part2.intv * 2 ^ 20 ≤ s.clk.hub ∧ s.canClose 0 = true ∧ part2.ring = none := by
  decide +kernel
theorem wit_Metering_samples : let s := { st2 with clk := { st2.clk with hub := 1200000 } }
    s.md.sampled + 1200000 ≤ s.clk.hub ∧ (s.vf? 0 0).isSome = true ∧ getKey s.md.windows 7 0 + 12000 ≤ s.clk.hub := by decide +kernel
/-- A system warp that holds the trap of lane 0 of group 1's warp 0. -/
noncomputable def trap8 (cause : Nat) : TrapRec := ⟨1, 0, cause, false, 0, 0x108, 0, 0, 1, 0x108, 0⟩
noncomputable def gTrapped : Group :=
  { group2 with trapHeld := true, others := [{ warp2 with run := none, trapped := some ⟨1, 0x108, 0x108, .atIssue, some run1, [], [], none⟩ }] }
noncomputable def stS (cause : Nat) (action : Nat) : State := let s := { st2 with groups := [gTrapped] }
  withS (s.setG { group2 with id := 2, sys := true, kern := { kern2 with trapen := true }, holds := some (trap8 cause) }) 1 action
theorem wit_ReturnFromTrap : ∀ p ∈ [((1, 0) : Nat × Nat), (1, 1), (7, 0)],
    let s := stS p.1 p.2
    goes s (.rfe (.s 1)) = true ∧ s.g.sys = true ∧ s.g.holds = some (trap8 p.1) ∧ (trap8 p.1).gid ≠ s.g.id ∧ s.group? 1 = some gTrapped
    ∧ ((s.warp? 1 0).bind Warp.trapped).map Trapped.point = some .atIssue ∧ s.recordSegs s.g.chip ≠ none
    ∧ (s.w.scal run2 (.s 1)).toNat % 4 = p.2 ∧ (trap8 p.1).repeated = false := by decide +kernel
theorem wit_ReturnFromTrap_delivery : let k : Kernel := { kern2 with shr := 4096 }
    let s : State := { st2 with g := { group2 with id := 2 }, groups := [gTrapped], traps := [trap8 1], parts := [{ part2 with handler := some k }] }
    s.nextTrap 0 0 = some (trap8 1, gTrapped) ∧ s.partCore 0 0 1 = true ∧ 128 ≤ k.shr ∧ k.consz = 0 ∧ (s.seat? 0 1 k 1 k.regs 0).isSome = true
    ∧ (s.warp? 1 0).isSome = true ∧ s.g.id < s.nextId ∧ (∀ y ∈ s.groups, y.id < s.nextId) ∧ Memory.wf s.mem := by decide +kernel
/-- An operator request of an OP for partition `p`, virtual function `b`, byte 10 and 11, its operand at 2^32 + 64. -/
noncomputable def stO (op p b e f : Nat) : State :=
  let s := { st2 with md := { st2.md with opmail := [⟨5, 2 ^ 32⟩] } }
  (((s.wrN (2 ^ 32) 4 op).wrN (2 ^ 32 + 8) 4 (p + 256 * b + 65536 * e + 2 ^ 24 * f)).wrN (2 ^ 32 + 16) 8 (2 ^ 32 + 64))
noncomputable def bytesAt8 (s : State) (n : Nat) : List Byte := (places (2 ^ 32 + 64) n).map s.rd
theorem wit_OperatorRequests : let s := stO 16 1 0 0 0
    s.md.opmail = [⟨5, 2 ^ 32⟩] ∧ Memory.wf s.mem ∧ s.holdsKind 1 = false ∧ (2 ^ 32) % 64 = 0
    ∧ s.physBytes (2 ^ 32) 64 = some ((places (2 ^ 32) 64).map s.rd) ∧ s.physBytes (2 ^ 32 + 64) 64 = some (bytesAt8 s 64)
    ∧ field ((places (2 ^ 32) 64).map s.rd) 0 4 = 16 ∧ field ((places (2 ^ 32) 64).map s.rd) 8 1 = 1
    ∧ field ((places (2 ^ 32) 64).map s.rd) 16 8 = 2 ^ 32 + 64 := by decide +kernel
noncomputable def reqOf (s : State) : List Byte := (places (2 ^ 32) 64).map s.rd
/-- PSET of partition 1 with the first cluster of chip 1. -/
noncomputable def stP : State := ((stO 16 1 0 0 0).wrN (2 ^ 32 + 64) 4 0x10).wrN (2 ^ 32 + 68) 4 0x00010101
theorem wit_OperatorRequests_pset : let x := partDescOf (bytesAt8 stP 64)
    let others := stP.parts.filter fun y => y.idx != 1
    x.bad = false ∧ stP.partBusy 1 = false ∧ (∀ o ∈ others, o.clumask.toNat &&& x.clumask = 0)
    ∧ stP.takeUnits (hbmUnits (maskChips x.clumask)) (stP.unitsHeld 1) x.hbmg = some []
    ∧ stP.takeUnits cxlUnits (stP.unitsHeld 1) x.cxlg = some []
    ∧ stP.slicesMove others { part2 with idx := 1, clumask := 0x10 } = false ∧ stP.partBusy 0 = true := by decide +kernel
theorem wit_OperatorRequests_pset_bad : (partDescOf (bytesAt8 (stO 16 1 0 0 0) 64)).bad = true ∧ field (reqOf (stO 16 24 0 0 0)) 8 1 = 24 := by
  decide +kernel
theorem wit_OperatorRequests_vset : let s := stO 17 0 0 0 0
    let d := vfDescOf (bytesAt8 s 64)
    s.part? 0 = some part2 ∧ 0 < part2.vfn ∧ d.bad = false ∧ s.chooseKvw 0 0 d = some 0 ∧ s.assignSeqs 0 0 d.seqn part2.chips = some []
    ∧ shareOf (part2.hbm.take (part2.hbm.length - poolUnits part2.fpool part2.chips.length)) [] d.hbmv = some []
    ∧ shareOf part2.cxl [] d.cxlv = some [] ∧ part2.vfn ≤ field (reqOf (stO 17 0 8 0 0)) 9 1 := by decide +kernel
theorem wit_OperatorRequests_pdel : let s := stO 18 0 0 0 0
    field (reqOf s) 0 4 = 18 ∧ s.part? 0 = some part2 ∧ (s.logOf 0).closed.length + part2.vfs.length ≤ 64 := by decide +kernel
theorem wit_OperatorRequests_enroll : field (reqOf (stO 19 23 0 0 0)) 0 4 = 19 ∧ field (reqOf (stO 19 23 0 0 0)) 8 1 < 24
    ∧ (stO 19 23 0 0 0).physBytes (2 ^ 32 + 64) 96 = some (bytesAt8 (stO 19 23 0 0 0) 96) := by decide +kernel
/-- A key in slot 255, that a page uses or not. -/
noncomputable def stKey (op flags key : Nat) : State := let s := stO op 255 flags 0 0
  { s with md := { s.md with keys := [⟨255, 0, 0, 0, 0⟩] }, parts := [{ part2 with vfs := [{ Vf.fresh 0 0 with table := [{ leaf2 with key := key }] }] }] }
theorem wit_OperatorRequests_kload : ∀ g ∈ [0, 1], let s := stO 20 255 0 0 g
    field (reqOf s) 0 4 = 20 ∧ field (reqOf s) 8 1 ≠ 0 ∧ field (reqOf s) 11 1 = g ∧ (s.vf? 0 0).isSome = true ∧ s.md.keys = []
    ∧ s.physBytes (2 ^ 32 + 64) 72 = some (bytesAt8 s 72) := by decide +kernel
/-- Whatever key the record unwraps to: `Config.unwrapKey` is a free value. -/
theorem wit_OperatorRequests_unwrapped (k : BitVec 512) (h : ∀ a b, Config.unwrapKey a b = some k) :
    Config.unwrapKey ((stO 20 255 0 0 1).logOf 0).pubkey (BitVec.ofNat 576 (beNat (bytesAt8 (stO 20 255 0 0 1) 72))) = some k := h _ _
theorem wit_OperatorRequests_keys : (stKey 20 0 0).md.keys = [⟨255, 0, 0, 0, 0⟩] ∧ field (reqOf (stKey 21 0 0)) 0 4 = 21
    ∧ field (reqOf (stKey 21 0 0)) 8 1 = 255 ∧ (∀ k ∈ (stKey 21 0 0).md.keys, k.slot = 255 → (stKey 21 0 0).keyUsed k = false)
    ∧ (field (reqOf (stKey 21 0 255)) 9 1).testBit 0 = false ∧ (stKey 21 0 255).keyUsed ⟨255, 0, 0, 0, 0⟩ = true := by decide +kernel
theorem wit_OperatorRequests_others : (let s := stO 22 0 0 0 0
      field (reqOf s) 0 4 = 22 ∧ s.part? 0 = some part2 ∧ part2.ring = none ∧ s.canClose 0 = true)
    ∧ (let s := stO 24 0 0 0 0
       field (reqOf s) 0 4 = 24 ∧ (s.vf? 0 0).isSome = true) := by decide +kernel

/-- Images of the three kinds in flash, signed with the private key 1 and the nonce 1: the public key is the base point and r its x.
The key in the boot ROM and the version floors are free values. -/
def key1 : BitVec 768 := BitVec.ofNat 768 (gx384 * 2 ^ 384 + gy384)
def front2 (kind : Nat) : List Byte := leBytes 4 0x494C5548 ++ leBytes 2 kind ++ leBytes 2 1 ++ List.replicate 24 0
noncomputable def flash2 (kind : Nat) : FlashImage :=
  ⟨0, 0, front2 kind ++ (leBytes 48 gx384).reverse ++ (leBytes 48 (((sha384 (front2 kind)).toNat + gx384) % n384)).reverse, [], none, none⟩
/-- R376: an ECDSA signature verifies under its key, and not over another digest. -/
theorem test_ecdsa : ∀ k ∈ [1, 2, 3], ecdsaOk key1 (sha384 ((flash2 k).header.take 32 ++ (flash2 k).body))
    (BitVec.ofNat 768 (beNat ((flash2 k).header.drop 32))) = true := by decide +kernel
theorem test_ecdsa_other : ecdsaOk key1 (sha384 []) (BitVec.ofNat 768 (beNat ((flash2 1).header.drop 32))) = false := by decide +kernel
noncomputable def stF : State := { State.reset with md := { Module.reset with power := .off, flash := [flash2 1, flash2 2, flash2 3] } }
theorem wit_PowerAndReplacement_form : ∀ k ∈ [1, 2, 3], (flash2 k).formOk = true ∧ stF.flashOf 0 k 0 = some (flash2 k)
    ∧ (flash2 k).svn = 0 := by decide +kernel
theorem wit_PowerAndReplacement_boot (hf : ∀ k, Config.svnFloor k = 0) (hv : Config.lartexKey = key1) :
    ∀ k ∈ [1, 2, 3], stF.bootImage k = some (flash2 k) := by
  intro k hk
  have h := wit_PowerAndReplacement_form k hk
  have e := test_ecdsa k hk
  simp only [State.bootImage, h.2.1, Option.bind_some, FlashImage.valid, h.1, hf, hv, e, Bool.true_and, Nat.zero_le, decide_true, if_true]
theorem wit_PowerAndReplacement_none : ({ State.reset with md := { Module.reset with power := .off } } : State).bootImage 1 = none := by decide +kernel
theorem wit_PowerAndReplacement : let s := { st2 with clk := { st2.clk with hub := 1200000 } }
    s.md.powerAt + 1200000 ≤ s.clk.hub ∧ s.md.repl.phase = 0 ∧ 256 % 256 = s.md.repl.cur
    ∧ (let u := { s with md := { s.md with repl := { s.md.repl with phase := 1, kind := 3 } } }
       u.md.repl.phase = 1 ∧ u.staged u.md.repl.kind = none) := by decide +kernel
noncomputable def firm2 (kind : Nat) : Firmware := ⟨kind, 0, 0, 0, 0, 0⟩
/-- The same image in the staging slot. -/
noncomputable def img3 : FlashImage := { flash2 3 with slot := 1 }
noncomputable def stStg : State :=
  { stF with md := { stF.md with firm := [firm2 3], flash := [img3], repl := { stF.md.repl with phase := 1, kind := 3, go := true } } }
theorem wit_PowerAndReplacement_staged (hf : ∀ k, Config.svnFloor k = 0) (hv : Config.lartexKey = key1) :
    stStg.md.repl.phase = 1 ∧ stStg.staged stStg.md.repl.kind = some img3 := by
  have h : img3.formOk = true := by decide +kernel
  have h1 : stStg.flashOf 1 3 0 = some img3 := by decide +kernel
  have h2 : stStg.running 3 = some (firm2 3) := by decide +kernel
  have h3 : stStg.md.repl.phase = 1 ∧ stStg.md.repl.kind = 3 := by decide +kernel
  have e : ecdsaOk key1 (sha384 (img3.header.take 32 ++ img3.body)) (BitVec.ofNat 768 (beNat (img3.header.drop 32))) = true :=
    test_ecdsa 3 (by simp)
  have z : (firm2 3).svn ≤ img3.svn := by decide +kernel
  exact ⟨h3.1, by simp only [State.staged, h1, h2, h3.2, Option.bind_some, FlashImage.valid, h, hf, hv, e, z, Bool.true_and, Nat.zero_le, decide_true, if_true]⟩
noncomputable def repl2 (phase count since : Nat) (beaten : Bool) : Repl :=
  { Module.reset.repl with phase := phase, kind := 3, count := count, since := since, beaten := beaten, trial := some (firm2 3) }
noncomputable def stW (phase count since : Nat) (beaten : Bool) : State :=
  { st2 with md := { st2.md with firm := [firm2 1, firm2 2, firm2 3], repl := repl2 phase count since beaten } }
theorem wit_PowerAndReplacement_trial : let s := stW 2 0 0 false
    s.md.repl.trial = some (firm2 3) ∧ s.running s.md.repl.kind = some (firm2 3) ∧ s.md.repl.phase = 2 ∧ s.inProgress s.md.repl.kind = false := by
  decide +kernel
/-- An image accepts what an image of the same format hands over; one of another major version does not. -/
theorem wit_PowerAndReplacement_accepts : accepts (firm2 3) (handOf (firm2 3)) (Config.stateBlock 3 0) = true := by
  simp [accepts, handOf, firm2]
theorem wit_PowerAndReplacement_refuses (h : (Config.imageFormat 1).1 ≠ (Config.imageFormat 0).1) :
    accepts { firm2 3 with body := 1 } (handOf (firm2 3)) (Config.stateBlock 3 0) = false := by
  simp [accepts, handOf, firm2]
  intro he
  exact absurd he.symm h
theorem wit_PowerAndReplacement_beats : ∀ b ∈ [true, false], let s := { stW 3 31 0 b with clk := { st2.clk with hub := 2400000 } }
    s.md.repl.phase = 3 ∧ s.md.repl.count = 31 ∧ s.md.repl.beaten = b ∧ s.md.repl.since + 2400000 ≤ s.clk.hub ∧ 0 % 256 = s.md.repl.cur := by
  decide +kernel
/-- A CSET with no circuits, and one that has waited too long. -/
noncomputable def stN (nc : Nat) : State := (stO 23 0 0 0 0).wrN (2 ^ 32 + 64) 2 (3 + 256 * nc)
theorem wit_LinksAndHost_cset : ∀ n ∈ [0, 1], let s := stN n
    s.holdsKind 3 = false ∧ field (reqOf s) 0 4 = 23 ∧ s.physBytes (2 ^ 32 + 64) 16 = some (bytesAt8 s 16) ∧ field (bytesAt8 s 16) 1 1 = n
    ∧ planBad (planOf ((places (2 ^ 32 + 80) (16 * n)).map s.rd) n) = false ∧ (s.physBytes (2 ^ 32 + 80) (16 * n)).isSome = true
    ∧ s.md.cset = none ∧ s.circuitsBusy = false := by decide +kernel
noncomputable def work2 : CsetWork := ⟨5, 3, 1, [⟨0, 0, 7⟩], [], 0, []⟩
theorem wit_LinksAndHost_exchange : let s : State := { stN 1 with
      md := { (stN 1).md with cset := some work2 }, clk := { st2.clk with hub := 2 ^ 32 }, ports := [(Port.reset 0).trained] }
    s.planUp work2 = true ∧ s.md.cset = some work2 ∧ 255 < 256 ∧ (∀ z ∈ work2.plan, z.rserial = 7)
    ∧ work2.start + 2 ^ 32 ≤ s.clk.hub ∧ s.md.opmail = [⟨5, 2 ^ 32⟩] ∧ 2 ^ 32 + 8 ≤ physEnd ∧ Memory.wf s.mem := by decide +kernel
/-- A port with all its wavelengths, and one that trains wavelength 7 again. -/
noncomputable def port2 (t : Option (Nat × Nat)) (fails : List (Nat × Nat)) : Port := ⟨31, 0xFF, 0, 2, 0, 0, 0, 0, 0, t, [], fails⟩
theorem wit_LinksAndHost_ports : (let s := { st2 with ports := [port2 none []] }
      s.port? 31 = some (port2 none []) ∧ (port2 none []).lmask.testBit 7 = true ∧ (port2 none []).training = none)
    ∧ (let s := { st2 with ports := [port2 (some (7, 0)) [(7, 2)]], clk := { st2.clk with hub := 2 ^ 21 } }
       s.port? 31 = some (port2 (some (7, 0)) [(7, 2)]) ∧ 0 + 2 ^ 21 ≤ s.clk.hub ∧ st2.clk.hub < 0 + 2 ^ 21
       ∧ 2 ≤ getKey (port2 (some (7, 0)) [(7, 2)]).failures 7 0 ∧ 3 < 8 - waves (including (port2 none []).retired 7)) := by decide +kernel
theorem wit_LinksAndHost_units : (st2.engine 31).deg.getLsbD 3 = false ∧ (∀ c ∈ (st2.engine 31).cmds, c.granted = false)
    ∧ ({ Engine.empty with trips := List.replicate 16 (3, 0) } : Engine).worn 3 = true ∧ State.reset.untested (State.reset.engine 31) = true
    ∧ ({ st2 with md := { st2.md with failed := [511] } } : State).channelWorn (64 * 7 + 63) = true := by
  decide +kernel
theorem wit_LinksAndHost_host : (((st7 1).vf? 0 0).bind fun f => f.queue? 0).isSome = true
    ∧ ((st7 1).vf? 0 0).map (fun f => f.mail.length) = some 0 ∧ (16 ≤ (List.replicate 16 (⟨5, 0⟩ : MailReq)).length)
    ∧ (st7 1).hostPlaces 0 0 64 4 = some (places (base7 + 64) 4) ∧ (places (base7 + 64) 4).length = 4 ∧ (places (base7 + 64) 4).Nodup
    ∧ (st7 1).partial? (places (base7 + 64) 4) = none ∧ Memory.wf (st7 1).mem := by decide +kernel

/-! ### Encoding, steps and memory -/

theorem wit_EncodeDecode : WellFormed (.iadd (.v 1) (.s 2) (.k 7)) ∧ (encodeBits (.iadd (.v 1) (.s 2) (.k 7))).isSome = true
    ∧ WellFormed (.cpy (.v 4) (.v 2) 63 .shr .shr .none (.v 3) (.v 1)) ∧ (encodeBits (.cpy (.v 4) (.v 2) 63 .shr .shr .none (.v 3) (.v 1))).isSome = true :=
  ⟨rfl, rfl, rfl, rfl⟩
/-- The next turn is the warp's: at the header of its clause, and at the instruction in it. -/
noncomputable def stRun (r : Option Run) : State := { stC.setW { stC.w with run := r } with agenda := [.issue 1 0] }
noncomputable def heads (s : State) : Option (Option Sub × Option (Instr × Nat)) :=
  (State.ready? { s with agenda := [] } 1 0).map fun t => (t.w.head, decodeAt (t.codeAt t.g.kern.img 0x100 maxInstrBytes))
noncomputable def runs (s : State) : Option (Option Run × Option (Instr × Nat)) :=
  (State.ready? { s with agenda := [] } 1 0).map fun t => (t.w.run, decodeAt (t.codeAt t.g.kern.img 0x104 maxInstrBytes))
def run9 : Run := ⟨0x21, 0x100, 0x104, 1, 0x10C, 2, 15, .fall, 0, 0, false, 0, false, false⟩
theorem wit_StepRunsDecoded_header : (stRun none).md.power = .on ∧ (stRun none).agenda = [.issue 1 0]
    ∧ heads (stRun none) = some (some ⟨0x100, 0x21⟩, some (hdr2, 4)) := by decide +kernel
theorem wit_StepRunsDecoded_run : runs (stRun (some run9)) = some (some run9, some (addr2, 4)) ∧ WellFormed addr2 :=
  ⟨by decide +kernel, rfl⟩
theorem wit_MemoryInvariant : Memory.wf State.reset.mem := by decide
theorem wit_MemoryInvariant_next : ∃ t, step State.reset = .next t := ⟨_, rfl⟩
theorem wit_MemoryLaws : Memory.wf [⟨0, 1⟩] ∧ ([(0, 2), (1, 3)] : List (Nat × Byte)).map Prod.fst = [0, 1] ∧ [0, 1].Nodup ∧ 2 ∉ [0, 1] := by decide

/-! ### Single steps, with the results that the spec gives -/

noncomputable def after (i : Instr) (s : State) : State := match exec i s with | .next t => t | _ => s
/-- v1 holds `a`, v2 holds `b`, v3 holds `c`, in every lane. -/
def regs (a b c : Word) : State := withV (withV (withV st3 1 a) 2 b) 3 c
/-- v4 in lane 0 after an instruction. -/
noncomputable def r4 (i : Instr) (s : State) : Word := (after i s).w.getV 4 0
noncomputable def flag0 (i : Instr) (s : State) : Word := (after i s).w.getFlg 0

/-- R217: sums wrap; lanes outside the run keep what they had. -/
theorem test_iadd : r4 (.iadd (.v 4) (.v 1) (.v 2)) (regs 0xFFFFFFFF 2 0) = 1
    ∧ (after (.iadd (.v 1) (.v 1) (.v 2)) (regs 0xFFFFFFFF 2 0)).w.getV 1 1 = 0xFFFFFFFF := by decide +kernel
theorem test_iadd_scalar : (after (.iadd (.s 4) (.s 2) (.s 3)) (withS (withS st3 2 5) 3 6)).w.getS 4 = 11 := by decide +kernel
theorem test_imulh : r4 (.imulhI32 (.v 4) (.v 1) (.v 2)) (regs 0xFFFFFFFF 0xFFFFFFFF 0) = 0
    ∧ r4 (.imulhN32 (.v 4) (.v 1) (.v 2)) (regs 0xFFFFFFFF 0xFFFFFFFF 0) = 0xFFFFFFFE := by decide +kernel
theorem test_imad : r4 (.imad (.v 4) (.v 1) (.v 2)) (withV (regs 3 5 0) 4 7) = 22 := by decide +kernel
theorem test_iabs : r4 (.iabs (.v 4) (.v 1)) (regs 0x80000000 0 0) = 0x80000000 := by decide +kernel
theorem test_lea : r4 (.lea (.v 4) (.v 1) (.v 2)) (regs 1 0x40000001 0) = 5 := by decide +kernel
/-- R109: an amount of 32 or more. -/
theorem test_shifts : r4 (.shl (.v 4) (.v 1) (.v 2)) (regs 1 32 0) = 0 ∧ r4 (.sar (.v 4) (.v 1) (.v 2)) (regs 0x80000000 255 0) = 0xFFFFFFFF
    ∧ r4 (.rol (.v 4) (.v 1) (.v 2)) (regs 0x80000001 33 0) = 3 ∧ r4 (.shl (.v 4) (.v 1) (.v 2)) (regs 1 0x100 0) = 1 := by decide +kernel
/-- R110: division by zero and the one overflow. -/
theorem test_division : r4 (.idivN32 (.v 4) (.v 1) (.v 2)) (regs 7 0 0) = 0xFFFFFFFF ∧ r4 (.iremI32 (.v 4) (.v 1) (.v 2)) (regs 0xFFFFFFF9 0 0) = 0xFFFFFFF9
    ∧ r4 (.idivI32 (.v 4) (.v 1) (.v 2)) (regs 0x80000000 0xFFFFFFFF 0) = 0x80000000
    ∧ r4 (.iremI32 (.v 4) (.v 1) (.v 2)) (regs 0xFFFFFFF9 2 0) = 0xFFFFFFFF := by decide +kernel
/-- R218: a field of 8 bits at bit 28, sign-extended over the end of the word. -/
theorem test_bfe : r4 (.bfe (.v 4) (.v 1) (.v 2)) (regs 0x80000000 0x1081C 0) = 0xFFFFFFF8
    ∧ r4 (.bfi (.v 4) (.v 1) (.v 2)) (withV (regs 0xFF 0x081C 0) 4 0) = 0xF0000000 := by decide +kernel
/-- R220: a comparison with a sign-extended immediate. -/
theorem test_cmpi : r4 (.cmpi (.v 4) (.v 1) .ltN 0x7F) (regs 0xFFFFFFFE 0 0) = 1 ∧ r4 (.cmpi (.v 4) (.v 1) .ltN 0x7F) (regs 0xFFFFFFFF 0 0) = 0 := by
  decide +kernel
theorem test_clz : r4 (.clz (.v 4) (.v 1)) (regs 0 0 0) = 32 ∧ r4 (.ctz (.v 4) (.v 1)) (regs 8 0 0) = 3 ∧ r4 (.brev (.v 4) (.v 1)) (regs 1 0 0) = 0x80000000 := by
  decide +kernel
/-- R224: each element saturates by itself. -/
theorem test_packed : r4 (.iaddPacked 4 1 2 .i8x4 true) (regs 0x7F80017F 0x01FF0101 0) = 0x7F80027F
    ∧ r4 (.iaddPacked 4 1 2 .n16x2 false) (regs 0xFFFF0001 0x00010001 0) = 0x00000002 := by decide +kernel
/-- R264: the spec's own sums of halves. -/
theorem test_hadd2 : r4 (.hadd2 (.v 4) (.v 1) (.v 2) .rn) (regs 0x3C007BFF 0x3C003C00 0) = 0x40007BFF := by decide +kernel
/-- R259: −0 is less than +0; one NaN gives the other operand; two give the canonical one. -/
theorem test_fmin : r4 (.fmin (.v 4) (.v 1) (.v 2)) (regs 0 0x80000000 0) = 0x80000000
    ∧ r4 (.fmin (.v 4) (.v 1) (.v 2)) (regs 0x7FC00001 0x3F800000 0) = 0x3F800000
    ∧ r4 (.fmax (.v 4) (.v 1) (.v 2)) (regs 0x7FC00001 0x7FC00002 0) = 0x7FC00000 := by decide +kernel
/-- R97: 1 + 2^-24 rounds to even, and up in mode `rp`. -/
theorem test_fadd : r4 (.fadd (.v 4) (.v 1) (.v 2) .rn) (regs 0x3F800000 0x33800000 0) = 0x3F800000
    ∧ r4 (.fadd (.v 4) (.v 1) (.v 2) .rp) (regs 0x3F800000 0x33800000 0) = 0x3F800001 := by decide +kernel
theorem test_frcp : r4 (.frcp (.v 4) (.v 1)) (regs 0x00400000 0 0) = 0x7F000000 ∧ r4 (.frcp (.v 4) (.v 1)) (regs 0x80000000 0 0) = 0xFF800000 := by
  decide +kernel
theorem test_fcmp : r4 (.fcmpEq (.v 4) (.v 1) (.v 2)) (regs 0 0x80000000 0) = 1 ∧ r4 (.fcmpUn (.v 4) (.v 1) (.v 2)) (regs 0x7FC00000 0 0) = 1 := by
  decide +kernel
/-- R277: lane 5 reads lane 0; a lane outside the run gives the reader's own value. -/
def lanes4 : State := st3.setW (st3.w.putV 1 (BitVec.allOnes 64) fun l => BitVec.ofNat 32 (100 + l))
theorem test_lshf : (after (.lshfUp (.v 4) (.v 1) (.v 2)) (withS (lanes4.setW (lanes4.w.putV 2 (BitVec.allOnes 64) fun _ => 5)) 0 0)).w.getV 4 5 = 100
    ∧ (after (.lshfXorW (.v 4) (.v 1) 6) lanes4).w.getV 4 5 = 105 := by decide +kernel
/-- R16: joining takes in the run's lanes. -/
theorem test_join : (after (.join 3) st3).w.getM 3 = 0x21 := by decide +kernel
/-- R201: the displacement counts in halfwords from the instruction. -/
theorem test_jmp : ((after (.jmp 4) st3).w.run.map Run.exit) = some (.goto [⟨0x110, 0x21⟩, ⟨0x110, 0⟩]) := by decide +kernel
/-- R202: v95 holds the address behind the trailer. -/
theorem test_call : (after (.call 4) st3).w.getV 95 5 = 0x110 := by decide +kernel
/-- R212, R367: `trap 7` with TRAPEN. -/
theorem test_trap : let t := after (.trap 7) (st3.setG { st3.g with kern := { kern2 with trapen := true } })
    t.g.trapc = 0x0C ∧ t.g.trapv = 7 ∧ t.g.trapa = 0x108 ∧ t.g.trapHeld = true := by decide +kernel
/-- R230: a load of a signed byte, from its issue to its reply. -/
theorem test_ld : let t := after (.ld (.v 4) (.v 1) 0 .b8s .shr) ((regs 3 0 0).wrN (poolKey 0 0 3) 1 0x80)
    t.w.getV 4 0 = 0 ∧ t.pend.map MemOp.id = [10] ∧ (after (.loadReply 10) t).w.getV 4 5 = 0xFFFFFF80 := by decide +kernel
/-- R44: the highest lane's store is the one that stays. -/
theorem test_st : let s := lanes4.setW (lanes4.w.putV 2 (BitVec.allOnes 64) fun _ => 8)
    (after (.storePerformed 10) (after (.st (.v 1) (.v 2) 0 .b16z .shr) s)).rdN (poolKey 0 0 8) 4 = 105 := by decide +kernel
/-- R235: lane 0 sees the old value, lane 5 what lane 0 left. -/
theorem test_atom : let t := after (.atomicAtHome 10) (after (.atomAdd (.v 4) (.v 1) false .n32 .grp) (withV (regs 8 0 0) 4 2))
    t.w.getV 4 0 = 0 ∧ t.w.getV 4 5 = 2 ∧ t.rdN (poolKey 0 0 8) 4 = 4 := by decide +kernel
/-- R302: FLG takes five bits. -/
theorem test_swr : (after (.swr .flg (.v 1)) (regs 0xFFFFFFFF 0 0)).w.getFlg 0 = 0x1F := by decide +kernel
/-- R225: a sum of pairs carries into the high word. -/
theorem test_iadd64 : let t := after (.iadd64 (.v 4) (.v 2) (.v 6)) (withV (regs 0 0xFFFFFFFF 0) 6 1)
    t.w.getV 4 0 = 0 ∧ t.w.getV 5 0 = 1 := by decide +kernel
/-- R84: atomics of different scopes overlap: both read 0, and the later writer's 3 stays. -/
def atom2 (id : Nat) (sc : Scope) (x : Byte) : MemOp :=
  { op2 (.atomic .add .n32 sc false false) none with id := id, accs := [⟨0, [0, 1, 2, 3], [x, 0, 0, 0], []⟩] }
theorem test_overlap : let s := { st3 with pend := [atom2 1 .clu 5, atom2 2 .chip 3] }
    let t := (s.atomicRead 1).atomicRead 2
    (after (.atomicAtHome 2) (after (.atomicAtHome 1) t)).rdN 0 4 = 3 ∧ (after (.atomicAtHome 2) (after (.atomicAtHome 1) t)).pend = []
    ∧ (after (.atomicAtHome 2) (after (.atomicAtHome 1) s)).rdN 0 4 = 8 := by decide +kernel
/-- R88: a unit of a linear copy lands before the others. -/
def lin : CopyCmd :=
  ⟨1, 7, 1, 0, 0, 0, 0, 0, 0, none, 0, .linear (.shr 0 0) (.shr 0 64) 32, [], 1, false, 0x104, 0, [], [], [], 0, []⟩
theorem test_landUnit : let s := ({ st3 with copies := [lin] }).wrN (poolKey 0 0 16) 1 9
    (s.landUnit 1 1).rdN (poolKey 0 0 80) 1 = 9 ∧ (s.landUnit 1 1).copies = [{ lin with done := [1] }] := by decide +kernel

/-! ### Further states that meet the hypotheses of the statements -/

/-- A store of each space at its last place; a store and a release to the fabric. -/
theorem wit_StoreIssue_completes : ∀ sp ∈ [Space.priv, .shr, .dws],
    let s := withV st3 2 0
    goes s (.st (.v 4) (.v 2) 0 .b128 sp) = true ∧ sp ≠ .con ∧ sp ≠ .fab
    ∧ ∀ l ∈ lanesOf run2.lanes, (s.w.ref false (.v 2) 0 l).off % 16 = 0 ∧ (s.w.ref false (.v 2) 0 l).off + 16 ≤ segLimit (s.w.segOf sp) := by
  decide
theorem wit_StoreIssue_last : let s := withV st3 2 (4096 - 16)
    goes s (.st (.v 4) (.v 2) 0 .b128 .shr) = true
    ∧ ∀ l ∈ lanesOf run2.lanes, (s.w.ref false (.v 2) 0 l).off % 16 = 0 ∧ (s.w.ref false (.v 2) 0 l).off + 16 = segLimit (s.w.segOf .shr) := by
  decide
theorem wit_StoreIssue_completes_fab : goes st3 (.st (.v 4) (.v 2) 31 .b32 .fab) = true ∧ goes st3 (.stFabRel (.v 4) (.v 2) 31 .b32) = true
    ∧ st3.fabRoom st3.g.chip st3.g.part st3.g.vf (4 * (lanesOf run2.lanes).length) = true
    ∧ ∀ l ∈ lanesOf run2.lanes, (st3.w.ref true (.v 2) 124 l).off % 4 = 0
      ∧ (st3.w.ref true (.v 2) 124 l).off + 4 ≤ segLimit (st3.w.segOf .fab) ∧ st3.badTarget (st3.w.ref true (.v 2) 124 l).odd = false := by decide
/-- A barrier read again once one of two lanes has been released. -/
theorem wit_BarrierInstructions_again : let s := stB.setW { stB.w with run := some { run2 with done := 1 } }
    goes s (.bcbWait 1 (.v 2) false 1) = true ∧ s.r37 (s.barChecks (run2.lanes &&& ~~~ 1) false (.v 2)) = none ∧ Memory.wf s.mem := by decide
theorem wit_Fences_landed : st3.landing = [] ∧ (∀ o ∈ st3.pend, o.failed ≠ none) := by decide
/-- Subgroups that go on to sleep, to a wait that is not full and to one that is. -/
theorem wit_ClauseEnd_parked : ∀ e ∈ [Exit.sleep 9, .wait 11],
    let z : Parked := ⟨0x100, 2, e, 0, some 3⟩
    let s := stC.setW { stC.w with parked := [z], m := [(11, 2)] }
    s.w.gone = false ∧ s.w.parked[0]? = some z ∧ s.lostOf z.lanes = [] ∧ z.lanes &&& ~~~ z.blocked ≠ 0
    ∧ (∀ q ∈ s.w.parked, ∀ b, q.back = some b → 3 < b ∨ 3 = b ∧ z.pc ≤ q.pc)
    ∧ s.w.getM 11 &&& ~~~ (s.w.waiting 11 ||| 2) = 0
    ∧ (s.setW (s.w.setM 11 3)).w.getM 11 &&& ~~~ (s.w.waiting 11 ||| 2) ≠ 0 := by decide
theorem wit_MatrixCommands_free : (withS (withS stM 6 32) 5 480).meetsLong run2 (.v 64) 32 = false
    ∧ ∀ q ∈ stM.g.fails, q.matrix = false ∨ q.tag < 16 := by decide +kernel
theorem wit_MatrixEnd_planes : (cmd2 (.load rng2 512)).taken = [] ∧ ((stMc (.zero 3) true).engine 0).plane? 0 = none
    ∧ stM.g.shadow.load = (cmd2 (.load rng2 512)).id := by decide
theorem wit_TaskInstructions_failed : let s := stK.wrN (key2 + 16) 4 2
    goes s (.fwait (.s 12) (.s 2)) = true ∧ s.futState key2 = 2 ∧ Memory.wf s.mem := by decide
theorem wit_Gangs : (stG 0).linked ((stG 0).homeNo 3) = true ∧ (seq2 2).held = false ∧ (seq2 2).queue = []
    ∧ (∀ k, (stG 2).blockOf ⟨0, 0, 0, 0, 7⟩ = some k → k.refc ≤ 1) := by
  refine ⟨by decide, by decide, by decide, ?_⟩
  intro k h
  have : (stG 2).blockOf ⟨0, 0, 0, 0, 7⟩ = some ⟨0, 0, 7, 0, 0, 1, 0, 0, 7⟩ := by decide
  rw [this] at h
  cases h
  decide
theorem wit_Laps_issue : (withS (stG 1) 4 5).meetsLong run1 (.v 1) 5 = false ∧ (1 : Nat) < (lap2 0 none).cap
    ∧ ((stLate 3).member 3 (stLate 3).myChip).lateOf 5 = none := by decide +kernel
theorem wit_GangMoves_admitted : let m := move2 2 1 [] []
    ∀ h ∈ ((stV m 2).member 3 0).held, m.cut ≤ h.2.2 ∨ (stV m 2).stands h.1 h.2.1 = false := by decide
theorem wit_LaunchRecords_here : ∀ k ∈ [0, 1, 2, 3], fetched k (fun y => (st7 k).recordHere 0 0 y.addr y.l.done y.l.kh) = true := by decide +kernel
theorem wit_LaunchRecords_complete : (st7 1).recordHere 0 0 128 0 128 = true := by decide +kernel
/-- A group that has claimed the task of `uDt`. -/
noncomputable def gClaim : Group := { group2 with task := objFrame 0, claim := some (1, 32, 0), serves := true, others := [] }
noncomputable def stClaim : State := { idle gClaim with parts := [part2t] }
theorem wit_GroupDispatch_start : stClaim.group? 1 = some gClaim ∧ gClaim.isSaved = false
    ∧ stClaim.unitAt 0 0 0 (objFrame 0) 64 = .ok (frameKey 0 0 0x40) ∧ stClaim.slot? 0 0 0 = some slot2 ∧ slot2.kern.consz = 0
    ∧ gClaim.helpd = 0 ∧ Memory.wf stClaim.mem := by decide +kernel
theorem wit_Preemption_plain : (∀ q ∈ (idle gStop).objq, q.gid ≠ 1) ∧ gStop.frame = none ∧ (idle gSaved).roomToResume gSaved = true := by
  decide +kernel
/-- A key slot of the virtual function for a mapping. -/
theorem wit_MailboxRequests_key : let m := mail8 1 (2 ^ 26) 1 0x701 32768 0
    let t := st8 1 (2 ^ 26) 1 0x701 32768 0
    let s := { t with md := { t.md with keys := [⟨7, 0, 0, 0, 0⟩] } }
    m.key = 7 ∧ m.bad vf8 = false ∧ s.guestKey 0 0 m.key = true ∧ m.overlaps vf8 = false ∧ m.mixes vf8 = false
    ∧ m.framesIn s vf8 = some [base7 + 32768] := by decide +kernel
theorem wit_MailboxRequests_free : (st8 1 32768 1 1 32768 0).vaAway 0 0 4 4 true = false
    ∧ (∀ l ∈ (mail8 3 16384 1 0xF0000 0 0).leaves vf8, recSlot l.pa = none) ∧ (mail8 6 0 0 0 0 63).flags / 2 ^ 20 = 0
    ∧ ({ st2 with parts := [{ part8 with vfs := [{ vf8 with table := [leaf2, leafG false true] }] }] } : State).statusAway 0 0 (leafG false true)
      = false := by decide +kernel
theorem wit_ReturnFromTrap_before : NoneBefore (stS 1 0) run2.lanes (stS 1 0).g.recordPlaces := noneBefore_nil rfl rfl

/-- Finite values, infinities, NaNs, and powers of two. -/
theorem wit_FloatArithmetic_exact : (-149 : Int) ≤ -149 ∧ (-149 : Int) ≤ 104 ∧ FVal.isNan (.nan true) = true := by decide
theorem wit_FloatCompareAndSpecial_powers : f32 0x3F800000 = .fin false (2 ^ 23) (-23) ∧ f32 0xFF800000 = .inf true ∧ isNan32 0x7FC00000 = true
    ∧ toUnits false (2 ^ 23) (-23) F32.qmin = 1 * 2 ^ 149 ∧ (2 ^ 23 : Nat) ≠ 0 := by decide +kernel
theorem wit_Conversions_formats : (480 : Nat) ≤ 480 ∧ CMode.sat .rn = false ∧ CMode.sat .rnSat = true := by decide
/-- Blocks with a NaN, an infinity, zeros alone, and a largest value. -/
theorem wit_BlockConversions_values : let l (v : FVal) : List FVal := v :: List.replicate 31 (.fin false 0 0)
    (l (.nan true)).length = 32 ∧ (List.replicate 32 (1 : Word)).length = 32 ∧ CMode.isRs .rn = false ∧ FVal.nan true ∈ l (.nan true)
    ∧ FVal.inf false ∈ l (.inf false) ∧ (∀ v ∈ l (.fin true 0 0), v = .fin true 0 0 ∨ v = .fin false 0 0)
    ∧ (∀ y ∈ l (.fin true 3 (-2)), y = .fin true 3 (-2) ∨ y = .fin false 0 0) := by decide
theorem wit_BlockConversions_words : (List.replicate 32 0xFFFFFFFF).length = 32 ∧ ∀ x ∈ List.replicate 32 0xFFFFFFFF, x < 2 ^ 32 := by decide
theorem wit_AtomicValues_f32 : (∃ m e, f32 0x3F800000 = .fin false m e) ∧ f32 0x7F800000 = .inf false ∧ isNan32 0x7F800000 = false
    ∧ isNan32 0xFFFFFFFF = true := ⟨⟨_, _, rfl⟩, by decide, by decide, by decide⟩
/-- A mask whose set is released, and one that still waits for a lane. -/
theorem wit_Masks_release : let s := st2.setW { warp2 with waits := [⟨3, 0x200, 2⟩] }
    (2 : LaneMask) &&& ~~~ s.w.waiting 3 = 0 ∧ (3 : LaneMask) &&& ~~~ s.w.waiting 3 ≠ 0 := by decide
theorem wit_ClauseEnd_retires : (stE .retire).endsHolding ((stE .retire).w.run.getD run2) = false := by decide +kernel
/-- A command with a barrier or a counter of 2; one that must fail; nothing is to be retired. -/
def cmd3 : MatCmd := { cmd2 (.load rng2 512) with ctr := some obj2 }
theorem wit_MatrixEnd_good : (stMc (.zero 3) true).anyBad ((stMc (.zero 3) true).cmdPlaces 0 (cmd2 (.zero 3))) = false
    ∧ ((stMc (.zero 3) true).engine 0).due = false ∧ (cmd2 (.zero 3)).ctr = none ∧ Memory.wf (stMc (.zero 3) true).mem := by decide
theorem wit_MatrixEnd_counter : let s := ({ stM with engines := [(0, { Engine.empty with cmds := [cmd3] })] } : State).wrN key2 4 2
    s.cmd? 0 7 = some cmd3 ∧ (s.engine 0).ready cmd3 = true ∧ (s.engine 0).mustFail cmd3 = false ∧ s.anyBad (s.cmdPlaces 0 cmd3) = false
    ∧ cmd3.bar = none ∧ s.objAt 0 cmd3.part cmd3.vf obj2 16 = .ok key2 ∧ s.rdN key2 4 = 2 ∧ Memory.wf s.mem := by decide +kernel
theorem wit_MatrixEnd_barrier : let c := { cmd2 (.load rng2 512) with bar := some (.shr 64) }
    let s : State := { stM with engines := [(0, { Engine.empty with cmds := [c] })] }
    s.cmd? 0 7 = some c ∧ (s.engine 0).ready c = true ∧ (s.engine 0).mustFail c = false ∧ Memory.wf s.mem := by decide +kernel
theorem wit_MatrixEnd_here : Here stM 1 := here_of rfl rfl
theorem wit_MatrixEnd_bad : let s : State := { stMc (.load rng2 512) true with ecc := [(eccNo (((stMc (.load rng2 512) true).cmdPlaces 0 (cmd2 (.load rng2 512))).headD 0), 1)] }
    s.anyBad (s.cmdPlaces 0 (cmd2 (.load rng2 512))) = true ∧ s.cmd? 0 7 = some (cmd2 (.load rng2 512)) ∧ (s.engine 0).ready (cmd2 (.load rng2 512)) = true := by
  decide +kernel
theorem wit_KvInstructions_own : (stG 0).ownSlot (seq2 0) = true ∧ ∀ x ∈ (stG 0).md.keyed, x.2 = (stG 0).keySerial 0 := by decide
/-- A warp that is not the lap's, and a lap's answer given before. -/
theorem wit_Laps_other : (stG 1).isSel 9 0 = false ∧ (stG 1).isSel 1 0 = true ∧ Opd.ofBits 1 = .v 1
    ∧ ({ (stLate 3).member 3 0 with late := some (5, [[0, 0, 0]], 3) } : Member).lateOf 5 = some ([[0, 0, 0]], 3) := by decide
/-- The places of the message's record: 12 bytes and, 4 further on, its triples. -/
def late3 : List Nat := List.range' 2147484496 12 ++ List.range' 2147484512 768
theorem late3_places : stL.vaPlaces 0 0 true ((msg2.late seq3.lbuf).map Prod.fst) = some late3 := by decide +kernel
theorem wit_Laps_arrival_places : stL.partial? ((stL.vaPlaces 0 0 true ((msg2.late seq3.lbuf).map Prod.fst)).getD []) = none ∧ Memory.wf stL.mem
    ∧ ((stL.vaPlaces 0 0 true ((msg2.late seq3.lbuf).map Prod.fst)).getD []).Nodup := by
  rw [late3_places]
  refine ⟨by decide +kernel, by decide +kernel, List.nodup_append.mpr ⟨List.nodup_range', List.nodup_range', ?_⟩⟩
  simp only [List.mem_range'_1]
  omega
theorem wit_MailboxRequests_held : (st8 1 32768 1 1 32768 0).behindHeld ⟨5, 0⟩ = false := by decide +kernel
theorem wit_ReturnFromTrap_queue : ∀ y ∈ (stS 1 1).objq, y.gid = (trap8 1).gid → y.wid ≠ (trap8 1).wid := by decide +kernel
theorem wit_StatusRegisters_trap : (stS 1 0).g.sys = true ∧ (stS 1 0).g.holds = some (trap8 1) := by decide +kernel
theorem wit_OperatorRequests_closes : (stO 18 0 0 0 0).canCloseVfs 0 = true ∧ part2.ring = none := by decide +kernel
/-- Boot once the ports are trained: with no partition, and with one whose system image is not in flash. -/
theorem wit_PowerAndReplacement_booting : (let s : State := { State.reset with md := { Module.reset with power := .booting } }
      s.md.power = .booting ∧ s.md.stored = [] ∧ s.parts = [])
    ∧ (let s : State := { State.reset with md := { Module.reset with power := .booting }, parts := [part2] }
       s.parts = [part2] ∧ part2.idx = 0 ∧ s.flashOf 0 4 0 = none) := by decide +kernel
/-- The record is written in one step and read in the next. -/
theorem wit_PowerAndReplacement_hand : (stW 2 0 0 false).md.repl.handed = false
    ∧ ({ stW 2 0 0 false with md := { (stW 2 0 0 false).md with repl := { repl2 2 0 0 false with handed := true } } } : State).md.repl.handed
      = true := ⟨rfl, rfl⟩
/-- A beat in its interval, and one after it. -/
theorem wit_PowerAndReplacement_time : (stW 3 31 0 false).clk.hub < 0 + 2400000
    ∧ (let s := { stW 2 0 0 false with clk := { st2.clk with hub := 2400000 } }
       s.md.repl.phase ≠ 3 ∧ s.md.repl.since + 2400000 ≤ s.clk.hub ∧ s.clk.hub < s.md.repl.since + 4800000) := by decide +kernel
noncomputable def jobN (n : Nat) : CsetWork := let s := stN n
  ⟨5, 3, BitVec.ofNat 64 (field (bytesAt8 s 16) 8 8), planOf ((places (2 ^ 32 + 80) (16 * n)).map s.rd) n, [], s.clk.hub, []⟩
theorem within_of_mem {w : CsetWork} {all : List Dword} {x : Dword} (ha : x ∈ all) :
    ∀ (n : Nat) (l : List Dword), x ∈ l → x ∈ w.within all n l := by
  intro n
  induction n with
  | zero => exact fun l h => h
  | succ n ih => exact fun l h => ih _ (List.mem_filter.mpr ⟨ha, List.any_eq_true.mpr ⟨x, h, by simp⟩⟩)
theorem within_of_joins {w : CsetWork} {all : List Dword} {x y : Dword} (ha : y ∈ all) (hj : w.joins x y = true) (n : Nat) :
    y ∈ w.within all (n + 1) [x] :=
  within_of_mem ha n _ (List.mem_filter.mpr ⟨ha, List.any_eq_true.mpr ⟨x, by simp, by simp [hj]⟩⟩)
theorem serial_named (w : CsetWork) : Config.serial ∈ w.named := by simp [CsetWork.named]
/-- A plan of which nothing has been told is not refused. -/
theorem refused_of_none {w : CsetWork} (h : w.peers = []) : w.refused = false := by
  have hc : w.clash = false := by simp [CsetWork.clash, h]
  by_cases ho : w.others = []
  · have hw : w.wide = false := by
      simp only [CsetWork.wide, ho, List.any_cons, List.any_nil, Bool.or_false, Bool.not_eq_false', List.contains_eq_mem, decide_eq_true_eq]
      exact within_of_mem (serial_named w) 3 _ (by simp)
    simp [CsetWork.refused, hc, hw]
  · have hf : w.full = false := by
      obtain ⟨x, l, hl⟩ := List.exists_cons_of_ne_nil ho
      simp [CsetWork.full, h, hl]
    simp [CsetWork.refused, hc, hf]
/-- A plan that nothing told speaks against, and one that another module with the same MODULE has told of. -/
theorem wit_LinksAndHost_plan : (∀ n ∈ [0, 1], (stN n).planRefused (jobN n) = false) ∧ planBad [⟨32, 0, 7⟩] = true := by
  refine ⟨fun n hn => refused_of_none ?_, by decide⟩
  have h : (stN n).md.told = [] := by rcases List.mem_cons.mp hn with rfl | hn <;> [rfl; (rcases List.mem_cons.mp hn with rfl | hn <;> [rfl; cases hn])]
  simp [State.toldOf, h]
noncomputable def work3 : CsetWork := { work2 with peers := [(9, 3)], links := [(9, [Config.serial])] }
theorem wit_LinksAndHost_refused (h : Config.serial ≠ 9) : work3.clash = true := by
  have h' : (9 : Dword) ∈ work3.named := by simp [CsetWork.named, work3]
  have hj : work3.joins Config.serial 9 = true := by simp [CsetWork.joins, work3]
  have ho : (9 : Dword) ∈ work3.others := by
    obtain ⟨k, hk⟩ := Nat.exists_eq_succ_of_ne_zero (List.length_pos_of_mem h').ne'
    simp only [CsetWork.others, List.mem_filter, hk]
    exact ⟨within_of_joins h' hj k, by simpa using h.symm⟩
  have hf : (work3.peers.filter fun p => work3.others.contains p.1) = [(9, 3)] := by
    simp only [show work3.peers = [(9, 3)] from rfl, List.filter_cons, List.contains_eq_mem, ho, decide_true, if_true, List.filter_nil]
  simp only [CsetWork.clash, hf]
  decide
/-- Every module has reported and told of its circuits; no two of them share a number, and all are near. -/
theorem wit_LinksAndHost_full (h : Config.serial ≠ 7) :
    ({ work2 with peers := [(7, 4)], links := [(7, [])] } : CsetWork).full = true := by
  have hs : ∀ x ∈ ({ work2 with peers := [(7, 4)], links := [(7, [])] } : CsetWork).named, x = Config.serial ∨ x = 7 := by
    intro x hx
    simp [CsetWork.named, work2] at hx
    rcases hx with h | h | h <;> simp_all
  simp only [CsetWork.full, List.all_eq_true]
  intro x hx
  have hm : ∀ n l, (∀ y ∈ l, y = Config.serial ∨ y = 7) →
      ∀ y ∈ ({ work2 with peers := [(7, 4)], links := [(7, [])] } : CsetWork).within ({ work2 with peers := [(7, 4)], links := [(7, [])] } : CsetWork).named n l,
        y = Config.serial ∨ y = 7 := by
    intro n
    induction n with
    | zero => intro l hl y hy; exact hl y hy
    | succ n ih => intro l hl y hy; exact ih _ (fun z hz => hs z (List.mem_of_mem_filter hz)) y hy
  simp only [CsetWork.others, List.mem_filter] at hx
  rcases hm _ _ (by simp) x hx.1 with rfl | rfl
  · simp at hx
  · simp
theorem wit_LinksAndHost_near (h : Config.serial ≠ 7) : let w := ({ work2 with peers := [(7, 4)], links := [(7, [])] } : CsetWork)
    w.clash = false ∧ w.wide = false := by
  intro w
  have hs : ∀ x ∈ w.named, x = Config.serial ∨ x = 7 := by
    intro x hx
    simp [w, CsetWork.named, work2] at hx
    rcases hx with h | h | h <;> simp_all
  have h7 : (7 : Dword) ∈ w.named := by simp [w, CsetWork.named]
  have hm : ∀ n l, (∀ y ∈ l, y ∈ w.named) → ∀ y ∈ w.within w.named n l, y ∈ w.named := by
    intro n
    induction n with
    | zero => exact fun l hl => hl
    | succ n ih => exact fun l hl => ih _ fun z hz => List.mem_of_mem_filter hz
  have ho : ∀ x ∈ Config.serial :: w.others, x ∈ w.named := by
    intro x hx
    rcases List.mem_cons.mp hx with rfl | hx
    · exact serial_named w
    · exact hm _ _ (by simpa using serial_named w) x (List.mem_of_mem_filter hx)
  have hj : w.joins Config.serial 7 = true ∧ w.joins 7 Config.serial = true := by simp [w, CsetWork.joins, work2]
  constructor
  · have hf : (w.peers.filter fun p => w.others.contains p.1) = [(7, 4)] ∨ (w.peers.filter fun p => w.others.contains p.1) = [] := by
      by_cases h9 : w.others.contains (7 : Dword) = true
      · exact .inl (by simp only [show w.peers = [(7, 4)] from rfl, List.filter_cons, h9, if_true, List.filter_nil])
      · exact .inr (by simp only [show w.peers = [(7, 4)] from rfl, List.filter_cons, h9, if_false, List.filter_nil, Bool.false_eq_true])
    rcases hf with hf | hf <;> simp only [CsetWork.clash, hf] <;> decide
  · simp only [CsetWork.wide, List.any_eq_false, Bool.not_eq_true', List.contains_eq_mem, decide_eq_false_iff_not, Decidable.not_not,
      Bool.not_eq_true, List.any_eq_false]
    intro a ha b hb
    rcases hs a (ho a ha) with rfl | rfl <;> rcases hs b (ho b hb) with rfl | rfl
    · exact within_of_mem (serial_named w) 3 _ (by simp)
    · exact within_of_joins h7 hj.1 2
    · exact within_of_joins (serial_named w) hj.2 2
    · exact within_of_mem h7 3 _ (by simp)
theorem wit_LinksAndHost_free : (st7 1).behindHost 0 0 = false ∧ ∀ y ∈ (st7 1).parts, ∀ f ∈ y.vfs, f.kvUnits = [] := by decide +kernel

/-- An inexact value between neighbours, in a tie and beyond the largest value; both infinities, both NaNs; a subnormal and its bound. -/
theorem wit_FloatRounding_inexact : F32.decode 0x4B800000 = .fin false (2 ^ 23) 1 ∧ F32.decode (0x4B800000 + 1) = .fin false (2 ^ 23 + 1) 1
    ∧ 0x4B800000 < 2 ^ (F32.ew + F32.fw)
    ∧ (let e0 := min 0 F32.qmin
       let lo := toUnits false (2 ^ 23) 1 e0
       let hi := toUnits false (2 ^ 23 + 1) 1 e0
       let x := toUnits false (2 ^ 24 + 1) 0 e0
       lo < x ∧ x < hi ∧ lo + hi = 2 * x)
    ∧ F32.maxBits false = 0x7F7FFFFF ∧ F32.decode 0x7F7FFFFF = .fin false F32.top F32.qmax
    ∧ toUnits false (F32.top + 1) F32.qmax F32.qmin ≤ toUnits false (2 ^ 24) 104 F32.qmin := by decide +kernel
theorem wit_FloatCompareAndSpecial_infinite : f32 0x7F800000 = .inf false ∧ f32 0xFF800000 = .inf true ∧ isNan32 0x7F800000 = false
    ∧ isNan32 0x3F800000 = false ∧ f32 0x7FC00000 = .nan false ∧ f32 0x7F800001 = .nan true
    ∧ f32 0x00200000 = .fin false (2 ^ 21) (-149) ∧ f32 0x00200001 = .fin false (2 ^ 21 + 1) (-149) := by decide +kernel
/-- Operands of every size that the statement tells apart: below and from 128, from 256, below and from 1. -/
theorem wit_SpecialFunctions : f32 0x42FFFFFF = .fin false 0xFFFFFF (-17) ∧ toUnits false 0xFFFFFF (-17) F32.qmin < 2 ^ 156
    ∧ f32 0x43000000 = .fin false (2 ^ 23) (-16) ∧ 2 ^ 156 ≤ toUnits false (2 ^ 23) (-16) F32.qmin ∧ toUnits false (2 ^ 23) (-16) F32.qmin < 2 ^ 157
    ∧ f32 0xC3800000 = .fin true (2 ^ 23) (-15) ∧ 2 ^ 157 ≤ toUnits true (2 ^ 23) (-15) F32.qmin * (-1)
    ∧ f32 0x3F7FFFFF = .fin false 0xFFFFFF (-24) ∧ toUnits false 0xFFFFFF (-24) F32.qmin < 2 ^ 149 := by decide +kernel
/-- Chunks with a NaN, with 0 times an infinity, with infinite products of one sign and of both, and with an accumulator of the other. -/
theorem wit_MatrixExactSum_chunks : isNan32 0x3F800000 = false ∧ isNan32 0x7FC00000 = true ∧ f32 0xFF800000 = .inf true
    ∧ (FVal.nan false).isNan = true
    ∧ (FVal.inf true, FVal.fin false 0 0) ∈ [FVal.inf true].zip [FVal.fin false 0 0]
    ∧ (FVal.inf true, FVal.inf true) ∈ [FVal.inf true].zip [FVal.inf true] ∧ false = (true != true)
    ∧ (FVal.fin true 1 0, FVal.inf false) ∈ [FVal.fin true 1 0].zip [FVal.inf false] ∧ true = (true != false)
    ∧ (∀ n k e, (FVal.inf true, FVal.inf true) ≠ (FVal.inf n, FVal.fin k 0 e) ∧ (FVal.inf true, FVal.inf true) ≠ (FVal.fin k 0 e, FVal.inf n))
    ∧ 1 < (List.replicate 64 (FVal.fin false 1 0)).length / 32 ∧ narrows 0 = true ∧ narrows 5 = false := by
  refine ⟨by decide, by decide, by decide, rfl, ?_, ?_, rfl, ?_, rfl, fun n k e => by simp, by decide, by decide, by decide⟩ <;> simp
/-- An atomic on main memory at `sys` scope whose reply is late, and the unit of a copy at the head of a channel. -/
theorem wit_PiecePerformed_main : let o := op2 (.atomic .add .n32 .sys true true) none
    let s := { st3 with pend := [o], clk := { st3.clk with core := [2 ^ 24] } }
    s.op? 1 = some o ∧ o.fab = none ∧ o.failed = none ∧ o.issued + 2 ^ 24 ≤ s.cyc o.core ∧ s.homeAway o = false := by decide
theorem wit_PiecePerformed_unit : let c := { copy2 none with kind := .linear (.shr 0 0) (.fab 0 0 9) 16 }
    let h : VcHead := { port := 0, vc := 0, op := 5, since := 0 }
    let s := { st5 with copies := [c], heads := [h], clk := { st5.clk with hub := 8192 } }
    s.op? c.id = none ∧ c ∈ s.copies ∧ s.unitInChannel (c.id, h.unit) = true
    ∧ s.heads.find? (fun h => h.port == 0 && h.op == c.id && h.since + 8192 ≤ s.clk.hub) = some h := by decide
theorem wit_ClauseEnd_here : (stE .retire).taskAway = false := rfl
theorem wit_MatrixEnd_room : stM.objRoom 0 cmd3.part cmd3.vf obj2 16 = true := by decide
theorem wit_TaskInstructions_room : stK.objRoom 0 0 0 obj2 64 = true := by decide
theorem wit_Laps_late_room : (seq2 1).lateRanks 5 = [] ∧ (stLate 3).hbmRoomAll 0 0 [] = true := by decide
theorem wit_Laps_arrival_room : stL.hbmRoomAll 0 0 ((stL.vaPlaces 0 0 true ((msg2.late seq3.lbuf).map Prod.fst)).getD []) = true := by
  rw [late3_places]
  decide +kernel
theorem wit_MailboxRequests_table : (mail8 1 32768 1 1 32768 0).crowds vf8 = false
    ∧ (places base7 64).map (st8 1 32768 1 1 32768 0).rdMain = (places base7 64).map (st8 1 32768 1 1 32768 0).rd
    ∧ (places (base7 + 1024) 32).map (st8 6 0 0 0 0 63).rdMain = (places (base7 + 1024) 32).map (st8 6 0 0 0 0 63).rd := by decide +kernel
/-- A record that an image of its format has written of a state block of no bytes; and none. -/
noncomputable def stHand : State := (stW 2 0 0 false).wrs (recordKeys.zip (HandOver.bytes ⟨1, 0, 3, 0, 0, 0, sha384 []⟩))
theorem wit_PowerAndReplacement_found : stHand.handFound = ⟨1, 0, 3, 0, 0, 0, sha384 []⟩ ∧ stHand.blockFound ⟨1, 0, 3, 0, 0, 0, sha384 []⟩ = []
    ∧ (stW 2 0 0 false).handFound.major = 0 := by decide +kernel
theorem wit_PowerAndReplacement_taken (h : Config.imageFormat 0 = (1, 0)) :
    accepts (firm2 3) stHand.handFound (stHand.blockFound stHand.handFound) = true
    ∧ accepts (firm2 3) (stW 2 0 0 false).handFound ((stW 2 0 0 false).blockFound (stW 2 0 0 false).handFound) = false := by
  have hf := wit_PowerAndReplacement_found
  have hb : Config.imageFormat (firm2 3).body = (1, 0) := h
  rw [hf.1, hf.2.1]
  simp only [accepts, hb, hf.2.2]
  exact ⟨by simp, by simp⟩

end Sys2Proof.Tests
end

section
/-! SUPPORT. PC tables, wait sets and masks: where lanes stand, and what the release of a wait set changes. -/

namespace Sys2Proof.Machine

/-! ### Lane masks -/

@[simp] theorem has_and (a b : LaneMask) (l : Nat) : has (a &&& b) l = (has a l && has b l) := BitVec.getLsbD_and
@[simp] theorem has_or (a b : LaneMask) (l : Nat) : has (a ||| b) l = (has a l || has b l) := BitVec.getLsbD_or
@[simp] theorem has_zero (l : Nat) : has 0#64 l = false := BitVec.getLsbD_zero
theorem has_not {a : LaneMask} {l : Nat} (h : l < 64) : has (~~~ a) l = !has a l := by simp [has, h]
/-- What a mask keeps of another. -/
theorem has_and_not (a b : LaneMask) (l : Nat) : has (a &&& ~~~ b) l = (has a l && !has b l) := by
  by_cases h : l < 64
  · simp [has_not h]
  · have : has a l = false := by simpa using mt has_lt h
    simp [this]

/-! ### PC tables (R14, R15) -/

/-- Lane `l` stands at `p` in a table. -/
def stands (t : List Sub) (p l : Nat) : Prop := ∃ e ∈ t, e.pc = p ∧ has e.lanes l = true

theorem Warp.standsAt_iff (w : Warp) (p l : Nat) : w.standsAt p l ↔ stands w.pcs p l := Iff.rfl

@[simp] theorem stands_nil (p l : Nat) : ¬ stands [] p l := by simp [stands]

theorem stands_cons (e : Sub) (t : List Sub) (p l : Nat) :
    stands (e :: t) p l ↔ (e.pc = p ∧ has e.lanes l = true) ∨ stands t p l := by
  simp [stands]

/-- R14, R15: lanes that enter a table stand in it at their address, besides those that stood in it. -/
theorem stands_insertSub (t : List Sub) (pc : Nat) (m : LaneMask) (p l : Nat) :
    stands (insertSub t pc m) p l ↔ stands t p l ∨ (p = pc ∧ has m l = true) := by
  induction t with
  | nil =>
    by_cases hm : m = 0
    · simp [insertSub, hm]
    · simp only [insertSub, if_neg hm, stands_cons, eq_comm (a := p)]; tauto
  | cons e t ih =>
    simp only [insertSub]
    split
    · rename_i hm; simp [hm]
    split
    · simp only [stands_cons, eq_comm (a := pc)]; tauto
    split
    · rename_i h; simp only [stands_cons, has_or, Bool.or_eq_true, h, eq_comm (a := p)]; tauto
    · simp only [stands_cons, ih]; tauto

/-- Lanes that enter a table one set after another. -/
theorem stands_foldl_insertSub (subs t : List Sub) (p l : Nat) :
    stands (subs.foldl (fun t e => insertSub t e.pc e.lanes) t) p l ↔ stands t p l ∨ stands subs p l := by
  induction subs generalizing t with
  | nil => simp
  | cons e es ih =>
    simp only [List.foldl_cons, ih, stands_insertSub, stands_cons, eq_comm (a := p)]
    tauto

theorem Warp.standsAt_returnAt (w : Warp) (pc : Nat) (m : LaneMask) (p l : Nat) :
    (w.returnAt pc m).standsAt p l ↔ w.standsAt p l ∨ (p = pc ∧ has m l = true) := stands_insertSub _ _ _ _ _

/-! ### Wait sets (R17, R19) -/

/-- The lanes of a mask's wait set enter a table where they resume. -/
theorem stands_foldl_waits (ws : List WaitSet) (k : Nat) (t : List Sub) (p l : Nat) :
    stands (ws.foldl (fun t q => if q.k = k then insertSub t q.pc q.lanes else t) t) p l ↔
      stands t p l ∨ ∃ q ∈ ws, q.k = k ∧ q.pc = p ∧ has q.lanes l = true := by
  induction ws generalizing t with
  | nil => simp
  | cons q ws ih =>
    simp only [List.foldl_cons, ih, List.exists_mem_cons_iff]
    by_cases h : q.k = k
    · simp only [if_pos h, stands_insertSub, eq_comm (a := p)]; tauto
    · simp only [if_neg h]; tauto

/-- R17, R19: a wait set of which a lane is still missing stays. -/
theorem Warp.settle_waits {w : Warp} {k : Nat} (h : w.getM k &&& ~~~ w.waiting k ≠ 0) : w.settle k = w := if_neg h

/-- R17, R19: a wait set that all lanes of its mask have entered is released. -/
theorem Warp.settle_released {w : Warp} {k : Nat} (h : w.getM k &&& ~~~ w.waiting k = 0) :
    (w.settle k).waits = (w.waits.filter fun q => q.k != k) ∧
      ∀ p l, (w.settle k).standsAt p l ↔ w.standsAt p l ∨ ∃ q ∈ w.waits, q.k = k ∧ q.pc = p ∧ has q.lanes l = true := by
  simp only [Warp.settle, if_pos h, true_and]
  exact stands_foldl_waits _ _ _

/-- The release of a wait set changes the wait sets and the PC table alone. -/
theorem Warp.settle_frame (w : Warp) (k : Nat) : w.settle k = { w with waits := (w.settle k).waits, pcs := (w.settle k).pcs } := by
  simp only [Warp.settle]; split <;> rfl

@[simp] theorem Warp.settle_m (w : Warp) (k : Nat) : (w.settle k).m = w.m := by rw [Warp.settle_frame]

/-! ### Masks (R215) -/

/-- A mask's update changes the masks, the wait sets and the PC table alone. -/
theorem Warp.setM_frame (w : Warp) (k : Nat) (v : LaneMask) :
    w.setM k v = { w with m := (w.setM k v).m, waits := (w.setM k v).waits, pcs := (w.setM k v).pcs } := by
  simp only [Warp.setM]; rw [Warp.settle_frame]

@[simp] theorem Warp.setM_m (w : Warp) (k : Nat) (v : LaneMask) : (w.setM k v).m = setKey w.m k v := Warp.settle_m _ _

theorem Warp.getM_setM (w : Warp) (k j : Nat) (v : LaneMask) : (w.setM k v).getM j = if j = k then v else w.getM j := by
  by_cases h : j = k
  · subst h; simp [Warp.getM]
  · simp [Warp.getM, getKey_setKey_ne, h]

/-- R17, R19: an update after which every lane of the mask waits in its wait set releases the set. -/
theorem Warp.setM_released {w : Warp} {k : Nat} {v : LaneMask} (h : v &&& ~~~ w.waiting k = 0) :
    (w.setM k v).waits = (w.waits.filter fun q => q.k != k) ∧
      ∀ p l, (w.setM k v).standsAt p l ↔ w.standsAt p l ∨ ∃ q ∈ w.waits, q.k = k ∧ q.pc = p ∧ has q.lanes l = true :=
  Warp.settle_released (w := { w with m := setKey w.m k v }) (by rwa [Warp.getM, getKey_setKey_self])

/-- R17, R19: an update after which a lane of the mask is missing in its wait set keeps the set. -/
theorem Warp.setM_kept {w : Warp} {k : Nat} {v : LaneMask} (h : v &&& ~~~ w.waiting k ≠ 0) :
    (w.setM k v).waits = w.waits ∧ (w.setM k v).pcs = w.pcs := by
  rw [Warp.setM, Warp.settle_waits (w := { w with m := setKey w.m k v }) (by rwa [Warp.getM, getKey_setKey_self])]
  exact ⟨rfl, rfl⟩

/-! ### What the lanes of a released wait set see (R83) -/

/-- The release of wait sets changes what is seen of outstanding operations alone. -/
theorem State.meetReleased_frame (s : State) (w0 : Warp) : ∃ p, s.meetReleased w0 = { s with pend := p } := by
  refine foldl_keeps (fun u : State => ∃ p, u = { s with pend := p }) _ ?_ _ ⟨s.pend, rfl⟩
  rintro _ k ⟨p, rfl⟩
  split
  · exact ⟨_, rfl⟩
  · exact ⟨p, rfl⟩

/-- The selected warp changes its masks: of the machine the warp changes, and what is seen of outstanding operations. -/
theorem State.putMasks_frame (s : State) (w : Warp) : ∃ p, s.putMasks w = { s with w := w, pend := p } :=
  (s.setW w).meetReleased_frame s.w

/-! ### An instruction that completes -/

theorem issue_goes {i : Instr} {s : State} {r : Run} {body : Run → Act} {t : State} {p : State → Prop} (h : Issues i s r)
    (hb : body r = .ok t) (hp : p (advance i.info.len t)) : Goes (issue i s body) p :=
  ⟨_, issue_ok h hb, hp⟩

/-- What a mask instruction that gives mask `k` the value `v` leaves (R16, R19, R215). -/
structure SetsMask (s t : State) (r : Run) (k : Nat) (v : LaneMask) : Prop where
  mask : t.w.getM k = v
  others : ∀ j, j ≠ k → t.w.getM j = s.w.getM j
  warp : t.w = { s.w with m := t.w.m, waits := t.w.waits, pcs := t.w.pcs, run := some (r.behind 4) }
  machine : t = { s with w := t.w, pend := t.pend }
  memory : ∀ p, t.rd p = s.rd p
  released : if v &&& ~~~ s.w.waiting k = 0 then (t.w.waits = s.w.waits.filter fun q => q.k != k)
      ∧ ∀ p l, t.w.standsAt p l ↔ s.w.standsAt p l ∨ ∃ q ∈ s.w.waits, q.k = k ∧ q.pc = p ∧ has q.lanes l = true
    else t.w.waits = s.w.waits ∧ t.w.pcs = s.w.pcs

theorem putMasks_setsMask {s : State} {r : Run} (h : s.w.run = some r) (k : Nat) (v : LaneMask) :
    SetsMask s (advance 4 (s.putMasks (s.w.setM k v))) r k v := by
  obtain ⟨p, hp⟩ := s.putMasks_frame (s.w.setM k v)
  have hrun : (s.putMasks (s.w.setM k v)).w.run = some r := by rw [hp, Warp.setM_frame]; exact h
  rw [advance_of_run 4 hrun, hp]
  refine ⟨?_, ?_, ?_, rfl, fun _ => rfl, ?_⟩
  · exact (Warp.getM_setM ..).trans (if_pos rfl)
  · exact fun j hj => (Warp.getM_setM ..).trans (if_neg hj)
  · simp only [State.setW_w]; rw [Warp.setM_frame]
  · split
    · exact Warp.setM_released ‹_›
    · exact Warp.setM_kept ‹_›

/-- R214: a mask instruction gives its mask a value restricted to the lanes that live. -/
theorem maskOp_goes {i : Instr} {s : State} {k : Fin 12} {f : Warp → Run → LaneMask} (hl : i.info.len = 4)
    (he : exec i s = maskOp i s k f) (r : Run) (h : Issues i s r) :
    Goes (exec i s) fun t => SetsMask s t r k (f s.w r &&& s.w.live) := by
  rw [he]
  exact issue_goes h rfl (hl ▸ putMasks_setsMask h.1 _ _)

end Sys2Proof.Machine
end
section
open Sys2Proof Sys2Proof.Machine

/-- Settles O13: each mask instruction is one update of a mask (`putMasks_setsMask`), and the readers are blocks over lanes. -/
theorem masks : Obligations.Masks := by
  refine ⟨fun s k a b o => ?_, fun s d j => ?_⟩
  · intro M sets
    have of {i : Instr} {f : Run → LaneMask} (h : ∀ r, Issues i s r → Goes (exec i s) fun t => SetsMask s t r k (f r)) :
        sets i f := fun r hr =>
      (h r hr).mono fun t ht => ⟨ht.mask, ht.others, ht.warp, ht.machine, ht.memory, ht.released⟩
    have leave (r : Run) (hr : Issues (.leave k) s r) :
        Goes (execLeave k s) fun t => SetsMask s t r k (s.w.getM k.val &&& ~~~ r.lanes) :=
      issue_goes hr rfl (putMasks_setsMask hr.1 _ _)
    refine ⟨of (maskOp_goes (f := fun w r => w.getM k.val ||| r.lanes) rfl rfl),
      of leave,
      of (maskOp_goes (f := fun w r => w.scal64 r o) rfl rfl),
      of (maskOp_goes (f := fun w _ => w.getM a.val &&& w.getM b.val) rfl rfl),
      of (maskOp_goes (f := fun w _ => w.getM a.val ||| w.getM b.val) rfl rfl),
      of (maskOp_goes (f := fun w _ => w.getM a.val ^^^ w.getM b.val) rfl rfl),
      of (maskOp_goes (f := fun w _ => ~~~ w.getM a.val) rfl rfl)⟩
  · intro m
    refine ⟨lanewise_of_block rfl fun r => write64_block s.w r d fun r _ => m r,
      lanewise_of_block rfl fun r => ?_, lanewise_of_block rfl fun r => write_block s.w r d fun r _ => if m r = 0 then 0xFFFFFFFF else BitVec.ofNat 32 (lowLane (m r))⟩
    simp only [List.countP_eq_length_filter]
    exact write_block s.w r d fun r _ => BitVec.ofNat 32 (lanesOf (m r)).length
end

section
/-! SUPPORT. What a clause's last instruction leaves for the trailer: the exits of branches, leaps, waits and sleeps. -/

namespace Sys2Proof.Machine

/-! ### Sets of lanes that satisfy a test -/

theorem has_laneBit (i : Nat) {l : Nat} (h : l < 64) : has (laneBit i) l = decide (i = l) := by
  simp only [has, laneBit, BitVec.getLsbD_ofNat, h, decide_true, Bool.true_and, Nat.testBit_two_pow]

theorem has_foldl_laneBit (ls : List Nat) (m : LaneMask) {l : Nat} (h : l < 64) :
    has (ls.foldl (fun m i => m ||| laneBit i) m) l = (has m l || decide (l ∈ ls)) := by
  induction ls generalizing m with
  | nil => simp
  | cons i ls ih => simp [ih, has_laneBit i h, Bool.or_assoc, eq_comm (a := i)]

theorem has_maskOf (ls : List Nat) {l : Nat} (h : l < 64) : has (maskOf ls) l = decide (l ∈ ls) := by
  simp [maskOf, has_foldl_laneBit _ _ h]

theorem mem_lanesOf {m : LaneMask} {l : Nat} : l ∈ lanesOf m ↔ has m l = true := by
  simp only [lanesOf, List.mem_filter, List.mem_range, and_iff_right_iff_imp]
  exact has_lt

theorem has_keepLanes (m : LaneMask) (p : Nat → Bool) {l : Nat} (h : l < 64) :
    has (keepLanes m p) l = (has m l && p l) := by
  simp [keepLanes, has_maskOf _ h, mem_lanesOf]

/-! ### Exits (R201, R205 to R210) -/

theorem State.setExit_of_run {s : State} {r : Run} (h : s.w.run = some r) (e : Exit) :
    s.setExit e = s.setW { s.w with run := some { r with exit := e } } := by
  simp only [State.setExit, h]

/-- The step behind an instruction that sets the exit of its run. -/
theorem advance_setExit {s : State} {r : Run} (h : s.w.run = some r) (n : Nat) (e : Exit) :
    advance n (s.setExit e) = { s with w := { s.w with run := some { r.behind n with exit := e } } } := by
  rw [State.setExit_of_run h, advance_of_run (r := { r with exit := e }) n rfl]
  rfl

/-- R198: an instruction whose block succeeds, with what it leaves. -/
theorem then_of_issue {i : Instr} {s : State} {t : Run → State} {p : Run → State → Prop}
    (he : exec i s = issue i s fun r => .ok (t r)) (h : ∀ r, s.w.run = some r → p r (advance i.info.len (t r))) : Then i s p :=
  fun r hr => ⟨_, he.trans (issue_ok hr rfl), h r hr.1⟩

/-- An instruction of 4 bytes whose block sets the exit of its run changes the run alone. -/
theorem then_setExit {i : Instr} {s : State} {e : Run → Exit} (hl : i.info.len = 4)
    (he : exec i s = issue i s fun r => .ok (s.setExit (e r))) :
    Then i s fun r t => t = { s with w := { s.w with run := some { r.behind 4 with exit := e r } } } :=
  then_of_issue he fun r hr => by rw [advance_setExit hr, hl]

/-! ### Branches (R201) -/

/-- R201: the target of a branch is twice its displacement behind its own address, in 32 bits. -/
theorem branchTarget_eq (pc : Nat) (disp : BitVec 18) :
    branchTarget pc disp = (((pc : Int) + 2 * disp.toInt) % 2 ^ 32).toNat := by
  have h : BitVec.ofNat 32 pc + disp.signExtend 32 * 2 = BitVec.ofInt 32 ((pc : Int) + 2 * disp.toInt) := by
    rw [BitVec.ofInt_add, BitVec.ofInt_mul, BitVec.mul_comm]
    simp [BitVec.signExtend]
  rw [branchTarget, h, BitVec.toNat_ofInt]
  rfl

/-- R201: a branch splits its run into the lanes that satisfy its test and the others. -/
theorem then_branch {i : Instr} {s : State} {disp : BitVec 18} {taken : Run → LaneMask} {p : Nat → Bool} (hl : i.info.len = 4)
    (he : exec i s = issue i s fun r => .ok (s.branch r disp (taken r)))
    (hp : ∀ r l, l < 64 → has r.lanes l = true → has (taken r) l = p l) :
    Then i s fun r t => ∃ a b,
      t = { s with w := { s.w with run := some { r.behind 4 with
        exit := .goto [⟨(((r.pc : Int) + 2 * disp.toInt) % 2 ^ 32).toNat, a⟩, ⟨r.fall, b⟩] } } }
      ∧ ∀ l, l < 64 → (has a l = (has r.lanes l && p l)) ∧ (has b l = (has r.lanes l && !p l)) := by
  refine then_of_issue he fun r hr => ⟨r.lanes &&& taken r, r.lanes &&& ~~~ taken r, ?_, fun l hl => ?_⟩
  · rw [State.branch, advance_setExit hr, hl, branchTarget_eq]
  · cases hm : has r.lanes l with
    | false => simp [hm]
    | true =>
      rw [has_and_not]
      simp [hm, hp r l hl hm]

/-- R201, R202: a call sends its whole run to the target, and its lanes keep the address behind the clause in v95. -/
theorem then_call (disp : BitVec 18) (s : State) :
    Then (.call disp) s fun r t =>
      t.w.run.map Run.exit = some (.goto [⟨(((r.pc : Int) + 2 * disp.toInt) % 2 ^ 32).toNat, r.lanes⟩, ⟨r.fall, 0⟩])
      ∧ RegFrame s t (.v 95) 1 r.lanes ∧ t.w.flg = s.w.flg
      ∧ ∀ l, has r.lanes l = true → t.w.getV 95 l = BitVec.ofNat 32 r.fall := by
  refine then_of_issue (t := fun r =>
    (s.setW (s.w.putV 95 r.lanes fun _ => BitVec.ofNat 32 r.fall)).branch r disp r.lanes) rfl fun r hr => ?_
  have hu : (s.setW (s.w.putV 95 r.lanes fun _ => BitVec.ofNat 32 r.fall)).w.run = some r := hr
  rw [State.branch, advance_setExit hu, branchTarget_eq, BitVec.and_self]
  refine ⟨by simp, ⟨fun _ => rfl, rfl, rfl, fun k l hl hn => ?_, fun _ _ _ _ => rfl, fun _ _ => rfl⟩, rfl, fun l hl => ?_⟩
  · refine (Warp.getV_putV _ _ _ _ _ _ hl).trans (if_neg fun h => hn ⟨⟨rfl, ?_⟩, h.2⟩)
    simp [Opd.num, h.1]
  · exact (Warp.getV_putV _ _ _ _ _ _ (has_lt hl)).trans (if_pos ⟨rfl, hl⟩)

end Sys2Proof.Machine
end
section
open Sys2Proof Sys2Proof.Machine

/-- Settles O29: a control instruction sets the exit of its run (`then_setExit`, `then_branch`), and `call` writes v95 besides. -/
theorem controlTransfers : Obligations.ControlTransfers := by
  intro s disp c k exits target splits leaps nap
  refine ⟨then_branch rfl (taken := fun r => r.lanes) rfl fun r l _ h => h,
    then_branch rfl (taken := fun r => keepLanes r.lanes fun i => s.w.src c i == 0) rfl fun r l hl h => ?_,
    then_branch rfl (taken := fun r => keepLanes r.lanes fun i => s.w.src c i != 0) rfl fun r l hl h => ?_,
    then_branch rfl (taken := fun _ => s.w.getM k.val) rfl fun _ _ _ _ => rfl,
    then_setExit rfl rfl, then_setExit rfl rfl, then_call disp s, then_setExit rfl rfl, then_setExit rfl rfl,
    then_setExit rfl rfl, fun r hr he => ?_, then_of_issue (t := fun _ => s) rfl fun r hr => ?_,
    then_of_issue (t := fun _ => s) rfl fun r hr => ?_⟩
  · simp [has_keepLanes _ _ hl, h]
  · simp [has_keepLanes _ _ hl, h]
  · refine ⟨_, issue_ok (body := fun r => if s.endsHolding r then Act.trapAt r 5 else .ok (s.setExit .retire)) hr
      (by simp only [he]; rfl), advance_setExit hr.1 4 .retire⟩
  · exact advance_of_run 4 hr
  · exact advance_of_run 2 hr
end

section
/-! SUPPORT. The turn of a warp that can issue, from the agenda to the instruction (R14, R178, R187, R190). -/

namespace Sys2Proof.Machine

/-- R380, R384: a warp's turn at the agenda's head is not held. -/
theorem nextTurn_issue {s : State} {gid wid : Nat} {rest : List Turn} (h : s.agenda = .issue gid wid :: rest) :
    s.nextTurn = (some (.issue gid wid), { s with agenda := rest }) := by
  simp [State.nextTurn, h, State.holdsTurn]

theorem step_issue {s : State} {gid wid : Nat} {rest : List Turn} (hp : s.md.power = .on) (h : s.agenda = .issue gid wid :: rest) :
    step s = andThen State.tick (issueTurn gid wid { s with agenda := rest }) := by
  simp only [step, nextTurn_issue h, hp, takeTurn]

/-- R14: the turn of a warp that can issue and whose next word is an instruction. -/
theorem issueTurn_exec {s t : State} {gid wid : Nat} {i : Instr} (hr : s.ready? gid wid = some t) (hf : t.fetchWord = .exec i) :
    issueTurn gid wid s = andThen (State.noteHeld gid wid t.w.run) (exec i t.meterIssue) := by
  simp only [issueTurn, hr, hf]

/-- R190: a well-formed word at the run's address is the run's next instruction. -/
theorem fetchWord_run {t : State} {r : Run} {i : Instr} {n : Nat} (hr : t.w.run = some r) (hi : WellFormed i)
    (hd : decodeAt (t.codeAt t.g.kern.img r.pc maxInstrBytes) = some (i, n)) : t.fetchWord = .exec i := by
  have hwf : i.wf = true := hi
  simp only [State.fetchWord, hr, State.fetchRun, hd, hwf, if_true]

/-- R14, R187: between clauses, a header at the head of the PC table is the warp's next word. -/
theorem fetchWord_head {t : State} {e : Sub} {len : Fin 32} {fb fa : Fin 16} {wait : BitVec 12} {n : Nat} (hr : t.w.run = none)
    (he : t.w.head = some e)
    (hd : decodeAt (t.codeAt t.g.kern.img e.pc maxInstrBytes) = some (.clauseHeader len fb fa wait, n)) :
    t.fetchWord = .exec (.clauseHeader len fb fa wait) := by
  simp only [State.fetchWord, hr, State.fetchHead, he, hd]

end Sys2Proof.Machine
end
section
open Sys2Proof Sys2Proof.Machine

/-- Settles O55: the agenda's turn (`step_issue`), the word that is fetched, and its instruction (`issueTurn_exec`). -/
theorem stepRunsDecoded : Obligations.StepRunsDecoded := by
  intro s t gid wid rest i n hp ha hr at_
  constructor
  · intro r hrun hd hi
    rw [step_issue hp ha, issueTurn_exec hr (fetchWord_run hrun hi hd)]
  · rintro e hrun he hd ⟨len, fb, fa, wait, rfl⟩
    rw [step_issue hp ha, issueTurn_exec hr (fetchWord_head hrun he hd)]
end

section
/-! SUPPORT. What a header leaves when it takes its lanes into their clause (R14, R188 to R193). -/

namespace Sys2Proof.Machine

/-- R86, R191: seeing what ended the awaited assignments changes what is seen of outstanding operations alone. -/
theorem meetFlags_frame (s : State) (wait : BitVec 12) (gid wid : Nat) (p : Party) :
    ∃ q, (List.range 12).foldl (fun u f => if wait.getLsbD f then u.meetPlace (flagPlace gid wid f) p else u) s
      = { s with pend := q } := by
  refine foldl_keeps (fun u : State => ∃ q, u = { s with pend := q }) _ ?_ _ ⟨s.pend, rfl⟩
  rintro _ f ⟨q, rfl⟩
  split
  · exact ⟨_, rfl⟩
  · exact ⟨q, rfl⟩

/-- R14, R188: the run of a clause that its lanes have just entered. -/
def Sub.enters (e : Sub) (len fa fb trailer : Nat) : Run :=
  ⟨e.lanes, e.pc, e.pc + 4, len, trailer + 4, fa, fb, .fall, 0, 0, false, 0, false, false⟩

/-- R14, R31, R191: entering a clause takes the head's lanes from the PC table into the run; a region's start is recorded first. -/
theorem enterClause_eq (s : State) (e : Sub) (len fa fb : Nat) (wait : BitVec 12) (trailer : Nat) :
    ∃ t q, (t = if s.startsRegion s.g.kern e.pc then s.enterRegion e.pc else s) ∧
      s.enterClause e len fa fb wait trailer = { t with
        pend := q
        w := { t.w with pcs := removeSub t.w.pcs e.pc e.lanes, run := some (e.enters len fa fb trailer)
                        clauses := t.w.clauses + 1, yielding := none } } := by
  obtain ⟨q, hq⟩ := meetFlags_frame (if s.startsRegion s.g.kern e.pc then s.enterRegion e.pc else s) wait s.g.id s.w.idx (s.party e.lanes)
  refine ⟨_, q, rfl, ?_⟩
  rw [State.enterClause, hq]
  rfl

/-- R188 to R191: what a header does whose clause passes its checks: it waits for its flags, and for room in its counts. -/
theorem startClause_ok {s : State} {e : Sub} {len : Fin 32} {fb fa : Fin 16} {wait : BitVec 12} {tr : Nat}
    {slots : List (Opd × Bool)} {body : List Instr} (hpc : s.pcTrap s.g.kern e.pc = none)
    (hwf : (Instr.clauseHeader len fb fa wait).wf = true)
    (hscan : s.scan s.g.kern fa.val fb.val len.val (e.pc + 4) [] = .ok tr slots body) :
    s.startClause e len fb fa wait =
      if !s.w.flagsClear wait e.lanes || s.w.overflows e.lanes
        ((slots.filter fun p => assigns body p.1).map fun p => if p.2 then fb.val else fa.val) then s
      else s.enterClause e len.val fa.val fb.val wait tr := by
  simp [State.startClause, hpc, hwf, hscan]

/-- R14: a header that nothing keeps back starts the clause of the head's lanes. -/
theorem execClauseHeader_head {s : State} {e : Sub} {len : Fin 32} {fb fa : Fin 16} {wait : BitVec 12} (hrun : s.w.run = none)
    (he : s.w.head = some e) (hh : s.headHeld e = false) (hl : s.headLost e = none) :
    exec (.clauseHeader len fb fa wait) s = .next (s.startClause e len fb fa wait) := by
  show execClauseHeader len fb fa wait s = _
  simp only [execClauseHeader, hrun, he, hh, hl, Bool.false_eq_true, if_false]

end Sys2Proof.Machine
end
section
open Sys2Proof Sys2Proof.Machine

/-- Settles O30: the head reaches its clause's checks (`execClauseHeader_head`), waits while a flag is set, and else enters it
(`enterClause_eq`); whether the header starts a region decides what the restart point is. -/
theorem clauseStart : Obligations.ClauseStart := by
  intro s e len fb fa wait tr slots body i excess hrun he hgrow hy haw hl hpc hwf hscan
  have hheld : s.headHeld e = false := by simp [State.headHeld, State.notChosen, hgrow, hy, haw]
  have hex : exec i s = .next (s.startClause e len fb fa wait) := execClauseHeader_head hrun he hheld hl
  rw [hex, startClause_ok hpc hwf hscan]
  constructor
  · intro hf hx
    have hx' : s.w.overflows e.lanes
        ((slots.filter fun p => assigns body p.1).map fun p => if p.2 then fb.val else fa.val) = false := hx
    rw [hf, hx']
    obtain ⟨t, q, ht, heq⟩ := enterClause_eq s e len.val fa.val fb.val wait tr
    simp only [Bool.not_true, Bool.or_self, Bool.false_eq_true, if_false, heq]
    refine goes_next ?_
    cases hr : s.startsRegion s.g.kern e.pc with
    | false =>
      obtain rfl : t = s := by simpa [hr] using ht
      exact ⟨rfl, rfl, rfl, rfl, ⟨rfl, rfl, rfl, rfl, rfl, rfl⟩, fun _ => rfl, fun _ => rfl, fun h => by simp at h⟩
    | true =>
      obtain rfl : t = s.enterRegion e.pc := by simpa [hr] using ht
      exact ⟨rfl, rfl, rfl, rfl, ⟨rfl, rfl, rfl, rfl, rfl, rfl⟩, fun _ => rfl, fun h => by simp at h,
        fun _ => ⟨_, rfl, rfl, rfl, rfl, rfl⟩⟩
  · intro hf
    simp only [hf, Bool.not_false, Bool.true_or, if_true]
    exact goes_next rfl
end

section
/-! SUPPORT. Status and segment registers (R12, R299 to R303). -/

namespace Sys2Proof.Machine

/-- The step behind an instruction that has changed the selected warp but not its run. -/
theorem advance_setW {s : State} {w : Warp} {r : Run} (h : w.run = some r) (n : Nat) :
    advance n (s.setW w) = s.setW { w with run := some (r.behind n) } := advance_of_run (s := s.setW w) n h

/-- R301: a status register of one word. -/
theorem srd_lane32 {x : SReg} (h : x.span ≠ 2) (s : State) (d : Opd) :
    Lane32 (.srd d x) s d fun l => BitVec.ofNat 32 (s.statusReg x l) := by
  have he : exec (.srd d x) s
      = laneOp (.srd d x) s d fun _ l => BitVec.ofNat 32 (s.statusReg x l) := by
    show execSrd d x s = _
    simp only [execSrd, if_neg h, laneOp]
  exact laneOp_lanewise _ he

/-- R301: a status register of two words. -/
theorem srd_lane64 {x : SReg} (h : x.span = 2) (s : State) (d : Opd) :
    Lane64 (.srd d x) s d fun l => BitVec.ofNat 64 (s.statusReg x l) := by
  have he : exec (.srd d x) s
      = laneOp64 (.srd d x) s d fun _ l => BitVec.ofNat 64 (s.statusReg x l) := by
    show execSrd d x s = _
    simp only [execSrd, if_pos h, laneOp64]
  exact laneOp64_lanewise (fun _ l => BitVec.ofNat 64 (s.statusReg x l)) he

/-- A sum of bytes, each by its weight, is the number with those digits. -/
theorem foldl_bytes (d : Nat → Nat) (a n : Nat) : (List.range n).foldl (fun m j => m + d j % 256 * 2 ^ (8 * j)) a
    = a + Nat.ofDigits 256 ((List.range n).map fun j => d j % 256) := by
  induction n with
  | zero => rfl
  | succ n ih =>
    rw [List.range_succ, List.foldl_append, ih, List.map_append, Nat.ofDigits_append]
    simp [pow_mul]
    ring

/-- R12: the bytes of WIDF: the six width fields, then NF. -/
def Kernel.widfBytes (k : Kernel) : List Nat := ((List.range 6).map fun j => k.widths.getD j 0 % 256) ++ [k.nf % 8]

theorem Kernel.widfBytes_lt (k : Kernel) : ∀ d ∈ k.widfBytes, d < 256 := by
  simp only [Kernel.widfBytes, List.mem_append, List.mem_map, List.mem_singleton]
  rintro _ (⟨i, -, rfl⟩ | rfl) <;> omega

theorem Kernel.widf_eq (k : Kernel) : k.widf = Nat.ofDigits 256 k.widfBytes := by
  rw [Kernel.widf, Kernel.widfBytes, foldl_bytes (fun j => k.widths.getD j 0), Nat.ofDigits_append, List.length_map,
    List.length_range, Nat.ofDigits_singleton, Nat.add_comm, Nat.mul_comm]
  norm_num

theorem Kernel.widf_shift (k : Kernel) (j : Nat) : k.widf / 256 ^ j = Nat.ofDigits 256 (k.widfBytes.drop j) := by
  rw [k.widf_eq, Nat.ofDigits_div_pow_eq_ofDigits_drop j (by norm_num) _ k.widfBytes_lt]

theorem Kernel.widf_field (k : Kernel) {j : Nat} (h : j < 6) : k.widf / 2 ^ (8 * j) % 2 ^ 8 = k.widths.getD j 0 % 256 := by
  rw [pow_mul, show 2 ^ 8 = 256 by norm_num, k.widf_shift, Nat.ofDigits_mod_eq_head!, Kernel.widfBytes,
    List.drop_append_of_le_length (by simp; omega), List.drop_eq_getElem_cons (by simpa using h)]
  simp [List.head!]

theorem Kernel.widf_nf (k : Kernel) : k.widf / 2 ^ 48 = k.nf % 8 := by
  rw [show 2 ^ 48 = 256 ^ 6 by norm_num, k.widf_shift]
  simp [Kernel.widfBytes]

/-- R369: in a system warp that holds a trap a trap register is that trap's. -/
theorem trapReg_held {s : State} {h : TrapRec} (hs : s.g.sys = true) (hh : s.g.holds = some h) (f : TrapRec → Nat) (g : Group → Nat) :
    s.trapReg f g = f h := by
  simp only [State.trapReg, hh, hs, if_true]

/-- R367: outside a system warp a trap register is the group's. -/
theorem trapReg_own {s : State} (hs : s.g.sys = false) (f : TrapRec → Nat) (g : Group → Nat) : s.trapReg f g = g s.g := by
  simp only [State.trapReg, hs]
  split <;> simp

/-- R303: a segment register in a system warp that ends within its store. -/
theorem segld_goes {s : State} {x : SReg} {a : Opd} {r : Run} (hs : s.g.sys = true) (h : Issues (.segld x a) s r)
    (hok : s.segOk s.g.chip (segNo x) (s.w.scal64 r a) = true) :
    Goes (exec (.segld x a) s) fun t =>
      t = { s with w := { s.w with seg := setKey s.w.seg (segNo x) (s.w.scal64 r a), run := some (r.behind 4) } } := by
  refine ⟨_, issue_ok (t := s.setW (s.w.putSeg (segNo x) (s.w.scal64 r a))) h ?_, advance_of_run 4 h.1⟩
  simp only [hs, hok, Bool.not_true, Bool.false_eq_true, if_false, if_true]

end Sys2Proof.Machine
end
section
open Sys2Proof Sys2Proof.Machine

/-- Settles O34: what each status register holds, WIDF by its fields (`Kernel.widf_field`), and what writing one leaves. -/
theorem statusRegisters : Obligations.StatusRegisters := by
  intro s d a x val
  refine ⟨fun h => srd_lane32 h s d, fun h => srd_lane64 h s d,
    fun l => ⟨rfl, rfl, rfl, rfl, rfl, rfl, rfl, rfl, rfl, rfl, rfl, rfl, rfl, rfl⟩,
    fun l => ⟨rfl, fun j hj => s.g.kern.widf_field hj, s.g.kern.widf_nf, rfl, rfl, rfl, rfl⟩,
    fun l h hs hh => by simp only [State.statusReg, trapReg_held hs hh, and_self],
    fun l hs => by simp only [State.statusReg, trapReg_own hs, and_self], ?flg, ?late, ?seed, ?seg⟩
  case flg =>
    refine then_of_issue (t := fun r => s.setW (s.w.putFlg r.lanes fun l => s.w.src a l &&& 0x1F)) rfl fun r hr => ?_
    rw [advance_setW (w := s.w.putFlg _ _) hr]
    exact ⟨rfl, rfl, fun l hl => Warp.getFlg_putFlg s.w r.lanes (fun l => s.w.src a l &&& 0x1F) hl⟩
  case late =>
    exact then_of_issue (t := fun r => s.setW { s.w with late := s.w.scal r a }) rfl
      fun r hr => advance_setW (w := { s.w with late := s.w.scal r a }) hr _
  case seed =>
    refine then_of_issue (t := fun r => s.setW { s.w with seed := s.w.scal r a, gen := mkRow (seedGen (s.w.scal r a)) }) rfl
      fun r hr => ?_
    rw [advance_setW (w := { s.w with seed := s.w.scal r a, gen := mkRow (seedGen (s.w.scal r a)) }) hr]
    refine ⟨rfl, rfl, rfl, fun l hl => ?_⟩
    exact mkRow_getD (seedGen (s.w.scal r a)) hl 0
  case seg =>
    intro r hs h hok
    refine (segld_goes hs h hok).mono fun t ht => ?_
    subst ht
    exact ⟨getKey_setKey_self .., fun k hk => getKey_setKey_ne _ _ _ hk, rfl⟩
end

section
/-! SUPPORT. Register growth and shrinking (R25, R26, R304), and the selected warp among its group's. -/

namespace Sys2Proof.Machine

/-! ### The selected warp by its numbers -/

theorem isSel_self {s : State} (h : s.w.gone = false) : s.isSel s.g.id s.w.idx = true := by simp [State.isSel, h]

theorem warp?_self {s : State} (h : s.w.gone = false) : s.warp? s.g.id s.w.idx = some s.w := if_pos (isSel_self h)

theorem mapWarp_self {s : State} (h : s.w.gone = false) (f : Warp → Warp) : s.mapWarp s.g.id s.w.idx f = s.setW (f s.w) :=
  if_pos (isSel_self h)

/-- The selected group as others see it: the selected warp stands among its warps. -/
theorem group?_self {s : State} (h : s.w.gone = false) (hid : s.g.id ≠ 0) :
    s.group? s.g.id = some { s.g with others := s.w :: s.g.others } := by
  simp [State.group?, State.allGroups, State.unselect, hid, Group.putWarp, h]

/-! ### Fresh registers -/

theorem has_allOnes {l : Nat} (h : l < 64) : has (BitVec.allOnes 64) l = true := by
  simp only [has, BitVec.getLsbD_allOnes, h, decide_true]

theorem Warp.getV_putV_ne (w : Warp) {r k : Nat} (h : k ≠ r) (l : Nat) (m : LaneMask) (f : Nat → Word) :
    (w.putV r m f).getV k l = w.getV k l := by
  simp [Warp.getV, Warp.putV, getKey_setKey_ne, h]

/-- Registers from `b` on are written in all lanes: what they hold, and what stays. -/
theorem foldl_putV (w : Warp) (b n : Nat) (f : Nat → Nat → Word) :
    ∃ u : Warp, (List.range n).foldl (fun v j => v.putV (b + j) (BitVec.allOnes 64) (f j)) w = { w with v := u.v }
      ∧ (∀ q l, q < b → u.getV q l = w.getV q l) ∧ ∀ j l, j < n → l < 64 → u.getV (b + j) l = f j l := by
  induction n with
  | zero => exact ⟨w, rfl, fun _ _ _ => rfl, fun j l h => absurd h (by omega)⟩
  | succ n ih =>
    obtain ⟨u, hu, hold, hnew⟩ := ih
    refine ⟨{ w with v := u.v }.putV (b + n) (BitVec.allOnes 64) (f n), ?_, fun q l hq => ?_, fun j l hj hl => ?_⟩
    · rw [List.range_succ, List.foldl_append, hu]; rfl
    · exact (Warp.getV_putV_ne _ (by omega) _ _ _).trans (hold q l hq)
    · by_cases hjn : j = n
      · subst hjn
        exact (Warp.getV_putV _ _ _ _ _ _ hl).trans (if_pos ⟨rfl, has_allOnes hl⟩)
      · exact (Warp.getV_putV_ne _ (by omega) _ _ _).trans (hnew j l (by omega) hl)

/-- R26: what a warp that gains `n` registers holds: those of before, and behind them free values. -/
theorem Warp.gain_eq (w : Warp) (f n : Nat) :
    ∃ u : Warp, w.gain f n = { w with v := u.v, nregs := w.nregs + n, grow := none }
      ∧ (∀ q l, q < w.nregs → u.getV q l = w.getV q l)
      ∧ ∀ j l, j < n → l < 64 → u.getV (w.nregs + j) l = Config.freeWord (f + 64 * j + l) := by
  obtain ⟨u, hu, h⟩ := foldl_putV w w.nregs n fun j i => Config.freeWord (f + 64 * j + i)
  exact ⟨u, by rw [Warp.gain, hu], h⟩

/-- R25, R26: the selected warp has gained `n` granules of registers. -/
structure Grows (s t : State) (n : Nat) : Prop where
  nregs : t.w.nregs = s.w.nregs + 8 * n
  memory : ∀ p, t.rd p = s.rd p
  group : t.g = s.g
  old : ∀ q l, q < s.w.nregs → t.w.getV q l = s.w.getV q l
  grow : t.w.grow = none
  scalars : t.w.s = s.w.s
  masks : t.w.m = s.w.m
  new : ∀ j l, j < 8 * n → l < 64 → t.w.getV (s.w.nregs + j) l = Config.freeWord (s.free + 64 * j + l)

/-- R26: growth of the selected warp, wherever its run then stands. -/
theorem grows_gain {s t : State} {n : Nat} {q : Option Run} (hw : t.w = { s.w.gain s.free (8 * n) with run := q })
    (hm : t.mem = s.mem) (hg : t.g = s.g) : Grows s t n := by
  obtain ⟨u, hu, hold, hnew⟩ := s.w.gain_eq s.free (8 * n)
  rw [hu] at hw
  exact ⟨by rw [hw], fun p => by rw [State.rd, hm]; rfl, hg, fun q l hq => by rw [hw]; exact hold q l hq, by rw [hw], by rw [hw],
    by rw [hw], fun j l hj hl => by rw [hw]; exact hnew j l hj hl⟩

theorem Warp.gain_run (w : Warp) (f n : Nat) : (w.gain f n).run = w.run := by
  obtain ⟨u, hu, -⟩ := w.gain_eq f n
  rw [hu]

theorem gain_self {s : State} (h : s.w.gone = false) (n : Nat) :
    s.gain s.g.id s.w.idx n = (s.setW (s.w.gain s.free (8 * n))).spend (64 * 8 * n) := by
  rw [State.gain, mapWarp_self h]

/-! ### Shrinking (R304) -/

/-- R304: the bound of what is outstanding changes nothing else. -/
theorem capAt_frame (s : State) (n : Nat) : s.capAt n = { s with
    pend := (s.capAt n).pend, laps := (s.capAt n).laps, landing := (s.capAt n).landing, engines := (s.capAt n).engines } := by
  simp only [State.capAt]
  split <;> rfl

theorem capAt_w (s : State) (n : Nat) : (s.capAt n).w = s.w := by rw [capAt_frame]

/-- Of a list whose elements of one owner are changed, every element of that owner is a changed one. -/
theorem mem_map_own {α : Type} {l : List α} {own : α → Bool} {f : α → α} {x : α}
    (h : x ∈ l.map fun o => if own o = true then f o else o) (hx : own x = true) : ∃ o, x = f o := by
  obtain ⟨o, -, rfl⟩ := List.mem_map.mp h
  by_cases ho : own o = true
  · exact ⟨o, if_pos ho⟩
  · rw [if_neg ho] at hx
    exact absurd hx ho

/-- R304: no operation of the selected warp writes from register `n` on. -/
theorem capAt_pend {s : State} {n : Nat} {o : MemOp} (ho : o ∈ (s.capAt n).pend) (hg : o.gid = s.g.id) (hw : o.wid = s.w.idx) :
    o.cap ≤ n := by
  have he : (s.capAt n).pend = s.pend.map fun (o : MemOp) =>
      if (o.gid == s.g.id && o.wid == s.w.idx) = true then { o with cap := min o.cap n } else o := by
    simp only [State.capAt]; split <;> rfl
  obtain ⟨p, rfl⟩ := mem_map_own (he ▸ ho) (by simp [hg, hw])
  exact min_le_right _ _

/-- R304: no lap of the selected warp does. -/
theorem capAt_laps {s : State} {n : Nat} {o : Lap} (ho : o ∈ (s.capAt n).laps) (hg : o.gid = s.g.id) (hw : o.wid = s.w.idx) :
    o.cap ≤ n := by
  have he : (s.capAt n).laps = s.laps.map fun (o : Lap) =>
      if (o.gid == s.g.id && o.wid == s.w.idx) = true then { o with cap := min o.cap n } else o := by
    simp only [State.capAt]; split <;> rfl
  obtain ⟨p, rfl⟩ := mem_map_own (he ▸ ho) (by simp [hg, hw])
  exact min_le_right _ _

/-- R304: no command that the selected warp has given its cluster's engine does. -/
theorem capAt_cmds {s : State} {n : Nat} {c : MatCmd} (hc : c ∈ ((s.capAt n).engine s.g.clu).cmds) (hg : c.gid = s.g.id)
    (hw : c.wid = s.w.idx) : c.cap ≤ n := by
  by_cases hown : ((s.engine s.g.clu).cmds.any fun c => c.gid == s.g.id && c.wid == s.w.idx) = true
  · have he : ((s.capAt n).engine s.g.clu).cmds = (s.engine s.g.clu).cmds.map fun (c : MatCmd) =>
        if (c.gid == s.g.id && c.wid == s.w.idx) = true then { c with cap := min c.cap n } else c := by
      simp only [State.capAt]
      rw [if_pos hown]
      simp only [State.mapEngine, State.putEngine, State.engine, getKey_setKey_self]
    obtain ⟨p, rfl⟩ := mem_map_own (he ▸ hc) (by simp [hg, hw])
    exact min_le_right _ _
  · have he : ((s.capAt n).engine s.g.clu).cmds = (s.engine s.g.clu).cmds := by
      simp only [State.capAt]
      rw [if_neg hown]
      rfl
    exact absurd (List.any_eq_true.mpr ⟨c, he ▸ hc, by simp [hg, hw]⟩) hown

/-! ### The instructions -/

section
variable {s : State} {a : Opd} {r : Run} (h : Issues (.rgrow a) s r) (hk : (s.w.scal r a).toNat ≠ 0)
  (hn : s.w.nregs + 8 * (s.w.scal r a).toNat ≤ 96)
include h hk hn

/-- R26: growth that no older request holds back and that the pool can meet. -/
theorem rgrow_grants (hgone : s.w.gone = false)
    (ho : ((s.growers s.g.chip s.g.core).any fun q => q.1 ≤ s.g.age && !(q.2.1 == s.g.id && q.2.2.1 == s.w.idx)) = false)
    (hc : s.canGrow s.g.chip s.g.core s.g.id s.w.idx (s.w.scal r a).toNat = true) :
    Goes (exec (.rgrow a) s) fun t => Grows s t (s.w.scal r a).toNat := by
  refine ⟨_, issue_ok (t := s.gain s.g.id s.w.idx (s.w.scal r a).toNat) h ?_, ?_⟩
  · simp only [if_neg hk, if_neg (Nat.not_lt.mpr hn), ho, hc, Bool.not_false, Bool.and_self, if_true]
  · rw [gain_self hgone, advance_of_run (r := r) _ ((Warp.gain_run ..).trans h.1)]
    exact grows_gain rfl rfl rfl

/-- R26: growth that is held back or that the pool cannot meet waits. -/
theorem rgrow_waits
    (hc : (!((s.growers s.g.chip s.g.core).any fun q => q.1 ≤ s.g.age && !(q.2.1 == s.g.id && q.2.2.1 == s.w.idx))
      && s.canGrow s.g.chip s.g.core s.g.id s.w.idx (s.w.scal r a).toNat) = false) :
    Goes (exec (.rgrow a) s) fun t =>
      t = { s with w := { s.w with grow := some (s.w.scal r a).toNat, growAt := r.fall - 4, run := some (r.behind 4) } } := by
  refine ⟨_, issue_ok (t := s.setW { s.w with grow := some (s.w.scal r a).toNat, growAt := r.fall - 4 }) h ?_,
    advance_setW (w := { s.w with grow := some (s.w.scal r a).toNat, growAt := r.fall - 4 }) h.1 4⟩
  simp only [if_neg hk, if_neg (Nat.not_lt.mpr hn), hc, Bool.false_eq_true, if_false]

end

/-- R304: shrinking by nothing goes on. -/
theorem rshrink_zero {s : State} {a : Opd} {r : Run} (h : Issues (.rshrink a) s r) (hk : (s.w.scal r a).toNat = 0) :
    exec (.rshrink a) s = .next (s.setW { s.w with run := some (r.behind 4) }) := by
  refine (issue_ok (t := s) h ?_).trans (congrArg _ (advance_of_run 4 h.1))
  simp only [if_pos hk]

/-- R25, R304: shrinking that leaves a granule. -/
theorem rshrink_gives {s : State} {a : Opd} {r : Run} (h : Issues (.rshrink a) s r) (hk : (s.w.scal r a).toNat ≠ 0)
    (hn : 8 * (s.w.scal r a).toNat + 8 ≤ s.w.nregs) :
    exec (.rshrink a) s = .next
      (advance 4 ((s.setW { s.w with nregs := s.w.nregs - 8 * (s.w.scal r a).toNat }).capAt (s.w.nregs - 8 * (s.w.scal r a).toNat))) := by
  refine issue_ok h ?_
  simp only [if_neg hk, if_neg (Nat.not_lt.mpr hn)]

/-- R26: a waiting request that is first in its core's order and that the pool can meet is granted. -/
theorem rgrowGrant_grants {s : State} {n : Nat} (hgone : s.w.gone = false) (hid : s.g.id ≠ 0) (hw : s.w.grow = some n)
    (hf : ∀ q ∈ s.growers s.g.chip s.g.core, s.g.age < q.1 ∨ s.g.age = q.1 ∧ s.w.idx ≤ q.2.2.1)
    (hc : s.canGrow s.g.chip s.g.core s.g.id s.w.idx n = true) :
    exec (.rgrowGrant s.g.id s.w.idx) s = .next (s.gain s.g.id s.w.idx n) := by
  have hfirst : ((s.growers s.g.chip s.g.core).all fun q => s.g.age < q.1 || (s.g.age == q.1 && s.w.idx ≤ q.2.2.1)) = true := by
    simpa [List.all_eq_true] using hf
  show execRgrowGrant s.g.id s.w.idx s = _
  simp only [execRgrowGrant, group?_self hgone hid, warp?_self hgone, Option.bind_some, hw, hfirst, hc, Bool.and_self, if_true]

end Sys2Proof.Machine
end
section
open Sys2Proof Sys2Proof.Machine

/-- Settles O35: growth now (`rgrow_grants`), growth that waits (`rgrow_waits`) and is granted (`rgrowGrant_grants`), and shrinking,
after which nothing outstanding writes what was given back (`capAt_pend`, `capAt_laps`, `capAt_cmds`). -/
theorem registerAllocation : Obligations.RegisterAllocation := by
  intro s a r k older grows hgone
  have of {t : State} {n : Nat} (h : Grows s t n) : grows t n :=
    ⟨h.nregs, h.memory, h.group, h.old, h.grow, h.scalars, h.masks, h.new⟩
  refine ⟨fun h hk _ hn ho hc => (rgrow_grants h hk hn hgone ho hc).mono fun _ => of, fun h hk hn hc => rgrow_waits h hk hn ?_,
    fun h hn => ?_, fun n hid hw hf hc => ?_⟩
  · rcases hc with hc | hc
    · exact Bool.and_eq_false_imp.mpr fun ho => absurd (hc.symm.trans (Bool.not_eq_true' older |>.mp ho)) (by decide)
    · simp only [show s.canGrow s.g.chip s.g.core s.g.id s.w.idx (s.w.scal r a).toNat = false from hc, Bool.and_false]
  · by_cases hk : k = 0
    · rw [rshrink_zero h hk]
      refine goes_next ⟨?_, fun h => absurd hk h⟩
      rw [hk]
      rfl
    · rw [rshrink_gives h hk hn]
      have hrun : ((s.setW { s.w with nregs := s.w.nregs - 8 * k }).capAt (s.w.nregs - 8 * k)).w.run = some r := by
        rw [capAt_w]; exact h.1
      refine goes_next ?_
      rw [advance_of_run 4 hrun]
      refine ⟨?_, fun _ => ⟨fun o ho hw => capAt_pend ho hw.1 hw.2, fun o ho hw => capAt_laps ho hw.1 hw.2,
        fun c hc hw => capAt_cmds hc hw.1 hw.2⟩⟩
      rw [capAt_w, capAt_frame]
      rfl
  · rw [rgrowGrant_grants hgone hid hw hf hc, gain_self hgone]
    exact goes_next (of (grows_gain rfl rfl rfl))
end

section
/-! SUPPORT. The end of a clause (R15, R17, R193, R207, R209, R210), and the subgroups and lanes that come back (R20 to R23). -/

namespace Sys2Proof.Machine

/-! ### Flags (R193) -/

theorem Warp.flagCount_setFlag (w : Warp) (f i j : Nat) {n : Nat} (hn : n ≠ 0) :
    (w.setFlag f i n).flagCount f j = if j = i then n else w.flagCount f j := by
  simp only [Warp.setFlag, if_neg hn, Warp.flagCount]
  by_cases h : j = i
  · simp [h]
  · rw [if_neg h, getKey_setKey_ne _ _ _ (by omega)]

/-- R193: every lane's count rises by the assignments that begin for it. -/
theorem Warp.flagCount_addFlag (w : Warp) (f : Nat) (ls : List Nat) (l : Nat) :
    (w.addFlag f ls).flagCount f l = w.flagCount f l + ls.count l := by
  induction ls generalizing w with
  | nil => rfl
  | cons i ls ih =>
    have h := ih (w.setFlag f i (w.flagCount f i + 1))
    rw [Warp.flagCount_setFlag _ _ _ _ (Nat.succ_ne_zero _)] at h
    refine (h : (w.addFlag f (i :: ls)).flagCount f l = _).trans ?_
    by_cases hi : l = i
    · subst hi; rw [if_pos rfl, List.count_cons_self]; omega
    · rw [if_neg hi, List.count_cons_of_ne (Ne.symm hi)]

/-- Assignments that begin change the counts alone. -/
theorem Warp.addFlag_frame (w : Warp) (f : Nat) (ls : List Nat) : ∃ fs, w.addFlag f ls = { w with flags := fs } := by
  refine foldl_keeps (fun v : Warp => ∃ fs, v = { w with flags := fs }) _ ?_ _ ⟨w.flags, rfl⟩
  rintro _ i ⟨fs, rfl⟩
  exact ⟨_, rfl⟩

/-! ### What the trailer publishes (R193) -/

/-- An operation as another, but for what is seen of its accesses. -/
def SameOp (o q : MemOp) : Prop := q = { o with accs := q.accs } ∧ q.accs.map Acc.bytes = o.accs.map Acc.bytes
  ∧ q.accs.map Acc.data = o.accs.map Acc.data

theorem SameOp.refl (o : MemOp) : SameOp o o := ⟨rfl, rfl, rfl⟩

/-- What a party sees is passed to another: each operation stays, but for what is seen of it. -/
theorem pass_keeps {s : State} {o q : MemOp} (hq : q ∈ s.pend) (h : SameOp o q) (a b : Party) : ∃ x ∈ (s.pass a b).pend, SameOp o x := by
  refine ⟨_, List.mem_map_of_mem hq, ?_⟩
  obtain ⟨he, hb, hd⟩ := h
  have hmap {β : Type} (f : Acc → β) (hf : ∀ c v, f { c with seen := v } = f c) (c : Acc) :
      f (if c.seen.contains a then { c with seen := b :: c.seen } else c) = f c := by
    split
    · exact hf c _
    · rfl
  refine ⟨?_, ?_, ?_⟩
  · rw [he]
  · rw [← hb, List.map_map]
    exact List.map_congr_left fun c _ => hmap Acc.bytes (fun _ _ => rfl) c
  · rw [← hd, List.map_map]
    exact List.map_congr_left fun c _ => hmap Acc.data (fun _ _ => rfl) c

theorem foldl_pass_keeps {s : State} {o : MemOp} (ho : o ∈ s.pend) (l : List EndedCmd) (a b : EndedCmd → Party) :
    ∃ x ∈ (l.foldl (fun t e => t.pass (a e) (b e)) s).pend, SameOp o x :=
  foldl_keeps (fun t : State => ∃ x ∈ t.pend, SameOp o x) _ (fun _ _ ⟨_, hx, h⟩ => pass_keeps hx h _ _) _ ⟨o, ho, .refl o⟩

theorem foldl_pass_frame (s : State) (l : List EndedCmd) (a b : EndedCmd → Party) :
    ∃ p, l.foldl (fun t e => t.pass (a e) (b e)) s = { s with pend := p } := by
  refine foldl_keeps (fun t : State => ∃ p, t = { s with pend := p }) _ ?_ _ ⟨s.pend, rfl⟩
  rintro _ e ⟨p, rfl⟩
  exact ⟨_, rfl⟩

/-- What a trailer changes before the lanes leave: what is on its way for flags, the counts, and which lanes have stopped. -/
def Marks (s t : State) : Prop := ∃ pend laps landing ended engines flags stopped spAt,
  t = { s with pend := pend, laps := laps, landing := landing, ended := ended, engines := engines
               w := { s.w with flags := flags, stopped := stopped, spAt := spAt } }

theorem Marks.refl (s : State) : Marks s s := ⟨_, _, _, _, _, _, _, _, rfl⟩

theorem publish_marks {s t : State} (h : Marks s t) (r : Run) (f : Nat) (d : Opd) : Marks s (t.publish r f d) := by
  obtain ⟨pend, laps, landing, ended, engines, flags, stopped, spAt, rfl⟩ := h
  simp only [State.publish]
  generalize hls : List.flatMap _ _ ++ _ ++ _ ++ _ = ls
  generalize he : List.foldl _ _ (List.filter _ ended) = seen
  obtain ⟨p, hp⟩ : ∃ p, seen = { s with
      pend := p, laps := laps, landing := landing, ended := ended, engines := engines
      w := { s.w with flags := flags, stopped := stopped, spAt := spAt } } := he ▸ foldl_pass_frame _ _ _ _
  obtain ⟨fs, hfs⟩ := Warp.addFlag_frame { s.w with flags := flags, stopped := stopped, spAt := spAt } f ls
  rw [hp, hfs]
  split
  · exact ⟨_, _, _, _, _, _, _, _, rfl⟩
  · exact ⟨_, _, _, _, _, _, _, _, rfl⟩

section
variable {s : State} {r : Run} {d : Opd} {o : MemOp} (f : Nat) (ho : o ∈ s.pend) (hg : o.gid = s.g.id) (hw : o.wid = s.w.idx)
  (hf : o.flag = none) (hpc : o.pc = s.lastFor r d) (hreg : o.reg = d.toNat)
include ho hg hw hf hpc hreg

/-- R193: the operation that a slot publishes takes the slot's flag. -/
theorem publish_flag : ∃ q ∈ (s.publish r f d).pend, q = { o with flag := some f, accs := q.accs }
    ∧ q.accs.map Acc.bytes = o.accs.map Acc.bytes ∧ q.accs.map Acc.data = o.accs.map Acc.data := by
  simp only [State.publish]
  obtain ⟨x, hx, he, hb, hd⟩ := foldl_pass_keeps ho
    (s.ended.filter fun e => e.gid == s.g.id && e.wid == s.w.idx && (none : Option Nat).isNone && e.pc == s.lastFor r d && e.reg == d.toNat)
    (fun e => .cmd e.id) (fun e => .place (flagPlace e.gid e.wid f))
  have hhit : (x.gid == s.g.id && x.wid == s.w.idx && x.flag.isNone && x.pc == s.lastFor r d && x.reg == d.toNat) = true := by
    rw [he]; simp [hg, hw, hf, hpc, hreg]
  refine ⟨{ x with flag := some f }, ?_, by rw [he], hb, hd⟩
  have hmem := List.mem_map_of_mem (f := fun o : MemOp =>
    if (o.gid == s.g.id && o.wid == s.w.idx && o.flag.isNone && o.pc == s.lastFor r d && o.reg == d.toNat) = true
    then { o with flag := some f } else o) hx
  simp only [hhit, if_true] at hmem
  split
  · exact hmem
  · exact hmem

/-- R193: one assignment begins for each lane of that operation. -/
theorem publish_count {l : Nat} (hl : has o.lanes l = true) : s.w.flagCount f l < (s.publish r f d).w.flagCount f l := by
  have hhit : (o.gid == s.g.id && o.wid == s.w.idx && o.flag.isNone && o.pc == s.lastFor r d && o.reg == d.toNat) = true := by
    simp [hg, hw, hf, hpc, hreg]
  simp only [State.publish]
  generalize hls : List.flatMap _ _ ++ _ ++ _ ++ _ = ls
  have hmem : l ∈ ls := by
    rw [← hls]
    simp only [List.mem_append, List.mem_flatMap]
    exact .inl (.inl (.inl ⟨o, List.mem_filter.mpr ⟨ho, hhit⟩, mem_lanesOf.mpr hl⟩))
  have hlt : s.w.flagCount f l < (s.w.addFlag f ls).flagCount f l := by
    rw [Warp.flagCount_addFlag]
    exact Nat.lt_add_of_pos_right (List.count_pos_iff.mpr hmem)
  split
  · exact hlt
  · exact hlt

end

/-- R193: the last instruction that writes a published destination is behind no other of its clause. -/
theorem le_lastFor {s : State} {r : Run} {d : Opd} {p : Nat × Instr} (hp : p ∈ s.clauseWords 24 (r.start + 4)) (hf : p.1 < r.fall)
    (ha : assigns [p.2] d = true) : p.1 ≤ s.lastFor r d := by
  have hmem : p.1 ∈ ((s.clauseWords 24 (r.start + 4)).filter fun p => p.1 < r.fall && assigns [p.2] d).map Prod.fst :=
    List.mem_map_of_mem (List.mem_filter.mpr ⟨hp, by simp [hf, ha]⟩)
  rw [State.lastFor, List.foldl_eq_foldr]
  exact List.le_max_of_le hmem le_rfl

/-! ### The trailer (R15, R189) -/

theorem stopAt_marks {s t : State} (h : Marks s t) (r : Run) (sp : Bool) : Marks s (t.stopAt r sp) := by
  obtain ⟨pend, laps, landing, ended, engines, flags, stopped, spAt, rfl⟩ := h
  simp only [State.stopAt]
  split_ifs
  · exact ⟨_, _, _, _, _, _, _, _, rfl⟩
  · exact ⟨_, _, _, _, _, _, _, _, rfl⟩

/-- Stopping lanes at a safe point keeps what is on its way, and the counts. -/
theorem stopAt_keeps (s : State) (r : Run) (sp : Bool) : (s.stopAt r sp).pend = s.pend ∧ (s.stopAt r sp).w.flags = s.w.flags := by
  simp only [State.stopAt]
  split_ifs
  · exact ⟨rfl, rfl⟩
  · exact ⟨rfl, rfl⟩

/-- R29, R193: the state from which a run leaves its clause: its slots are published, and its lanes have stopped at a safe point. -/
noncomputable def State.trailed (s : State) (r : Run) (sp : Bool) (slots : List (Opd × Bool)) : State :=
  let t := slots.foldl (fun t p => t.publish r (if p.2 then r.fb else r.fa) p.1) s
  { t with ended := t.ended.filter fun e => !(e.gid == s.g.id && e.wid == s.w.idx && r.start ≤ e.pc && e.pc < r.fall) }.stopAt r sp

theorem trailed_marks (s : State) (r : Run) (sp : Bool) (slots : List (Opd × Bool)) : Marks s (s.trailed r sp slots) := by
  refine stopAt_marks ?_ _ _
  obtain ⟨pend, laps, landing, ended, engines, flags, stopped, spAt, h⟩ :=
    foldl_keeps (Marks s) _ (fun t p h => publish_marks h r (if p.2 then r.fb else r.fa) p.1) slots (Marks.refl s)
  exact ⟨_, _, _, _, _, _, _, _, by rw [h]⟩

theorem execClauseTrailer_eq {s : State} {r : Run} (hr : s.w.run = some r) (hl : r.left = 0)
    (he : (r.exit == .retire && s.endsHolding r) = false) (sp : Bool) (fl : Fin 8) (d3 d2 d1 : Opd) :
    exec (.clauseTrailer sp fl d3 d2 d1) s = .next (((s.trailed r sp (trailerSlots fl d1 d2 d3)).leaveClause r).getD s) := by
  show execClauseTrailer sp fl d3 d2 d1 s = _
  simp only [execClauseTrailer, hr, hl, he]
  rfl

end Sys2Proof.Machine
end

section
/-! SUPPORT. What an access's translation reads of the state (R358 to R366, R284, R399). -/

namespace Sys2Proof.Machine

/-- Two states translate addresses alike: the same modules, ports, tables, blocks, tags, codewords and stores. -/
structure SameMaps (s t : State) : Prop where
  md : t.md = s.md
  ports : t.ports = s.ports
  parts : t.parts = s.parts
  kv : t.kv = s.kv
  tags : t.tagsMem = s.tagsMem
  ecc : t.ecc = s.ecc
  pool : t.poolSz = s.poolSz

theorem spread_congr {s t : State} (h : t.md = s.md) (n : Nat) (l : List Dword) : t.spread n l = s.spread n l := by
  induction n generalizing l with
  | zero => rfl
  | succ n ih => simp only [State.spread, ih, State.joined, h]

section
variable {s t : State} (h : SameMaps s t)
include h

theorem linked_congr (g : Nat) : t.linked g = s.linked g := by
  simp only [State.linked, State.reachable, State.localChip, State.cutOff, State.upEnds, spread_congr h.md, h.md, h.ports]

theorem vf?_congr (p v : Nat) : t.vf? p v = s.vf? p v := by simp only [State.vf?, State.part?, h.parts]
theorem localChip_congr (g : Nat) : t.localChip g = s.localChip g := by simp only [State.localChip, h.md]
theorem kvBlock_congr (c i b : Nat) : t.kvBlock c i b = s.kvBlock c i b := by
  simp only [State.kvBlock, State.kvChip, localChip_congr h, h.kv]
theorem keyOk_congr (p v k : Nat) : t.keyOk p v k = s.keyOk p v k := by simp only [State.keyOk, h.md]
theorem tagAt_congr (a : Nat) : t.tagAt a = s.tagAt a := by simp only [State.tagAt, h.tags]
theorem viewNo_congr (f n : Nat) : t.viewNo f n = s.viewNo f n := by simp only [State.viewNo, h.md]
theorem keySerial_congr (k : Nat) : t.keySerial k = s.keySerial k := by simp only [State.keySerial, h.md]
theorem eccAt_congr (k : Nat) : t.eccAt k = s.eccAt k := by simp only [State.eccAt, h.ecc]
theorem dwsSize_congr (c : Nat) : t.dwsSize c = s.dwsSize c := by simp only [State.dwsSize, State.poolSize, h.pool]

theorem xlate_congr (p v va : Nat) (wr : Bool) : t.xlate p v va wr = s.xlate p v va wr := by
  simp only [State.xlate, State.xlateKv, vf?_congr h, kvBlock_congr h, linked_congr h, keyOk_congr h, tagAt_congr h,
    viewNo_congr h, keySerial_congr h]

theorem probe_congr (p v va : Nat) (wr : Bool) : t.probe p v va wr = s.probe p v va wr := by
  simp only [State.probe, xlate_congr h, eccAt_congr h]

theorem unitAt_congr (chip p v : Nat) (a : Dword) (n : Nat) : t.unitAt chip p v a n = s.unitAt chip p v a n := by
  simp only [State.unitAt, State.objAt, State.objMem, probe_congr h, dwsSize_congr h]

theorem taskAway_congr (hg : t.g = s.g) : t.taskAway = s.taskAway := by
  simp only [State.taskAway, unitAt_congr h, hg]

end

end Sys2Proof.Machine
end

section
/-! SUPPORT. Where the lanes of a run stand once they have left their clause (R15, R17, R20, R207, R209, R210). -/

namespace Sys2Proof.Machine

/-! ### Lanes that do not fault (R20, R23) -/

theorem mask_and_zero (m : LaneMask) : m &&& 0 = 0 := BitVec.and_zero
theorem mask_and_not_zero (m : LaneMask) : m &&& ~~~ (0 : LaneMask) = m := by
  show m &&& ~~~ 0#64 = m
  rw [BitVec.not_zero, BitVec.and_allOnes]

/-- R20: no lane that does not fault is parked. -/
theorem Warp.park_none (w : Warp) (pc : Nat) (next : Exit) (b : LaneMask) : w.park pc 0 next b = w := by simp [Warp.park]

theorem Warp.taken_self (w : Warp) (m : LaneMask) : w.taken w m = 0 := by simp [Warp.taken]

theorem stands_singleton (pc : Nat) (m : LaneMask) (p l : Nat) : stands [⟨pc, m⟩] p l ↔ p = pc ∧ has m l = true := by
  simp [stands_cons, eq_comm (a := p)]

/-- R15: sets of lanes that return one after another. -/
theorem foldl_returnAt (subs : List Sub) (w : Warp) : ∃ t, subs.foldl (fun v e => v.returnAt e.pc e.lanes) w = { w with pcs := t }
    ∧ ∀ p l, stands t p l ↔ w.standsAt p l ∨ stands subs p l := by
  induction subs generalizing w with
  | nil => exact ⟨w.pcs, rfl, fun p l => by simp [Warp.standsAt_iff]⟩
  | cons e subs ih =>
    obtain ⟨t, ht, hs⟩ := ih (w.returnAt e.pc e.lanes)
    refine ⟨t, ht, fun p l => ?_⟩
    rw [hs, Warp.standsAt_returnAt, stands_cons, eq_comm (a := p)]
    tauto

/-- R15: lanes that do not fault stand in the table at their next addresses. -/
theorem Warp.reenter_eq (w : Warp) (subs : List Sub) :
    ∃ t, w.reenter 0 subs = { w with pcs := t } ∧ ∀ p l, stands t p l ↔ w.standsAt p l ∨ stands subs p l := by
  obtain ⟨t, ht, hs⟩ := foldl_returnAt (subs.foldl (fun t e => insertSub t e.pc e.lanes) []) w
  refine ⟨t, ?_, fun p l => ?_⟩
  · simp only [Warp.reenter, mask_and_zero, Warp.park_none, Warp.taken_self, mask_and_not_zero]
    exact ht
  · rw [hs, stands_foldl_insertSub]
    simp

/-! ### Wait sets that lanes enter (R17) -/

theorem waiting_append (w : Warp) (k pc : Nat) (m : LaneMask) :
    Warp.waiting { w with waits := w.waits ++ [⟨k, pc, m⟩] } k = w.waiting k ||| m := by
  simp [Warp.waiting, List.foldl_append]

/-- R17: lanes that enter a wait set, which their coming may release. -/
theorem enterWait_eq (s : State) (k pc : Nat) {m : LaneMask} (hm : m ≠ 0) :
    ∃ p, s.enterWait k pc m = { s with pend := p, w := Warp.settle { s.w with waits := s.w.waits ++ [⟨k, pc, m⟩] } k } := by
  obtain ⟨p, hp⟩ := State.putMasks_frame (s.setW { s.w with waits := s.w.waits ++ [⟨k, pc, m⟩] })
    (Warp.settle { s.w with waits := s.w.waits ++ [⟨k, pc, m⟩] } k)
  exact ⟨p, by rw [State.enterWait, if_neg hm]; exact hp⟩

/-- R17, R19: the last lane of a mask to enter its wait set releases the set; else the lanes wait in it. -/
theorem settle_entered (w : Warp) (k pc : Nat) (m : LaneMask) :
    let u := Warp.settle { w with waits := w.waits ++ [⟨k, pc, m⟩] } k
    if w.getM k &&& ~~~ (w.waiting k ||| m) = 0 then
      (∀ q ∈ u.waits, q.k ≠ k)
      ∧ ∀ p l, u.standsAt p l ↔ w.standsAt p l ∨ (p = pc ∧ has m l = true) ∨ ∃ q ∈ w.waits, q.k = k ∧ q.pc = p ∧ has q.lanes l = true
    else u.waits = w.waits ++ [⟨k, pc, m⟩] ∧ u.pcs = w.pcs := by
  have hw : Warp.waiting { w with waits := w.waits ++ [⟨k, pc, m⟩] } k = w.waiting k ||| m := waiting_append w k pc m
  split
  next h =>
    obtain ⟨h1, h2⟩ := Warp.settle_released (w := { w with waits := w.waits ++ [⟨k, pc, m⟩] }) (k := k) (by rw [hw]; exact h)
    refine ⟨fun q hq => ?_, fun p l => ?_⟩
    · rw [h1] at hq
      simpa using (List.mem_filter.mp hq).2
    · rw [h2]
      simp only [List.mem_append, List.mem_singleton, or_and_right, exists_or, exists_eq_left, true_and, eq_comm (a := pc)]
      exact or_congr Iff.rfl or_comm
  next h =>
    rw [Warp.settle_waits (w := { w with waits := w.waits ++ [⟨k, pc, m⟩] }) (by rw [hw]; exact h)]
    exact ⟨rfl, rfl⟩

/-! ### Retirement (R8, R207) -/

/-- R8: a mask loses the lanes that retire. -/
theorem retireMasks (m : LaneMask) (n : Nat) (w : Warp) :
    let u := (List.range n).foldl (fun v k => v.setM k (v.getM k &&& ~~~ m)) w
    u.live = w.live ∧ (∀ k, k < n → u.getM k = w.getM k &&& ~~~ m) ∧ ∀ k, n ≤ k → u.getM k = w.getM k := by
  induction n with
  | zero => exact ⟨rfl, fun k hk => absurd hk (Nat.not_lt_zero k), fun _ _ => rfl⟩
  | succ n ih =>
    obtain ⟨hl, hlow, hhigh⟩ := ih
    simp only [List.range_succ, List.foldl_append, List.foldl_cons, List.foldl_nil]
    refine ⟨?_, fun k hk => ?_, fun k hk => ?_⟩
    · rw [Warp.setM_frame]; exact hl
    · rw [Warp.getM_setM]
      by_cases hkn : k = n
      · rw [if_pos hkn, hhigh n le_rfl, hkn]
      · rw [if_neg hkn, hlow k (by omega)]
    · rw [Warp.getM_setM, if_neg (by omega), hhigh k (by omega)]

/-- R8, R207: lanes that retire leave the live ones and every mask. -/
theorem Warp.retire_eq (w : Warp) (m : LaneMask) :
    (w.retire m).live = w.live &&& ~~~ m ∧ ∀ k, k < 12 → (w.retire m).getM k = w.getM k &&& ~~~ m := by
  obtain ⟨hl, hm, -⟩ := retireMasks m 12 { w with live := w.live &&& ~~~ m, flags := w.flags.filter fun p => !has m (p.1 % 64) }
  exact ⟨hl, hm⟩

theorem endSeen_frame (s : State) (m : LaneMask) : ∃ p, s.endSeen m = { s with pend := p } := by
  simp only [State.endSeen]
  split
  · exact ⟨s.pend, rfl⟩
  · split
    · exact ⟨_, rfl⟩
    · exact ⟨s.pend, rfl⟩

/-- R8, R207: lanes retire of which their warp has others left. -/
theorem retireSel_some {s : State} {m : LaneMask} (ht : s.taskAway = false) (hl : s.w.live &&& ~~~ m ≠ 0) :
    ∃ p, s.retireSel m = some { s with pend := p, w := s.w.retire m } := by
  obtain ⟨q, hq⟩ := endSeen_frame s m
  obtain ⟨p, hp⟩ := State.putMasks_frame (s.endSeen m) (s.w.retire m)
  have hlive : ((s.endSeen m).putMasks (s.w.retire m)).w.live ≠ 0 := by
    rw [hp]; exact (s.w.retire_eq m).1 ▸ hl
  refine ⟨p, ?_⟩
  simp only [State.retireSel, ht, Bool.false_eq_true, if_false, bne_iff_ne, ne_eq, hlive, not_false_eq_true, if_true]
  rw [hp, hq]

/-! ### Leaving the clause -/

/-- R177: the run has ended, and the x registers of its clause have lost their values. -/
def State.leaving (s : State) : State := (s.setW { s.w with run := none, x := freeRows s.free 8 }).spend 512

section
variable {s : State} {r : Run} (hf : r.faulted = 0)
include hf

theorem leave_fall (h : r.exit = .fall) :
    s.leaveClause r = some (s.leaving.setW (s.leaving.w.reenter 0 [⟨r.fall, r.lanes⟩])) := by
  simp only [State.leaveClause, h, hf]; rfl

theorem leave_goto {ts : List Sub} (h : r.exit = .goto ts) :
    s.leaveClause r = some (s.leaving.setW (s.leaving.w.reenter 0 ts)) := by
  simp only [State.leaveClause, h, hf]; rfl

theorem leave_block {m : LaneMask} (h : r.exit = .block m) :
    s.leaveClause r = some (s.leaving.setW (s.leaving.w.returnAt r.fall (r.lanes &&& ~~~ m))) := by
  simp only [State.leaveClause, h, hf, mask_and_zero, Warp.park_none, Warp.taken_self, mask_and_not_zero]; rfl

theorem leave_sleep {n : Nat} (h : r.exit = .sleep n) :
    s.leaveClause r = some (s.leaving.setW (s.leaving.w.lieDown r.fall r.lanes (s.cyc s.coreNo + n))) := by
  simp only [State.leaveClause, h, hf, mask_and_zero, Warp.park_none, Warp.taken_self, mask_and_not_zero]; rfl

theorem leave_yield (h : r.exit = .yield) :
    s.leaveClause r = some (s.leaving.setW { s.leaving.w.reenter 0 [⟨r.fall, r.lanes⟩] with
      yielding := some (Yielding.mk s.leaving.yieldSet (s.cyc s.coreNo + 64)) }) := by
  simp only [State.leaveClause, h, hf]; rfl

theorem leave_wait {k : Nat} (h : r.exit = .wait k) : s.leaveClause r = some (s.leaving.enterWait k r.fall r.lanes) := by
  simp only [State.leaveClause, h, hf, mask_and_zero, Warp.park_none, Warp.taken_self, mask_and_not_zero]; rfl

end

theorem leave_retire {s : State} {r : Run} (h : r.exit = .retire) : s.leaveClause r = s.leaving.retireSel r.lanes := by
  simp only [State.leaveClause, h]; rfl

/-- What every end of a clause keeps: memory and registers, but for the x registers (R177); and the run has ended. -/
structure EndsRun (s t : State) : Prop where
  memory : ∀ a, t.rd a = s.rd a
  regs : KeepsRegs { s.w with x := t.w.x } t.w
  run : t.w.run = none

/-- Marking for flags and stops leaves where lanes stand and wait, the clock, and whether the task's record can be reached. -/
theorem Marks.same {s u : State} (h : Marks s u) : u.mem = s.mem ∧ u.w.pcs = s.w.pcs ∧ u.w.waits = s.w.waits
    ∧ u.w.asleep = s.w.asleep ∧ u.w.live = s.w.live ∧ u.w.m = s.w.m ∧ u.cyc u.coreNo = s.cyc s.coreNo ∧ u.taskAway = s.taskAway := by
  obtain ⟨pend, laps, landing, ended, engines, flags, stopped, spAt, rfl⟩ := h
  exact ⟨rfl, rfl, rfl, rfl, rfl, rfl, rfl, taskAway_congr ⟨rfl, rfl, rfl, rfl, rfl, rfl, rfl⟩ rfl⟩

theorem Marks.stands {s u : State} (h : Marks s u) (p l : Nat) : u.leaving.w.standsAt p l ↔ s.w.standsAt p l := by
  obtain ⟨-, hpcs, -⟩ := h.same
  rw [Warp.standsAt_iff, Warp.standsAt_iff, ← hpcs]
  rfl

/-- Where the lanes go, once marked, touches no register. -/
theorem Marks.endsRun {s u t : State} (h : Marks s u) (hm : t.mem = u.mem) (hw : t.w = { u.leaving.w with
    pcs := t.w.pcs, waits := t.w.waits, asleep := t.w.asleep, yielding := t.w.yielding }) : EndsRun s t := by
  obtain ⟨pend, laps, landing, ended, engines, flags, stopped, spAt, rfl⟩ := h
  exact ⟨fun a => by rw [State.rd, hm]; rfl, ⟨(congrArg Warp.v hw :), (congrArg Warp.s hw :), rfl, (congrArg Warp.flg hw :),
    (congrArg Warp.gen hw :), (congrArg Warp.seg hw :)⟩, (congrArg Warp.run hw :)⟩

section
variable {s u : State} {r : Run} (hu : Marks s u) (hf : r.faulted = 0)
include hu hf

/-- R15: the lanes of a clause that ends without a transfer go on behind it. -/
theorem ends_fall (h : r.exit = .fall) : ∃ t, u.leaveClause r = some t ∧ EndsRun s t
    ∧ (∀ p l, t.w.standsAt p l ↔ s.w.standsAt p l ∨ p = r.fall ∧ has r.lanes l = true)
    ∧ t.pend = u.pend ∧ t.w.flags = u.w.flags := by
  obtain ⟨t, ht, hs⟩ := u.leaving.w.reenter_eq [⟨r.fall, r.lanes⟩]
  refine ⟨_, leave_fall hf h, ?_⟩
  rw [ht]
  exact ⟨hu.endsRun rfl rfl, fun p l => (hs p l).trans (or_congr (hu.stands p l) (stands_singleton ..)), rfl, rfl⟩

/-- R201, R206: each set of lanes goes to its own address. -/
theorem ends_goto {ts : List Sub} (h : r.exit = .goto ts) : ∃ t, u.leaveClause r = some t ∧ EndsRun s t
    ∧ ∀ p l, t.w.standsAt p l ↔ s.w.standsAt p l ∨ ∃ g ∈ ts, g.pc = p ∧ has g.lanes l = true := by
  obtain ⟨t, ht, hs⟩ := u.leaving.w.reenter_eq ts
  refine ⟨_, leave_goto hf h, ?_⟩
  rw [ht]
  exact ⟨hu.endsRun rfl rfl, fun p l => (hs p l).trans (or_congr (hu.stands p l) Iff.rfl)⟩

/-- R54, R252: lanes that are served elsewhere leave, the others go on. -/
theorem ends_block {m : LaneMask} (h : r.exit = .block m) : ∃ t, u.leaveClause r = some t ∧ EndsRun s t
    ∧ ∀ p l, t.w.standsAt p l ↔ s.w.standsAt p l ∨ (p = r.fall ∧ has r.lanes l = true) ∧ has m l = false := by
  refine ⟨_, leave_block hf h, hu.endsRun rfl rfl, fun p l => (Warp.standsAt_returnAt ..).trans (or_congr (hu.stands p l) ?_)⟩
  rw [has_and_not, Bool.and_eq_true, Bool.not_eq_true', and_assoc]

/-- R210: the lanes sleep. -/
theorem ends_sleep {n : Nat} (h : r.exit = .sleep n) (hm : r.lanes ≠ 0) : ∃ t, u.leaveClause r = some t ∧ EndsRun s t
    ∧ t.w.pcs = s.w.pcs ∧ t.w.asleep = s.w.asleep ++ [⟨r.fall, r.lanes, s.cyc s.coreNo + n⟩] := by
  obtain ⟨-, hpcs, -, hasleep, -, -, hcyc, -⟩ := hu.same
  refine ⟨_, leave_sleep hf h, ?_⟩
  rw [Warp.lieDown, if_neg hm]
  refine ⟨hu.endsRun rfl rfl, hpcs, ?_⟩
  rw [← hasleep, ← hcyc]
  rfl

/-- R209: the lanes go on behind their clause, and their warp yields. -/
theorem ends_yield (h : r.exit = .yield) : ∃ t, u.leaveClause r = some t ∧ EndsRun s t
    ∧ (∀ p l, t.w.standsAt p l ↔ s.w.standsAt p l ∨ p = r.fall ∧ has r.lanes l = true)
    ∧ t.w.yielding.map Yielding.until_ = some (s.cyc s.coreNo + 64) := by
  obtain ⟨-, -, -, -, -, -, hcyc, -⟩ := hu.same
  obtain ⟨t, ht, hs⟩ := u.leaving.w.reenter_eq [⟨r.fall, r.lanes⟩]
  refine ⟨_, leave_yield hf h, ?_⟩
  rw [ht, hcyc]
  exact ⟨hu.endsRun rfl rfl, fun p l => (hs p l).trans (or_congr (hu.stands p l) (stands_singleton ..)), rfl⟩

/-- R17: the lanes enter a wait set. -/
theorem ends_wait {k : Nat} (h : r.exit = .wait k) (hm : r.lanes ≠ 0) : ∃ t, u.leaveClause r = some t ∧ EndsRun s t
    ∧ if s.w.getM k &&& ~~~ (s.w.waiting k ||| r.lanes) = 0 then
        (∀ q ∈ t.w.waits, q.k ≠ k)
        ∧ ∀ p l, t.w.standsAt p l ↔ s.w.standsAt p l
            ∨ (p = r.fall ∧ has r.lanes l = true) ∨ ∃ q ∈ s.w.waits, q.k = k ∧ q.pc = p ∧ has q.lanes l = true
      else t.w.waits = s.w.waits ++ [⟨k, r.fall, r.lanes⟩] ∧ t.w.pcs = s.w.pcs := by
  obtain ⟨p, hp⟩ := enterWait_eq u.leaving k r.fall hm
  refine ⟨_, (leave_wait hf h).trans (congrArg some hp), hu.endsRun rfl ?_, ?_⟩
  · dsimp only
    rw [Warp.settle_frame]
  · have hset := settle_entered u.leaving.w k r.fall r.lanes
    obtain ⟨pend, laps, landing, ended, engines, flags, stopped, spAt, rfl⟩ := hu
    exact hset

end

/-- R8, R207: lanes retire whose warp has others left. -/
theorem ends_retire {s u : State} {r : Run} (hu : Marks s u) (h : r.exit = .retire) (ht : s.taskAway = false)
    (hl : s.w.live &&& ~~~ r.lanes ≠ 0) : ∃ t, u.leaveClause r = some t ∧ (∀ a, t.rd a = s.rd a)
      ∧ t.w.live = s.w.live &&& ~~~ r.lanes ∧ ∀ k, k < 12 → t.w.getM k = s.w.getM k &&& ~~~ r.lanes := by
  obtain ⟨hmem, -, -, -, hlive, hm, -, haway⟩ := hu.same
  have hta : u.leaving.taskAway = u.taskAway := taskAway_congr ⟨rfl, rfl, rfl, rfl, rfl, rfl, rfl⟩ rfl
  obtain ⟨p, hp⟩ := retireSel_some (s := u.leaving) (m := r.lanes) (hta.trans (haway.trans ht)) (by rw [← hlive] at hl; exact hl)
  obtain ⟨hlive', hmask⟩ := u.leaving.w.retire_eq r.lanes
  refine ⟨_, (leave_retire h).trans hp, fun a => congrArg (readByte · a) hmem, ?_, fun k hk => ?_⟩
  · rw [← hlive]; exact hlive'
  · have hget : u.leaving.w.getM k = s.w.getM k := congrArg (getKey · k 0) hm
    exact hget ▸ hmask k hk

end Sys2Proof.Machine
end

section
/-! SUPPORT. Subgroups and lanes that come back: parked ones, sleepers, late ones, and the end of a yield (R20 to R23, R209, R210). -/

namespace Sys2Proof.Machine



/-- R22: a parked subgroup of the selected warp returns if nothing of it has failed and none has been complete before it. -/
theorem parkedReturn_goes {s : State} {k : Nat} {z : Parked} {a : Nat} (hgone : s.w.gone = false) (hz : s.w.parked[k]? = some z)
    (hl : s.lostOf z.lanes = []) (ha : z.back = some a)
    (hfirst : ∀ q ∈ s.w.parked, ∀ b, q.back = some b → a < b ∨ a = b ∧ z.pc ≤ q.pc) :
    exec (.parkedSubgroupReturn s.g.id s.w.idx k) s = .next (s.unpark k z) := by
  have hall : s.w.parked.all z.before = true := by
    refine List.all_eq_true.mpr fun q hq => ?_
    simp only [Parked.before, ha]
    cases hb : q.back with
    | none => rfl
    | some b => simpa using hfirst q hq b hb
  show execParkedSubgroupReturn s.g.id s.w.idx k s = _
  simp only [execParkedSubgroupReturn, isSel_self hgone, if_true, State.parkedReturn, hz, hl, List.isEmpty_nil, Bool.not_true,
    Bool.false_eq_true, if_false, hall]

/-- A subgroup that leaves its parked place. -/
theorem Warp.setParked_zero (w : Warp) (k : Nat) : w.setParked k 0 = { w with parked := w.parked.eraseIdx k } := by
  simp [Warp.setParked]

section
variable (s : State) (k : Nat) (z : Parked)

/-- R22: a subgroup whose clause went on stands in the table again. -/
theorem unpark_fall (h : z.next = .fall) :
    s.unpark k z = s.setW (Warp.returnAt { s.w with parked := s.w.parked.eraseIdx k } z.pc (z.lanes &&& ~~~ z.blocked)) := by
  simp only [State.unpark, Warp.setParked_zero, h]
  rfl

/-- R210: a subgroup whose clause put it to sleep sleeps on. -/
theorem unpark_sleep {n : Nat} (h : z.next = .sleep n) (hm : z.lanes &&& ~~~ z.blocked ≠ 0) :
    s.unpark k z = s.setW { s.w with
      parked := s.w.parked.eraseIdx k, asleep := s.w.asleep ++ [⟨z.pc, z.lanes &&& ~~~ z.blocked, n⟩] } := by
  simp only [State.unpark, Warp.setParked_zero, h, Warp.lieDown, if_neg hm]
  rfl

/-- R17: a subgroup whose clause sent it to a wait set enters it. -/
theorem unpark_wait {n : Nat} (h : z.next = .wait n) (hm : z.lanes &&& ~~~ z.blocked ≠ 0) :
    ∃ p, s.unpark k z = { s with pend := p, w := Warp.settle { s.w with
      parked := s.w.parked.eraseIdx k, waits := s.w.waits ++ [⟨n, z.pc, z.lanes &&& ~~~ z.blocked⟩] } n } := by
  obtain ⟨p, hp⟩ := enterWait_eq (s.setW { s.w with parked := s.w.parked.eraseIdx k }) n z.pc hm
  refine ⟨p, ?_⟩
  simp only [State.unpark, Warp.setParked_zero, h]
  exact hp

end

/-- R210: a sleeper of the selected warp whose time has come returns. -/
theorem sleepExpiry_goes {s : State} {k : Nat} {z : Sleeper} (hgone : s.w.gone = false) (hid : s.g.id ≠ 0)
    (hz : s.w.asleep[k]? = some z) (ht : z.wake ≤ s.cyc s.coreNo) :
    exec (.sleepExpiry s.g.id s.w.idx k) s =
      .next (s.setW (Warp.returnAt { s.w with asleep := s.w.asleep.eraseIdx k } z.pc z.lanes)) := by
  have ht' : z.wake ≤ s.cyc (16 * s.g.chip + s.g.core) := ht
  show execSleepExpiry s.g.id s.w.idx k s = _
  simp only [execSleepExpiry, group?_self hgone hid, mapWarp_self hgone, Warp.wake, hz, ht', if_true]

/-- R209: a yield of the selected warp ends at its cycle. -/
theorem yieldTimeout_goes {s : State} {y : Yielding} (hgone : s.w.gone = false) (hid : s.g.id ≠ 0) (hy : s.w.yielding = some y)
    (ht : y.until_ ≤ s.cyc s.coreNo) :
    exec (.yieldTimeout s.g.id s.w.idx) s = .next { s with w := { s.w with yielding := none } } := by
  have ht' : y.until_ ≤ s.cyc (16 * s.g.chip + s.g.core) := ht
  show execYieldTimeout s.g.id s.w.idx s = _
  simp only [execYieldTimeout, group?_self hgone hid, mapWarp_self hgone, hy, ht', if_true]
  rfl

/-- R21, R23: late lanes at the selected warp's head are split off while there is room. -/
theorem lateSplit_goes {s : State} {e : Sub} (hgone : s.w.gone = false) (he : s.w.head = some e) (hm : s.lateLanes e ≠ 0)
    (hl : s.w.late ≠ 0) (hr : s.w.run = none) (hp : s.w.parkedCount < 4) (hg : s.g.issues = true) :
    exec (.lateSplit s.g.id s.w.idx) s = .next (s.setW { s.w with
      pcs := removeSub s.w.pcs e.pc (s.lateLanes e), parked := s.w.parked ++ [⟨e.pc, s.lateLanes e, .fall, 0, none⟩] }) := by
  show execLateSplit s.g.id s.w.idx s = _
  simp only [execLateSplit, isSel_self hgone, if_true, State.splitLate, he]
  rw [if_neg]
  simpa [hr, hg, hp] using And.intro hm hl

end Sys2Proof.Machine
end
section
open Sys2Proof Sys2Proof.Machine

/-- Settles O31: at the trailer the run's lanes leave by its exit (`ends_fall`, `ends_goto` and the others, after `publish_flag` and
`publish_count`); parked, sleeping, late and yielding ones come back as their lemmas say (`parkedReturn_goes`, `sleepExpiry_goes`). -/
theorem clauseEnd : Obligations.ClauseEnd := by
  refine ⟨fun s r sp fl d3 d2 d1 => ?_, fun s k e z n hgone => ?_⟩
  · intro i keeps moves own hr hl hf
    have hu := trailed_marks s r sp (trailerSlots fl d1 d2 d3)
    have of {p : State → Prop} (he : (r.exit == .retire && s.endsHolding r) = false)
        (h : ∃ t, (s.trailed r sp (trailerSlots fl d1 d2 d3)).leaveClause r = some t ∧ p t) : Goes (exec i s) p := by
      obtain ⟨t, ht, hp⟩ := h
      exact ⟨t, by rw [execClauseTrailer_eq hr hl he, ht]; rfl, hp⟩
    have kept {t : State} (h : EndsRun s t) : keeps t := ⟨h.memory, h.regs, h.run⟩
    refine ⟨fun h => of (by simp [h]) ?_, fun ts h => of (by simp [h]) ?_, fun m h => of (by simp [h]) ?_,
      fun n h hm => of (by simp [h]) ?_, fun h => of (by simp [h]) ?_, fun k h hm => of (by simp [h]) ?_,
      fun h he ht hl => of (by simp [he]) (ends_retire hu h ht hl)⟩
    · obtain ⟨t, ht, hk, hs, hpend, hflags⟩ := ends_fall hu hf h
      refine ⟨t, ht, kept hk, hs, fun d b hslots o ho hg hw hfl hpc hreg => ⟨fun p hp hlt ha => hpc ▸ le_lastFor hp hlt ha, ?_⟩⟩
      obtain ⟨hpend', hflags'⟩ := stopAt_keeps { s.publish r (if b then r.fb else r.fa) d with
        ended := (s.publish r (if b then r.fb else r.fa) d).ended.filter fun e =>
          !(e.gid == s.g.id && e.wid == s.w.idx && r.start ≤ e.pc && e.pc < r.fall) } r sp
      rw [hslots] at hpend hflags
      have hpend2 := hpend.trans hpend'
      have hflags2 := hflags.trans hflags'
      refine ⟨?_, fun l hl => ?_⟩
      · rw [hpend2]
        exact publish_flag _ ho hg hw hfl hpc hreg
      · have hcount := publish_count (if b then r.fb else r.fa) ho hg hw hfl hpc hreg hl
        simp only [Warp.flagCount] at hcount ⊢
        rw [hflags2]
        exact hcount
    · obtain ⟨t, ht, hk, hs⟩ := ends_goto hu hf h
      exact ⟨t, ht, kept hk, hs⟩
    · obtain ⟨t, ht, hk, hs⟩ := ends_block hu hf h
      exact ⟨t, ht, kept hk, hs⟩
    · obtain ⟨t, ht, hk, hs⟩ := ends_sleep hu hf h hm
      exact ⟨t, ht, kept hk, hs⟩
    · obtain ⟨t, ht, hk, hs⟩ := ends_yield hu hf h
      exact ⟨t, ht, kept hk, hs⟩
    · obtain ⟨t, ht, hk, hs⟩ := ends_wait hu hf h hm
      exact ⟨t, ht, kept hk, hs⟩
  · intro keeps goes returns
    have of {p : State → Prop} (h : keeps (s.unpark k z) ∧ (s.unpark k z).w.parked = s.w.parked.eraseIdx k ∧ p (s.unpark k z)) :
        returns p := fun hz hl ⟨a, ha, hfirst⟩ => ⟨_, parkedReturn_goes hgone hz hl ha hfirst, h⟩
    refine ⟨fun h => of ?_, fun h hm => of ?_, fun h hm => of ?_, fun z hz hid ht => ?_, fun y hy hid ht => ?_,
      fun he hm hl hr hp hg => ?_⟩
    · rw [unpark_fall s k z h]
      exact ⟨⟨fun _ => rfl, ⟨rfl, rfl, rfl, rfl, rfl, rfl⟩, rfl⟩, rfl, fun p l => Warp.standsAt_returnAt ..⟩
    · rw [unpark_sleep s k z h hm]
      exact ⟨⟨fun _ => rfl, ⟨rfl, rfl, rfl, rfl, rfl, rfl⟩, rfl⟩, rfl, rfl, rfl⟩
    · obtain ⟨p, hp⟩ := unpark_wait s k z h hm
      rw [hp]
      refine ⟨⟨fun _ => rfl, ?_, rfl⟩, ?_, settle_entered { s.w with parked := s.w.parked.eraseIdx k } n z.pc _⟩
      · rw [Warp.settle_frame]
        exact ⟨rfl, rfl, rfl, rfl, rfl, rfl⟩
      · rw [Warp.settle_frame]
    · exact ⟨_, sleepExpiry_goes hgone hid hz ht, ⟨fun _ => rfl, ⟨rfl, rfl, rfl, rfl, rfl, rfl⟩, rfl⟩, rfl,
        fun p l => Warp.standsAt_returnAt ..⟩
    · exact ⟨_, yieldTimeout_goes hgone hid hy ht, rfl⟩
    · exact ⟨_, lateSplit_goes hgone he hm hl hr hp hg, ⟨fun _ => rfl, ⟨rfl, rfl, rfl, rfl, rfl, rfl⟩, rfl⟩, rfl, rfl⟩
end

section
/-! SUPPORT. A group of a record that becomes resident, and groups that a chip takes from another (R6, R7, R335, R354 to R356). -/

namespace Sys2Proof.Machine

/-! ### A warp as it starts (R7) -/

section
variable (f idx : Nat) (b : Start)

theorem Warp.start_pcs : (Warp.start f idx b).pcs = [⟨b.entry, BitVec.allOnes 64⟩] := by
  simp only [Warp.start]; split <;> rfl
theorem Warp.start_live : (Warp.start f idx b).live = BitVec.allOnes 64 := by
  simp only [Warp.start]; split <;> rfl
theorem Warp.start_nregs : (Warp.start f idx b).nregs = b.kern.regs := by
  simp only [Warp.start]; split <;> rfl

/-- R7: the argument's halves stand in s2 and s3. -/
theorem Warp.start_arg : (Warp.start f idx b).getS 3 ++ (Warp.start f idx b).getS 2 = b.arg := by
  have h (k : Nat) : (Warp.start f idx b).getS k =
      if k = 3 then (b.arg >>> 32).truncate 32 else if k = 2 then b.arg.truncate 32 else (Warp.start f idx b).getS k := by
    simp only [Warp.start]
    split <;> simp only [Warp.getS_putV, Warp.getS_putS] <;> split_ifs <;> rfl
  rw [h 3, h 2]
  simp only [if_true, if_neg (show ¬ (2 = 3) by decide), BitVec.truncate_eq_setWidth]
  ext i hi
  simp only [BitVec.getElem_append, BitVec.getElem_setWidth, BitVec.getLsbD_ushiftRight]
  split
  · exact BitVec.getLsbD_eq_getElem hi
  · rw [show 32 + (i - 32) = i by omega]
    exact BitVec.getLsbD_eq_getElem hi

end

theorem startWarps_length (f n : Nat) (b : Start) : (startWarps f n b).length = n := by simp [startWarps]

theorem mem_startWarps {f n : Nat} {b : Start} {w : Warp} (h : w ∈ startWarps f n b) : ∃ i k, w = Warp.start i k b := by
  obtain ⟨k, -, rfl⟩ := List.mem_map.mp h
  exact ⟨_, _, rfl⟩

/-! ### A group that becomes resident (R6) -/

/-- R40: a kernel without a constant store has nothing staged. -/
theorem stage_none (s : State) (chip core : Nat) {k : Kernel} (h : k.consz = 0) (room : List (Nat × Nat)) :
    s.stage chip core k room = s.wrs [] := by
  simp [State.stage, h]

/-- R6: a group of a kernel without a constant store stands behind the others, with fresh warps. -/
theorem reside_stands (s : State) (q : NewGroup) (seat : Seat) (hc : q.kern.consz = 0) :
    (s.reside q seat).mem = s.mem ∧ (s.reside q seat).g = s.g ∧ (s.reside q seat).records = s.records
    ∧ ∃ g, (s.reside q seat).groups = s.groups ++ [g] ∧ g.id = s.nextId ∧ g.chip = q.chip ∧ g.core = q.core ∧ g.part = q.part
      ∧ g.vf = q.vf ∧ g.kern = q.kern ∧ g.coord = q.coord ∧ g.slot = q.slot
      ∧ ∃ b, g.others = startWarps s.free q.warps b ∧ b.kern = q.kern ∧ b.entry = q.entry ∧ b.arg = q.arg := by
  simp only [State.reside, stage_none _ _ _ hc]
  exact ⟨rfl, rfl, rfl, _, rfl, rfl, rfl, rfl, rfl, rfl, rfl, rfl, rfl, _, rfl, rfl, rfl, rfl⟩

/-- R6, R356: the group that a record's dispatch makes resident. -/
theorem dispatchGroup_resides {u : State} {chip core n : Nat} {rest : List Nat} {r : Record} {seat : Seat}
    (hr : r.todo.find? (fun t => t.1 == chip) = some (chip, n :: rest))
    (hs : u.seat? chip core r.kern r.kern.warps (r.kern.warps * r.kern.regs) 0 = some seat) (hc : r.kern.consz = 0) :
    (∀ a, (u.dispatchGroup chip core r).rd a = u.rd a)
    ∧ (∀ y ∈ (u.dispatchGroup chip core r).records, y.id = r.id → u.nextId ∈ y.gids)
    ∧ ∃ g, (u.dispatchGroup chip core r).groups = u.groups ++ [g] ∧ g.id = u.nextId ∧ g.chip = chip ∧ g.core = core
      ∧ g.part = r.part ∧ g.vf = r.vf ∧ g.kern = r.kern ∧ g.coord = BitVec.ofNat 64 (coordOf r.kern r.ext n)
      ∧ g.others.length = r.kern.warps ∧ ∀ w ∈ g.others, w.pcs = [⟨r.kern.entry, BitVec.allOnes 64⟩] ∧ w.live = BitVec.allOnes 64
        ∧ w.nregs = r.kern.regs ∧ w.getS 3 ++ w.getS 2 = r.arg := by
  simp only [State.dispatchGroup, hr, hs, Option.map_some]
  generalize hq : NewGroup.mk _ _ _ _ _ _ _ _ _ _ _ _ _ _ _ _ _ = q
  obtain ⟨hmem, -, hrec, g, hg, hid, hchip, hcore, hpart, hvf, hkern, hcoord, -, b, hw, hb, he, ha⟩ :=
    reside_stands (u.countDispatch chip r) q seat (hq ▸ hc)
  subst hq
  refine ⟨fun a => congrArg (readByte · a) hmem, fun y hy hy' => ?_, g, hg, hid, hchip, hcore, hpart, hvf, hkern, hcoord, ?_, ?_⟩
  · obtain ⟨x, -, rfl⟩ := List.mem_map.mp hy
    split
    · exact List.mem_cons_self
    · rename_i hx
      rw [if_neg hx] at hy'
      exact absurd hy' hx
  · rw [hw, startWarps_length]
  · intro w h
    obtain ⟨i, k, rfl⟩ := mem_startWarps (hw ▸ h)
    exact ⟨by rw [Warp.start_pcs, he], Warp.start_live .., by rw [Warp.start_nregs, hb], by rw [Warp.start_arg, ha]⟩

/-! ### Stealing (R356) -/

/-- A list of a record's groups by chips, of which each chip's is changed. -/
theorem left_map (r : Record) {give : Nat × List Nat → Nat × List Nat} (hg : ∀ t, (give t).1 = t.1) (c : Nat) :
    ({ r with todo := r.todo.map give } : Record).left c
      = ((r.todo.find? fun t => t.1 == c).map fun t => (give t).2).getD [] := by
  simp only [Record.left, List.find?_map, Function.comp_def, hg, Option.map_map]

theorem left_of_find {r : Record} {c : Nat} {l : List Nat} (h : r.todo.find? (fun t => t.1 == c) = some (c, l)) : r.left c = l := by
  simp [Record.left, h]

/-- A chip of the list stands in it with the groups that it has left. -/
theorem find_left {r : Record} {c : Nat} (h : c ∈ r.todo.map Prod.fst) : r.todo.find? (fun t => t.1 == c) = some (c, r.left c) := by
  obtain ⟨t, ht, rfl⟩ := List.mem_map.mp h
  cases hf : r.todo.find? (fun x => x.1 == t.1) with
  | none => exact absurd (List.find?_eq_none.mp hf t ht) (by simp)
  | some x =>
    have hx : x.1 = t.1 := by simpa using List.find?_some hf
    rw [left_of_find (l := x.2) (by rw [hf, ← hx])]
    rw [← hx]

theorem mem_chips_of_left {r : Record} {c : Nat} (h : r.left c ≠ []) : c ∈ r.todo.map Prod.fst := by
  by_contra hc
  have hf : r.todo.find? (fun t => t.1 == c) = none :=
    List.find?_eq_none.mpr fun t ht => by
      have : t.1 ≠ c := fun he => hc (he ▸ List.mem_map_of_mem ht)
      simpa using this
  exact h (by simp [Record.left, hf])

/-- R356: the victim is another chip, and has groups to give. -/
theorem mayStealNow_victim {s : State} {r : Record} {thief victim : Nat} (h : s.mayStealNow r thief victim = true) :
    victim ≠ thief ∧ r.left victim ≠ [] := by
  simp only [State.mayStealNow, Bool.and_eq_true, beq_iff_eq] at h
  obtain ⟨-, hv⟩ := h
  refine ⟨fun he => ?_, by simpa using List.find?_some hv⟩
  have hm := List.mem_of_find?_eq_some hv
  simp [Record.after, he] at hm

/-- R356: what a chip of a record's list has left, when the victim gives `m` of its groups `l` to the thief. -/
def Record.shared (l : List Nat) (m thief victim : Nat) (t : Nat × List Nat) : Nat × List Nat :=
  if t.1 = victim then (victim, l.take (l.length - m))
  else if t.1 = thief then (thief, l.drop (l.length - m))
  else t

theorem Record.shared_chip (l : List Nat) (m thief victim : Nat) (t : Nat × List Nat) : (Record.shared l m thief victim t).1 = t.1 := by
  unfold Record.shared
  split_ifs with h h <;> simp [h]

theorem steal_frame (s : State) (r : Record) (thief victim : Nat) : (s.steal r thief victim).w = s.w ∧ (s.steal r thief victim).mem = s.mem
    ∧ (s.steal r thief victim).records = s.records.map fun (x : Record) => if x.id = r.id then
        { x with todo := x.todo.map (Record.shared (r.left victim) (max ((r.left victim).length / 2) (min (r.left victim).length 1)) thief victim) }
      else x := by
  simp only [State.steal, State.gainWork]
  split <;> exact ⟨rfl, rfl, rfl⟩

/-- In a list some of whose elements are changed, each keeping its number, an element is found as it now is. -/
theorem find?_map_keeps {α : Type} {l : List α} {key : α → Nat} {f : α → α} (hf : ∀ x, key (f x) = key x) {k : Nat} {x : α}
    (h : l.find? (fun y => key y == k) = some x) : (l.map f).find? (fun y => key y == k) = some (f x) := by
  rw [List.find?_map, Function.comp_def]
  simp only [hf, h, Option.map_some]

/-- R356: of a victim's groups those with the highest numbers go to the thief. -/
theorem steal_gives {s : State} {r : Record} {thief victim : Nat} (hf : s.records.find? (fun q => q.id == r.id) = some r)
    (hm : s.mayStealNow r thief victim = true) (ht : thief ∈ r.todo.map Prod.fst) :
    ∃ q, (s.steal r thief victim).records.find? (fun y => y.id == r.id) = some q
      ∧ q.left victim ++ q.left thief = r.left victim ∧ q.left thief ≠ []
      ∧ ∀ c, c ≠ thief → c ≠ victim → q.left c = r.left c := by
  obtain ⟨hne, hl⟩ := mayStealNow_victim hm
  have hpos : 0 < (r.left victim).length := List.length_pos_iff.mpr hl
  obtain ⟨-, -, hrec⟩ := steal_frame s r thief victim
  generalize hmm : max ((r.left victim).length / 2) (min (r.left victim).length 1) = m at hrec
  have hkeep (x : Record) : (if x.id = r.id then
      { x with todo := x.todo.map (Record.shared (r.left victim) m thief victim) } else x).id = x.id := by split <;> rfl
  have hq := find?_map_keeps (key := Record.id) hkeep hf
  rw [if_pos rfl] at hq
  have hv : ({ r with todo := r.todo.map (Record.shared (r.left victim) m thief victim) } : Record).left victim
      = (r.left victim).take ((r.left victim).length - m) := by
    rw [left_map r (Record.shared_chip _ _ _ _), find_left (mem_chips_of_left hl)]
    simp [Record.shared]
  have hg : ({ r with todo := r.todo.map (Record.shared (r.left victim) m thief victim) } : Record).left thief
      = (r.left victim).drop ((r.left victim).length - m) := by
    rw [left_map r (Record.shared_chip _ _ _ _), find_left ht]
    simp [Record.shared, hne.symm]
  refine ⟨_, hrec ▸ hq, ?_, ?_, fun c hct hcv => ?_⟩
  · rw [hv, hg, List.take_append_drop]
  · rw [hg]
    exact List.drop_eq_nil_iff.not.mpr (by omega)
  · rw [left_map r (Record.shared_chip _ _ _ _), Record.left]
    congr 1
    refine Option.map_congr fun t hmem => ?_
    have : t.1 = c := by simpa using List.find?_some hmem
    simp [Record.shared, this, hct, hcv]

/-! ### A task that is claimed, and that starts (R132, R133, R355) -/

/-- A task's record: only the state's byte is written, and it reads as written. -/
theorem setRecState_reads {s : State} (h : s.Inv) (k : Nat) {x : Nat} (hx : x < 16) :
    (s.setRecState k x).recState k = x ∧ ∀ a, a ≠ k + 40 → (s.setRecState k x).rd a = s.rd a := by
  have hb (a : Nat) : (s.setRecState k x).rd a
      = if a = k + 40 then BitVec.ofNat 8 (s.rdN (k + 40) 1 / 16 * 16 + x) else s.rd a := readByte_writeByte h _ _ a
  refine ⟨?_, fun a ha => (hb a).trans (if_neg ha)⟩
  have hn (t : State) : t.recState k = (t.rd (k + 40)).toNat % 16 := by
    simp [State.recState, State.rdN, readLE, places, leNat, State.rd]
  rw [hn, hb, if_pos rfl, BitVec.toNat_ofNat]
  omega

/-- Where everyone is a group's warp again, some groups are changed, and none of their numbers: a group is found as it now is. -/
theorem group?_map {s t : State} {f : Group → Group} {gid : Nat} {g : Group} (ht : t.g.id = 0) (hm : t.groups = s.allGroups.map f)
    (hf : ∀ x, (f x).id = x.id) (h : s.group? gid = some g) : t.group? gid = some (f g) := by
  rw [State.group?, State.allGroups, State.unselect, if_pos ht, hm]
  exact find?_map_keeps (key := Group.id) hf h

theorem mapGroup_other {s : State} {gid : Nat} (h : s.g.id ≠ gid) (f : Group → Group) :
    s.mapGroup gid f = { s with groups := s.groups.map fun g => if g.id = gid then f g else g } := if_neg h

/-- R6, R133: an empty group of a slot stands on the core, behind the others. -/
theorem resideTask_some {u : State} {chip p v core : Nat} {x : TaskSlot} {seat : Seat}
    (hs : u.seat? chip core x.kern x.kern.warps (x.kern.warps * x.kern.regs) 0 = some seat) (hc : x.kern.consz = 0)
    (hid : u.g.id ≠ u.nextId) :
    ∃ (t : State) (g : Group), u.resideTask chip p v core x x.kern.warps (x.kern.warps * x.kern.regs) = some (u.nextId, t)
      ∧ t.mem = u.mem ∧ g ∈ t.groups ∧ g.id = u.nextId ∧ g.chip = chip ∧ g.core = core ∧ g.part = p ∧ g.vf = v ∧ g.slot = x.slot
      ∧ g.serves = true := by
  simp only [State.resideTask, hs, Option.map_some]
  generalize hq : NewGroup.mk _ _ _ _ _ _ _ _ _ _ _ _ _ _ _ _ _ = q
  obtain ⟨hmem, hg', -, g, hg, hgid, hchip, hcore, hpart, hvf, -, -, hslot, -⟩ := reside_stands u q seat (hq ▸ hc)
  subst hq
  rw [mapGroup_other (by rw [hg']; exact hid)]
  refine ⟨_, { g with serves := true }, rfl, hmem, ?_, hgid, hchip, hcore, hpart, hvf, hslot, rfl⟩
  exact List.mem_map.mpr ⟨g, by rw [hg]; simp, if_pos hgid⟩

/-- R132, R133: what a claim writes, and the group that has claimed. -/
theorem claimTask_claims {s : State} {g : Group} (h : s.Inv) (hg : g ∈ s.groups) (a : Dword) (k : Nat) (x : TaskSlot) (f : Option Nat) :
    (s.claimTask g.id a k x f).ready = s.ready ∧ (s.claimTask g.id a k x f).recState k = 2
    ∧ (∀ b, b ≠ k + 40 → (s.claimTask g.id a k x f).rd b = s.rd b)
    ∧ { g with kern := x.kern, task := a, tdone := none, failing := false, frame := f, prio := s.recPrio k, others := []
               claim := some (x.kern.warps, x.kern.warps * x.kern.regs, x.slot) } ∈ (s.claimTask g.id a k x f).groups := by
  obtain ⟨hst, hrd⟩ := setRecState_reads h k (show 2 < 16 by decide)
  refine ⟨rfl, hst, hrd, List.mem_map.mpr ⟨g, ?_, if_pos rfl⟩⟩
  show g ∈ if s.g.id = 0 then s.groups else s.g.putWarp s.w :: s.groups
  split
  · exact hg
  · exact List.mem_cons_of_mem _ hg

/-- Some group, the selected one too, stands among all, where it has a number. -/
theorem selected_id_ne {u : State} (h : ∀ g ∈ u.allGroups, g.id ≠ u.nextId) (h0 : u.nextId ≠ 0) : u.g.id ≠ u.nextId := by
  by_cases hz : u.g.id = 0
  · exact hz ▸ h0.symm
  · have hp : (u.g.putWarp u.w).id = u.g.id := by unfold Group.putWarp; split <;> rfl
    exact hp ▸ h _ (by simp [State.allGroups, State.unselect, hz])

/-- R132, R133, R355: the head of the best ready queue is Claimed by a group of its own. -/
theorem dispatchTask_claims {u : State} {chip p v core k pr : Nat} {q : Ready} {x : TaskSlot} (hi : u.Inv)
    (hp : u.bestPrio chip p v (u.ofChip chip p v) = some pr) (hq : (u.ofChip chip p v).find? (fun y => y.prio == pr) = some q)
    (hk : u.unitAt chip p v q.rec_ 64 = .ok k) (hx : u.slot? p v (u.recSlot k) = some x) (hc : x.chips.testBit chip = true)
    (hm : x.maxg = 0 ∨ u.slotGroups chip p v x.slot < x.maxg) (hs : u.recState k = 1) (ho : objKind q.rec_ = 2)
    (hz : x.kern.consz = 0) (hseat : ∃ seat, u.seat? chip core x.kern x.kern.warps (x.kern.warps * x.kern.regs) 0 = some seat)
    (hid : ∀ g ∈ u.allGroups, g.id ≠ u.nextId) (h0 : u.nextId ≠ 0) :
    q ∉ (u.dispatchTask chip p v core).ready ∧ (u.dispatchTask chip p v core).recState k = 2
    ∧ (∀ a, a ≠ k + 40 → (u.dispatchTask chip p v core).rd a = u.rd a)
    ∧ ∃ g ∈ (u.dispatchTask chip p v core).groups, g.id = u.nextId ∧ g.chip = chip ∧ g.core = core ∧ g.part = p ∧ g.vf = v
      ∧ g.task = q.rec_ ∧ g.slot = x.slot ∧ g.serves = true ∧ g.others = []
      ∧ g.claim = some (x.kern.warps, x.kern.warps * x.kern.regs, x.slot) := by
  obtain ⟨seat, hseat⟩ := hseat
  obtain ⟨t, g, ht, hmem, hg, hgid, hchip, hcore, hpart, hvf, hslot, hserves⟩ :=
    resideTask_some (p := p) (v := v) hseat hz (selected_id_ne hid h0)
  have hroom : u.slotRoom chip x p v = true := by
    rcases hm with h | h <;> simp [State.slotRoom, h]
  have hobj : u.objRoom chip p v q.rec_ 64 = true := by simp [State.objRoom, ho]
  have he : u.dispatchTask chip p v core
      = (t.takeReady q).claimTask u.nextId q.rec_ k x (some (q.rec_.toNat % 2 ^ 32)) := by
    simp only [State.dispatchTask, hp, Option.bind_some, hq, hk, hx, hc, hroom, hobj, hs, ht, State.startFrame, ho, State.meterObj,
      Bool.not_true, Bool.or_self, Bool.false_eq_true, if_false, if_true, OfNat.ofNat_ne_zero, OfNat.one_ne_ofNat]
  have hready : q ∉ (t.takeReady q).ready := by
    show q ∉ t.ready.filter _
    simp
  obtain ⟨hr, hst, hrd, hmem'⟩ := claimTask_claims (s := t.takeReady q) (g := g) (show Memory.wf t.mem by rw [hmem]; exact hi) hg
    q.rec_ k x (some (q.rec_.toNat % 2 ^ 32))
  rw [hgid] at hr hst hrd hmem'
  rw [he]
  refine ⟨hr ▸ hready, hst, fun a ha => ?_, _, hmem', rfl, hchip, hcore, hpart, hvf, rfl, hslot, hserves, rfl, rfl⟩
  exact (hrd a ha).trans (congrArg (readByte · a) hmem)

/-- R132, R133: a Claimed task that can be reached runs, from its entry. -/
theorem startTask_starts {s : State} {k : Nat} {g : Group} {c : Nat × Nat × Nat} {x : TaskSlot} (hg : s.group? g.id = some g)
    (hc : g.claim = some c) (hs : g.isSaved = false) (hk : s.unitAt g.chip g.part g.vf g.task 64 = .ok k)
    (hx : s.slot? g.part g.vf c.2.2 = some x) (hz : x.kern.consz = 0) (hh : g.helpd = 0) (hi : s.Inv) :
    (s.startTask g.id).recState k = 3 ∧ (∀ a, a ≠ k + 40 → (s.startTask g.id).rd a = s.rd a)
    ∧ ∃ h, (s.startTask g.id).group? g.id = some h ∧ h.claim = none ∧ h.task = g.task ∧ h.coord = s.rdD (k + 16)
      ∧ h.others.length = x.kern.warps ∧ ∀ w ∈ h.others, w.pcs = [⟨s.rdN k 8, BitVec.allOnes 64⟩] := by
  obtain ⟨hst, hrd⟩ := setRecState_reads hi k (show 3 < 16 by decide)
  have he : s.startTask g.id = s.beginTask g k x := by simp only [State.startTask, hg, hc, hs, hk, hx]
  rw [he]
  simp only [State.beginTask, hh, Nat.lt_irrefl, if_false, stage_none _ _ _ hz]
  refine ⟨hst, hrd, _, group?_map rfl rfl (fun y => ?_) hg, ?_⟩
  · split <;> rfl
  · rw [if_pos rfl]
    refine ⟨rfl, rfl, rfl, startWarps_length .., fun w hw => ?_⟩
    obtain ⟨i, j, rfl⟩ := mem_startWarps hw
    exact Warp.start_pcs ..

end Sys2Proof.Machine
end

section
open Sys2Proof Sys2Proof.Machine

/-- Settles O46: a record's dispatch (`dispatchGroup_resides`), a steal (`steal_gives`), a claim (`dispatchTask_claims`) and the start
that follows it (`startTask_starts`). -/
theorem groupDispatch : Obligations.GroupDispatch := by
  refine ⟨fun s u chip p v core n rest f r seat thief victim => ⟨fun hc ht hf hr htodo hs hz => ?_, fun hf hm hn ht => ?_⟩,
    fun s u chip p v core k pr q x hc ht hi hp hq hk hx hb hm hs ho hz hseat hid h0 => ?_,
    fun s k g c x hg hc hs hk hx hz hh hi => startTask_starts hg hc hs hk hx hz hh hi⟩
  · have he : exec (.groupDispatch chip p v core) s = .next (u.dispatchGroup chip core r) := by
      show execGroupDispatch chip p v core s = _
      simp only [execGroupDispatch, hc, ht, hf, hr, Bool.not_true, Bool.false_eq_true, if_false]
    rw [he]
    exact goes_next (dispatchGroup_resides htodo hs hz)
  · have he : exec (.stealRequest r.id thief victim) s = .next (s.steal r thief victim) := by
      show execStealRequest r.id thief victim s = _
      simp only [execStealRequest, hf, hm, if_true]
    obtain ⟨q, hq, hsum, hne, hother⟩ := steal_gives hf hm ht
    obtain ⟨hw, hmem, -⟩ := steal_frame s r thief victim
    rw [he]
    exact goes_next ⟨q, hq, hsum, hne, hother, hw, hmem⟩
  · have he : exec (.taskDispatch chip p v core) s = .next (u.dispatchTask chip p v core) := by
      show execTaskDispatch chip p v core s = _
      simp only [execTaskDispatch, hc, ht, Bool.not_true, Bool.false_eq_true, if_false]
    rw [he]
    exact goes_next (dispatchTask_claims hi hp hq hk hx hb hm hs ho hz hseat hid h0)
end

section
/-! SUPPORT. What leaves the groups as they are: slices, images and context areas (R354, R374, R375). -/

namespace Sys2Proof.Machine

/-- The groups of two states are the same, and so is the selected one. -/
structure SameGroups (s t : State) : Prop where
  groups : t.groups = s.groups
  g : t.g = s.g

theorem SameGroups.refl (s : State) : SameGroups s s := ⟨rfl, rfl⟩
theorem SameGroups.trans {s t u : State} (h : SameGroups s t) (k : SameGroups t u) : SameGroups s u :=
  ⟨k.groups.trans h.groups, k.g.trans h.g⟩

/-- Where no group is selected, groups are found alike. -/
theorem SameGroups.group? {s t : State} (h : SameGroups s t) (h0 : s.g.id = 0) (gid : Nat) : t.group? gid = s.group? gid := by
  simp only [State.group?, State.allGroups, State.unselect, h.g, h.groups, if_pos h0]

/-! ### Slices (R354) -/

/-- What a change of slices leaves: the warp that issues, the memory and the groups. -/
structure SlicesOnly (s t : State) : Prop extends SameGroups s t where
  w : t.w = s.w
  mem : t.mem = s.mem

theorem startSlice_slicesOnly (s : State) (chip p v : Nat) : SlicesOnly s (s.startSlice chip p v) := ⟨⟨rfl, rfl⟩, rfl, rfl⟩

/-- R354: the virtual function whose slice has started has the cores from now on. -/
theorem startSlice_owner (s : State) (chip p v : Nat) : ∃ q, (s.startSlice chip p v).owner? chip p = some q ∧ q.vf = v
    ∧ q.since = s.chipCyc chip ∧ q.next = none :=
  ⟨_, List.find?_cons_of_pos (by simp), rfl, rfl, rfl⟩

theorem finishSwitch_slicesOnly (s : State) (chip p : Nat) : SlicesOnly s (s.finishSwitch chip p) := by
  unfold State.finishSwitch
  split
  · split
    · split
      · exact ⟨⟨rfl, rfl⟩, rfl, rfl⟩
      · exact ⟨.refl s, rfl, rfl⟩
    · exact ⟨.refl s, rfl, rfl⟩
  · exact ⟨.refl s, rfl, rfl⟩

theorem takeSlice_sameGroups {s u : State} {chip p v : Nat} (h : s.takeSlice chip p v = some u) : SameGroups s u := by
  have hf := (finishSwitch_slicesOnly s chip p).toSameGroups
  have hs := hf.trans (startSlice_slicesOnly (s.finishSwitch chip p) chip p v).toSameGroups
  simp only [State.takeSlice] at h
  split at h
  · injection h with h; exact h ▸ hs
  · split_ifs at h <;> injection h with h <;> subst h
    · exact hs
    · exact hf

/-- A slice whose owner is not being changed has none that follows. -/
theorem finishSwitch_none {s : State} {chip p : Nat} {o : SliceOwner} (ho : s.owner? chip p = some o) (hn : o.next = none) :
    s.finishSwitch chip p = s := by
  simp only [State.finishSwitch, ho, hn]

theorem putOwner_owner (s : State) (o : SliceOwner) : (s.putOwner o).owner? o.chip o.part = some o :=
  List.find?_cons_of_pos (by simp)

/-- R354: an owner whose slice is over, and the virtual function that follows. -/
def SliceOwner.handing (o : SliceOwner) (now v : Nat) : SliceOwner := { o with since := now, len := 0, next := some v }

/-- R354: where the groups that stood have stopped, the virtual function that follows starts. -/
theorem finishSwitch_starts {s : State} {chip p v : Nat} {o : SliceOwner} (ho : s.owner? chip p = some o) (hn : o.next = some v)
    (hs : s.standing chip p o.vf = []) :
    ∃ u, SlicesOnly s u ∧ u.chipCyc chip = s.chipCyc chip ∧ s.finishSwitch chip p = u.startSlice chip p v := by
  refine ⟨s.mapUse chip p o.vf fun u => { u with owed := s.chipCyc chip - (o.since + o.len) }, ⟨⟨rfl, rfl⟩, rfl, rfl⟩, rfl, ?_⟩
  simp only [State.finishSwitch, ho, hn, hs, List.isEmpty_nil, if_true]

section
variable {s : State} {chip p : Nat} {o : SliceOwner} (ho : s.owner? chip p = some o) (hn : o.next = none)
  (hc : o.since + o.len ≤ s.chipCyc chip)
include ho hn hc

/-- R354: a slice that has run out with nobody else in need of the cores is followed by another of its owner. -/
theorem vfSliceEnd_again (hv : s.nextVf chip p o.vf = some o.vf) :
    exec (.vfSliceEnd chip p) s = .next (s.startSlice chip p o.vf) := by
  show execVfSliceEnd chip p s = _
  simp only [execVfSliceEnd, finishSwitch_none ho hn, ho, hn, hv, Nat.not_lt.mpr hc, Option.isSome_none, decide_false, Bool.false_and,
    Bool.or_self, Bool.false_eq_true, if_false, if_true]

/-- R354: with no group that stands, the next virtual function has the cores at once. -/
theorem vfSliceEnd_next {v : Nat} (hv : s.nextVf chip p o.vf = some v) (hne : v ≠ o.vf) (hs : s.standing chip p o.vf = []) :
    ∃ u, SlicesOnly s u ∧ u.chipCyc chip = s.chipCyc chip ∧ exec (.vfSliceEnd chip p) s = .next (u.startSlice chip p v) := by
  obtain ⟨rfl, rfl⟩ : o.chip = chip ∧ o.part = p := by
    simpa using List.find?_some (p := fun q : SliceOwner => q.chip == chip && q.part == p) ho
  obtain ⟨u, hu, hcyc, hf⟩ := finishSwitch_starts (putOwner_owner s (o.handing (s.chipCyc o.chip) v)) rfl hs
  refine ⟨u, ⟨⟨hu.groups, hu.g⟩, hu.w, hu.mem⟩, hcyc, Eq.trans ?_ (congrArg Host.Outcome.next hf)⟩
  show execVfSliceEnd o.chip o.part s = _
  simp only [execVfSliceEnd, finishSwitch_none ho hn, ho, hn, hv, if_neg hne, Nat.not_lt.mpr hc, Option.isSome_none, decide_false,
    Bool.false_and, Bool.or_self, Bool.false_eq_true, if_false, hs, List.foldl_nil]
  rfl

end

end Sys2Proof.Machine
end

section
/-! SUPPORT. How a group leaves its core: what its save keeps of it, of the memory and of the other groups (R30, R374, R375). -/

namespace Sys2Proof.Machine

/-! ### Context areas (R375) -/

/-- A write leaves every other place, whatever form the memory has. -/
theorem readByte_writeByte_ne (m : List Host.Cell) {a k : Nat} (h : k ≠ a) (b : Byte) : readByte (writeByte m a b) k = readByte m k := by
  induction m with
  | nil =>
    simp only [writeByte]
    split
    · rfl
    · exact (readByte_cons a b [] k).trans (if_neg h)
  | cons p t ih =>
    obtain ⟨x, y⟩ := p
    simp only [writeByte]
    split
    · split
      · rfl
      · exact (readByte_cons a b _ k).trans (if_neg h)
    · split
      · rename_i hax
        subst hax
        rw [readByte_cons a y t, if_neg h]
        split
        · rfl
        · exact (readByte_cons a b t k).trans (if_neg h)
      · rw [readByte_cons, readByte_cons, ih]

theorem rd_wrs_ne (s : State) {l : List (Nat × Byte)} {a : Nat} (h : ∀ p ∈ l, a ≠ p.1) : (s.wrs l).rd a = s.rd a := by
  show readByte (writeBytes s.mem l) a = readByte s.mem a
  generalize s.mem = m
  induction l generalizing m with
  | nil => rfl
  | cons p t ih =>
    exact (ih (fun q hq => h q (List.mem_cons_of_mem _ hq)) _).trans (readByte_writeByte_ne m (h p List.mem_cons_self) p.2)

theorem lt_of_mem_area {a p gid off n k : Nat} (ha : a < areaKey 0 0 0) (hk : k ∈ places (areaKey p gid off) n) : a < k := by
  simp only [places, List.mem_map, List.mem_range] at hk
  obtain ⟨j, -, rfl⟩ := hk
  unfold areaKey at ha ⊢
  exact Nat.lt_of_lt_of_le ha (by simp only [Nat.mul_zero, Nat.add_zero, Nat.add_assoc]; exact Nat.le_add_right _ _)

/-- What a save into context areas leaves: the groups, and every byte that lies in none. -/
structure AreasOnly (s t : State) : Prop extends SameGroups s t where
  below : ∀ a, a < areaKey 0 0 0 → t.rd a = s.rd a

theorem AreasOnly.refl (s : State) : AreasOnly s s := ⟨.refl s, fun _ _ => rfl⟩
theorem AreasOnly.trans {s t u : State} (h : AreasOnly s t) (k : AreasOnly t u) : AreasOnly s u :=
  ⟨h.toSameGroups.trans k.toSameGroups, fun a ha => (k.below a ha).trans (h.below a ha)⟩

theorem wrArea_areasOnly (s : State) (g : Group) (off : Nat) (l : List (List Byte)) : AreasOnly s (s.wrArea g off l).1 := by
  unfold State.wrArea
  refine foldl_keeps (fun q : State × Nat => AreasOnly s q.1) _ (fun q b hq => ?_) l (AreasOnly.refl s)
  refine hq.trans ⟨⟨rfl, rfl⟩, fun a ha => ?_⟩
  exact rd_wrs_ne _ fun p hp => Nat.ne_of_lt (lt_of_mem_area ha (List.of_mem_zip hp).1)

theorem fillArea_areasOnly (s : State) (g : Group) (live : Nat → BitVec 96) (trailer : Nat) : AreasOnly s (s.fillArea g live trailer) := by
  simp only [State.fillArea]
  refine AreasOnly.trans ?_ (wrArea_areasOnly ..)
  split
  · exact wrArea_areasOnly ..
  · refine AreasOnly.trans ?_ (wrArea_areasOnly ..)
    refine foldl_keeps (AreasOnly s) _ (fun t p ht => ht.trans (wrArea_areasOnly ..)) _ ?_
    exact wrArea_areasOnly ..

/-! ### Frames (R336) -/

theorem wrFrame_sameGroups (s : State) (f : Frame) (l : List (Nat × List Byte)) : SameGroups s (s.wrFrame f l) := by
  unfold State.wrFrame
  refine foldl_keeps (SameGroups s) _ (fun t p h => ?_) l (.refl s)
  exact h.trans ⟨rfl, rfl⟩

theorem fillFrame_sameGroups (s : State) (f : Frame) (g : Group) (live : Nat → BitVec 96) : SameGroups s (s.fillFrame f g live) := by
  have h0 := wrFrame_sameGroups s f ((0, f.header) :: g.blocks live)
  unfold State.fillFrame
  generalize s.wrFrame f _ = t at h0 ⊢
  refine foldl_keeps (fun q : State × Nat => SameGroups s q.1) _ (fun q e h => ?_) g.kept h0
  exact h.trans (wrFrame_sameGroups ..)

/-! ### What a group keeps on the way -/

/-- Of a group that is to leave its core what its save depends on: its seat, its kernel and its frame. -/
structure SameSeat (g h : Group) : Prop where
  id : h.id = g.id
  chip : h.chip = g.chip
  core : h.core = g.core
  kern : h.kern = g.kern
  room : h.room = g.room
  frame : h.frame = g.frame

theorem SameSeat.refl (g : Group) : SameSeat g g := ⟨rfl, rfl, rfl, rfl, rfl, rfl⟩
theorem SameSeat.trans {g h k : Group} (a : SameSeat g h) (b : SameSeat h k) : SameSeat g k :=
  ⟨b.id.trans a.id, b.chip.trans a.chip, b.core.trans a.core, b.kern.trans a.kern, b.room.trans a.room, b.frame.trans a.frame⟩

/-- R336, R375: the same bytes are saved of it. -/
theorem SameSeat.shrImage {g h : Group} (a : SameSeat g h) {s t : State} (hm : t.mem = s.mem) : t.shrImage h = s.shrImage g := by
  have hk : h.kept = g.kept := by rw [Group.kept, Group.kept, a.kern, a.room]
  have hp : h.poolAt = g.poolAt := by funext x; rw [Group.poolAt, Group.poolAt, a.chip, a.core]
  rw [State.shrImage, State.shrImage, hm, hk, hp]

/-- No group is selected, and the group stands among the others, as far as its save depends on it. -/
structure StandsAs (g : Group) (s : State) : Prop where
  free : s.g.id = 0
  found : ∃ h, s.groups.find? (fun x => x.id == g.id) = some h ∧ SameSeat g h

theorem StandsAs.of_same {g : Group} {s t : State} (h : StandsAs g s) (k : SameGroups s t) : StandsAs g t :=
  ⟨k.g ▸ h.free, k.groups ▸ h.found⟩

/-- Groups change, and keep what their saves depend on. -/
theorem StandsAs.of_map {g : Group} {s t : State} (h : StandsAs g s) {f : Group → Group} (hg : t.g.id = 0) (hm : t.groups = s.groups.map f)
    (hf : ∀ x, SameSeat x (f x)) : StandsAs g t := by
  obtain ⟨x, hx, hs⟩ := h.found
  exact ⟨hg, f x, hm ▸ find?_map_keeps (key := Group.id) (fun y => (hf y).id) hx, hs.trans (hf x)⟩

theorem StandsAs.unselect {g : Group} {s : State} (h : StandsAs g s) : StandsAs g s.unselect := by
  obtain ⟨hfree, hfound⟩ := h
  exact ⟨rfl, by rwa [show s.unselect.groups = s.groups from if_pos hfree]⟩

theorem StandsAs.mapWarp {g : Group} {s : State} (h : StandsAs g s) (gid wid : Nat) (f : Warp → Warp) : StandsAs g (s.mapWarp gid wid f) := by
  unfold State.mapWarp
  split_ifs
  · exact ⟨h.free, h.found⟩
  · exact ⟨h.free, h.found⟩
  · exact h.of_map h.free rfl fun x => by split <;> exact ⟨rfl, rfl, rfl, rfl, rfl, rfl⟩

theorem StandsAs.mapGroup {g : Group} {s : State} (h : StandsAs g s) {gid : Nat} (h0 : gid ≠ 0) {f : Group → Group}
    (hf : ∀ x, SameSeat x (f x)) : StandsAs g (s.mapGroup gid f) := by
  rw [mapGroup_other (by rw [h.free]; exact h0.symm)]
  refine h.of_map h.free rfl fun x => ?_
  split
  · exact hf x
  · exact .refl x

/-! ### Requests that are withdrawn (R81, R248) -/

theorem StandsAs.grant {g : Group} {s : State} (h : StandsAs g s) (q : ObjReq) : StandsAs g (s.grant q) := by
  simp only [State.grant]
  refine StandsAs.mapWarp ?_ ..
  exact ⟨h.free, h.found⟩

theorem StandsAs.serveObj {g : Group} {s : State} (h : StandsAs g s) (l : List ObjReq) (k : Nat) : StandsAs g (State.serveObj l k s) := by
  induction l generalizing s with
  | nil => exact h
  | cons q t ih =>
    simp only [State.serveObj]
    split_ifs
    · refine ih (StandsAs.grant ?_ q)
      exact ⟨h.free, h.found⟩
    · exact h
    · exact ih h

theorem StandsAs.withdrawAll {g : Group} {s : State} (h : StandsAs g s) (gid : Nat) : StandsAs g (s.withdrawAll gid) := by
  have hw : StandsAs g (s.withdrawReqs fun q => q.gid == gid) := by
    unfold State.withdrawReqs
    refine foldl_keeps (StandsAs g) _ (fun u k hu => ?_) _ ⟨h.free, h.found⟩
    exact hu.serveObj _ _
  exact hw.of_same ⟨rfl, rfl⟩

/-- R248: a group that has asked for nothing has nothing withdrawn, and no home serves another. -/
theorem withdrawAll_mem {s : State} {gid : Nat} (h : ∀ q ∈ s.objq, q.gid ≠ gid) : (s.withdrawAll gid).mem = s.mem := by
  have hf : s.objq.filter (fun q => q.gid == gid) = [] := List.filter_eq_nil_iff.mpr fun q hq => by simpa using h q hq
  simp only [State.withdrawAll, State.withdrawReqs, hf, List.map_nil, List.foldl_nil]

/-! ### What discard mode drops (R32, R305) -/

theorem reapRanges_mem (s : State) (gid : Nat) : (s.reapRanges gid).mem = s.mem := by
  unfold State.reapRanges
  split
  · rfl
  · simp only [State.mapGroup]
    split <;> rfl

theorem StandsAs.reapRanges {g : Group} {s : State} (h : StandsAs g s) {gid : Nat} (h0 : gid ≠ 0) : StandsAs g (s.reapRanges gid) := by
  unfold State.reapRanges
  split
  · exact h
  · exact h.mapGroup h0 fun x => ⟨rfl, rfl, rfl, rfl, rfl, rfl⟩

theorem discard_mem (s : State) (g : Group) : (s.discard g).mem = s.mem := by
  simp only [State.discard, reapRanges_mem]
  unfold State.mapGroup
  split <;> rfl

theorem discard_objq (s : State) (g : Group) : (s.discard g).objq = s.objq := by
  have hr (t : State) (gid : Nat) : (t.reapRanges gid).objq = t.objq := by
    unfold State.reapRanges State.mapGroup
    split
    · rfl
    · split <;> rfl
  simp only [State.discard, hr]
  unfold State.mapGroup
  split <;> rfl

theorem foldl_dropTag_seat (g : Group) (l : List CopyCmd) : SameSeat g (l.foldl (fun y c => y.dropTag c.tag) g) := by
  refine foldl_keeps (SameSeat g) _ (fun y c h => ?_) l (.refl g)
  exact ⟨h.id, h.chip, h.core, h.kern, h.room, h.frame⟩

theorem StandsAs.discard {g : Group} {s : State} (h : StandsAs g s) {q : Group} (h0 : q.id ≠ 0) : StandsAs g (s.discard q) := by
  simp only [State.discard]
  refine StandsAs.reapRanges (StandsAs.mapGroup (StandsAs.unselect ?_) h0 fun x => ?_) h0
  · exact ⟨h.free, h.found⟩
  · have hs := foldl_dropTag_seat x (s.copies.filter fun c => c.gid == q.id && (c.region != 0 && q.regions.contains c.region))
    exact ⟨hs.id, hs.chip, hs.core, hs.kern, hs.room, hs.frame⟩

/-! ### The save (R30, R374, R375) -/

/-- R32, R248: the state in which a group leaves its core: in discard mode its regions' work is dropped, and what its warps wait for is
withdrawn. -/
def State.cleared (s : State) (g : Group) (gid : Nat) : State :=
  (if g.discards then s.unselect.discard g else s.unselect).withdrawAll gid

theorem StandsAs.cleared {g : Group} {s : State} (h : StandsAs g s.unselect) (h0 : g.id ≠ 0) : StandsAs g (s.cleared g g.id) := by
  unfold State.cleared
  split
  · exact (h.discard h0).withdrawAll _
  · exact h.withdrawAll _

theorem cleared_mem {s : State} {g : Group} (h : ∀ q ∈ s.objq, q.gid ≠ g.id) : (s.cleared g g.id).mem = s.mem := by
  unfold State.cleared
  split
  · exact (withdrawAll_mem (by rw [discard_objq]; exact h)).trans (discard_mem ..)
  · exact withdrawAll_mem h

/-- R374: a group `x` as it is kept; `g` is the group as it leaves its core. -/
noncomputable def State.keptGroup (s : State) (g : Group) (gid : Nat) (x : Group) : Group :=
  { x with stand := .saved, others := if g.discards then g.others else s.safeWarps g, rvz := [], savedShr := s.shrImage g
           savedOb := s.obImage g, savedTiles := ((s.engine g.clu).tilesOf gid).map fun x => (x, (s.engine g.clu).tileRows x.p) }

/-- R374: the group stands on no core any more. -/
noncomputable def State.leftCore (s : State) (g : Group) (gid : Nat) : State :=
  (((s.leaveQueues gid).movePlaces (shiftCell g.extent g.away)).mapGroup gid (s.keptGroup g gid)).mapEngine g.clu fun e =>
    (e.tilesOf gid).foldl (fun e x => e.dropTile x.p) e

theorem leftCore_found {s : State} {g : Group} {gid : Nat} (hs : s.g.id = 0) (h0 : gid ≠ 0)
    (hf : s.groups.find? (fun x => x.id == gid) = some g) : (s.leftCore g gid).group? gid = some (s.keptGroup g gid g) := by
  have hg : s.group? gid = some g := by rwa [State.group?, State.allGroups, State.unselect, if_pos hs]
  have hid : g.id = gid := by simpa using List.find?_some hf
  have hm : (s.leftCore g gid).g = s.g ∧ (s.leftCore g gid).groups = s.allGroups.map fun x => if x.id = gid then s.keptGroup g gid x else x := by
    rw [State.leftCore, mapGroup_other (s := (s.leaveQueues gid).movePlaces (shiftCell g.extent g.away)) (show s.g.id ≠ gid from hs ▸ h0.symm), State.allGroups, State.unselect, if_pos hs]
    exact ⟨rfl, rfl⟩
  refine (group?_map (hm.1 ▸ hs) hm.2 (fun x => ?_) hg).trans (by rw [if_pos hid])
  split <;> rfl

theorem leftCore_mem (s : State) (g : Group) (gid : Nat) : (s.leftCore g gid).mem = s.mem := by
  unfold State.leftCore State.mapGroup
  split <;> rfl

/-- The vector registers of a warp that a save keeps. -/
noncomputable def State.liveOf (s : State) (g : Group) (k : Nat) : BitVec 96 :=
  match g.others.find? fun w => w.idx == k with
  | some w => if g.discards then BitVec.allOnes 96 else s.safeLive g w
  | none => 0

/-- R336, R375: the group's context area is filled, and its task's frame. -/
noncomputable def State.filled (s : State) (g x : Group) (t : State) : State :=
  let a := t.fillArea x (s.liveOf g) (s.frameTrailer g)
  match g.frame with
  | some off =>
    let v := a.mapFrame g.part g.chip off fun f => { f with kind := 3, helpd := g.helpd, trailer := s.frameTrailer g }
    match v.frame? g.part g.chip off with | some f => v.fillFrame f x (s.liveOf g) | none => v
  | none => a

theorem mapFrame_sameGroups (s : State) (p chip off : Nat) (f : Frame → Frame) : SameGroups s (s.mapFrame p chip off f) := ⟨rfl, rfl⟩

theorem filled_sameGroups (s : State) (g x : Group) (t : State) : SameGroups t (s.filled g x t) := by
  have ha := (fillArea_areasOnly t x (s.liveOf g) (s.frameTrailer g)).toSameGroups
  simp only [State.filled]
  split
  · split
    · exact ha.trans ((mapFrame_sameGroups ..).trans (fillFrame_sameGroups ..))
    · exact ha.trans (mapFrame_sameGroups ..)
  · exact ha

theorem filled_below {s t : State} {g x : Group} (hf : g.frame = none) {a : Nat} (ha : a < areaKey 0 0 0) :
    (s.filled g x t).rd a = t.rd a := by
  simp only [State.filled, hf]
  exact (fillArea_areasOnly ..).below a ha

/-- R374: a save, step by step. -/
theorem saveGroup_eq {s : State} {gid : Nat} {g q x : Group} (hg : s.group? gid = some g)
    (hq : (s.cleared g gid).groups.find? (fun y => y.id == gid) = some q) (hx : ((s.cleared g gid).leftCore q gid).group? gid = some x) :
    s.saveGroup gid = ((((s.cleared g gid).filled q x ((s.cleared g gid).leftCore q gid)).eccSaved x).spend
      (64 * 96 * q.others.length)).finishSwitch q.chip q.part := by
  have hg' : s.unselect.groups.find? (fun y => y.id == gid) = some g := hg
  simp only [State.cleared] at hq
  simp only [State.saveGroup, hg', hq]
  have hx' := hx
  simp only [State.cleared, State.leftCore] at hx'
  delta State.keptGroup at hx'
  simp only [hx']
  cases hf : q.frame with
  | none => simp only [State.filled, hf]; rfl
  | some off => simp only [State.filled, hf]; rfl

/-- R371, R354: the rest of a save touches neither groups nor memory. -/
theorem finished_slicesOnly (u : State) (x : Group) (n chip p : Nat) : SlicesOnly u (((u.eccSaved x).spend n).finishSwitch chip p) := by
  obtain ⟨⟨hgs, hg⟩, hw, hm⟩ := finishSwitch_slicesOnly ((u.eccSaved x).spend n) chip p
  exact ⟨⟨hgs, hg⟩, hw, hm⟩

theorem leftCore_free {s : State} (g : Group) {gid : Nat} (hs : s.g.id = 0) (h0 : gid ≠ 0) : (s.leftCore g gid).g.id = 0 := by
  unfold State.leftCore
  rw [mapGroup_other (s := (s.leaveQueues gid).movePlaces (shiftCell g.extent g.away)) (show s.g.id ≠ gid from hs ▸ h0.symm)]
  exact hs

theorem rd_of_mem {s t : State} (h : t.mem = s.mem) (a : Nat) : t.rd a = s.rd a := congrArg (readByte · a) h

/-- R374: a save leaves every byte below the context areas, where the group has asked for no object and has no frame. -/
structure Saved (s t : State) (g h : Group) : Prop where
  stand : h.stand = .saved
  kern : h.kern = g.kern
  room : h.room = g.room
  shr : (∀ q ∈ s.objq, q.gid ≠ g.id) → h.savedShr = s.shrImage g
  below : (∀ q ∈ s.objq, q.gid ≠ g.id) → g.frame = none → ∀ a, a < areaKey 0 0 0 → t.rd a = s.rd a

/-- R30, R374, R375: the group that a save has taken from its core is found with its context. -/
theorem saveGroup_saves {s : State} {g : Group} (hg : s.group? g.id = some g) (h0 : g.id ≠ 0) :
    ∃ h, (s.saveGroup g.id).group? g.id = some h ∧ Saved s (s.saveGroup g.id) g h := by
  have hc : StandsAs g (s.cleared g g.id) := StandsAs.cleared ⟨rfl, g, hg, .refl g⟩ h0
  obtain ⟨q, hq, hseat⟩ := hc.found
  have hx := leftCore_found hc.free h0 hq
  have hf := filled_sameGroups (s.cleared g g.id) q ((s.cleared g g.id).keptGroup q g.id q) ((s.cleared g g.id).leftCore q g.id)
  have hs := finished_slicesOnly ((s.cleared g g.id).filled q ((s.cleared g g.id).keptGroup q g.id q)
    ((s.cleared g g.id).leftCore q g.id)) ((s.cleared g g.id).keptGroup q g.id q) (64 * 96 * q.others.length) q.chip q.part
  rw [saveGroup_eq hg hq hx]
  refine ⟨(s.cleared g g.id).keptGroup q g.id q, ((hf.trans hs.toSameGroups).group? (leftCore_free q hc.free h0) g.id).trans hx, ?_⟩
  refine ⟨rfl, hseat.kern, hseat.room, fun hn => hseat.shrImage (cleared_mem hn), fun hn hfr a ha => ?_⟩
  exact (rd_of_mem hs.mem a).trans ((filled_below (hseat.frame.trans hfr) ha).trans
    (rd_of_mem ((leftCore_mem ..).trans (cleared_mem hn)) a))

end Sys2Proof.Machine
end

section
/-! SUPPORT. A core dead in `rgrow`, and a saved group that stands on a core again (R6, R26, R27, R374). -/

namespace Sys2Proof.Machine

/-! ### A core dead in `rgrow` (R27) -/

/-- R30: a group that is asked to stop is not simply resident any more. -/
theorem Group.stop_stand (g : Group) : g.stop.stand ≠ .resident := by
  unfold Group.stop Group.isSaved
  cases hs : g.stand <;> simp [hs]

theorem Group.stop_id (g : Group) : g.stop.id = g.id := by
  unfold Group.stop
  split <;> rfl

theorem Group.putWarp_id (g : Group) (w : Warp) : (g.putWarp w).id = g.id := by
  unfold Group.putWarp
  split <;> rfl

theorem Group.putWarp_stand (g : Group) (w : Warp) : (g.putWarp w).stand = g.stand := by
  unfold Group.putWarp
  split <;> rfl

/-- A group that is not the selected one stands among the others. -/
theorem group?_other {s : State} {gid : Nat} (h : s.g.id ≠ gid) : s.group? gid = s.groups.find? fun x => x.id == gid := by
  rw [State.group?, State.allGroups, State.unselect]
  split
  · rfl
  · exact List.find?_cons_of_neg (by simpa [Group.putWarp_id] using h)

/-- R30: a group that has been asked to stop is found so, selected or not. -/
theorem stop_found {s : State} {gid : Nat} {g : Group} (h0 : gid ≠ 0) (h : s.group? gid = some g) :
    ∃ x, (s.mapGroup gid Group.stop).group? gid = some x ∧ x.id = gid ∧ x.stand ≠ .resident := by
  by_cases hs : s.g.id = gid
  · have hm : s.mapGroup gid Group.stop = s.setG s.g.stop := if_pos hs
    refine ⟨s.g.stop.putWarp s.w, ?_, ?_, ?_⟩
    · rw [hm, State.group?, State.allGroups, State.unselect,
        if_neg (show (s.setG s.g.stop).g.id ≠ 0 from (Group.stop_id s.g).trans hs ▸ h0)]
      exact List.find?_cons_of_pos (by simp [Group.putWarp_id, Group.stop_id, hs])
    · rw [Group.putWarp_id, Group.stop_id, hs]
    · rw [Group.putWarp_stand]
      exact Group.stop_stand _
  · have hf (x : Group) : (if x.id = gid then x.stop else x).id = x.id := by
      split
      · exact Group.stop_id x
      · rfl
    rw [group?_other hs] at h
    have hid : g.id = gid := by simpa using List.find?_some h
    have hfound := find?_map_keeps (key := Group.id) hf h
    rw [if_pos hid] at hfound
    refine ⟨g.stop, ?_, (Group.stop_id g).trans hid, Group.stop_stand g⟩
    rw [mapGroup_other hs]
    exact Eq.trans (group?_other (s := { s with groups := s.groups.map fun x => if x.id = gid then x.stop else x }) hs) hfound

/-- R27: a group all of whose core's warps wait to grow is the one that leaves it. -/
theorem growDead_alone {s : State} {chip core : Nat} {g : Group} (h : s.growDead chip core = true) (hc : s.onCore chip core = [g]) :
    (g.others.all fun w => w.grow.isNone) = false := by
  simp only [State.growDead, hc, List.flatMap_cons, List.flatMap_nil, List.append_nil, Bool.and_eq_true, List.all_eq_true] at h
  obtain ⟨⟨hne, hall⟩, -⟩ := h
  cases hw : g.others with
  | nil => simp [hw] at hne
  | cons w t =>
    have := (hall w (hw ▸ List.mem_cons_self)).1
    simp [Option.isSome_iff_ne_none.mp this]

/-- R27: the group of a dead core stops, or has left it. -/
theorem rgrowDeadlock_stops {s : State} {chip core : Nat} {g : Group} (h : s.growDead chip core = true) (hc : s.onCore chip core = [g])
    (hs : g.sys = false) (h0 : g.id ≠ 0) :
    Goes (exec (.rgrowDeadlockPreempt chip core) s) fun t => ∃ x, t.group? g.id = some x ∧ x.stand ≠ .resident := by
  have hmem : g ∈ s.allGroups := (List.mem_filter.mp (show g ∈ s.onCore chip core by rw [hc]; exact List.mem_singleton_self g)).1
  obtain ⟨y, hy⟩ := Option.isSome_iff_exists.mp (List.find?_isSome (p := fun x => x.id == g.id).mpr ⟨g, hmem, beq_self_eq_true g.id⟩)
  obtain ⟨x, hx, hid, hstand⟩ := stop_found (s := s) (gid := g.id) h0 hy
  have he : exec (.rgrowDeadlockPreempt chip core) s = .next
      (if (s.mapGroup g.id Group.stop).canStop x then (s.mapGroup g.id Group.stop).saveGroup g.id else s.mapGroup g.id Group.stop) := by
    show execRgrowDeadlockPreempt chip core s = _
    simp only [execRgrowDeadlockPreempt, h, hc, hs, growDead_alone h hc, List.foldl_cons, List.foldl_nil, hx, Bool.not_true,
      Bool.or_self, Bool.false_eq_true, if_false]
  rw [he]
  refine goes_next ?_
  split
  · rw [← hid] at hx h0 ⊢
    obtain ⟨z, hz, hsaved⟩ := saveGroup_saves hx h0
    exact ⟨z, hz, by rw [hsaved.stand]; decide⟩
  · exact ⟨x, hx, hstand⟩

/-! ### Resumption (R6, R374) -/

/-- R374: what of a group's record changes where it stands on a core again: its place there, and nothing of its kernel. -/
structure PutBack (g h : Group) (core : Nat) (seat : Seat) : Prop where
  id : h.id = g.id
  stand : h.stand = .resident
  core : h.core = core
  room : h.room = seat.room
  win : h.win = seat.win
  warps : h.others.length = g.others.length
  kern : h.kern = g.kern

/-- R374, R375: bytes, marks, conditions and constants move, and no group does. -/
theorem restage_sameGroups (s : State) (f : Nat → Nat) (a b : List Host.Cell) (o n p q : List (Nat × Nat)) (e : Nat → Option Nat)
    (chip core : Nat) (k : Kernel) (room : List (Nat × Nat)) :
    SameGroups s (((((s.movePlaces f).putImage a o n).putImage b p q).eccCopy e).stage chip core k room) := ⟨rfl, rfl⟩

theorem putBack_groups (s : State) (g : Group) (core : Nat) (seat : Seat) : (s.putBack g core seat).g = s.g ∧ ∃ h, PutBack g h core seat
    ∧ (s.putBack g core seat).groups = s.groups.map fun x => if x.id = g.id then h else x := by
  simp only [State.putBack]
  generalize hT : State.stage _ g.chip core g.kern seat.room = t
  have ht : SameGroups s t := hT ▸ restage_sameGroups ..
  rw [← ht.groups, ← ht.g]
  clear hT
  cases g.frame with
  | none =>
    refine ⟨rfl, _, ?_, rfl⟩
    exact ⟨rfl, rfl, rfl, rfl, rfl, List.length_map .., rfl⟩
  | some off =>
    refine ⟨rfl, _, ?_, rfl⟩
    exact ⟨rfl, rfl, rfl, rfl, rfl, List.length_map .., rfl⟩

/-- R374: the group stands on the core again, in the room that it has found there. -/
theorem putBack_found {s : State} {g : Group} (hf : s.g.id = 0) (hg : s.group? g.id = some g) (core : Nat) (seat : Seat) :
    ∃ h, (s.putBack g core seat).group? g.id = some h ∧ PutBack g h core seat := by
  obtain ⟨hsel, h, hh, hgroups⟩ := putBack_groups s g core seat
  have hall : s.allGroups = s.groups := if_pos hf
  refine ⟨h, (group?_map (hsel ▸ hf) (hall ▸ hgroups) (fun x => ?_) hg).trans (by rw [if_pos rfl]), hh⟩
  split
  · rename_i hx
    exact hh.id.trans hx.symm
  · rfl

/-- R6, R374: a saved group that finds room on a core stands there. -/
theorem groupResume_stands {s u : State} {gid core : Nat} {g : Group} {seat : Seat} (hg : s.group? gid = some g)
    (hs : g.isSaved = true) (hc : s.partCore g.part g.chip core = true) (hr : s.roomToResume g = true)
    (hu : s.unselect.takeSlice g.chip g.part g.vf = some u)
    (hseat : u.seat? g.chip core g.shape g.slots g.regs g.savedTiles.length = some seat) :
    Goes (exec (.groupResume gid core) s) fun t => ∃ h, t.group? gid = some h ∧ PutBack g h core seat := by
  have hid : g.id = gid := by simpa using List.find?_some (p := fun x : Group => x.id == gid) hg
  subst hid
  have hsame := takeSlice_sameGroups hu
  have he : exec (.groupResume g.id core) s = .next (u.putBack g core seat) := by
    show execGroupResume g.id core s = _
    simp only [execGroupResume, hg, hs, hc, hr, hu, hseat, Bool.not_true, Bool.or_self, Bool.false_eq_true, if_false]
  rw [he]
  exact goes_next (putBack_found (hsame.g ▸ rfl) ((hsame.group? rfl g.id).trans hg) core seat)

end Sys2Proof.Machine
end

section
open Sys2Proof Sys2Proof.Machine

/-- Settles O47: a save (`saveGroup_saves`), a resumption (`groupResume_stands`), a core dead in `rgrow` (`rgrowDeadlock_stops`) and the
ends of slices (`vfSliceEnd_again`, `vfSliceEnd_next`). -/
theorem preemption : Obligations.Preemption := by
  intro s u chip p gid core v g o seat
  refine ⟨fun hg h0 hc => ?_, fun hg hs h0 hc hr hu hseat => ?_, fun hd hc hs h0 => rgrowDeadlock_stops hd hc hs h0,
    fun ho hn hc hv => ?_, fun ho hn hc hv hne hst => ?_⟩
  · have he : exec (.preemptStop gid) s = .next (s.saveGroup gid) := by
      show execPreemptStop gid s = _
      simp only [execPreemptStop, hg, hc, if_true]
    have hid : g.id = gid := by simpa using List.find?_some (p := fun x : Group => x.id == gid) hg
    subst hid
    obtain ⟨h, hh, hsaved⟩ := saveGroup_saves hg h0
    rw [he]
    exact goes_next ⟨hsaved.below, h, hh, hsaved.stand, hsaved.kern, hsaved.room, hsaved.shr⟩
  · exact (groupResume_stands hg hs hc hr hu hseat).mono fun t ⟨h, hh, hb⟩ =>
      ⟨h, hh, hb.stand, hb.core, hb.room, hb.win, hb.warps, hb.kern⟩
  · rw [vfSliceEnd_again ho hn hc hv]
    have h := startSlice_slicesOnly s chip p o.vf
    exact goes_next ⟨h.w, h.mem, h.groups, startSlice_owner ..⟩
  · obtain ⟨t, ht, hcyc, he⟩ := vfSliceEnd_next ho hn hc hv hne hst
    have h := startSlice_slicesOnly t chip p v
    obtain ⟨q, hq, hvf, hsince, hnext⟩ := startSlice_owner t chip p v
    rw [he]
    exact goes_next ⟨h.w.trans ht.w, h.mem.trans ht.mem, q, hq, hvf, hsince.trans hcyc, hnext⟩
end

section
/-! SUPPORT. Reading after writing (R44): what a byte reads as behind any writes, numbers in little-endian bytes, and that a memory of
the one form is known by what it reads as (log 1). -/

namespace Sys2Proof.Machine

/-! ### Bytes -/

/-- Behind writes a byte reads as the last of them to its place, or as before. -/
theorem readByte_writeBytes {m : List Host.Cell} (h : Memory.wf m) (l : List (Nat × Byte)) (a : Nat) :
    readByte (writeBytes m l) a = (l.reverse.lookup a).getD (readByte m a) := by
  induction l generalizing m with
  | nil => rfl
  | cons p t ih =>
    have hp := readByte_writeByte h p.1 p.2 a
    rw [List.reverse_cons, List.lookup_append]
    refine (ih (Memory.wf_writeByte h _ _)).trans ?_
    cases ht : t.reverse.lookup a with
    | some b => rfl
    | none =>
      by_cases ha : a = p.1
      · subst ha
        simp [hp, List.lookup]
      · simp [hp, ha, List.lookup, beq_false_of_ne ha]

theorem lookup_eq_none_of_notMem {l : List (Nat × Byte)} {a : Nat} (h : a ∉ l.map Prod.fst) : l.lookup a = none :=
  List.lookup_eq_none_iff.mpr fun p hp => bne_iff_ne.mpr fun e => h (List.mem_map.mpr ⟨p, hp, e.symm⟩)

/-- In a list that names each place once, a look-up finds every entry. -/
theorem lookup_of_mem {l : List (Nat × Byte)} (hn : (l.map Prod.fst).Nodup) {p : Nat × Byte} (hp : p ∈ l) : l.lookup p.1 = some p.2 := by
  induction l with
  | nil => cases hp
  | cons q t ih =>
    obtain ⟨hq, ht⟩ := List.nodup_cons.mp hn
    rcases List.mem_cons.mp hp with rfl | hp
    · simp [List.lookup]
    · have hne : p.1 ≠ q.1 := fun e => hq (e ▸ List.mem_map_of_mem hp)
      simpa [List.lookup, beq_false_of_ne hne] using ih ht hp

theorem readByte_writeBytes_notMem {m : List Host.Cell} (h : Memory.wf m) {l : List (Nat × Byte)} {a : Nat}
    (ha : a ∉ l.map Prod.fst) : readByte (writeBytes m l) a = readByte m a := by
  rw [readByte_writeBytes h, lookup_eq_none_of_notMem (by simpa using ha)]
  rfl

theorem readByte_writeBytes_mem {m : List Host.Cell} (h : Memory.wf m) {l : List (Nat × Byte)} (hn : (l.map Prod.fst).Nodup)
    {p : Nat × Byte} (hp : p ∈ l) : readByte (writeBytes m l) p.1 = p.2 := by
  rw [readByte_writeBytes h, lookup_of_mem (by simpa using hn) (List.mem_reverse.mpr hp)]
  rfl

/-! ### Numbers -/

@[simp] theorem leBytes_length (n v : Nat) : (leBytes n v).length = n := by
  induction n generalizing v with
  | zero => rfl
  | succ n ih => simp [leBytes, ih]

theorem leNat_leBytes (n v : Nat) : leNat (leBytes n v) = v % 2 ^ (8 * n) := by
  induction n generalizing v with
  | zero => simp [leBytes, leNat, Nat.mod_one]
  | succ n ih =>
    have hp : 2 ^ (8 * (n + 1)) = 256 * 2 ^ (8 * n) := by rw [Nat.mul_add, pow_add, Nat.mul_comm]; rfl
    simp only [leBytes, leNat, ih, BitVec.toNat_ofNat, hp, Nat.mod_mul]

theorem places_length (a n : Nat) : (places a n).length = n := by simp [places]

theorem places_nodup (a n : Nat) : (places a n).Nodup := List.nodup_range.map fun _ _ e => Nat.add_left_cancel e

/-- Bytes written to different places are read back, in order. -/
theorem map_readByte_writeBytes {m : List Host.Cell} (h : Memory.wf m) {ks : List Nat} {bs : List Byte} (hn : ks.Nodup)
    (hl : ks.length = bs.length) : ks.map (readByte (writeBytes m (ks.zip bs))) = bs := by
  have hk : (ks.zip bs).map Prod.fst = ks := List.map_fst_zip hl.le
  have hv : (ks.zip bs).map Prod.snd = bs := List.map_snd_zip hl.ge
  conv_lhs => rw [← hk, List.map_map, hk]
  conv_rhs => rw [← hv]
  exact List.map_congr_left fun p hp => readByte_writeBytes_mem h (hk.symm ▸ hn) hp

theorem readLE_writeBytes {m : List Host.Cell} (h : Memory.wf m) (a n v : Nat) :
    readLE (writeBytes m ((places a n).zip (leBytes n v))) (places a n) = v % 2 ^ (8 * n) := by
  rw [readLE, map_readByte_writeBytes h (places_nodup a n) (by rw [places_length, leBytes_length]), leNat_leBytes]

/-! ### The one form (log 1) -/

/-- The first listed place is where a memory first differs from none. -/
theorem readByte_head {x : Nat} {y : Byte} (m : List Host.Cell) : readByte ((x, y) :: m) x = y := by rw [readByte_cons, if_pos rfl]

/-- A memory of the form lists no byte in vain: it reads as unlisted everywhere only when it lists nothing. -/
theorem eq_nil_of_reads_unlisted {m : List Host.Cell} (h : Memory.wf m) (hr : ∀ k, readByte m k = Memory.unlisted) : m = [] := by
  cases m with
  | nil => rfl
  | cons p t => exact absurd ((readByte_head t).symm.trans (hr p.1)) (h.2 p List.mem_cons_self)

/-- Of two memories of the form that read alike, neither lists its first place before the other. -/
theorem head_le_of_reads {x x' : Nat} {y y' : Byte} {m m' : List Host.Cell} (h : Memory.wf ((x, y) :: m))
    (h' : Memory.wf ((x', y') :: m')) (hr : ∀ k, readByte ((x, y) :: m) k = readByte ((x', y') :: m') k) : x' ≤ x := by
  by_contra hlt
  have hu : readByte ((x', y') :: m') x = Memory.unlisted := readByte_of_lt fun c hc => by
    rcases List.mem_cons.mp hc with rfl | hc
    · exact Nat.lt_of_not_le hlt
    · exact Nat.lt_trans (Nat.lt_of_not_le hlt) ((List.pairwise_cons.mp h'.1).1 c hc)
  exact h.2 (x, y) List.mem_cons_self ((readByte_head m).symm.trans ((hr x).trans hu))

/-- Memories of the form that read alike are equal. -/
theorem eq_of_reads {m m' : List Host.Cell} (h : Memory.wf m) (h' : Memory.wf m') (hr : ∀ k, readByte m k = readByte m' k) : m = m' := by
  induction m generalizing m' with
  | nil => exact (eq_nil_of_reads_unlisted h' fun k => (hr k).symm).symm
  | cons p t ih =>
    cases m' with
    | nil => exact eq_nil_of_reads_unlisted h hr
    | cons p' t' =>
      obtain ⟨x, y⟩ := p
      obtain ⟨x', y'⟩ := p'
      obtain rfl : x = x' := le_antisymm (head_le_of_reads h' h fun k => (hr k).symm) (head_le_of_reads h h' hr)
      have hy : y = y' := (readByte_head t).symm.trans ((hr x).trans (readByte_head t'))
      have ht : ∀ k, readByte t k = readByte t' k := fun k => by
        by_cases hk : k = x
        · subst hk
          rw [readByte_of_lt (List.pairwise_cons.mp h.1).1, readByte_of_lt (List.pairwise_cons.mp h'.1).1]
        · have := hr k
          rwa [readByte_cons, readByte_cons, if_neg hk, if_neg hk] at this
      rw [hy, ih (Memory.wf_tail h) (Memory.wf_tail h') ht]

end Sys2Proof.Machine
end

section
open Sys2Proof Sys2Proof.Machine

/-- Settles O59: what a byte reads as behind any writes (`readByte_writeBytes`), the number read back (`readLE_writeBytes`), and that the
form has one list for each memory (`eq_of_reads`). -/
theorem memoryLaws : Obligations.MemoryLaws := by
  intro m m' l a v n b h
  refine ⟨fun hn p hp => readByte_writeBytes_mem h hn hp, readByte_writeBytes_notMem h, ?_, readLE_writeBytes h a n v,
    fun h' hr => eq_of_reads h h' hr⟩
  rw [readByte_writeBytes h]
  simp
end

section
/-! SUPPORT. What a step may leave behind besides a state (an optional state, a state with a value, an act, an outcome), and
when the memory in it has its one form (log 1). -/

namespace Sys2Proof.Machine

/-- The state in `o`, if there is one, has a memory in its one form. -/
def OptWf (o : Option State) : Prop := ∀ t, o = some t → Memory.wf t.mem

/-- The state beside the value in `o`, if there is one, has a memory in its one form. -/
def PairWf {α : Type} (o : Option (α × State)) : Prop := ∀ q, o = some q → Memory.wf q.2.mem

/-- The state that an instruction goes on with or is held in has a memory in its one form; a trap names none. -/
inductive ActWf : Act → Prop
  | ok {t : State} (h : Memory.wf t.mem) : ActWf (.ok t)
  | hold {t : State} (h : Memory.wf t.mem) : ActWf (.hold t)
  | trap {c : Nat} {a : Dword} {v : Word} : ActWf (.trap c a v)

/-- The next state, if the outcome has one, has a memory in its one form. -/
def OutWf (o : Host.Outcome State Fault Refusal) : Prop := ∀ t, o = .next t → Memory.wf t.mem

/-- What answers a mailbox request keeps the memory's form. -/
def ReplyWf (o : Option (Nat × (State → State))) : Prop := ∀ x, o = some x → ∀ t, Memory.wf t.mem → Memory.wf (x.2 t).mem

/-- The state in which a block has been popped has a memory in its one form. -/
def PoppedWf : Popped → Prop
  | .ok _ t => Memory.wf t.mem
  | _ => True

/-- The state in which a position has been moved has a memory in its one form. -/
def MovedWf : Moved → Prop
  | .ok t => Memory.wf t.mem
  | _ => True

/-- The state in which a trap has ended has a memory in its one form. -/
def EndedWf : Ended → Prop
  | .done t => Memory.wf t.mem
  | _ => True

/-- The state that a fetch leaves behind has a memory in its one form. -/
def FetchWf : Fetch → Prop
  | .none => True
  | .bad t => Memory.wf t.mem
  | .got x => Memory.wf x.next.mem

section
variable {α β γ : Type} {c : Prop} [Decidable c]

theorem wf_ite {a b : State} (ha : Memory.wf a.mem) (hb : Memory.wf b.mem) : Memory.wf (if c then a else b).mem := by
  split <;> assumption

theorem wf_ite_mem {a b : List Host.Cell} (ha : Memory.wf a) (hb : Memory.wf b) : Memory.wf (if c then a else b) := by
  split <;> assumption

theorem wf_foldl {f : State → α → State} {l : List α} {s : State} (hf : ∀ t, Memory.wf t.mem → ∀ a, Memory.wf (f t a).mem)
    (h : Memory.wf s.mem) : Memory.wf (l.foldl f s).mem :=
  foldl_keeps (fun t : State => Memory.wf t.mem) f (fun t a ht => hf t ht a) l h

theorem wf_foldl_fst {f : State × β → α → State × β} {l : List α} {q : State × β}
    (hf : ∀ q, Memory.wf q.1.mem → ∀ a, Memory.wf (f q a).1.mem) (h : Memory.wf q.1.mem) : Memory.wf (l.foldl f q).1.mem :=
  foldl_keeps (fun q : State × β => Memory.wf q.1.mem) f (fun t a ht => hf t ht a) l h

theorem wf_foldl_snd {f : β × State → α → β × State} {l : List α} {q : β × State}
    (hf : ∀ q, Memory.wf q.2.mem → ∀ a, Memory.wf (f q a).2.mem) (h : Memory.wf q.2.mem) : Memory.wf (l.foldl f q).2.mem :=
  foldl_keeps (fun q : β × State => Memory.wf q.2.mem) f (fun t a ht => hf t ht a) l h

theorem wf_of_eq_fst {q t : State × β} (h : Memory.wf q.1.mem) (e : q = t) : Memory.wf t.1.mem := e ▸ h

theorem wf_of_eq_snd {q t : β × State} (h : Memory.wf q.2.mem) (e : q = t) : Memory.wf t.2.mem := e ▸ h

theorem wf_of_eq_trd {q t : β × γ × State} (h : Memory.wf q.2.2.mem) (e : q = t) : Memory.wf t.2.2.mem := e ▸ h

theorem OptWf.none : OptWf none := fun _ e => by cases e

theorem OptWf.some {t : State} (h : Memory.wf t.mem) : OptWf (some t) := fun _ e => Option.some.inj e ▸ h

theorem OptWf.ite {a b : Option State} (ha : OptWf a) (hb : OptWf b) : OptWf (if c then a else b) := by split <;> assumption

theorem OptWf.map {f : α → State} {o : Option α} (hf : ∀ a, Memory.wf (f a).mem) : OptWf (o.map f) := by
  cases o with
  | none => exact .none
  | some a => exact .some (hf a)

theorem OptWf.bind {f : α → Option State} {o : Option α} (hf : ∀ a, OptWf (f a)) : OptWf (o.bind f) := by
  cases o with
  | none => exact .none
  | some a => exact hf a

theorem OptWf.andThen {f : State → Option State} {o : Option State} (h : OptWf o) (hf : ∀ t, Memory.wf t.mem → OptWf (f t)) :
    OptWf (o.bind f) := by
  cases o with
  | none => exact .none
  | some a => exact hf a (h a rfl)

theorem OptWf.after {f : State → State} {o : Option State} (ho : OptWf o) (hf : ∀ t, Memory.wf t.mem → Memory.wf (f t).mem) :
    OptWf (o.map f) := by
  cases o with
  | none => exact .none
  | some t => exact .some (hf t (ho t rfl))

theorem OptWf.afterPair {f : α × State → State} {o : Option (α × State)} (ho : PairWf o)
    (hf : ∀ q, Memory.wf q.2.mem → Memory.wf (f q).mem) : OptWf (o.map f) := by
  cases o with
  | none => exact .none
  | some q => exact .some (hf q (ho q rfl))

theorem OptWf.getD {o : Option State} {s : State} (ho : OptWf o) (h : Memory.wf s.mem) : Memory.wf (o.getD s).mem := by
  cases o with
  | none => exact h
  | some t => exact ho t rfl

theorem PairWf.none : PairWf (none : Option (α × State)) := fun _ e => by cases e

theorem PairWf.some {q : α × State} (h : Memory.wf q.2.mem) : PairWf (some q) := fun _ e => Option.some.inj e ▸ h

theorem PairWf.map {f : α → β × State} {o : Option α} (hf : ∀ a, Memory.wf (f a).2.mem) : PairWf (o.map f) := by
  cases o with
  | none => exact .none
  | some a => exact .some (hf a)

theorem PairWf.ite {a b : Option (α × State)} (ha : PairWf a) (hb : PairWf b) : PairWf (if c then a else b) := by
  split <;> assumption

theorem ActWf.ite {a b : Act} (ha : ActWf a) (hb : ActWf b) : ActWf (if c then a else b) := by split <;> assumption

theorem ActWf.of_ok {a : Act} {t : State} (h : ActWf a) (e : a = .ok t) : Memory.wf t.mem := by subst e; cases h; assumption

theorem ActWf.of_hold {a : Act} {t : State} (h : ActWf a) (e : a = .hold t) : Memory.wf t.mem := by
  subst e; cases h; assumption

theorem OutWf.next {t : State} (h : Memory.wf t.mem) : OutWf (.next t) := fun _ e => Host.Outcome.next.inj e ▸ h

theorem OutWf.fault {f : Fault} : OutWf (.fault f) := fun _ e => by cases e

theorem OutWf.refused {r : Refusal} : OutWf (.refused r) := fun _ e => by cases e

theorem OutWf.ite {a b : Host.Outcome State Fault Refusal} (ha : OutWf a) (hb : OutWf b) : OutWf (if c then a else b) := by
  split <;> assumption

theorem ReplyWf.none : ReplyWf none := fun _ e => by cases e

theorem ReplyWf.some {n : Nat} {f : State → State} (hf : ∀ t, Memory.wf t.mem → Memory.wf (f t).mem) :
    ReplyWf (some (n, f)) :=
  fun _ e => Option.some.inj e ▸ hf

theorem ReplyWf.ite {a b : Option (Nat × (State → State))} (ha : ReplyWf a) (hb : ReplyWf b) :
    ReplyWf (if c then a else b) := by
  split <;> assumption

theorem PoppedWf.of_ok {x : Popped} {e : FstEntry} {t : State} (h : PoppedWf x) (q : x = .ok e t) : Memory.wf t.mem := by
  subst q; exact h

theorem MovedWf.of_ok {x : Moved} {t : State} (h : MovedWf x) (q : x = .ok t) : Memory.wf t.mem := by subst q; exact h

theorem EndedWf.of_done {x : Ended} {t : State} (h : EndedWf x) (q : x = .done t) : Memory.wf t.mem := by subst q; exact h

theorem FetchWf.of_bad {x : Fetch} {t : State} (h : FetchWf x) (q : x = .bad t) : Memory.wf t.mem := by subst q; exact h

theorem FetchWf.of_got {x : Fetch} {y : Fetched} (h : FetchWf x) (q : x = .got y) :
    Memory.wf y.next.mem := by subst q; exact h

end

end Sys2Proof.Machine
end

section
/-! SUPPORT. Every function of the model that gives back a state keeps the memory's one form (log 1), in the order of the
model's files; then the instructions, the turns and a step. -/

namespace Sys2Proof.Machine

section
variable {s : State}

/-! ### State -/

theorem State.wf_reset : Memory.wf State.reset.mem := Memory.wf_nil

/-! ### Ops -/

theorem State.wf_wrD {a v} (h : Memory.wf s.mem) : Memory.wf (s.wrD a v).mem := State.wf_wrN h _ _ _
theorem State.wf_unselect (h : Memory.wf s.mem) : Memory.wf s.unselect.mem := h

theorem State.wf_select {gid wid} (h : Memory.wf s.mem) : Memory.wf (s.select gid wid).mem := by
  dsimp only [State.select]
  split
  · exact h
  split
  · exact h
  split
  · exact h
  dsimp only
  exact State.wf_unselect h

theorem State.wf_setW {w} (h : Memory.wf s.mem) : Memory.wf (s.setW w).mem := h
theorem State.wf_setG {g} (h : Memory.wf s.mem) : Memory.wf (s.setG g).mem := h

theorem State.wf_mapWarp {gid wid f} (h : Memory.wf s.mem) : Memory.wf (s.mapWarp gid wid f).mem :=
  wf_ite (State.wf_setW h) (wf_ite (State.wf_setG h) h)

theorem State.wf_mapGroup {gid f} (h : Memory.wf s.mem) : Memory.wf (s.mapGroup gid f).mem := wf_ite (State.wf_setG h) h
theorem State.wf_fresh (h : Memory.wf s.mem) : Memory.wf s.fresh.2.mem := h
theorem State.wf_show {t p} (h : Memory.wf s.mem) : Memory.wf (s.show t p).mem := h

theorem State.wf_meet {core gid wid m p} (h : Memory.wf s.mem) : Memory.wf (s.meet core gid wid m p).mem :=
  State.wf_show h

theorem State.wf_meetPlace {k p} (h : Memory.wf s.mem) : Memory.wf (s.meetPlace k p).mem := State.wf_show h
theorem State.wf_pass {p q} (h : Memory.wf s.mem) : Memory.wf (s.pass p q).mem := State.wf_show h
theorem State.wf_forget {k} (h : Memory.wf s.mem) : Memory.wf (s.forget k).mem := h
theorem State.wf_meetSel {m p} (h : Memory.wf s.mem) : Memory.wf (s.meetSel m p).mem := State.wf_meet h

theorem State.wf_meetReleased {w0} (h : Memory.wf s.mem) : Memory.wf (s.meetReleased w0).mem :=
  wf_foldl (fun _ ht _ => wf_ite (State.wf_meetSel ht) ht) h

theorem State.wf_putMasks {w} (h : Memory.wf s.mem) : Memory.wf (s.putMasks w).mem :=
  State.wf_meetReleased (State.wf_setW h)

theorem wf_trapWith {t cause rep addr value} (h : Memory.wf s.mem) : Memory.wf (trapWith s t cause rep addr value).mem :=
  wf_ite h h

theorem wf_takeTrap {r cause addr value} (h : Memory.wf s.mem) : Memory.wf (takeTrap s r cause addr value).mem :=
  wf_trapWith h

theorem wf_takeTrapBefore {e cause addr pc} (h : Memory.wf s.mem) : Memory.wf (takeTrapBefore s e cause addr pc).mem :=
  wf_ite h (wf_trapWith (State.wf_setW h))

theorem wf_takeTrapAfter {lanes pc stand ops cause addr value} (h : Memory.wf s.mem) :
    Memory.wf (takeTrapAfter s lanes pc stand ops cause addr value).mem :=
  wf_trapWith h

theorem wf_advance {n} (h : Memory.wf s.mem) : Memory.wf (advance n s).mem := by
  dsimp only [advance]
  split
  · exact h
  exact State.wf_setW h

theorem State.wf_mapRun {f} (h : Memory.wf s.mem) : Memory.wf (s.mapRun f).mem := by
  dsimp only [State.mapRun]
  split
  · exact h
  exact State.wf_setW h

theorem wf_issue {i body} (h : Memory.wf s.mem) (hbody : ∀ a, ActWf (body a)) : OutWf (issue i s body) := by
  dsimp only [issue]
  split
  · exact .fault
  split
  · exact .next (wf_takeTrap h)
  split
  · rename_i e2
    exact .next (wf_advance (ActWf.of_ok (hbody _) e2))
  · exact .next (wf_takeTrap h)
  rename_i e2
  exact .next (ActWf.of_hold (hbody _) e2)

theorem State.wf_setExit {e} (h : Memory.wf s.mem) : Memory.wf (s.setExit e).mem := by
  dsimp only [State.setExit]
  split
  · exact h
  exact State.wf_setW h

/-! ### Operands -/

theorem wf_laneOp {i d f} (h : Memory.wf s.mem) : OutWf (laneOp i s d f) := wf_issue h (fun _ => .ok (State.wf_setW h))

theorem wf_laneOp64 {i d f} (h : Memory.wf s.mem) : OutWf (laneOp64 i s d f) :=
  wf_issue h (fun _ => .ok (State.wf_setW h))

theorem wf_binOp {i d a b f} (h : Memory.wf s.mem) : OutWf (binOp i s d a b f) := wf_laneOp h
theorem wf_unOp {i d a f} (h : Memory.wf s.mem) : OutWf (unOp i s d a f) := wf_laneOp h
theorem State.wf_writeAll {r d v} (h : Memory.wf s.mem) : Memory.wf (s.writeAll r d v).mem := State.wf_setW h
theorem State.wf_writeAll64 {r d v} (h : Memory.wf s.mem) : Memory.wf (s.writeAll64 r d v).mem := State.wf_setW h

/-! ### Flags -/

theorem wf_fpOp {i d f} (h : Memory.wf s.mem) : OutWf (fpOp i s d f) := wf_issue h (fun _ => .ok (State.wf_setW h))
theorem wf_fpOp64 {i d f} (h : Memory.wf s.mem) : OutWf (fpOp64 i s d f) := wf_issue h (fun _ => .ok (State.wf_setW h))

/-! ### Fp -/

theorem wf_fpBin {i d a b kc f} (h : Memory.wf s.mem) : OutWf (fpBin i s d a b kc f) := wf_fpOp h
theorem wf_fpTer {i d a b kc f} (h : Memory.wf s.mem) : OutWf (fpTer i s d a b kc f) := wf_fpOp h
theorem wf_fpUn {i d a f} (h : Memory.wf s.mem) : OutWf (fpUn i s d a f) := wf_fpOp h

/-! ### Convert -/

theorem wf_packBlocks {i d a f planar m} (h : Memory.wf s.mem) : OutWf (packBlocks i d a f planar m s) :=
  wf_issue h (fun _ => .ok (State.wf_setW h))

theorem wf_unpackBlocks {i d a f planar} (h : Memory.wf s.mem) : OutWf (unpackBlocks i d a f planar s) :=
  wf_issue h (fun _ => .ok (State.wf_setW h))

/-! ### Space -/

theorem State.wf_mapPart {p f} (h : Memory.wf s.mem) : Memory.wf (s.mapPart p f).mem := h
theorem State.wf_mapVf {p v f} (h : Memory.wf s.mem) : Memory.wf (s.mapVf p v f).mem := State.wf_mapPart h
theorem State.wf_mapUse {chip p v f} (h : Memory.wf s.mem) : Memory.wf (s.mapUse chip p v f).mem := h

theorem State.wf_meterFab {chip p v n} (h : Memory.wf s.mem) : Memory.wf (s.meterFab chip p v n).mem :=
  State.wf_mapVf (State.wf_mapUse h)

theorem State.wf_meterHbm {chip p v n} (h : Memory.wf s.mem) : Memory.wf (s.meterHbm chip p v n).mem :=
  State.wf_mapVf (State.wf_mapUse h)

theorem State.wf_sendFab {n k} (h : Memory.wf s.mem) (hk : ∀ t, Memory.wf t.mem → ActWf (k t)) : ActWf (s.sendFab n k) :=
  .ite (hk _ h) (.ite (hk _ (State.wf_meterFab h)) (.hold h))

theorem wf_checked {c k} (hk : ActWf k) : ActWf (checked c k) := by
  dsimp only [checked]
  split
  · exact .trap
  exact hk

theorem State.wf_lookPage {e} (h : Memory.wf s.mem) : Memory.wf (s.lookPage e).mem := wf_ite h h

theorem State.wf_lookUp {vas} (h : Memory.wf s.mem) : Memory.wf (s.lookUp vas).mem :=
  wf_foldl (fun _ ht _ => State.wf_lookPage ht) h

theorem State.wf_shoot {p v pages} (h : Memory.wf s.mem) : Memory.wf (s.shoot p v pages).mem := h

theorem State.wf_eccSeen {pa} (h : Memory.wf s.mem) : Memory.wf (s.eccSeen pa).mem := by
  dsimp only [State.eccSeen]
  split
  · exact h
  · exact wf_ite h h
  exact h

theorem State.wf_meterHbmAll {p v ks} (h : Memory.wf s.mem) : Memory.wf (s.meterHbmAll p v ks).mem :=
  wf_foldl (fun _ ht _ => State.wf_meterHbm ht) h

/-! ### LoadStore -/

theorem State.wf_ordered {m ks k} (h : Memory.wf s.mem) (hk : ActWf k) : ActWf (s.ordered m ks k) := by
  dsimp only [State.ordered]
  split
  · exact .hold h
  split
  · exact .trap
  exact hk

theorem State.wf_push {o} (h : Memory.wf s.mem) : Memory.wf (s.push o).mem := h

theorem State.wf_pushPieces {r kind n reg sp fs ps} (h : Memory.wf s.mem) :
    Memory.wf (s.pushPieces r kind n reg sp fs ps).mem :=
  wf_foldl (fun _ ht _ => State.wf_push ht) h

theorem State.wf_mapStream {src dst no f} (h : Memory.wf s.mem) : Memory.wf (s.mapStream src dst no f).mem := by
  dsimp only [State.mapStream]
  split <;> exact h

theorem State.wf_acceptPiece {r f} (h : Memory.wf s.mem) : Memory.wf (s.acceptPiece r f).mem :=
  wf_ite (State.wf_mapStream (State.wf_push (State.wf_mapStream h))) (State.wf_mapStream h)

theorem State.wf_pushStreams {r n fs accs} (h : Memory.wf s.mem) : Memory.wf (s.pushStreams r n fs accs).mem := by
  dsimp only [State.pushStreams]
  refine wf_foldl (fun t ht _ => ?_) h
  split
  · exact ht
  exact State.wf_acceptPiece (State.wf_pushPieces ht)

theorem State.wf_pushRelease {r n f data} (h : Memory.wf s.mem) : Memory.wf (s.pushRelease r n f data).mem := by
  dsimp only [State.pushRelease]
  split
  · exact h
  exact State.wf_mapStream (State.wf_push h)

theorem State.wf_dropOp {id} (h : Memory.wf s.mem) : Memory.wf (s.dropOp id).mem := h
theorem State.wf_mapOp {id f} (h : Memory.wf s.mem) : Memory.wf (s.mapOp id f).mem := h
theorem State.wf_landOp {o k f} (h : Memory.wf s.mem) : Memory.wf (s.landOp o k f).mem := State.wf_mapWarp h

theorem State.wf_replyLoad {o} (h : Memory.wf s.mem) : Memory.wf (s.replyLoad o).mem := by
  dsimp only [State.replyLoad]
  split
  · exact State.wf_dropOp (State.wf_landOp h)
  exact h

theorem State.wf_performStore {o} (h : Memory.wf s.mem) : Memory.wf (s.performStore o).mem := by
  dsimp only [State.performStore]
  split
  · exact State.wf_dropOp (State.wf_wrs h _)
  exact State.wf_mapStream (State.wf_dropOp (State.wf_wrs h _))

theorem State.wf_performRelease {o f} (h : Memory.wf s.mem) : Memory.wf (s.performRelease o f).mem :=
  State.wf_mapStream (State.wf_dropOp (State.wf_wrs h _))

theorem State.wf_takeOps {os m} (h : Memory.wf s.mem) : Memory.wf (s.takeOps os m).2.mem := h
theorem State.wf_splitFail {o l} (h : Memory.wf s.mem) : Memory.wf (s.splitFail o l).mem := h
theorem State.wf_failWord {o va} (h : Memory.wf s.mem) : Memory.wf (s.failWord o va).mem := State.wf_splitFail h

theorem wf_execLoadReply {op} (h : Memory.wf s.mem) : OutWf (execLoadReply op s) := by
  dsimp only [execLoadReply]
  split
  · refine .next ?_
    split
    · exact State.wf_failWord h
    exact State.wf_replyLoad h
  exact .next h

theorem wf_execStorePerformed {op} (h : Memory.wf s.mem) : OutWf (execStorePerformed op s) := by
  dsimp only [execStorePerformed]
  split
  · exact .next (State.wf_performStore h)
  exact .next h

theorem wf_execReleasePerform {op} (h : Memory.wf s.mem) : OutWf (execReleasePerform op s) := by
  dsimp only [execReleasePerform]
  split
  · split
    · split
      · exact .next (State.wf_performRelease h)
      exact .next h
    exact .next h
  exact .next h

/-! ### Atomics -/

theorem State.wf_addFaulted {m} (h : Memory.wf s.mem) : Memory.wf (s.addFaulted m).mem := by
  dsimp only [State.addFaulted]
  split
  · exact h
  exact State.wf_setW h

theorem State.wf_pushMain {r kind n reg vs data} (h : Memory.wf s.mem) : Memory.wf (s.pushMain r kind n reg vs data).mem :=
  wf_foldl (fun _ ht _ => wf_ite (State.wf_addFaulted (State.wf_push ht)) (State.wf_push ht)) h

theorem wf_atomicOp {i op ret d addr main ty sc} (h : Memory.wf s.mem) : OutWf (atomicOp i s op ret d addr main ty sc)  := by
  dsimp only [atomicOp]
  refine wf_issue h (fun _ => .ite ?_ (wf_checked (State.wf_sendFab h (fun t ht => .ok (State.wf_pushPieces ht)))))
  split
  · exact .trap
  exact State.wf_sendFab h (fun t ht => .ok (State.wf_pushMain (State.wf_lookUp ht)))

theorem State.wf_base {o : MemOp} {ks} (h : Memory.wf s.mem) : Memory.wf (o.base s.mem ks) := by
  dsimp only [MemOp.base]
  split
  · exact wf_ite_mem (Memory.wf_writeBytes h _) h
  · exact h

theorem State.wf_performAtomic {o op ty ret ks} (h : Memory.wf s.mem) : Memory.wf (s.performAtomic o op ty ret ks).mem := by
  dsimp only [State.performAtomic]
  refine State.wf_dropOp (wf_ite (State.wf_landOp ?_) ?_)
  · exact wf_ite_mem h (Memory.wf_rmwAll (State.wf_base h) _ _ _ _ _)
  · exact wf_ite_mem h (Memory.wf_rmwAll (State.wf_base h) _ _ _ _ _)

theorem State.wf_homeSeen {o} (h : Memory.wf s.mem) : Memory.wf (s.homeSeen o).mem := by
  dsimp only [State.homeSeen]
  refine wf_foldl (fun t ht _ => ?_) h
  split
  · exact State.wf_eccSeen ht
  exact ht

theorem State.wf_homeMain {o op ty ret} (h : Memory.wf s.mem) : Memory.wf (s.homeMain o op ty ret).mem := by
  dsimp only [State.homeMain]
  split
  · exact h
  split
  · exact State.wf_splitFail (State.wf_homeSeen h)
  split
  · exact h
  split
  · exact State.wf_performAtomic h
  exact wf_ite (State.wf_meterHbm (State.wf_performAtomic h)) h

theorem wf_execAtomicAtHome {op} (h : Memory.wf s.mem) : OutWf (execAtomicAtHome op s) := by
  dsimp only [execAtomicAtHome]
  split
  · split
    · exact .next (State.wf_homeMain h)
    · refine .next ?_
      split
      · exact State.wf_failWord h
      exact State.wf_performAtomic h
    exact .next h
  exact .next h

theorem State.wf_atomicRead {op} (h : Memory.wf s.mem) : Memory.wf (s.atomicRead op).mem := by
  dsimp only [State.atomicRead]
  split
  · exact wf_ite h (State.wf_mapOp h)
  exact h

theorem State.wf_failFab {o} (h : Memory.wf s.mem) : Memory.wf (s.failFab o).mem := State.wf_mapOp h

theorem wf_execFabricUndeliverable {op} (h : Memory.wf s.mem) : OutWf (execFabricUndeliverable op s) := by
  dsimp only [execFabricUndeliverable]
  split
  · split
    · exact .next (wf_ite (State.wf_dropOp h) (State.wf_failFab h))
    exact .next h
  exact .next h

theorem wf_execFabricRequestTimeout {op} (h : Memory.wf s.mem) : OutWf (execFabricRequestTimeout op s) := by
  dsimp only [execFabricRequestTimeout]
  split
  · split
    · split
      · exact .next (State.wf_push (State.wf_failFab h))
      exact .next (State.wf_failFab h)
    exact .next h
  exact .next h

theorem State.wf_setBlocked {h on} (hs : Memory.wf s.mem) : Memory.wf (s.setBlocked h on).mem := hs

theorem wf_execEscapeDivert {op port} (h : Memory.wf s.mem) : OutWf (execEscapeDivert op port s) := by
  dsimp only [execEscapeDivert]
  split
  · exact .next h
  split
  · exact .next (State.wf_mapOp h)
  exact .next (wf_ite h h)

/-! ### Barrier -/

theorem State.wf_eccCopy {f} (h : Memory.wf s.mem) : Memory.wf (s.eccCopy f).mem := h
theorem State.wf_eccSaved {g} (h : Memory.wf s.mem) : Memory.wf (s.eccSaved g).mem := State.wf_eccCopy h
theorem State.wf_wrsFor {gid l} (h : Memory.wf s.mem) : Memory.wf (s.wrsFor gid l).mem := State.wf_wrs h _

theorem State.wf_areaTags {gid} (h : Memory.wf s.mem) : Memory.wf (s.areaTags gid).mem := by
  dsimp only [State.areaTags]
  split
  · exact wf_ite (State.wf_wrs (State.wf_wrN h _ _ _) _) h
  exact h

theorem State.wf_barUpd {gid k op} (h : Memory.wf s.mem) : Memory.wf (s.barUpd gid k op).mem := State.wf_wrsFor h
theorem State.wf_takeNumber {core} (h : Memory.wf s.mem) : Memory.wf (s.takeNumber core).2.mem := h

/-! ### Copies -/

theorem State.wf_forkCopy {tag q} (h : Memory.wf s.mem) : Memory.wf (s.forkCopy tag q).2.mem := by
  dsimp only [State.forkCopy]
  refine State.wf_addFaulted (State.wf_meetSel ?_)
  dsimp only
  exact State.wf_takeNumber h

theorem State.wf_forkAll {tag} {l : List CopyReq} (h : Memory.wf s.mem) : Memory.wf (s.forkAll tag l).2.mem := by
  induction l generalizing s with
  | nil => exact h
  | cons q t ih => exact ih (State.wf_forkCopy h)

theorem State.wf_issueCopies {r tag d qs} (h : Memory.wf s.mem) : ActWf (s.issueCopies r tag d qs) :=
  .ite (.hold h) (.ok (State.wf_setW (State.wf_forkAll (State.wf_lookUp h))))

theorem wf_execCpy {dst src tag dsp ssp bar len d} (h : Memory.wf s.mem) :
    OutWf (execCpy dst src tag dsp ssp bar len d s) := by
  dsimp only [execCpy]
  refine wf_issue h (fun r => .ite .trap (wf_checked ?_))
  split
  · exact .trap
  exact State.wf_issueCopies h

theorem wf_execCpg {dst src tag dsp ssp bar len d} (h : Memory.wf s.mem) :
    OutWf (execCpg dst src tag dsp ssp bar len d s) := by
  dsimp only [execCpg]
  refine wf_issue h (fun r => .ite .trap (wf_checked ?_))
  split
  · exact .trap
  exact .ite (.hold h) (State.wf_issueCopies h)

theorem wf_execCps {dst src tag dsp ssp bar len d} (h : Memory.wf s.mem) :
    OutWf (execCps dst src tag dsp ssp bar len d s) := by
  dsimp only [execCps]
  refine wf_issue h (fun r => .ite .trap (wf_checked ?_))
  split
  · exact .trap
  exact .ite (.hold h) (State.wf_issueCopies h)

theorem wf_execCpx {dst src tag dsp ssp bar len d} (h : Memory.wf s.mem) :
    OutWf (execCpx dst src tag dsp ssp bar len d s) := by
  dsimp only [execCpx]
  refine wf_issue h (fun r => .ite .trap (wf_checked (State.wf_ordered h (.ite .trap (wf_checked (wf_checked ?_))))))
  split
  · exact .trap
  exact State.wf_issueCopies h

theorem State.wf_freeTags {gid} (h : Memory.wf s.mem) : Memory.wf (s.freeTags gid).mem := wf_ite h h

theorem State.wf_endCopy {c} (h : Memory.wf s.mem) : Memory.wf (s.endCopy c).mem :=
  State.wf_freeTags (State.wf_areaTags (State.wf_mapGroup h))

theorem State.wf_passOn {id gid tag chip core b} (h : Memory.wf s.mem) :
    Memory.wf (s.passOn id gid tag chip core b).mem := by
  dsimp only [State.passOn]
  split
  · exact State.wf_pass h
  exact State.wf_pass (State.wf_pass h)

theorem State.wf_credit {gid chip core b n} (h : Memory.wf s.mem) : Memory.wf (s.credit gid chip core b n).mem := by
  dsimp only [State.credit]
  split
  · exact h
  exact State.wf_barUpd h

theorem State.wf_landCopy {c} (h : Memory.wf s.mem) : OptWf (s.landCopy c) :=
  .ite .none (.some (State.wf_endCopy (State.wf_credit (State.wf_passOn (wf_ite (State.wf_mapUse (State.wf_meterHbmAll
      (State.wf_wrsFor h))) (State.wf_meterFab (State.wf_mapUse (State.wf_meterHbmAll (State.wf_wrsFor h)))))))))

theorem State.wf_giveUp {c code} (h : Memory.wf s.mem) : Memory.wf (s.giveUp c code).mem := wf_ite h h

theorem State.wf_strayLands {id} (h : Memory.wf s.mem) : Memory.wf (s.strayLands id).mem := by
  dsimp only [State.strayLands]
  split
  · dsimp only
    exact wf_ite (State.wf_wrs h _) h
  exact h

theorem State.wf_copyMet {c code addr} (h : Memory.wf s.mem) : Memory.wf (s.copyMet c code addr).mem := by
  dsimp only [State.copyMet]
  split
  · split
    · exact State.wf_eccSeen h
    exact h
  exact h

theorem State.wf_failCopy {c code addr} (h : Memory.wf s.mem) : Memory.wf (s.failCopy c code addr).mem := by
  dsimp only [State.failCopy]
  refine State.wf_endCopy (State.wf_giveUp (State.wf_copyMet ?_))
  split
  · exact State.wf_barUpd h
  exact State.wf_mapGroup h

theorem wf_execCopyCommandComplete {cmd} (h : Memory.wf s.mem) : OutWf (execCopyCommandComplete cmd s) := by
  dsimp only [execCopyCommandComplete]
  split
  · refine .next ?_
    split
    · rename_i e1
      exact State.wf_landCopy h _ e1
    exact wf_ite (State.wf_failCopy h) h
  exact .next h

theorem wf_execCopyCommandFail {cmd code unit} (h : Memory.wf s.mem) : OutWf (execCopyCommandFail cmd code unit s) := by
  dsimp only [execCopyCommandFail]
  split
  · split
    · split
      · exact .next h
      split
      · exact .next (State.wf_failCopy h)
      exact .next h
    split
    · exact .next h
    split
    · exact .next (State.wf_failCopy h)
    exact .next h
  exact .next h

theorem State.wf_landUnit {id u} (h : Memory.wf s.mem) : Memory.wf (s.landUnit id u).mem := by
  dsimp only [State.landUnit]
  split
  · exact h
  split
  · exact h
  dsimp only
  exact State.wf_meterHbmAll (State.wf_wrsFor h)

theorem State.wf_copyRead {id u} (h : Memory.wf s.mem) : Memory.wf (s.copyRead id u).mem := by
  dsimp only [State.copyRead]
  split
  · exact h
  split
  · exact h
  dsimp only
  exact State.wf_meterHbmAll h

theorem State.wf_landSlice {s0 : State} {id u k} (hs0 : Memory.wf s0.mem) : Memory.wf (s0.landSlice id u k).mem := by
  dsimp only [State.landSlice]
  split
  · exact State.wf_copyRead hs0
  split
  · split
    · exact State.wf_copyRead hs0
    dsimp only
    exact State.wf_meterHbmAll (State.wf_wrsFor (State.wf_copyRead hs0))
  split
  · exact State.wf_copyRead hs0
  dsimp only
  exact State.wf_meterHbmAll (State.wf_wrsFor (State.wf_copyRead hs0))

/-! ### Sync -/

theorem wf_tagTrap {r q} (h : Memory.wf s.mem) : ActWf (tagTrap s r q) :=
  .ite (.hold h) (.hold (wf_takeTrap (State.wf_setG h)))

theorem wf_examine {r f k} (h : Memory.wf s.mem) (hk : ActWf k) : ActWf (examine s r f k) := by
  dsimp only [examine]
  split
  · exact .trap
  split
  · exact wf_tagTrap h
  exact hk

theorem wf_joinTags {lanes f} (h : Memory.wf s.mem) : Memory.wf (joinTags s lanes f).mem :=
  wf_foldl (fun _ ht _ => wf_ite (State.wf_meetPlace ht) ht) h

theorem wf_holdLanes {r f ok} (h : Memory.wf s.mem) : ActWf (holdLanes s r f ok) :=
  .ite (.ok (wf_joinTags h)) (.hold (State.wf_mapRun (wf_joinTags h)))

theorem wf_tagAnyOp {i f} (h : Memory.wf s.mem) : OutWf (tagAnyOp i s f) :=
  wf_issue h (fun _ => wf_examine h (wf_holdLanes h))

theorem wf_tagAllOp {i f} (h : Memory.wf s.mem) : OutWf (tagAllOp i s f) :=
  wf_issue h (fun _ => wf_examine h (wf_holdLanes h))

theorem wf_tagClrOp {i f} (h : Memory.wf s.mem) : OutWf (tagClrOp i s f) :=
  wf_issue h (fun _ => .ite .trap (.ok (State.wf_setG h)))

theorem wf_barOp {i a dws f sync init} (h : Memory.wf s.mem) : OutWf (barOp i s a dws f sync init) :=
  wf_issue h (fun _ => wf_checked (State.wf_ordered h (.ok (wf_foldl (fun _ ht _ => State.wf_barUpd (wf_ite
      (State.wf_meetSel ht) (wf_ite (State.wf_forget ht) ht))) h))))

theorem State.wf_observe {dws a ls} (h : Memory.wf s.mem) : Memory.wf (s.observe dws a ls).mem :=
  wf_foldl (fun _ ht _ => wf_ite (State.wf_meetPlace ht) ht) h

theorem State.wf_setWord3 {k w} (h : Memory.wf s.mem) : Memory.wf (s.setWord3 k w).mem := State.wf_wrN h _ _ _

theorem State.wf_grant {q} (h : Memory.wf s.mem) : Memory.wf (s.grant q).mem :=
  State.wf_mapWarp (State.wf_meetPlace (State.wf_setWord3 h))

theorem State.wf_serveObj {l : List ObjReq} {k} (h : Memory.wf s.mem) : Memory.wf (State.serveObj l k s).mem := by
  induction l generalizing s with
  | nil => exact h
  | cons q t ih =>
    dsimp only [State.serveObj]
    split
    · split
      · exact ih (State.wf_grant h)
      · exact h
    · exact ih h

theorem State.wf_release {h} (hs : Memory.wf s.mem) : Memory.wf (s.release h).mem :=
  State.wf_serveObj (State.wf_setWord3 hs)

theorem State.wf_withdrawReqs {t} (h : Memory.wf s.mem) : Memory.wf (s.withdrawReqs t).mem :=
  wf_foldl (fun _ ht1 _ => State.wf_serveObj ht1) h

theorem State.wf_withdraw {gid wid} (h : Memory.wf s.mem) : Memory.wf (s.withdraw gid wid).mem :=
  State.wf_withdrawReqs h

theorem wf_acquire {r o excl wait done} (h : Memory.wf s.mem) (hdone : ∀ a0, ∀ t1, Memory.wf t1.mem → ActWf (done a0 t1)) :
    ActWf (acquire s r o excl wait done) :=
  wf_checked (State.wf_ordered h (.ite .trap (.ite (hdone _ _ (State.wf_meetPlace h)) (.ite .trap (.ite (.hold h)
      (.ite (hdone _ _ (State.wf_grant h)) (.ite (.hold h) (hdone _ _ h))))))))

theorem State.wf_passRegion {m h} (hs : Memory.wf s.mem) : Memory.wf (s.passRegion m h).mem := State.wf_show hs

theorem wf_execSrel {d a sp} (h : Memory.wf s.mem) : OutWf (execSrel d a sp s) := by
  dsimp only [execSrel]
  refine wf_issue h (fun r => wf_checked (State.wf_ordered h (.ite .trap ?_)))
  split
  · exact .ok (State.wf_writeAll h)
  exact .ok (State.wf_writeAll (State.wf_release (State.wf_passRegion (State.wf_setW h))))

theorem wf_bindOp {i sc sp obj base rsp len d} (h : Memory.wf s.mem) : OutWf (bindOp i s sc sp obj base rsp len d) :=
  wf_issue h (fun _ => wf_checked (State.wf_ordered h (.ite .trap (.ok (State.wf_writeAll (State.wf_setWord3
      (State.wf_wrN (State.wf_wrN h _ _ _) _ _ _)))))))

theorem State.wf_takeFenced {sc m} (h : Memory.wf s.mem) : Memory.wf (s.takeFenced sc m).mem := State.wf_show h
theorem State.wf_showFenced {sc m} (h : Memory.wf s.mem) : Memory.wf (s.showFenced sc m).mem := State.wf_show h

theorem wf_fence {i sc} (h : Memory.wf s.mem) : OutWf (fence i s sc) :=
  wf_issue h (fun _ => .ite (.hold h) (.ok (State.wf_showFenced (State.wf_takeFenced h))))

theorem wf_trapFence {r fs} (h : Memory.wf s.mem) : Memory.wf (trapFence s r fs).mem := by
  dsimp only [trapFence]
  split
  · exact h
  exact wf_ite h (wf_trapWith (State.wf_setW (State.wf_takeOps h)))

/-! ### Hub -/

theorem State.wf_putHub {h} (hs : Memory.wf s.mem) : Memory.wf (s.putHub h).mem := hs

theorem State.wf_answerHub {k a} (h : Memory.wf s.mem) : Memory.wf (s.answerHub k a).mem :=
  wf_foldl (fun _ ht _ => State.wf_meetPlace ht) h

theorem State.wf_freeHub {k} (h : Memory.wf s.mem) : Memory.wf (s.freeHub k).mem := State.wf_answerHub h

theorem State.wf_serveHub {h chips} (hs : Memory.wf s.mem) : Memory.wf (s.serveHub h chips).mem :=
  wf_ite (State.wf_freeHub hs) (State.wf_putHub hs)

theorem State.wf_completeHub {h at_} (hs : Memory.wf s.mem) : Memory.wf (s.completeHub h at_).mem :=
  State.wf_serveHub (State.wf_answerHub (State.wf_putHub hs))

theorem State.wf_hubTimeout {k} (h : Memory.wf s.mem) : Memory.wf (s.hubTimeout k).mem := by
  dsimp only [State.hubTimeout]
  split
  · split
    · exact State.wf_completeHub h
    exact h
  exact h

theorem State.wf_hubExpire {k} (h : Memory.wf s.mem) : Memory.wf (s.hubExpire k).mem := by
  dsimp only [State.hubExpire]
  split
  · split
    · exact State.wf_freeHub h
    exact h
  exact h

theorem wf_eachLane {f l} (hf : ∀ t, Memory.wf t.mem → ∀ i, Memory.wf (f t i).2.mem) (h : Memory.wf s.mem) :
    Memory.wf (eachLane f l s).2.mem := by
  induction l generalizing s with
  | nil => exact h
  | cons i t ih => exact ih (hf s h i)

theorem State.wf_hubNow {k} (h : Memory.wf s.mem) : Memory.wf (s.hubNow k).mem :=
  State.wf_hubExpire (State.wf_hubTimeout h)

theorem State.wf_hubOpen {k op timeout mask} (h : Memory.wf s.mem) : Memory.wf (s.hubOpen k op timeout mask).2.mem := by
  dsimp only [State.hubOpen]
  split
  · exact h
  split
  · exact State.wf_hubNow h
  split
  · exact State.wf_hubNow h
  exact State.wf_putHub (State.wf_forget (State.wf_hubNow h))

theorem State.wf_hubPut {k l v} (h : Memory.wf s.mem) : Memory.wf (s.hubPut k l v).2.mem := by
  dsimp only [State.hubPut]
  split
  · exact h
  split
  · exact State.wf_hubNow h
  split
  · exact State.wf_hubNow h
  split
  · exact State.wf_hubNow h
  split
  · exact State.wf_serveHub (State.wf_hubNow h)
  split
  · exact State.wf_hubNow h
  exact wf_ite (State.wf_completeHub (State.wf_meetSel (State.wf_hubNow h))) (State.wf_putHub (State.wf_meetSel
      (State.wf_hubNow h)))

theorem wf_putLanes {slot v l done} (h : Memory.wf s.mem) : Memory.wf (putLanes slot v l done s).2.mem := by
  induction l generalizing s done with
  | nil => exact h
  | cons i t ih =>
    refine ih ?_
    split
    · exact State.wf_hubNow h
    · exact State.wf_hubPut (State.wf_hubNow h)

theorem State.wf_hubReturn {r d k a} (h : Memory.wf s.mem) : ActWf (s.hubReturn r d k a) :=
  .ok (State.wf_writeAll64 (State.wf_meetPlace h))

theorem wf_execHredWait {d slot} (h : Memory.wf s.mem) : OutWf (execHredWait d slot s) := by
  dsimp only [execHredWait]
  refine wf_issue h (fun _ => ?_)
  split
  · split
    · exact State.wf_hubReturn h
    exact .hold (State.wf_hubNow h)
  split
  · exact State.wf_hubReturn h
  split
  · exact State.wf_hubReturn (State.wf_hubNow h)
  split
  · exact State.wf_hubReturn (State.wf_hubNow h)
  split
  · exact State.wf_hubReturn (State.wf_serveHub (State.wf_hubNow h))
  refine .hold ?_
  dsimp only
  exact State.wf_hubNow h

/-! ### Groups -/

theorem State.wf_putEngine {clu e} (h : Memory.wf s.mem) : Memory.wf (s.putEngine clu e).mem := h
theorem State.wf_mapEngine {clu f} (h : Memory.wf s.mem) : Memory.wf (s.mapEngine clu f).mem := State.wf_putEngine h
theorem State.wf_spend {n} (h : Memory.wf s.mem) : Memory.wf (s.spend n).mem := h

theorem State.wf_stage {chip core k room} (h : Memory.wf s.mem) : Memory.wf (s.stage chip core k room).mem :=
  State.wf_wrs h _

theorem State.wf_reside {q seat} (h : Memory.wf s.mem) : Memory.wf (s.reside q seat).mem := by
  dsimp only [State.reside]
  exact State.wf_spend (State.wf_stage h)

theorem State.wf_wrFrame {f l} (h : Memory.wf s.mem) : Memory.wf (s.wrFrame f l).mem :=
  wf_foldl (fun _ ht _ => State.wf_wrs ht _) h

theorem State.wf_fillFrame {f g live} (h : Memory.wf s.mem) : Memory.wf (s.fillFrame f g live).mem :=
  wf_foldl_fst (fun _ hq _ => State.wf_wrFrame hq) (State.wf_wrFrame h)

theorem State.wf_dropGroup {gid} (h : Memory.wf s.mem) : Memory.wf (s.dropGroup gid).mem := by
  dsimp only [State.dropGroup]
  split
  · exact h
  split
  · dsimp only
    refine State.wf_mapEngine ?_
    dsimp only
    exact State.wf_unselect h
  refine State.wf_mapEngine ?_
  dsimp only
  exact State.wf_unselect h

/-! ### Slices -/

theorem State.wf_putOwner {o} (h : Memory.wf s.mem) : Memory.wf (s.putOwner o).mem := h

theorem State.wf_startSlice {chip p v} (h : Memory.wf s.mem) : Memory.wf (s.startSlice chip p v).mem :=
  State.wf_putOwner (State.wf_mapUse h)

theorem State.wf_finishSwitch {chip p} (h : Memory.wf s.mem) : Memory.wf (s.finishSwitch chip p).mem := by
  dsimp only [State.finishSwitch]
  split
  · split
    · exact wf_ite (State.wf_startSlice (State.wf_mapUse h)) h
    exact h
  exact h

theorem State.wf_takeSlice {chip p v} (h : Memory.wf s.mem) : OptWf (s.takeSlice chip p v) := by
  dsimp only [State.takeSlice]
  split
  · exact .some (State.wf_startSlice (State.wf_finishSwitch h))
  exact .ite .none (.ite (.ite (.some (State.wf_startSlice (State.wf_finishSwitch h))) .none) (.ite (.some
      (State.wf_finishSwitch h)) .none))

theorem State.wf_endIdle (h : Memory.wf s.mem) : Memory.wf s.endIdle.mem := h

theorem wf_execVfSliceEnd {chip part} (h : Memory.wf s.mem) : OutWf (execVfSliceEnd chip part s) := by
  dsimp only [execVfSliceEnd]
  split
  · exact .next (State.wf_finishSwitch h)
  split
  · exact .next (State.wf_finishSwitch h)
  split
  · exact .next (State.wf_finishSwitch h)
  split
  · exact .next (State.wf_startSlice (State.wf_finishSwitch h))
  exact .next (State.wf_finishSwitch (wf_foldl (fun t ht _ => State.wf_mapGroup ht) (State.wf_putOwner
      (State.wf_finishSwitch h))))

/-! ### Objects -/

theorem State.wf_meterObj {chip p v a n} (h : Memory.wf s.mem) : Memory.wf (s.meterObj chip p v a n).mem :=
  wf_ite (State.wf_meterHbm h) h

theorem Act.wf_besides {f x} (hf : ∀ t, Memory.wf t.mem → Memory.wf (f t).mem) (hx : ActWf x) : ActWf (Act.besides f x) := by
  dsimp only [Act.besides]
  split
  · exact .ok (hf _ (ActWf.of_ok hx rfl))
  exact hx

theorem State.wf_objSeen {a} (h : Memory.wf s.mem) : Memory.wf (s.objSeen a).mem := by
  dsimp only [State.objSeen]
  split
  · exact State.wf_eccSeen h
  exact h

theorem wf_objTrap {r a c v} (h : Memory.wf s.mem) : ActWf (objTrap s r a c v) :=
  .ite (.hold (wf_takeTrap (State.wf_objSeen h))) .trap

theorem wf_withObj {r a n k} (h : Memory.wf s.mem) (hk : ∀ a, ActWf (k a)) : ActWf (withObj s r a n k) := by
  dsimp only [withObj]
  split
  · exact .ite (Act.wf_besides (fun t ht => State.wf_meterObj ht) (State.wf_ordered h (hk _))) (.hold h)
  · exact .hold h
  exact wf_objTrap h

theorem State.wf_setRecState {k x} (h : Memory.wf s.mem) : Memory.wf (s.setRecState k x).mem := State.wf_wrN h _ _ _
theorem State.wf_setRecFlag {k b on} (h : Memory.wf s.mem) : Memory.wf (s.setRecFlag k b on).mem := State.wf_wrN h _ _ _
theorem State.wf_setNchild {k n} (h : Memory.wf s.mem) : Memory.wf (s.setNchild k n).mem := State.wf_wrN h _ _ _
theorem State.wf_takeReady {q} (h : Memory.wf s.mem) : Memory.wf (s.takeReady q).mem := State.wf_mapVf h

theorem State.wf_post {chip p v a k link failed} (h : Memory.wf s.mem) :
    Memory.wf (s.post chip p v a k link failed).mem := by
  dsimp only [State.post]
  exact State.wf_spend (State.wf_wrD (State.wf_wrN (State.wf_wrN (State.wf_wrD h) _ _ _) _ _ _))

theorem State.wf_orFlags {k m} (h : Memory.wf s.mem) : Memory.wf (s.orFlags k m).mem := State.wf_wrN h _ _ _

theorem wf_counterCheck {x4 : State} {chip p v k} (hx4 : Memory.wf x4.mem) : OptWf (counterCheck chip p v k x4) := by
  dsimp only [counterCheck]
  split
  · split
    · exact .none
    · exact .some (State.wf_orFlags (State.wf_orFlags hx4))
    exact .ite (.some (State.wf_meterObj (State.wf_post (State.wf_forget (State.wf_meetPlace
        (State.wf_orFlags hx4)))))) (.some (State.wf_orFlags (State.wf_orFlags hx4)))
  exact .some hx4

theorem wf_counterDec {x5 : State} {chip p v k fail} (hx5 : Memory.wf x5.mem) : OptWf (counterDec chip p v k fail x5) :=
  wf_counterCheck (wf_ite (State.wf_orFlags (wf_ite (State.wf_orFlags hx5) (State.wf_wrN hx5 _ _ _))) (wf_ite
      (State.wf_orFlags hx5) (State.wf_wrN hx5 _ _ _)))

theorem wf_counterArm {x5 : State} {chip p v k n} (hx5 : Memory.wf x5.mem) : OptWf (counterArm chip p v k n x5) :=
  wf_counterCheck (State.wf_orFlags (State.wf_wrN hx5 _ _ _))

theorem wf_decrementAt {x6 : State} {chip p v a fail q} (hx6 : Memory.wf x6.mem) :
    OptWf (decrementAt chip p v a fail q x6) := by
  dsimp only [decrementAt]
  split
  · exact .none
  · exact .some hx6
  exact .ite (wf_counterDec (State.wf_meterObj (State.wf_pass hx6))) .none

theorem State.wf_mapFrame {p chip off f} (h : Memory.wf s.mem) : Memory.wf (s.mapFrame p chip off f).mem := h
theorem State.wf_dropFrame {p chip off} (h : Memory.wf s.mem) : Memory.wf (s.dropFrame p chip off).mem := h

theorem State.wf_takeFrame {p v chip size task} (h : Memory.wf s.mem) : PairWf (s.takeFrame p v chip size task) := by
  dsimp only [State.takeFrame]
  split
  · exact .none
  refine .map fun _ => ?_
  dsimp only
  exact State.wf_wrFrame h

theorem State.wf_emptyFrame {p chip off} (h : Memory.wf s.mem) : Memory.wf (s.emptyFrame p chip off).mem :=
  State.wf_wrN (State.wf_mapFrame h) _ _ _

theorem State.wf_saveFrame {p chip off live f} (h : Memory.wf s.mem) : Memory.wf (s.saveFrame p chip off live f).mem :=
    by
  dsimp only [State.saveFrame]
  split
  · exact State.wf_mapFrame h
  split
  · exact State.wf_wrFrame (State.wf_mapFrame h)
  exact State.wf_fillFrame (State.wf_mapFrame h)

theorem State.wf_waiterGone {w} (h : Memory.wf s.mem) : Memory.wf (s.waiterGone w).mem :=
  wf_ite (State.wf_wrN h _ _ _) h

theorem State.wf_repost {w} (h : Memory.wf s.mem) : Memory.wf (s.repost w).mem := State.wf_waiterGone h

theorem State.wf_wakeObj {k} (h : Memory.wf s.mem) : Memory.wf (s.wakeObj k).mem :=
  wf_foldl (fun _ ht _ => State.wf_repost ht) h

theorem State.wf_wakeOwner {p v chip a} (h : Memory.wf s.mem) : Memory.wf (s.wakeOwner p v chip a).mem :=
  wf_foldl (fun _ ht _ => State.wf_repost ht) h

theorem State.wf_unregister {p v chip a} (h : Memory.wf s.mem) : Memory.wf (s.unregister p v chip a).mem :=
  wf_foldl (fun _ ht _ => State.wf_waiterGone ht) h

theorem State.wf_resolve {k v st} (h : Memory.wf s.mem) : Memory.wf (s.resolve k v st).mem :=
  State.wf_wrN (State.wf_wakeObj (State.wf_wrN (State.wf_wrD h) _ _ _)) _ _ _

/-! ### Helping -/

theorem State.wf_leave (h : Memory.wf s.mem) : Memory.wf s.leave.mem := h
theorem State.wf_leaveQueues {gid} (h : Memory.wf s.mem) : Memory.wf (s.leaveQueues gid).mem := h
theorem State.wf_withdrawAll {gid} (h : Memory.wf s.mem) : Memory.wf (s.withdrawAll gid).mem := State.wf_withdrawReqs h
theorem State.wf_leaveTurns {gid} (h : Memory.wf s.mem) : Memory.wf (s.leaveTurns gid).mem := h

theorem State.wf_pack {r} (h : Memory.wf s.mem) : Memory.wf (s.pack r).2.mem :=
  State.wf_spend (State.wf_leaveTurns (State.wf_withdrawAll (State.wf_leaveQueues h)))

theorem State.wf_install {gid o off} (h : Memory.wf s.mem) : Memory.wf (s.install gid o off).mem := by
  dsimp only [State.install]
  split
  · exact h
  dsimp only
  exact State.wf_unselect (State.wf_stage (State.wf_eccCopy (State.wf_putImage h _ _ _)))

theorem State.wf_claimTask {gid a k x frame} (h : Memory.wf s.mem) : Memory.wf (s.claimTask gid a k x frame).mem :=
  State.wf_unselect (State.wf_setRecState h)

theorem State.wf_beginRegions {gid} (h : Memory.wf s.mem) : Memory.wf (s.beginRegions gid).mem := h

theorem State.wf_beginTask {g k x} (h : Memory.wf s.mem) : Memory.wf (s.beginTask g k x).mem := by
  dsimp only [State.beginTask]
  split
  · refine State.wf_beginRegions (State.wf_forget (State.wf_meetPlace ?_))
    dsimp only
    exact State.wf_spend (State.wf_unselect (State.wf_setRecState (State.wf_stage h)))
  refine State.wf_forget (State.wf_meetPlace ?_)
  dsimp only
  exact State.wf_spend (State.wf_unselect (State.wf_setRecState (State.wf_stage h)))

theorem State.wf_startTask {gid} (h : Memory.wf s.mem) : Memory.wf (s.startTask gid).mem := by
  dsimp only [State.startTask]
  split
  · exact h
  split
  · split
    · exact State.wf_beginTask h
    exact h
  exact h

theorem State.wf_resumeTask {gid p v a k f} (h : Memory.wf s.mem) : Memory.wf (s.resumeTask gid p v a k f).mem := by
  dsimp only [State.resumeTask]
  split
  · exact h
  exact State.wf_forget (State.wf_meetPlace (State.wf_emptyFrame (State.wf_install (State.wf_setRecState
      (State.wf_unregister h)))))

theorem State.wf_startFrame {p v chip a kern} (h : Memory.wf s.mem) : PairWf (s.startFrame p v chip a kern) := by
  dsimp only [State.startFrame]
  split
  · exact .some h
  exact State.wf_takeFrame h

theorem State.wf_meetGroup {g q} (h : Memory.wf s.mem) : Memory.wf (s.meetGroup g q).mem :=
  wf_foldl (fun _ ht _ => State.wf_meet ht) h

theorem State.wf_parkIn {o from_ live trailer w} (h : Memory.wf s.mem) :
    Memory.wf (s.parkIn o from_ live trailer w).mem := by
  dsimp only [State.parkIn]
  split
  · exact h
  split
  · refine State.wf_wrN ?_ _ _ _
    dsimp only
    split
    · refine State.wf_eccSaved (State.wf_saveFrame ?_)
      split
      · exact State.wf_setRecState (State.wf_meetGroup h)
      exact h
    refine State.wf_eccCopy (State.wf_saveFrame ?_)
    split
    · exact State.wf_setRecState (State.wf_meetGroup h)
    exact h
  dsimp only
  split
  · refine State.wf_eccSaved (State.wf_saveFrame ?_)
    split
    · exact State.wf_setRecState (State.wf_meetGroup h)
    exact h
  refine State.wf_eccCopy (State.wf_saveFrame ?_)
  split
  · exact State.wf_setRecState (State.wf_meetGroup h)
  exact h

theorem State.wf_parkRelay {g} {l : List Nat} (h : Memory.wf s.mem) : Memory.wf (s.parkRelay g l).mem := by
  induction l generalizing s with
  | nil => exact h
  | cons off rest ih =>
    dsimp only [State.parkRelay]
    split
    · exact h
    split
    · refine ih (wf_ite (State.wf_repost ?_) ?_)
      · exact State.wf_dropFrame (State.wf_parkIn h)
      · exact State.wf_dropFrame (State.wf_parkIn h)
    · refine State.wf_dropFrame (State.wf_install ?_)
      dsimp only
      exact State.wf_unselect h
    exact h

theorem wf_parkAt {r w} (h : Memory.wf s.mem) : ActWf (parkAt s r w) := by
  dsimp only [parkAt]
  split
  · exact .hold h
  split
  · exact .hold (State.wf_mapRun h)
  split
  · exact .trap
  split
  · exact .hold h
  · exact .trap
  exact .ite (.hold h) (.hold (State.wf_parkRelay (State.wf_parkIn (State.wf_leave (State.wf_meetGroup
      (State.wf_pack h))))))

theorem State.wf_setRoom {gid room} (h : Memory.wf s.mem) : Memory.wf (s.setRoom gid room).mem := State.wf_mapGroup h

theorem State.wf_pushHelper {r below w} (h : Memory.wf s.mem) : OptWf (s.pushHelper r below w) := by
  dsimp only [State.pushHelper]
  split
  · exact .none
  rename_i e
  refine .some ?_
  dsimp only
  exact State.wf_leave (State.wf_eccSaved (State.wf_saveFrame (State.wf_pack (State.wf_meetGroup
      (State.wf_takeFrame h _ e)))))

theorem State.wf_adoptPosted {r a k x w room} (h : Memory.wf s.mem) : OptWf (s.adoptPosted r a k x w room) := by
  dsimp only [State.adoptPosted]
  split
  · exact .none
  rename_i e
  exact .after (State.wf_pushHelper (State.wf_startFrame h _ e)) (fun t ht => State.wf_claimTask (State.wf_setRoom
      (State.wf_setRecFlag (State.wf_unregister ht))))

theorem State.wf_adoptParked {r a k f w room} (h : Memory.wf s.mem) : OptWf (s.adoptParked r a k f w room) :=
  .after (State.wf_pushHelper h) (fun _ ht => State.wf_beginRegions (State.wf_resumeTask (State.wf_setRoom
      (State.wf_setRecFlag ht))))

theorem State.wf_leaveReady {g k} (h : Memory.wf s.mem) : Memory.wf (s.leaveReady g k).mem := h

theorem wf_helpOn {r owner addr w gone park} (h : Memory.wf s.mem) (hgone : ActWf gone) (hpark : ActWf (park)) :
    ActWf (helpOn s r owner addr w gone park) := by
  dsimp only [helpOn]
  split
  · exact hpark
  split
  · split
    · exact .ite hgone hpark
    · exact .hold h
    exact hpark
  split
  · exact .trap
  split
  · exact .hold h
  · exact wf_objTrap h
  split
  · split
    · split
      · split
        · exact .hold h
        split
        · rename_i e9
          exact .hold (State.wf_adoptPosted (State.wf_leaveReady h) _ e9)
        exact hpark
      exact hpark
    exact hpark
  · split
    · split
      · split
        · exact .hold h
        split
        · rename_i e9
          exact .hold (State.wf_adoptParked h _ e9)
        exact hpark
      exact hpark
    exact hpark
  · exact hgone
  · exact hgone
  exact hpark

theorem State.wf_unwind {g} (h : Memory.wf s.mem) : Memory.wf (s.unwind g).mem := by
  dsimp only [State.unwind]
  split
  · exact h
  split
  · exact h
  split
  · exact h
  exact State.wf_dropFrame (State.wf_install (State.wf_mapGroup h))

theorem State.wf_nextTask {g} (h : Memory.wf s.mem) : OptWf (s.nextTask g) := by
  have hs : Memory.wf ({ s with ready := s.ready.filter fun q => !s.staleReady q } : State).mem := h
  unfold State.nextTask
  generalize { s with ready := s.ready.filter fun q => !s.staleReady q } = u at hs
  dsimp only
  split
  · exact .some (State.wf_dropGroup hs)
  split
  · exact .none
  · split
    · exact .none
    split
    · split
      · exact .ite (.some (State.wf_resumeTask (State.wf_setRoom (State.wf_meterObj (State.wf_takeReady hs)))))
          (.some (State.wf_dropGroup hs))
      · exact .some (State.wf_dropGroup hs)
    split
    · split
      · rename_i e
        exact .some (State.wf_claimTask (State.wf_setRoom (State.wf_meterObj (State.wf_takeReady
          (State.wf_startFrame hs _ e)))))
      · exact .some (State.wf_dropGroup hs)
    exact .some (State.wf_dropGroup hs)
  exact .some (State.wf_dropGroup hs)

theorem wf_endRecord {x3 : State} {g k fail} (hx3 : Memory.wf x3.mem) : OptWf (endRecord g k fail x3) := by
  dsimp only [endRecord]
  refine .after (.andThen (.andThen (.ite (.some hx3) ?_) (fun t ht => .ite (.some ht) (wf_decrementAt ht)))
      (fun t ht => .ite (.some ht) ?_)) (fun t ht => State.wf_forget (State.wf_setRecState (wf_ite
          (State.wf_pass ht) ht)))
  · split
    · exact .none
    · exact .some hx3
    split
    · exact .none
    split
    · exact .some hx3
    split <;> exact .some (State.wf_meterObj (State.wf_resolve (State.wf_pass hx3)))
  split
  · exact .none
  · exact .some ht
  exact .some (wf_ite (State.wf_wakeObj (State.wf_setNchild (State.wf_pass ht))) (State.wf_setNchild
      (State.wf_pass ht)))

theorem State.wf_orphan {g} (h : Memory.wf s.mem) : Memory.wf (s.orphan g).mem := State.wf_mapEngine h
theorem State.wf_unseen {gid} (h : Memory.wf s.mem) : Memory.wf (s.unseen gid).mem := h

theorem State.wf_endTask {gid fail} (h : Memory.wf s.mem) : OptWf (s.endTask gid fail) := by
  dsimp only [State.endTask]
  split
  · exact .some h
  refine .andThen ?_ (fun t ht => .ite (.some (State.wf_unwind (State.wf_wakeOwner (State.wf_orphan ?_))))
      (State.wf_nextTask (State.wf_unseen (State.wf_wakeOwner (State.wf_orphan ?_)))))
  · split
    · exact .none
    · exact .some (State.wf_unselect h)
    exact .ite (wf_endRecord (State.wf_meterObj (State.wf_unselect h))) .none
  · split
    · exact State.wf_dropFrame ht
    exact ht
  split
  · exact State.wf_dropFrame ht
  exact ht

theorem State.wf_retireGroup {gid fail} (h : Memory.wf s.mem) : OptWf (s.retireGroup gid fail) := by
  dsimp only [State.retireGroup]
  split
  · exact .some h
  exact .ite (.some (State.wf_dropGroup h)) (State.wf_endTask h)

/-! ### Tasks -/

theorem wf_inTask {r k} (hk : ActWf k) : ActWf (inTask s r k) := .ite .trap hk
theorem State.wf_dec {k fail} (h : Memory.wf s.mem) : OptWf (s.dec k fail) := wf_counterDec h

theorem wf_orHold {t k} (h : Memory.wf s.mem) (ht : OptWf t) (hk : ∀ t0, Memory.wf t0.mem → ActWf (k t0)) :
    ActWf (orHold s t k) := by
  dsimp only [orHold]
  split
  · exact hk _ (ht _ rfl)
  exact .hold h

theorem State.wf_releaseChip {m} (h : Memory.wf s.mem) : Memory.wf (s.releaseChip m).mem := State.wf_show h

theorem State.wf_childRecord {k entry arg parent} (h : Memory.wf s.mem) : Memory.wf (s.childRecord k entry arg parent).mem :=
  State.wf_wrD (State.wf_wrN (State.wf_wrD (State.wf_wrD (State.wf_wrD (State.wf_wrD h)))) _ _ _)

theorem wf_execTfork {d a sb} (h : Memory.wf s.mem) : OutWf (execTfork d a sb s) := by
  dsimp only [execTfork]
  refine wf_issue h fun _ => wf_inTask ?_
  split
  · exact .hold h
  · exact .trap
  split
  · exact .ok (State.wf_writeAll64 h)
  · rename_i e
    exact .ok (State.wf_writeAll64 (State.wf_post (State.wf_childRecord (State.wf_setNchild (State.wf_mapFrame
      (PairWf.ite .none (State.wf_takeFrame h) _ e))))))

theorem wf_execTsync (h : Memory.wf s.mem) : OutWf (execTsync s) := by
  dsimp only [execTsync]
  refine wf_issue h (fun _ => wf_inTask ?_)
  split
  · exact .hold h
  · exact .trap
  exact .ite (.ok (State.wf_forget (State.wf_meetPlace h))) (wf_parkAt h)

theorem State.wf_writeFut {r d v st} (h : Memory.wf s.mem) : Memory.wf (s.writeFut r d v st).mem :=
  State.wf_setW (State.wf_writeAll64 h)

theorem wf_execFwait {d a} (h : Memory.wf s.mem) : OutWf (execFwait d a s) := by
  dsimp only [execFwait]
  refine wf_issue h (fun _ => wf_withObj h (fun k => wf_inTask ?_))
  split
  · exact wf_helpOn h (.ok (State.wf_writeFut h)) (wf_parkAt h)
  · exact .ok (State.wf_writeFut (State.wf_meetPlace h))
  · exact .ok (State.wf_writeFut (State.wf_meetPlace h))
  exact .trap

theorem State.wf_setLock {k o st n} (h : Memory.wf s.mem) : Memory.wf (s.setLock k o st n).mem := by
  dsimp only [State.setLock]
  exact State.wf_wrN (State.wf_wrN (State.wf_wrD h) _ _ _) _ _ _

theorem State.wf_takeLock {r d k old} (h : Memory.wf s.mem) : ActWf (s.takeLock r d k old) :=
  .ok (State.wf_writeAll (State.wf_meetPlace (State.wf_setLock h)))

theorem wf_execLkrel {a} (h : Memory.wf s.mem) : OutWf (execLkrel a s) := by
  dsimp only [execLkrel]
  refine wf_issue h (fun r => wf_withObj h (fun k => wf_inTask (.ite .trap (.ite (.ok (State.wf_wrN
      (State.wf_meetSel h) _ _ _)) ?_))))
  split
  · exact .ok (State.wf_repost (State.wf_setLock (State.wf_waiterGone (State.wf_meetSel h))))
  exact .ok (State.wf_setLock (State.wf_meetSel h))

theorem State.wf_resideTask {chip p v core x warps regs} (h : Memory.wf s.mem) :
    PairWf (s.resideTask chip p v core x warps regs) :=
  .map (fun _ => State.wf_mapGroup (State.wf_reside h))

theorem State.wf_dispatchTask {chip p v core} (h : Memory.wf s.mem) : Memory.wf (s.dispatchTask chip p v core).mem := by
  dsimp only [State.dispatchTask]
  split
  · exact h
  split
  · split
    · exact h
    split
    · exact h
    split
    · split
      · exact h
      split
      · exact h
      rename_i e6
      exact State.wf_resumeTask (State.wf_meterObj (State.wf_takeReady (State.wf_resideTask h _ e6)))
    split
    · split
      · exact h
      rename_i e6
      split
      · exact h
      rename_i e7
      exact State.wf_claimTask (State.wf_meterObj (State.wf_takeReady (State.wf_startFrame
          (State.wf_resideTask h _ e6) _ e7)))
    exact h
  exact h

theorem wf_execTaskDispatch {chip part vf core} (h : Memory.wf s.mem) : OutWf (execTaskDispatch chip part vf core s) :=
    by
  dsimp only [execTaskDispatch]
  split
  · exact .next h
  split
  · exact .next h
  rename_i e1
  exact .next (State.wf_dispatchTask (State.wf_takeSlice h _ e1))

/-! ### Queues -/

theorem State.wf_block {m} (h : Memory.wf s.mem) : Memory.wf (s.block m).mem := State.wf_setExit h

theorem State.wf_comeBack {gid wid pc m} (h : Memory.wf s.mem) : Memory.wf (s.comeBack gid wid pc m).mem :=
  State.wf_mapWarp h

theorem State.wf_receive {gid wid reg m from_ vals} (h : Memory.wf s.mem) :
    Memory.wf (s.receive gid wid reg m from_ vals).mem :=
  State.wf_mapWarp h

theorem State.wf_rendezvous {snd rcv} (h : Memory.wf s.mem) : Memory.wf (s.rendezvous snd rcv).mem :=
  State.wf_receive (State.wf_meet h)

theorem wf_execXsend {slot v} (h : Memory.wf s.mem) : OutWf (execXsend slot v s) := by
  dsimp only [execXsend]
  refine wf_issue h (fun r => .ite .trap ?_)
  split
  · exact .ok (State.wf_comeBack (State.wf_mapGroup (State.wf_rendezvous h)))
  exact .ok (State.wf_block (State.wf_setG h))

theorem wf_execXrecv {d slot} (h : Memory.wf s.mem) : OutWf (execXrecv d slot s) := by
  dsimp only [execXrecv]
  refine wf_issue h (fun r => .ite .trap ?_)
  split
  · exact .ok (State.wf_comeBack (State.wf_mapGroup (State.wf_rendezvous h)))
  exact .ok (State.wf_block (State.wf_setG h))

theorem State.wf_putQueue {x} (h : Memory.wf s.mem) : Memory.wf (s.putQueue x).mem := h

theorem State.wf_maskBits {gid wid k m on} (h : Memory.wf s.mem) : Memory.wf (s.maskBits gid wid k m on).mem :=
  wf_ite (State.wf_putMasks h) (State.wf_mapWarp h)

theorem State.wf_serveWait {x v} (h : Memory.wf s.mem) : OptWf (s.serveWait x v) := by
  dsimp only [State.serveWait]
  split
  · exact .none
  exact .some (State.wf_comeBack (State.wf_maskBits (State.wf_mapWarp (State.wf_putQueue h))))

theorem State.wf_pushLane {q v} (h : Memory.wf s.mem) : Memory.wf (s.pushLane q v).2.mem := by
  dsimp only [State.pushLane]
  split
  · rename_i e
    exact State.wf_serveWait h _ e
  split
  · exact State.wf_putQueue h
  exact h

theorem wf_pushLanes {q v l} (h : Memory.wf s.mem) : Memory.wf (pushLanes q v l s).2.mem := by
  induction l generalizing s with
  | nil => exact h
  | cons i t ih => exact ih (State.wf_pushLane h)

theorem State.wf_blockPop {r d k q m} (h : Memory.wf s.mem) : Memory.wf (s.blockPop r d k q m).mem :=
  State.wf_block (State.wf_putQueue h)

/-! ### Matrix -/

theorem wf_inWindow {r k} (hk : ActWf k) : ActWf (inWindow s r k) := .ite .trap hk

theorem State.wf_reapRanges {gid} (h : Memory.wf s.mem) : Memory.wf (s.reapRanges gid).mem := by
  dsimp only [State.reapRanges]
  split
  · exact h
  exact State.wf_mapGroup h

theorem wf_execObres {d a f} (h : Memory.wf s.mem) : OutWf (execObres d a f s) := by
  dsimp only [execObres]
  refine wf_issue h (fun _ => wf_inWindow ?_)
  split
  · exact .ok (State.wf_writeAll (State.wf_setG h))
  exact .ok (State.wf_writeAll h)

theorem wf_execObrec {d a} (h : Memory.wf s.mem) : OutWf (execObrec d a s) := by
  dsimp only [execObrec]
  refine wf_issue h (fun r => wf_inWindow (wf_checked (State.wf_ordered h (.ite .trap ?_))))
  split
  · exact .ok (State.wf_writeAll h)
  exact .ok (State.wf_writeAll (State.wf_setG h))

theorem wf_badHandle {h} : ActWf (badHandle h) := .trap

theorem wf_execObrel {a} (h : Memory.wf s.mem) : OutWf (execObrel a s) := by
  dsimp only [execObrel]
  refine wf_issue h (fun _ => wf_inWindow ?_)
  split
  · exact wf_badHandle
  exact .ok (State.wf_reapRanges (State.wf_setG h))

theorem wf_execAccget {d} (h : Memory.wf s.mem) : OutWf (execAccget d s) := by
  dsimp only [execAccget]
  refine wf_issue h (fun _ => wf_inWindow ?_)
  split
  · exact .ok (State.wf_writeAll h)
  exact .ok (State.wf_writeAll (State.wf_putEngine h))

theorem wf_execAccput {t} (h : Memory.wf s.mem) : OutWf (execAccput t s) := by
  dsimp only [execAccput]
  refine wf_issue h (fun _ => wf_inWindow ?_)
  split
  · exact wf_badHandle
  exact .ok (State.wf_mapEngine h)

theorem wf_sendCmd {r kind bar ctr reg k} (h : Memory.wf s.mem) (hk : ∀ a0, ∀ t1, Memory.wf t1.mem → ActWf (k a0 t1)) :
    ActWf (sendCmd s r kind bar ctr reg k) := by
  dsimp only [sendCmd]
  split
  · exact .hold h
  refine hk _ _ (State.wf_meetSel (State.wf_mapEngine ?_))
  dsimp only
  exact State.wf_takeNumber h

theorem wf_withBar {bar k} (hk : ∀ a, ActWf (k a)) : ActWf (withBar s bar k) :=
  wf_checked (hk _)

theorem wf_execMload {d h bar row0} (hs : Memory.wf s.mem) : OutWf (execMload d h bar row0 s) := by
  dsimp only [execMload]
  refine wf_issue hs (fun _ => wf_inWindow ?_)
  split
  · exact wf_badHandle
  exact .ite wf_badHandle (wf_withBar (fun _ => .ite (.hold hs) (wf_sendCmd hs (fun n => fun t ht => .ok
      (State.wf_writeAll (State.wf_setG ht))))))

theorem wf_matTrap {r q} (h : Memory.wf s.mem) : ActWf (matTrap s r q) :=
  .ite (.hold h) (.hold (wf_takeTrap (State.wf_setG h)))

theorem wf_swapChecks {r k} (h : Memory.wf s.mem) (hk : ActWf k) : ActWf (swapChecks s r k) := by
  dsimp only [swapChecks]
  split
  · exact .trap
  split
  · exact wf_matTrap h
  exact hk

theorem wf_withCtr {r c k} (h : Memory.wf s.mem) (hk : ActWf k) : ActWf (withCtr s r c k) := by
  dsimp only [withCtr]
  split
  · exact hk
  exact wf_withObj h (fun _ => hk)

theorem wf_execMstream {d t ctr bar rowbase h} (hs : Memory.wf s.mem) : OutWf (execMstream d t ctr bar rowbase h s) :=
    by
  dsimp only [execMstream]
  refine wf_issue hs (fun r => wf_withCtr hs (wf_inWindow ?_))
  split
  · exact wf_badHandle
  · exact wf_badHandle
  split
  · exact wf_badHandle
  split
  · exact wf_badHandle
  exact .ite wf_badHandle (wf_withBar (fun _ => wf_sendCmd hs (fun n => fun t1 ht1 => .ok (State.wf_writeAll ht1))))

theorem wf_execMzero {d t} (h : Memory.wf s.mem) : OutWf (execMzero d t s) := by
  dsimp only [execMzero]
  refine wf_issue h (fun _ => wf_inWindow ?_)
  split
  · exact wf_badHandle
  exact wf_sendCmd h (fun n => fun t1 ht1 => .ok (State.wf_writeAll ht1))

theorem wf_execMdrain {d t n c} (h : Memory.wf s.mem) : OutWf (execMdrain d t n c s) := by
  dsimp only [execMdrain]
  refine wf_issue h (fun _ => wf_inWindow ?_)
  split
  · exact wf_badHandle
  exact .ite wf_badHandle (.ite .trap (wf_sendCmd h (fun _ => fun t1 ht1 => .ok ht1)))

theorem wf_execMwait {t} (h : Memory.wf s.mem) : OutWf (execMwait t s) := by
  dsimp only [execMwait]
  refine wf_issue h (fun _ => wf_inWindow ?_)
  split
  · exact wf_badHandle
  split
  · split
    · exact .hold (State.wf_mapRun h)
    split
    · exact wf_matTrap h
    exact .ok (State.wf_meetPlace (State.wf_setW h))
  split
  · exact .hold (State.wf_mapRun h)
  split
  · exact wf_matTrap h
  exact .ok (State.wf_meetPlace (State.wf_setW h))

theorem wf_execMpoll {d t} (h : Memory.wf s.mem) : OutWf (execMpoll d t s) := by
  dsimp only [execMpoll]
  refine wf_issue h (fun _ => wf_inWindow ?_)
  split
  · exact wf_badHandle
  split
  · exact wf_matTrap h
  exact .ite (.ok (State.wf_writeAll h)) (.ok (State.wf_writeAll (State.wf_meetPlace h)))

theorem wf_execMatrixGrant {clu} (h : Memory.wf s.mem) : OutWf (execMatrixGrant clu s) := by
  dsimp only [execMatrixGrant]
  split
  · exact .next h
  exact .next (State.wf_mapVf (State.wf_mapUse (State.wf_mapEngine h)))

theorem State.wf_freshen {clu pl} (h : Memory.wf s.mem) : Memory.wf (s.freshen clu pl).mem := by
  dsimp only [State.freshen]
  split
  · exact h
  exact wf_ite (State.wf_mapEngine h) h

theorem State.wf_runPass {s0 : State} {clu p c x rb pl y} (hs0 : Memory.wf s0.mem) :
    Memory.wf (s0.runPass clu p c x rb pl y).mem :=
  State.wf_putEngine (State.wf_freshen hs0)

theorem State.wf_fillPlane {clu c x r0} (h : Memory.wf s.mem) : Memory.wf (s.fillPlane clu c x r0).mem :=
  State.wf_mapEngine h

theorem State.wf_meetBushel {clu c unit} (h : Memory.wf s.mem) : Memory.wf (s.meetBushel clu c unit).mem := by
  dsimp only [State.meetBushel]
  split
  · exact State.wf_mapEngine h
  exact h

theorem State.wf_reload {clu load unit} (h : Memory.wf s.mem) : Memory.wf (s.reload clu load unit).mem := by
  dsimp only [State.reload]
  split
  · exact h
  exact wf_ite (State.wf_mapEngine h) h

theorem State.wf_reapPlanes {clu} (h : Memory.wf s.mem) : Memory.wf (s.reapPlanes clu).mem := State.wf_mapEngine h

theorem State.wf_earlyBushel {clu cmd unit} (h : Memory.wf s.mem) : Memory.wf (s.earlyBushel clu cmd unit).mem := by
  dsimp only [State.earlyBushel]
  split
  · exact wf_ite (State.wf_meetBushel h) h
  exact h

theorem State.wf_perform {clu c} (h : Memory.wf s.mem) : Memory.wf (s.perform clu c).mem := by
  dsimp only [State.perform]
  split
  · exact State.wf_mapGroup (State.wf_fillPlane h)
  · exact State.wf_runPass h
  · exact State.wf_putEngine h
  · exact State.wf_mapWarp h
  exact h

theorem State.wf_retireCmd {clu c} (h : Memory.wf s.mem) : Memory.wf (s.retireCmd clu c).mem :=
  State.wf_reapPlanes (State.wf_reapRanges (State.wf_mapWarp (State.wf_mapEngine h)))

theorem State.wf_noteEnded {c} (h : Memory.wf s.mem) : Memory.wf (s.noteEnded c).mem := wf_ite h h

theorem State.wf_failCmd {clu c code} (h : Memory.wf s.mem) : Memory.wf (s.failCmd clu c code).mem := by
  dsimp only [State.failCmd]
  refine State.wf_retireCmd ?_
  split
  · refine State.wf_mapEngine (State.wf_mapGroup ?_)
    split
    · exact State.wf_barUpd h
    exact State.wf_mapGroup h
  · refine State.wf_spend (State.wf_mapWarp ?_)
    split
    · exact State.wf_barUpd h
    exact State.wf_mapGroup h
  split
  · exact State.wf_barUpd h
  exact State.wf_mapGroup h

theorem State.wf_completeCmd {clu c} (h : Memory.wf s.mem) : OptWf (s.completeCmd clu c) := by
  dsimp only [State.completeCmd]
  refine .after ?_ (fun t ht => State.wf_noteEnded (State.wf_retireCmd ht))
  split
  · refine .some ?_
    split
    · split
      · exact State.wf_pass (State.wf_pass (State.wf_perform h))
      exact State.wf_pass (State.wf_perform h)
    refine State.wf_credit (State.wf_pass ?_)
    split
    · exact State.wf_pass (State.wf_pass (State.wf_perform h))
    exact State.wf_pass (State.wf_perform h)
  refine wf_decrementAt ?_
  split
  · split
    · exact State.wf_pass (State.wf_pass (State.wf_perform h))
    exact State.wf_pass (State.wf_perform h)
  refine State.wf_credit (State.wf_pass ?_)
  split
  · exact State.wf_pass (State.wf_pass (State.wf_perform h))
  exact State.wf_pass (State.wf_perform h)

theorem wf_execMatrixCommandRetire {clu cmd} (h : Memory.wf s.mem) : OutWf (execMatrixCommandRetire clu cmd s) := by
  dsimp only [execMatrixCommandRetire]
  split
  · exact .next h
  split
  · exact .next h
  split
  · exact .next (State.wf_failCmd h)
  exact .next (OptWf.getD (State.wf_completeCmd h) h)

theorem State.wf_trip {clu} (h : Memory.wf s.mem) : Memory.wf (s.trip clu).mem := State.wf_spend (State.wf_mapEngine h)

theorem wf_execMatrixCommandFail {clu cmd code acc} (h : Memory.wf s.mem) :
    OutWf (execMatrixCommandFail clu cmd code acc s) := by
  dsimp only [execMatrixCommandFail]
  split
  · exact .next h
  split
  · exact .next h
  split
  · exact .next (State.wf_failCmd (State.wf_trip h))
  split
  · exact .next (State.wf_failCmd (State.wf_mapEngine h))
  split
  · exact .next (State.wf_failCmd h)
  exact .next h

/-! ### Special -/

theorem wf_spUn {i d a f} (h : Memory.wf s.mem) : OutWf (spUn i s d a f) := wf_fpUn h

/-! ### Gang -/

theorem State.wf_putSeq {q} (h : Memory.wf s.mem) : Memory.wf (s.putSeq q).mem := h
theorem State.wf_mapSeq {k f} (h : Memory.wf s.mem) : Memory.wf (s.mapSeq k f).mem := h

theorem wf_withMember {r sq k} (hk : ∀ a, ActWf (k a)) : ActWf (withMember s r sq k) := by
  dsimp only [withMember]
  split
  · exact hk _
  exact .trap

theorem wf_withSeq {r sq k} (hk : ∀ a, ActWf (k a)) : ActWf (withSeq s r sq k) :=
  wf_withMember (fun _ => .ite (hk _) .trap)

theorem State.wf_queueAt {q} (h : Memory.wf s.mem) : Memory.wf (s.queueAt q).mem := wf_ite h (State.wf_putSeq h)
theorem State.wf_mapBlock {b f} (h : Memory.wf s.mem) : Memory.wf (s.mapBlock b f).mem := h

theorem State.wf_popBlock {p v chip tier} (h : Memory.wf s.mem) : PairWf (s.popBlock p v chip tier) := by
  dsimp only [State.popBlock]
  split
  · split
    · exact .none
    refine .map fun _ => State.wf_mapVf (State.wf_rekeyBlock ?_ _ _)
    dsimp only
    exact h
  · exact .none

theorem State.wf_putPeer {p} (h : Memory.wf s.mem) : Memory.wf (s.putPeer p).mem := h

theorem State.wf_popAway {kvw chip tier} (h : Memory.wf s.mem) : PairWf (s.popAway kvw chip tier) := by
  dsimp only [State.popAway]
  split
  · exact .none
  split
  · exact .none
  exact .map (fun _ => State.wf_putPeer h)

theorem State.wf_pushBlock {b} (h : Memory.wf s.mem) : Memory.wf (s.pushBlock b).mem := by
  dsimp only [State.pushBlock]
  split
  · exact State.wf_mapVf h
  split
  · exact h
  exact State.wf_putPeer h

theorem State.wf_unref {e} (h : Memory.wf s.mem) : Memory.wf (s.unref e).mem := by
  dsimp only [State.unref]
  split
  · exact h
  exact wf_ite (State.wf_pushBlock h) (State.wf_mapBlock h)

theorem State.wf_moveSectors {a b n} (h : Memory.wf s.mem) : Memory.wf (s.moveSectors a b n).mem := by
  dsimp only [State.moveSectors]
  split
  · exact State.wf_wrs h _
  refine wf_foldl (fun t ht i => State.wf_eccSeen ht) ?_
  dsimp only
  exact State.wf_wrs h _

theorem State.wf_copyPos {src ss dst ds} (h : Memory.wf s.mem) : Memory.wf (s.copyPos src ss dst ds).mem := by
  dsimp only [State.copyPos]
  split
  · exact wf_ite (State.wf_mapUse (State.wf_meterHbmAll (State.wf_moveSectors h))) (State.wf_meterFab (State.wf_mapUse
        (State.wf_meterHbmAll (State.wf_moveSectors h))))
  exact h

theorem State.wf_request {q w} (h : Memory.wf s.mem) : Memory.wf (s.request q w).2.mem := by
  dsimp only [State.request]
  split
  · exact h
  split
  · exact h
  split
  · exact h
  split
  · exact h
  split <;> exact State.wf_putSeq h

theorem State.wf_policy {k} (h : Memory.wf s.mem) : Memory.wf (s.policy k).mem := by
  dsimp only [State.policy]
  split
  · exact h
  exact wf_ite h (wf_ite (State.wf_request h) (State.wf_request (State.wf_putSeq h)))

theorem wf_seqRead {i d sq f} (h : Memory.wf s.mem) : OutWf (seqRead i s d sq f) :=
  wf_issue h (fun _ => wf_withSeq (fun _ => .ok (State.wf_writeAll h)))

theorem State.wf_writeImage {q img} (h : Memory.wf s.mem) : Memory.wf (s.writeImage q img).2.mem := by
  dsimp only [State.writeImage]
  split
  · exact h
  split
  · exact State.wf_putSeq h
  exact State.wf_request (State.wf_putSeq h)

theorem State.wf_hold1 {q e} (h : Memory.wf s.mem) : Memory.wf (s.hold1 q e).mem :=
  wf_ite (State.wf_policy (State.wf_putSeq h)) (State.wf_putSeq h)

theorem State.wf_popFor {q ms rank blk tier} (h : Memory.wf s.mem) : PoppedWf (s.popFor q ms rank blk tier) := by
  dsimp only [State.popFor]
  split
  · exact trivial
  split
  · rename_i x e
    refine (?_ : PairWf _) x e
    split
    · intro y hy
      obtain ⟨o, -, hq⟩ := Option.bind_eq_some_iff.1 hy
      exact State.wf_popBlock h y hq
    · exact State.wf_popAway h
  · exact trivial

theorem State.wf_room {q x} (h : Memory.wf s.mem) (e : s.room q = some x) : PoppedWf x := by
  dsimp only [State.room] at e
  split at e
  · cases e
    exact State.wf_popFor h
  split at e
  · cases e
  split at e
  · cases e
  split at e
  · rename_i f t ht
    cases e
    split
    · exact State.wf_unref (wf_foldl (fun t ht i => State.wf_copyPos ht) ((State.wf_popFor h).of_ok ht))
    · exact trivial
  · cases e
    exact State.wf_popFor h

theorem State.wf_append {q sq r d} (h : Memory.wf s.mem) : ActWf (s.append q sq r d) := by
  dsimp only [State.append]
  split
  · exact .ok (State.wf_writeAll (State.wf_hold1 h))
  · rename_i e
    exact .ok (State.wf_writeAll (State.wf_hold1 (State.wf_room h e)))
  · exact .trap
  · exact .trap
  exact .hold h

theorem wf_inTurn {q k} (h : Memory.wf s.mem) (hk : ∀ t, Memory.wf t.mem → ∀ a1, ActWf (k t a1)) : ActWf (inTurn s q k) :=
  .ite (.hold (State.wf_queueAt h)) (.ite (hk _ (State.wf_putSeq h) _) (hk _ h _))

theorem State.wf_share {l : List FstEntry} {k} (h : Memory.wf s.mem) : Memory.wf (s.share l k).2.2.mem := by
  induction l generalizing s k with
  | nil => exact h
  | cons e t ih =>
    dsimp only [State.share]
    split
    · split
      · exact h
      exact ih (State.wf_mapBlock h)
    exact ih h

theorem wf_execKvfork {d sq sp} (h : Memory.wf s.mem) : OutWf (execKvfork d sq sp s) := by
  dsimp only [execKvfork]
  refine wf_issue h (fun _ => wf_withSeq (fun _ => ?_))
  split
  · exact .trap
  split
  · exact .trap
  split
  · exact .ite (.hold h) (.hold (wf_takeTrap (State.wf_putSeq (State.wf_share h))))
  exact .ok (State.wf_writeAll (State.wf_putSeq (State.wf_share h)))

theorem State.wf_truncate {q n} (h : Memory.wf s.mem) : Memory.wf (s.truncate q n).mem :=
  State.wf_policy (State.wf_putSeq (wf_foldl (fun _ ht _ => State.wf_unref ht) h))

theorem wf_execFlpop {d st} (h : Memory.wf s.mem) : OutWf (execFlpop d st s) := by
  dsimp only [execFlpop]
  refine wf_issue h (fun r => .ite .trap ?_)
  split
  · rename_i e
    exact .ok (State.wf_writeAll (State.wf_popBlock h _ e))
  exact .ok (State.wf_writeAll h)

theorem wf_execFlpush {d sb} (h : Memory.wf s.mem) : OutWf (execFlpush d sb s) := by
  dsimp only [execFlpush]
  refine wf_issue h (fun _ => ?_)
  split
  · exact .ite (.ok (State.wf_writeAll (State.wf_pushBlock h))) .trap
  exact .trap

theorem State.wf_setMove {k f} (h : Memory.wf s.mem) : Memory.wf (s.setMove k f).mem := State.wf_mapSeq h
theorem State.wf_putMember {m} (h : Memory.wf s.mem) : Memory.wf (s.putMember m).mem := h

theorem State.wf_abandon {q m err} (h : Memory.wf s.mem) : Memory.wf (s.abandon q m err).mem :=
  State.wf_putSeq (wf_foldl (fun _ ht _ => State.wf_unref ht) h)

theorem State.wf_moveInto {b i e j} (h : Memory.wf s.mem) : MovedWf (s.moveInto b i e j) := by
  dsimp only [State.moveInto]
  split
  · exact State.wf_copyPos h
  · exact trivial

theorem State.wf_movePos {k p} (h : Memory.wf s.mem) : MovedWf (s.movePos k p) := by
  dsimp only [State.movePos]
  split
  · exact h
  split
  · exact h
  split
  · exact h
  split
  · exact trivial
  split
  · exact State.wf_moveInto h
  · split
    · rename_i e
      exact State.wf_moveInto (State.wf_setMove ((State.wf_popFor h).of_ok e))
    · exact trivial
    · exact trivial
    · exact trivial
  · exact h

theorem State.wf_forward {k n p} (h : Memory.wf s.mem) : Memory.wf (s.forward k n p).1.mem := by
  induction n generalizing s p with
  | zero => exact h
  | succ n ih =>
    dsimp only [State.forward]
    split
    · rename_i e
      exact ih (State.wf_setMove ((State.wf_movePos h).of_ok e))
    · exact h
    · exact h

theorem State.wf_finishMove {k} (h : Memory.wf s.mem) : Memory.wf (s.finishMove k).mem := by
  dsimp only [State.finishMove]
  split
  · exact h
  split
  · exact h
  exact State.wf_putSeq (wf_foldl (fun t ht _ => State.wf_putMember ht) (wf_foldl (fun t ht _ => State.wf_unref ht) h))

theorem State.wf_closeMove {q m} (h : Memory.wf s.mem) : Memory.wf (s.closeMove q m).mem := by
  dsimp only [State.closeMove]
  split
  · split
    · rename_i e1
      exact State.wf_finishMove (wf_of_eq_fst (State.wf_forward h) e1)
    · rename_i e1
      exact wf_of_eq_fst (State.wf_forward h) e1
    rename_i e2
    split
    · exact State.wf_abandon (wf_of_eq_fst (State.wf_forward h) e2)
    exact wf_of_eq_fst (State.wf_forward h) e2
  exact h

theorem State.wf_walk {k} (h : Memory.wf s.mem) : Memory.wf (s.walk k).mem := by
  dsimp only [State.walk]
  split
  · exact h
  split
  · exact h
  split
  · exact wf_ite (State.wf_abandon h) (wf_ite (State.wf_closeMove h) h)
  split
  · split
    · rename_i e
      exact State.wf_setMove ((State.wf_movePos h).of_ok e)
    · exact State.wf_abandon h
    · exact h
  exact wf_ite h (State.wf_putSeq h)

theorem State.wf_inPhase {k c ph f} (h : Memory.wf s.mem) (hf : ∀ a0 a1, Memory.wf (f a0 a1).mem) :
    Memory.wf (s.inPhase k c ph f).mem := by
  dsimp only [State.inPhase]
  split
  · exact h
  split
  · exact h
  exact wf_ite (hf _ _) h

theorem wf_execSwitchTimeout {slot chip} (h : Memory.wf s.mem) : OutWf (execSwitchTimeout slot chip s) := by
  dsimp only [execSwitchTimeout]
  refine .next ?_
  split
  · exact h
  split
  · exact h
  exact wf_ite (State.wf_abandon h) h

theorem wf_execAbortMsg {slot chip} (h : Memory.wf s.mem) : OutWf (execAbortMsg slot chip s) := by
  dsimp only [execAbortMsg]
  refine .next ?_
  split
  · exact h
  exact wf_ite (State.wf_putSeq (State.wf_putMember h)) h

theorem State.wf_sendLap {slot src dst n} (h : Memory.wf s.mem) : Memory.wf (s.sendLap slot src dst n).mem := by
  dsimp only [State.sendLap]
  split
  · exact wf_ite h (State.wf_mapVf h)
  exact h

theorem State.wf_endLap {l m} (h : Memory.wf s.mem) : Memory.wf (s.endLap l m).mem := by
  dsimp only [State.endLap]
  refine State.wf_putMember (State.wf_mapWarp (wf_ite ?_ (wf_ite (State.wf_sendLap ?_) ?_)))
  · split
    · refine State.wf_pass (State.wf_pass ?_)
      dsimp only
      exact State.wf_pass h
    exact State.wf_pass h
  · dsimp only
    split
    · refine State.wf_pass (State.wf_pass ?_)
      dsimp only
      exact State.wf_pass h
    exact State.wf_pass h
  split
  · refine State.wf_pass (State.wf_pass ?_)
    dsimp only
    exact State.wf_pass h
  exact State.wf_pass h

theorem wf_execLapMessage {lap} (h : Memory.wf s.mem) : OutWf (execLapMessage lap s) := by
  dsimp only [execLapMessage]
  refine .next ?_
  split
  · exact h
  split
  · exact State.wf_endLap h
  split
  · exact h
  exact wf_ite (State.wf_endLap h) h

theorem wf_execLapDeadline {lap} (h : Memory.wf s.mem) : OutWf (execLapDeadline lap s) := by
  dsimp only [execLapDeadline]
  refine .next ?_
  split
  · exact h
  split
  · exact wf_ite (State.wf_endLap h) h
  exact h

theorem wf_execLateArrival {msg} (h : Memory.wf s.mem) : OutWf (execLateArrival msg s) := by
  dsimp only [execLateArrival]
  refine .next ?_
  split
  · exact h
  split
  · exact h
  split
  · exact h
  split
  · exact State.wf_sendLap h
  split
  · exact h
  split
  · exact State.wf_sendLap h
  refine wf_ite (State.wf_sendLap h) (wf_ite h (State.wf_putSeq
    (State.wf_wrs (State.wf_meterHbmAll (State.wf_sendLap ?_)) _)))
  exact h

theorem State.wf_takeIn {r q d n rank width} (h : Memory.wf s.mem) : Memory.wf (s.takeIn r q d n rank width).mem :=
  State.wf_meetSel (State.wf_putMember h)

theorem State.wf_holdLap {m n} (h : Memory.wf s.mem) : Memory.wf (s.holdLap m n).mem := State.wf_putMember h

theorem wf_execGstep {d sq sn} (h : Memory.wf s.mem) : OutWf (execGstep d sq sn s) := by
  dsimp only [execGstep]
  refine wf_issue h (fun r => wf_withMember (fun _ => .ite .trap (.ite .trap (.ite (.hold (State.wf_holdLap h)) ?_))))
  split
  · exact .trap
  split
  · exact .trap
  split
  · split
    · exact .ok (State.wf_setW h)
    exact .hold h
  exact .ok (State.wf_takeIn h)

theorem State.wf_setGtimer {gid wid t} (h : Memory.wf s.mem) : Memory.wf (s.setGtimer gid wid t).mem := h

theorem State.wf_answerLate {m n t c} (h : Memory.wf s.mem) : Memory.wf (s.answerLate m n t c).mem :=
  State.wf_putMember h

theorem wf_execGlate {d sq} (h : Memory.wf s.mem) : OutWf (execGlate d sq s) := by
  dsimp only [execGlate]
  refine wf_issue h (fun r => wf_withMember (fun _ => .ite .trap (.ite .trap ?_)))
  split
  · exact .trap
  exact .ite (.ite (.hold h) (.ok (State.wf_setW (State.wf_answerLate (State.wf_setGtimer
      (State.wf_meterHbmAll h)))))) (.ite (.hold h) (.hold (State.wf_setGtimer h)))

theorem wf_execGlateTimeout {gid wid} (h : Memory.wf s.mem) : OutWf (execGlateTimeout gid wid s) := by
  dsimp only [execGlateTimeout]
  refine .next ?_
  split
  · exact wf_ite (State.wf_setGtimer h) h
  exact h

theorem State.wf_peerOn {k f} (h : Memory.wf s.mem) (hf : ∀ a0, Memory.wf (f a0).mem) : Memory.wf (s.peerOn k f).mem := by
  dsimp only [State.peerOn]
  split
  · exact wf_ite (hf _) h
  exact h

theorem State.wf_peerLap {q chip n own} (h : Memory.wf s.mem) : Memory.wf (s.peerLap q chip n own).mem := by
  dsimp only [State.peerLap]
  split
  · exact h
  exact wf_ite h (State.wf_putMember h)

theorem State.wf_peerAct {a} (h : Memory.wf s.mem) : Memory.wf (s.peerAct a).mem := by
  dsimp only [State.peerAct]
  split
  · exact wf_ite h (State.wf_putPeer h)
  · exact wf_ite h (State.wf_putSeq h)
  · exact wf_ite h h
  · exact State.wf_peerOn h fun q => State.wf_request h
  · exact State.wf_peerOn h fun _ => State.wf_writeImage h
  · refine State.wf_peerOn h fun _ => wf_ite h ?_
    split
    · exact State.wf_hold1 h
    · rename_i e
      exact State.wf_hold1 (State.wf_room h e)
    · exact h
  · exact State.wf_peerOn h fun _ => wf_ite h (State.wf_truncate h)
  · refine State.wf_peerOn h fun _ => ?_
    split
    · exact h
    · exact wf_ite h (State.wf_putSeq (State.wf_share h))
  exact State.wf_peerOn h fun _ => State.wf_peerLap h

theorem State.wf_writeEntry {k e} (h : Memory.wf s.mem) : Memory.wf (s.writeEntry k e).mem := by
  dsimp only [State.writeEntry]
  split
  · exact wf_ite (State.wf_putSeq h) h
  exact h

/-! ### Retire -/

theorem State.wf_on {gid wid f} (h : Memory.wf s.mem) (hf : ∀ t, Memory.wf t.mem → Memory.wf (f t).mem) :
    Memory.wf (s.on gid wid f).mem :=
  State.wf_select (hf _ (State.wf_select h))

theorem State.wf_endSeen {m} (h : Memory.wf s.mem) : Memory.wf (s.endSeen m).mem := by
  dsimp only [State.endSeen]
  split
  · exact h
  split
  · exact State.wf_meetSel h
  exact h

theorem State.wf_dropWarp (h : Memory.wf s.mem) : Memory.wf s.dropWarp.mem :=
  State.wf_withdraw (wf_foldl (fun _ ht _ => State.wf_release (State.wf_passRegion ht)) h)

theorem State.wf_retireSel {m} (h : Memory.wf s.mem) : OptWf (s.retireSel m) :=
  .ite .none (.ite (.some (State.wf_putMasks (State.wf_endSeen h))) (.ite (State.wf_retireGroup (State.wf_dropWarp
      (State.wf_putMasks (State.wf_endSeen h)))) (.some (State.wf_dropWarp (State.wf_putMasks (State.wf_endSeen h))))))

theorem State.wf_retireAt {gid wid m} (h : Memory.wf s.mem) : OptWf (s.retireAt gid wid m) :=
  .after (State.wf_retireSel (State.wf_select h)) (fun _ ht => State.wf_select ht)

theorem State.wf_cancelWaits {gid} (h : Memory.wf s.mem) : Memory.wf (s.cancelWaits gid).mem :=
  State.wf_withdrawReqs (State.wf_mapGroup h)

theorem State.wf_clearGroup {gid} (h : Memory.wf s.mem) : Memory.wf (s.clearGroup gid).mem := by
  dsimp only [State.clearGroup]
  split
  · exact h
  exact State.wf_select (State.wf_unselect (State.wf_mapEngine (State.wf_mapGroup (State.wf_cancelWaits (wf_foldl
      (fun t ht _ => State.wf_on ht (fun t1 ht1 => State.wf_dropWarp (State.wf_endSeen ht1))) h)))))

theorem State.wf_endGroup {gid} (h : Memory.wf s.mem) : OptWf (s.endGroup gid) :=
  State.wf_retireGroup (State.wf_clearGroup h)

theorem State.wf_endSystem {gid} (h : Memory.wf s.mem) : Memory.wf (s.endSystem gid).mem := by
  dsimp only [State.endSystem]
  split
  · exact h
  split
  · exact State.wf_dropGroup (State.wf_clearGroup h)
  exact OptWf.getD (State.wf_endGroup (State.wf_dropGroup (State.wf_clearGroup h))) h

/-! ### System -/

theorem wf_execSwr {x v} (h : Memory.wf s.mem) : OutWf (execSwr x v s) := by
  dsimp only [execSwr]
  refine wf_issue h (fun _ => ?_)
  split
  · exact .ok (State.wf_setW h)
  · exact .ok (State.wf_setW h)
  · exact .ok (State.wf_setW h)
  exact .trap

theorem State.wf_gain {gid wid k} (h : Memory.wf s.mem) : Memory.wf (s.gain gid wid k).mem :=
  State.wf_spend (State.wf_mapWarp h)

theorem State.wf_capAt {n} (h : Memory.wf s.mem) : Memory.wf (s.capAt n).mem := wf_ite (State.wf_mapEngine h) h

theorem wf_execRgrowGrant {gid wid} (h : Memory.wf s.mem) : OutWf (execRgrowGrant gid wid s) := by
  dsimp only [execRgrowGrant]
  refine .next ?_
  split
  · exact wf_ite (State.wf_gain h) h
  exact h

theorem State.wf_deliver {chip part core k h g} (hs : Memory.wf s.mem) : Memory.wf (s.deliver chip part core k h g).mem := by
  dsimp only [State.deliver]
  split
  · refine State.wf_wrs (State.wf_mapGroup ?_) _
    dsimp only
    exact State.wf_reside (State.wf_spend hs)
  exact hs

theorem wf_execTrapDelivery {chip part core} (h : Memory.wf s.mem) : OutWf (execTrapDelivery chip part core s) := by
  dsimp only [execTrapDelivery]
  refine .next ?_
  split
  · exact wf_ite (State.wf_deliver h) h
  exact h

theorem State.wf_abandonOp {o} (h : Memory.wf s.mem) : Memory.wf (s.abandonOp o).mem :=
  State.wf_spend (State.wf_landOp h)

theorem State.wf_suppress {h t} (hs : Memory.wf s.mem) : Memory.wf (s.suppress h t).mem := by
  dsimp only [State.suppress]
  split
  · exact hs
  split
  · exact hs
  exact State.wf_spend (State.wf_mapWarp hs)

theorem State.wf_trapAgain {h t} (hs : Memory.wf s.mem) : Memory.wf (s.trapAgain h t).mem :=
  State.wf_on hs (fun _ ht1 => wf_trapWith ht1)

theorem State.wf_leaveWaits {h t} (hs : Memory.wf s.mem) : Memory.wf (s.leaveWaits h t).mem := by
  dsimp only [State.leaveWaits]
  split
  · dsimp only
    exact State.wf_withdraw hs
  exact hs

theorem State.wf_dropAway {h t} (hs : Memory.wf s.mem) : Memory.wf (s.dropAway h t).mem := by
  dsimp only [State.dropAway]
  split
  · exact wf_foldl (fun t1 ht1 _ => State.wf_endCopy ht1) hs
  exact hs

theorem State.wf_endHeld {r w t act} (h : Memory.wf s.mem) : EndedWf (s.endHeld r w t act) := by
  have away : Memory.wf ((s.dropAway r t).leaveWaits r t).mem := State.wf_leaveWaits (State.wf_dropAway h)
  unfold State.endHeld
  dsimp only
  split
  · split
    · exact trivial
    split
    · exact trivial
    · exact State.wf_mapGroup (State.wf_mapWarp h)
  · have hu := wf_foldl (l := t.ops) (fun u hu o => State.wf_abandonOp (o := o) hu) away
    split
    · exact trivial
    · exact State.wf_mapGroup (State.wf_mapWarp (wf_ite (State.wf_suppress hu) hu))
  · split
    · split
      · rename_i e
        exact State.wf_mapGroup (State.wf_endGroup h _ e)
      · exact trivial
    split
    · exact State.wf_trapAgain (State.wf_mapGroup (State.wf_mapWarp away))
    split
    · rename_i e
      exact State.wf_retireAt (State.wf_mapGroup (State.wf_mapGroup (State.wf_mapWarp away))) _ e
    · exact trivial
  exact trivial

theorem wf_execRfe {a} (h : Memory.wf s.mem) : OutWf (execRfe a s) := by
  dsimp only [execRfe]
  refine wf_issue h fun r => .ite .trap ?_
  split
  · exact .trap
  split
  · refine State.wf_ordered h ?_
    split
    · split
      · exact .trap
      · exact .hold h
      · rename_i e
        exact .ok (State.wf_mapGroup ((State.wf_endHeld (State.wf_mapWarp h)).of_done e))
    · exact .trap
  exact .ok (State.wf_setG h)

/-! ### Context -/

theorem State.wf_discard {g} (h : Memory.wf s.mem) : Memory.wf (s.discard g).mem :=
  State.wf_reapRanges (State.wf_mapGroup (State.wf_unselect (State.wf_mapEngine h)))

theorem State.wf_movePlaces {f} (h : Memory.wf s.mem) : Memory.wf (s.movePlaces f).mem := h

theorem State.wf_wrArea {g off l} (h : Memory.wf s.mem) : Memory.wf (s.wrArea g off l).1.mem :=
  wf_foldl_fst (fun _ hq _ => State.wf_wrs hq _) h

theorem State.wf_fillArea {g live trailer} (h : Memory.wf s.mem) : Memory.wf (s.fillArea g live trailer).mem :=
  State.wf_wrArea (wf_ite (State.wf_wrArea h) (State.wf_wrArea (wf_foldl (fun _ ht _ => State.wf_wrArea ht)
      (State.wf_wrArea h))))

theorem State.wf_saveGroup {s0 : State} {gid} (hs0 : Memory.wf s0.mem) : Memory.wf (s0.saveGroup gid).mem := by
  dsimp only [State.saveGroup]
  split
  · exact hs0
  split
  · exact State.wf_withdrawAll (wf_ite (State.wf_discard (State.wf_unselect hs0)) (State.wf_unselect hs0))
  refine State.wf_finishSwitch (State.wf_spend ?_)
  split
  · refine State.wf_eccSaved ?_
    split
    · split
      · exact State.wf_fillFrame (State.wf_mapFrame (State.wf_fillArea (State.wf_mapEngine (State.wf_mapGroup
            (State.wf_movePlaces (State.wf_leaveQueues (State.wf_withdrawAll (wf_ite (State.wf_discard
                (State.wf_unselect hs0)) (State.wf_unselect hs0)))))))))
      exact State.wf_mapFrame (State.wf_fillArea (State.wf_mapEngine (State.wf_mapGroup (State.wf_movePlaces
          (State.wf_leaveQueues (State.wf_withdrawAll (wf_ite (State.wf_discard (State.wf_unselect hs0))
              (State.wf_unselect hs0))))))))
    exact State.wf_fillArea (State.wf_mapEngine (State.wf_mapGroup (State.wf_movePlaces (State.wf_leaveQueues
        (State.wf_withdrawAll (wf_ite (State.wf_discard (State.wf_unselect hs0)) (State.wf_unselect hs0)))))))
  split
  · split
    · exact State.wf_fillFrame (State.wf_mapFrame (State.wf_mapEngine (State.wf_mapGroup (State.wf_movePlaces
          (State.wf_leaveQueues (State.wf_withdrawAll (wf_ite (State.wf_discard (State.wf_unselect hs0))
              (State.wf_unselect hs0))))))))
    exact State.wf_mapFrame (State.wf_mapEngine (State.wf_mapGroup (State.wf_movePlaces (State.wf_leaveQueues
        (State.wf_withdrawAll (wf_ite (State.wf_discard (State.wf_unselect hs0)) (State.wf_unselect hs0)))))))
  exact State.wf_mapEngine (State.wf_mapGroup (State.wf_movePlaces (State.wf_leaveQueues (State.wf_withdrawAll (wf_ite
      (State.wf_discard (State.wf_unselect hs0)) (State.wf_unselect hs0))))))

theorem wf_execPreemptStop {gid} (h : Memory.wf s.mem) : OutWf (execPreemptStop gid s) := by
  dsimp only [execPreemptStop]
  refine .next ?_
  split
  · exact wf_ite (State.wf_saveGroup h) h
  exact h

theorem wf_execRgrowDeadlockPreempt {chip core} (h : Memory.wf s.mem) : OutWf (execRgrowDeadlockPreempt chip core s) :=
    by
  dsimp only [execRgrowDeadlockPreempt]
  refine .next (wf_ite h ?_)
  split
  · exact h
  split
  · exact wf_ite (State.wf_saveGroup (State.wf_mapGroup h)) (State.wf_mapGroup h)
  exact State.wf_mapGroup h

theorem State.wf_movePlanes {gid old new wo wn} (h : Memory.wf s.mem) : Memory.wf (s.movePlanes gid old new wo wn).mem :=
  State.wf_mapEngine (State.wf_mapEngine h)

theorem State.wf_putBack {g core seat} (h : Memory.wf s.mem) : Memory.wf (s.putBack g core seat).mem := by
  dsimp only [State.putBack]
  split
  · refine State.wf_emptyFrame (State.wf_mapEngine (State.wf_movePlanes ?_))
    dsimp only
    exact State.wf_stage (State.wf_eccCopy (State.wf_putImage (State.wf_putImage (State.wf_movePlaces h) _ _ _) _ _ _))
  refine State.wf_mapEngine (State.wf_movePlanes ?_)
  dsimp only
  exact State.wf_stage (State.wf_eccCopy (State.wf_putImage (State.wf_putImage (State.wf_movePlaces h) _ _ _) _ _ _))

theorem wf_execGroupResume {gid core} (h : Memory.wf s.mem) : OutWf (execGroupResume gid core s) := by
  dsimp only [execGroupResume]
  refine .next ?_
  split
  · exact h
  split
  · exact h
  split
  · exact h
  rename_i e2
  split
  · exact State.wf_putBack (State.wf_takeSlice (State.wf_unselect h) _ e2)
  exact h

/-! ### Control -/

theorem State.wf_branch {r disp taken} (h : Memory.wf s.mem) : Memory.wf (s.branch r disp taken).mem :=
  State.wf_setExit h

theorem State.wf_leap {r f} (h : Memory.wf s.mem) : Memory.wf (s.leap r f).mem := State.wf_setExit h
theorem State.wf_badHead {e} (h : Memory.wf s.mem) : Memory.wf (s.badHead e).mem := wf_takeTrapBefore h

theorem State.wf_trapLost {l m stand park} (h : Memory.wf s.mem) : Memory.wf (s.trapLost l m stand park).mem := by
  dsimp only [State.trapLost]
  split
  · exact h
  exact wf_ite (wf_takeTrapAfter (State.wf_takeOps h)) (State.wf_setW (wf_takeTrapAfter (State.wf_takeOps h)))

theorem State.wf_headLost {e} (h : Memory.wf s.mem) : OptWf (s.headLost e) :=
  .ite .none (.ite (.some h) (.some (State.wf_trapLost (State.wf_setW h))))

theorem State.wf_pruneAll (h : Memory.wf s.mem) : Memory.wf s.pruneAll.mem := h
theorem State.wf_enterRegion {pc} (h : Memory.wf s.mem) : Memory.wf (s.enterRegion pc).mem := h

theorem State.wf_enterClause {e len fa fb wait trailer} (h : Memory.wf s.mem) :
    Memory.wf (s.enterClause e len fa fb wait trailer).mem :=
  State.wf_setW (wf_foldl (fun _ ht _ => wf_ite (State.wf_meetPlace ht) ht) (wf_ite (State.wf_enterRegion h) h))

theorem State.wf_startClause {e len fb fa wait} (h : Memory.wf s.mem) : Memory.wf (s.startClause e len fb fa wait).mem := by
  dsimp only [State.startClause]
  split
  · exact State.wf_badHead h
  split
  · exact State.wf_badHead h
  split
  · exact wf_takeTrapBefore h
  exact wf_ite h (State.wf_enterClause h)

theorem wf_execClauseHeader {len fb fa wait} (h : Memory.wf s.mem) : OutWf (execClauseHeader len fb fa wait s) := by
  dsimp only [execClauseHeader]
  split
  · exact .next (wf_takeTrap h)
  split
  · exact .next h
  split
  · exact .next h
  split
  · rename_i e4
    exact .next (State.wf_headLost h _ e4)
  exact .next (State.wf_startClause h)

theorem State.wf_publish {r f d} (h : Memory.wf s.mem) : Memory.wf (s.publish r f d).mem := by
  dsimp only [State.publish]
  split
  · refine State.wf_mapEngine ?_
    dsimp only
    exact wf_foldl (fun t ht _ => State.wf_pass ht) h
  dsimp only
  exact wf_foldl (fun t ht _ => State.wf_pass ht) h

theorem State.wf_stopAt {r sp} (h : Memory.wf s.mem) : Memory.wf (s.stopAt r sp).mem := wf_ite (State.wf_setW h) h

theorem State.wf_enterWait {k pc m} (h : Memory.wf s.mem) : Memory.wf (s.enterWait k pc m).mem :=
  wf_ite h (State.wf_putMasks (State.wf_setW h))

theorem State.wf_leaveClause {r} (h : Memory.wf s.mem) : OptWf (s.leaveClause r) := by
  dsimp only [State.leaveClause]
  split
  · exact .some (State.wf_setW (State.wf_spend (State.wf_setW h)))
  · exact .some (State.wf_setW (State.wf_spend (State.wf_setW h)))
  · exact State.wf_retireSel (State.wf_spend (State.wf_setW h))
  · exact .some (State.wf_enterWait (State.wf_setW (State.wf_spend (State.wf_setW h))))
  · exact .some (State.wf_setW (State.wf_spend (State.wf_setW h)))
  · exact .some (State.wf_setW (State.wf_spend (State.wf_setW h)))
  exact .some (State.wf_setW (State.wf_spend (State.wf_setW h)))

theorem wf_execClauseTrailer {sp fl d3 d2 d1} (h : Memory.wf s.mem) : OutWf (execClauseTrailer sp fl d3 d2 d1 s) := by
  dsimp only [execClauseTrailer]
  split
  · split
    · exact .next h
    exact .next (wf_ite h (State.wf_badHead h))
  split
  · exact .next (wf_takeTrap h)
  split
  · exact .next (wf_takeTrap h)
  refine .next (OptWf.getD (State.wf_leaveClause (State.wf_stopAt ?_)) h)
  dsimp only
  exact wf_foldl (fun t ht p => State.wf_publish ht) h

theorem State.wf_noteBack (h : Memory.wf s.mem) : Memory.wf s.noteBack.mem := h

theorem State.wf_parkedTrap {k e} (h : Memory.wf s.mem) : Memory.wf (s.parkedTrap k e).mem :=
  wf_ite h (State.wf_trapLost (State.wf_setW h))

theorem State.wf_unpark {k e} (h : Memory.wf s.mem) : Memory.wf (s.unpark k e).mem := by
  dsimp only [State.unpark]
  split
  · exact State.wf_enterWait (State.wf_setW h)
  · exact State.wf_setW (State.wf_setW h)
  exact State.wf_setW (State.wf_setW h)

theorem State.wf_parkedReturn {k} (h : Memory.wf s.mem) : Memory.wf (s.parkedReturn k).mem := by
  dsimp only [State.parkedReturn]
  split
  · exact h
  exact wf_ite (State.wf_parkedTrap h) (wf_ite (State.wf_unpark h) h)

theorem State.wf_splitLate (h : Memory.wf s.mem) : Memory.wf s.splitLate.mem := by
  dsimp only [State.splitLate]
  split
  · exact h
  exact wf_ite h (State.wf_setW h)

theorem wf_execSleepExpiry {gid wid k} (h : Memory.wf s.mem) : OutWf (execSleepExpiry gid wid k s) := by
  dsimp only [execSleepExpiry]
  refine .next ?_
  split
  · exact State.wf_mapWarp h
  exact h

/-! ### Launch -/

theorem State.wf_vaWrite {p v a n x} (h : Memory.wf s.mem) : Memory.wf (s.vaWrite p v a n x).mem := by
  dsimp only [State.vaWrite]
  split
  · exact wf_ite h (State.wf_wrs h _)
  exact h

theorem State.wf_putStatus {p v addr code st} (h : Memory.wf s.mem) : Memory.wf (s.putStatus p v addr code st).mem :=
  State.wf_vaWrite h

theorem State.wf_finish {p v addr done notify code st} (h : Memory.wf s.mem) :
    Memory.wf (s.finish p v addr done notify code st).mem :=
  wf_ite (State.wf_mapVf (wf_ite (State.wf_putStatus h) (State.wf_vaWrite (State.wf_putStatus h)))) (wf_ite
      (State.wf_putStatus h) (State.wf_vaWrite (State.wf_putStatus h)))

theorem State.wf_ringError {p v q} (h : Memory.wf s.mem) : Memory.wf (s.ringError p v q).mem :=
  State.wf_mapVf (State.wf_vaWrite (State.wf_vaWrite h))

theorem State.wf_fetch {p v q} (h : Memory.wf s.mem) : FetchWf (s.fetch p v q) := by
  dsimp only [State.fetch]
  split
  · split
    · exact trivial
    split
    · exact trivial
    split
    · exact State.wf_ringError h
    split
    · exact trivial
    exact State.wf_vaWrite h
  · exact trivial

theorem State.wf_fetchRecord {p v q mine} {k : State → Partition → Vf → Fetched → State} (h : Memory.wf s.mem)
    (hk : ∀ t, Memory.wf t.mem → ∀ a f y, Memory.wf (k t a f y).mem) :
    OutWf (s.fetchRecord p v q mine k) := by
  dsimp only [State.fetchRecord]
  refine .next ?_
  split
  · split
    · exact h
    split
    · exact h
    split
    · exact h
    · rename_i e
      exact (State.wf_fetch h).of_bad e
    · rename_i e
      split
      · exact h
      split
      · exact hk _ ((State.wf_fetch h).of_got e) _ _ _
      · exact State.wf_finish ((State.wf_fetch h).of_got e)
  · exact h

theorem State.wf_setTail {p v q x} (h : Memory.wf s.mem) : Memory.wf (s.setTail p v q x).mem := State.wf_mapVf h
theorem State.wf_holdHost {i} (h : Memory.wf s.mem) : Memory.wf (s.holdHost i).mem := h

theorem State.wf_gainWork {old : State} {chip p v proc} (h : Memory.wf s.mem) :
    Memory.wf (s.gainWork old chip p v proc).mem :=
  wf_ite h (State.wf_mapVf h)

theorem State.wf_startGrid {q a f y} (h : Memory.wf s.mem) : Memory.wf (s.startGrid q a f y).mem := by
  dsimp only [State.startGrid]
  split
  · exact h
  split
  · exact State.wf_finish h
  refine wf_foldl (fun t ht _ => State.wf_gainWork ht) ?_
  dsimp only
  exact State.wf_putStatus h

theorem State.wf_openSlot {a f y} (h : Memory.wf s.mem) : Memory.wf (s.openSlot a f y).mem := by
  dsimp only [State.openSlot]
  split
  · exact h
  exact State.wf_finish (State.wf_mapVf h)

theorem State.wf_closeSlot {q a f y} (h : Memory.wf s.mem) : Memory.wf (s.closeSlot q a f y).mem := by
  dsimp only [State.closeSlot]
  refine State.wf_mapVf ?_
  dsimp only
  exact State.wf_putStatus h

theorem wf_execRecordComplete {rec} (h : Memory.wf s.mem) : OutWf (execRecordComplete rec s) := by
  dsimp only [execRecordComplete]
  refine .next ?_
  split
  · exact wf_ite (State.wf_finish h) h
  exact h

theorem State.wf_countDispatch {chip r} (h : Memory.wf s.mem) : Memory.wf (s.countDispatch chip r).mem :=
  State.wf_mapVf h

theorem State.wf_dispatchGroup {chip core r} (h : Memory.wf s.mem) : Memory.wf (s.dispatchGroup chip core r).mem := by
  dsimp only [State.dispatchGroup]
  split
  · dsimp only
    exact State.wf_reside (State.wf_countDispatch h)
  exact h

theorem wf_execGroupDispatch {chip part vf core} (h : Memory.wf s.mem) : OutWf (execGroupDispatch chip part vf core s)  := by
  dsimp only [execGroupDispatch]
  refine .next (wf_ite h ?_)
  split
  · exact h
  rename_i e
  split
  · exact h
  split
  · exact State.wf_dispatchGroup (State.wf_takeSlice h _ e)
  exact h

theorem State.wf_steal {r thief victim} (h : Memory.wf s.mem) : Memory.wf (s.steal r thief victim).mem :=
  State.wf_gainWork h

theorem wf_execStealRequest {rec thief victim} (h : Memory.wf s.mem) : OutWf (execStealRequest rec thief victim s) := by
  dsimp only [execStealRequest]
  refine .next ?_
  split
  · exact wf_ite (State.wf_steal h) h
  exact h

/-! ### Mailbox -/

theorem State.wf_answer {p v q st} (h : Memory.wf s.mem) : Memory.wf (s.answer p v q st).mem :=
  State.wf_mapVf (State.wf_vaWrite h)

theorem State.wf_serve {p v op} {k : Vf → MailReq → Mail → Option (Nat × (State → State))} (h : Memory.wf s.mem)
    (hk : ∀ f q m, ReplyWf (k f q m)) :
    OutWf (s.serve p v op k) := by
  dsimp only [State.serve]
  refine .next ?_
  split
  · exact h
  split
  · exact h
  split
  · exact h
  split
  · exact State.wf_answer h
  split
  · exact wf_ite (State.wf_answer h) h
  split
  · exact h
  · rename_i e
    exact hk _ _ _ _ e s h
  · rename_i e
    exact State.wf_answer (hk _ _ _ _ e s h)

theorem ReplyWf.refuse {n} : ReplyWf (refuse n) := .some fun _ h => h
theorem ReplyWf.waitFor {ls k} (hk : ReplyWf k) : ReplyWf (waitFor ls k) := .ite .refuse (.ite .none hk)
theorem State.wf_mapTable {p v f} (h : Memory.wf s.mem) : Memory.wf (s.mapTable p v f).mem := State.wf_mapVf h

theorem wf_execMap {part vf} (h : Memory.wf s.mem) : OutWf (execMap part vf s) := by
  refine State.wf_serve h fun f q m => .ite .refuse ?_
  split
  · exact .refuse
  · exact .ite .refuse (.ite .refuse (.some fun t ht => State.wf_mapTable (State.wf_rekey ht _ _)))

theorem State.wf_shootPages {p v ls gone} (h : Memory.wf s.mem) : Memory.wf (s.shootPages p v ls gone).mem := by
  dsimp only [State.shootPages]
  split
  · exact State.wf_shoot h
  dsimp only
  exact State.wf_shoot h

theorem wf_execUnmap {part vf} (h : Memory.wf s.mem) : OutWf (execUnmap part vf s) :=
  State.wf_serve h fun _ _ _ => .ite .refuse <| .ite .refuse <| .waitFor <|
    .some fun _ ht => State.wf_mapTable (State.wf_shootPages ht)

theorem wf_execProtect {part vf} (h : Memory.wf s.mem) : OutWf (execProtect part vf s) :=
  State.wf_serve h fun _ _ _ => .ite .refuse <| .ite .refuse <| .ite .refuse <| .waitFor <|
    .some fun _ ht => State.wf_mapTable (State.wf_rekey (State.wf_shootPages ht) _ _)

theorem State.wf_putTags {pa n tag} (h : Memory.wf s.mem) : Memory.wf (s.putTags pa n tag).mem := h

theorem wf_execSettag {part vf} (h : Memory.wf s.mem) : OutWf (execSettag part vf s) :=
  State.wf_serve h fun _ _ _ => .ite .refuse <| .ite .refuse <| .waitFor <|
    .some fun _ ht => wf_foldl (fun _ hu _ => State.wf_putTags hu) ht

theorem wf_execMove {part vf} (h : Memory.wf s.mem) : OutWf (execMove part vf s) := by
  refine State.wf_serve h fun f q m => .ite .refuse <| .ite .refuse <| .waitFor ?_
  split
  · exact .refuse
  · exact .some fun t ht => State.wf_mapTable ht

theorem State.wf_mapLeaf {p v a f} (h : Memory.wf s.mem) : Memory.wf (s.mapLeaf p v a f).mem := State.wf_mapTable h

theorem State.wf_endMove {p v req} (h : Memory.wf s.mem) : Memory.wf (s.endMove p v req).mem := by
  dsimp only [State.endMove]
  split
  · exact h
  split
  · exact wf_ite h (State.wf_answer h)
  exact h

theorem State.wf_sendDeferred {p v l} (h : Memory.wf s.mem) : Memory.wf (s.sendDeferred p v l).mem := h

theorem State.wf_migrate {p v l d} (h : Memory.wf s.mem) : Memory.wf (s.migrate p v l d).mem :=
  wf_ite (State.wf_mapLeaf h) (wf_ite (State.wf_mapLeaf (State.wf_copyPage (State.wf_shootPages h) _ _ _)) (wf_ite h
      (State.wf_endMove (State.wf_sendDeferred (State.wf_mapLeaf h)))))

theorem wf_execPageMigration {part vf va tier} (h : Memory.wf s.mem) : OutWf (execPageMigration part vf va tier s) := by
  dsimp only [execPageMigration]
  refine .next ?_
  split
  · exact h
  split
  · exact State.wf_migrate h
  split
  · exact h
  split
  · exact State.wf_migrate (State.wf_mapLeaf h)
  exact h

theorem wf_execRegq {part vf} (h : Memory.wf s.mem) : OutWf (execRegq part vf s) := by
  refine State.wf_serve h fun f q m => .ite .none ?_
  split
  · exact .refuse
  · exact .ite .refuse (.some fun t ht => State.wf_mapVf ht)

theorem State.wf_mapRecord {slot va} (h : Memory.wf s.mem) : Memory.wf (s.mapRecord slot va).mem := by
  dsimp only [State.mapRecord]
  split
  · exact h
  exact wf_ite h (State.wf_mapTable h)

/-! ### Meter -/

theorem State.wf_mapLog {p f} (h : Memory.wf s.mem) : Memory.wf (s.mapLog p f).mem := h

theorem State.wf_takeRing {p} (h : Memory.wf s.mem) : Memory.wf (s.takeRing p).mem := by
  dsimp only [State.takeRing]
  split
  · exact h
  exact wf_ite (State.wf_mapLog (State.wf_mapPart h)) (State.wf_mapPart h)

theorem State.wf_flushOne {p} (h : Memory.wf s.mem) : Memory.wf (s.flushOne p).mem := by
  dsimp only [State.flushOne]
  split
  · exact State.wf_mapPart (State.wf_mapLog (State.wf_wrs h _))
  exact h

theorem State.wf_flushRing {p} (h : Memory.wf s.mem) : Memory.wf (s.flushRing p).mem :=
  wf_foldl (fun _ ht _ => State.wf_flushOne ht) h

theorem State.wf_closeRecord {p u} (h : Memory.wf s.mem) : Memory.wf (s.closeRecord p u).mem :=
  State.wf_flushRing (State.wf_mapLog h)

theorem State.wf_setRing {p r} (h : Memory.wf s.mem) : Memory.wf (s.setRing p r).mem :=
  State.wf_flushRing (State.wf_mapPart h)

theorem State.wf_ringRead {p n} (h : Memory.wf s.mem) : Memory.wf (s.ringRead p n).mem :=
  State.wf_flushRing (State.wf_mapPart h)

theorem wf_execUsageIntervalEnd {part vf} (h : Memory.wf s.mem) : OutWf (execUsageIntervalEnd part vf s) := by
  dsimp only [execUsageIntervalEnd]
  refine .next ?_
  split
  · exact wf_ite (State.wf_mapVf (State.wf_closeRecord h)) h
  exact h

theorem State.wf_mapVfs {f} (h : Memory.wf s.mem) : Memory.wf (s.mapVfs f).mem := h

theorem wf_execKvholdSample (h : Memory.wf s.mem) : OutWf (execKvholdSample s) := by
  dsimp only [execKvholdSample]
  refine .next (wf_ite ?_ h)
  dsimp only
  exact State.wf_mapVfs h

/-! ### Operator -/

theorem State.wf_physWrite {a n x} (h : Memory.wf s.mem) : Memory.wf (s.physWrite a n x).mem :=
  wf_ite (State.wf_wrN h _ _ _) h

theorem State.wf_answerOp {q st} (h : Memory.wf s.mem) : Memory.wf (s.answerOp q st).mem := State.wf_physWrite h

theorem State.wf_serveOp {op kind} {k : MailReq → List Byte → Option (Nat × (State → State))} (h : Memory.wf s.mem)
    (hk : ∀ q bs, ReplyWf (k q bs)) :
    OutWf (s.serveOp op kind k) := by
  dsimp only [State.serveOp]
  refine .next ?_
  split
  · exact h
  split
  · exact h
  split
  · exact State.wf_answerOp h
  split
  · exact wf_ite (State.wf_answerOp h) h
  split
  · exact h
  · rename_i e
    exact hk _ _ _ e s h
  · rename_i e
    exact State.wf_answerOp (hk _ _ _ e s h)

theorem State.wf_endGroups {p} (h : Memory.wf s.mem) : Memory.wf (s.endGroups p).mem :=
  wf_foldl (fun _ ht _ => State.wf_dropGroup (State.wf_clearGroup ht)) h

theorem State.wf_closeVfs {p} (h : Memory.wf s.mem) : Memory.wf (s.closeVfs p).mem := by
  dsimp only [State.closeVfs]
  split
  · exact wf_foldl (fun t ht _ => State.wf_closeRecord ht) h
  exact h

theorem State.wf_endPart {p} (h : Memory.wf s.mem) : Memory.wf (s.endPart p).mem :=
  State.wf_endGroups (State.wf_closeVfs (State.wf_takeRing h))

theorem State.wf_buildPart {p bs} (h : Memory.wf s.mem) : Memory.wf (s.buildPart p bs).2.mem := by
  dsimp only [State.buildPart]
  split
  · exact h
  split
  · exact h
  split
  · split
    · exact h
    refine wf_foldl (fun t ht _ => State.wf_mapEngine ht) ?_
    dsimp only
    exact State.wf_endPart h
  exact h

theorem State.wf_store {op p v bs} (h : Memory.wf s.mem) : Memory.wf (s.store op p v bs).mem := h

theorem wf_execPset (h : Memory.wf s.mem) : OutWf (execPset s) := by
  refine State.wf_serveOp h fun q bs => ?_
  dsimp only
  split
  · exact .refuse
  · exact .ite .refuse (.ite .none (.some fun _ _ => State.wf_store (State.wf_buildPart h)))

theorem State.wf_growKv {p v kvq chips} (h : Memory.wf s.mem) : Memory.wf (s.growKv p v kvq chips).mem := by
  dsimp only [State.growKv]
  refine wf_foldl (fun t ht _ => wf_foldl (fun t1 ht1 _ => ?_) ht) h
  split
  · exact ht1
  exact State.wf_mapVf ht1

theorem State.wf_keepRates {p f chips} (h : Memory.wf s.mem) : Memory.wf (s.keepRates p f chips).mem :=
  wf_foldl (fun _ ht _ => State.wf_mapUse ht) h

theorem State.wf_buildVf {p v bs} (h : Memory.wf s.mem) : Memory.wf (s.buildVf p v bs).2.mem := by
  dsimp only [State.buildVf]
  split
  · exact h
  split
  · exact h
  split
  · refine State.wf_growKv ?_
    dsimp only
    refine State.wf_mapPart ?_
    split
    · exact State.wf_keepRates h
    exact h
  exact h

theorem wf_execVset (h : Memory.wf s.mem) : OutWf (execVset s) := by
  refine State.wf_serveOp h fun q bs => ?_
  dsimp only
  split
  · exact .refuse
  · exact .ite (.some fun _ _ => State.wf_store (State.wf_buildVf h)) .refuse

theorem State.wf_scramble {k} (h : Memory.wf s.mem) : Memory.wf (s.scramble k).mem :=
  wf_foldl (fun _ ht _ => State.wf_noteView ht _ _) (State.wf_garble h _)

theorem State.wf_clearKeys {t} (h : Memory.wf s.mem) : Memory.wf (s.clearKeys t).mem :=
  wf_foldl (fun _ ht1 _ => State.wf_scramble ht1) h

theorem State.wf_dropPart {q} (h : Memory.wf s.mem) : Memory.wf (s.dropPart q).mem :=
  Memory.wf_filter (wf_foldl (fun _ ht _ => State.wf_freeHub ht) h) _

theorem wf_execPdel (h : Memory.wf s.mem) : OutWf (execPdel s) := by
  refine State.wf_serveOp h fun q bs => ?_
  dsimp only
  split
  · exact .refuse
  · exact .ite .none (.some fun t ht => State.wf_dropPart (State.wf_clearKeys
      (State.wf_closeVfs (State.wf_endGroups (State.wf_takeRing ht)))))

theorem wf_execEnroll (h : Memory.wf s.mem) : OutWf (execEnroll s) := by
  refine State.wf_serveOp h fun q bs => ?_
  dsimp only
  split
  · exact .refuse
  · exact .ite .refuse (.some fun t ht => State.wf_store (State.wf_mapLog ht))

theorem State.wf_putKey {k} (h : Memory.wf s.mem) : Memory.wf (s.putKey k).mem := by
  refine wf_foldl (fun t ht f => State.wf_rekeyBlock ht _ _) (State.wf_rekey ?_ _ _)
  exact h

theorem State.wf_bumpGen {n} (h : Memory.wf s.mem) : Memory.wf (s.bumpGen n).mem := h

theorem wf_execKload (h : Memory.wf s.mem) : OutWf (execKload s) := by
  refine State.wf_serveOp h fun q bs => .ite .refuse (.ite .refuse ?_)
  split
  · exact .refuse
  · exact .some fun t ht => State.wf_bumpGen (State.wf_putKey ht)

theorem wf_execKclr (h : Memory.wf s.mem) : OutWf (execKclr s) :=
  State.wf_serveOp h fun _ _ => .ite .refuse <| .ite .refuse <| .some fun _ ht => State.wf_clearKeys ht

theorem wf_execLsign (h : Memory.wf s.mem) : OutWf (execLsign s) :=
  State.wf_serveOp h fun _ _ => .ite .refuse <| .ite .none <| .some fun _ ht => State.wf_closeRecord ht

theorem State.wf_freeHubs {p v t} (h : Memory.wf s.mem) : Memory.wf (s.freeHubs p v t).mem :=
  wf_foldl (fun _ ht1 _ => State.wf_freeHub ht1) h

theorem wf_execHfree (h : Memory.wf s.mem) : OutWf (execHfree s) :=
  State.wf_serveOp h fun _ _ => .ite .refuse <| .some fun _ ht => State.wf_freeHubs ht

theorem State.wf_withMd {m : Module} (h : Memory.wf s.mem) : Memory.wf ({ s with md := m } : State).mem := h

/-! ### Firmware -/

theorem State.wf_extend0 {d} (h : Memory.wf s.mem) : Memory.wf (s.extend0 d).mem := State.wf_withMd h

theorem State.wf_bootFirm {l : List Nat} (h : Memory.wf s.mem) : Memory.wf (State.bootFirm l s).mem := by
  induction l generalizing s with
  | nil => exact h
  | cons k ks ih =>
    dsimp only [State.bootFirm]
    split
    · exact h
    · exact ih (State.wf_extend0 (State.wf_withMd h))

theorem State.wf_train (h : Memory.wf s.mem) : Memory.wf s.train.mem := h
theorem State.wf_portsDone (h : Memory.wf s.mem) : Memory.wf s.portsDone.mem := h

theorem State.wf_bootConfig (h : Memory.wf s.mem) : Memory.wf s.bootConfig.mem := by
  dsimp only [State.bootConfig]
  refine wf_foldl (fun t ht _ => ?_) h
  split
  · exact State.wf_buildPart ht
  · exact State.wf_buildVf ht
  exact State.wf_mapLog ht

theorem State.wf_startSystem {q k} (h : Memory.wf s.mem) : Memory.wf (s.startSystem q k).mem := by
  dsimp only [State.startSystem]
  split
  · exact h
  exact State.wf_mapGroup (State.wf_reside (State.wf_spend h))

theorem State.wf_bootSystem {q} (h : Memory.wf s.mem) : Memory.wf (s.bootSystem q).mem := by
  dsimp only [State.bootSystem]
  split
  · dsimp only
    exact State.wf_mapPart h
  split
  · exact State.wf_startSystem (State.wf_mapPart (State.wf_mapLog h))
  exact State.wf_mapPart (State.wf_mapLog h)

theorem State.wf_trained (h : Memory.wf s.mem) : Memory.wf s.trained.mem := by
  dsimp only [State.trained]
  split
  · exact wf_foldl (fun t ht _ => State.wf_bootSystem ht) (State.wf_bootConfig (State.wf_portsDone h))
  exact h

theorem wf_execPowerOn (h : Memory.wf s.mem) : OutWf (execPowerOn s) := by
  dsimp only [execPowerOn]
  refine .next ?_
  split
  · split
    · exact State.wf_train (State.wf_bootFirm h)
    exact State.wf_bootFirm h
  exact h

theorem State.wf_powerDown : Memory.wf s.powerDown.mem := State.wf_reset
theorem State.wf_mapRepl {f} (h : Memory.wf s.mem) : Memory.wf (s.mapRepl f).mem := h

theorem State.wf_logAll {e} (h : Memory.wf s.mem) : Memory.wf (s.logAll e).mem :=
  wf_foldl (fun _ ht _ => State.wf_mapLog ht) h

theorem wf_execReplctlGo {kind} (h : Memory.wf s.mem) : OutWf (execReplctlGo kind s) :=
  .next (wf_ite (State.wf_mapRepl h) (wf_ite (State.wf_mapRepl h) (State.wf_mapRepl h)))

theorem State.wf_verified (h : Memory.wf s.mem) : Memory.wf s.verified.mem := by
  dsimp only [State.verified]
  split
  · exact h
  split <;> exact State.wf_mapRepl h

theorem State.wf_handOver {old} (h : Memory.wf s.mem) : Memory.wf (s.handOver old).mem :=
  State.wf_mapRepl (State.wf_wrs h _)

theorem State.wf_releaseHeld (h : Memory.wf s.mem) : Memory.wf s.releaseHeld.mem := State.wf_mapRepl h

theorem State.wf_fallBack {old code missed} (h : Memory.wf s.mem) : Memory.wf (s.fallBack old code missed).mem :=
  State.wf_releaseHeld (State.wf_mapRepl (State.wf_logAll (State.wf_extend0 h)))

theorem wf_execQuiesceComplete (h : Memory.wf s.mem) : OutWf (execQuiesceComplete s) := by
  dsimp only [execQuiesceComplete]
  refine .next ?_
  split
  · exact wf_ite h (wf_ite (State.wf_handOver h) (wf_ite (State.wf_mapRepl (State.wf_logAll (State.wf_extend0 h)))
        (State.wf_fallBack h)))
  exact h

theorem State.wf_commit {new old} (h : Memory.wf s.mem) : Memory.wf (s.commit new old).mem :=
  State.wf_releaseHeld (State.wf_mapRepl (State.wf_logAll h))

theorem State.wf_endInterval (h : Memory.wf s.mem) : Memory.wf s.endInterval.mem := by
  dsimp only [State.endInterval]
  split
  · exact h
  split
  · split
    · exact wf_ite (State.wf_mapRepl h) (State.wf_fallBack h)
    exact h
  split
  · exact State.wf_mapRepl h
  dsimp only
  exact State.wf_mapRepl h

theorem State.wf_endIntervals {n : Nat} (h : Memory.wf s.mem) : Memory.wf (State.endIntervals n s).mem := by
  induction n generalizing s with
  | zero => exact h
  | succ n ih =>
    unfold State.endIntervals
    exact ih (State.wf_endInterval h)

theorem State.wf_inTime (h : Memory.wf s.mem) : Memory.wf s.inTime.mem := State.wf_endIntervals h

theorem State.wf_beat {value} (h : Memory.wf s.mem) : Memory.wf (s.beat value).mem := by
  dsimp only [State.beat]
  split
  · exact h
  split
  · exact wf_ite (State.wf_commit (State.wf_mapRepl h)) (State.wf_mapRepl h)
  exact State.wf_mapRepl h

theorem wf_execImageFault (h : Memory.wf s.mem) : OutWf (execImageFault s) := by
  dsimp only [execImageFault]
  refine .next ?_
  split
  · exact wf_ite (State.wf_fallBack (State.wf_inTime h)) (State.wf_inTime h)
  exact State.wf_inTime h

/-! ### Links -/

theorem State.wf_leaveGroup {plan work} (h : Memory.wf s.mem) : Memory.wf (s.leaveGroup plan work).mem :=
  State.wf_rename h _

theorem State.wf_joinGroup {number gen mods links} (h : Memory.wf s.mem) :
    Memory.wf (s.joinGroup number gen mods links).mem :=
  State.wf_rename h _

theorem State.wf_admitModule {serial module} (h : Memory.wf s.mem) : Memory.wf (s.admitModule serial module).mem :=
  State.wf_rename h _

theorem wf_execCset (h : Memory.wf s.mem) : OutWf (execCset s) := by
  refine State.wf_serveOp h fun q bs => ?_
  dsimp only
  split
  · exact .refuse
  split
  · exact .refuse
  · exact .ite .refuse <| .ite .none <| .ite .refuse <| .ite .none <|
      .ite (.some fun t ht => State.wf_joinGroup (State.wf_leaveGroup ht)) (.some fun t ht => State.wf_leaveGroup ht)

theorem State.wf_endCset {w st} (h : Memory.wf s.mem) : Memory.wf (s.endCset w st).mem := by
  dsimp only [State.endCset]
  split
  · exact State.wf_answerOp h
  exact h

theorem State.wf_meetCset {x} (h : Memory.wf s.mem) : Memory.wf (s.meetCset x).mem :=
  wf_ite (State.wf_endCset (State.wf_leaveGroup h)) (wf_ite (State.wf_joinGroup (State.wf_endCset h)) h)

theorem State.wf_hearPlan {p} (h : Memory.wf s.mem) : Memory.wf (s.hearPlan p).mem := by
  dsimp only [State.hearPlan]
  split
  · exact wf_ite (State.wf_meetCset h) h
  exact h

theorem wf_execGenExchange {serial module gen} (h : Memory.wf s.mem) : OutWf (execGenExchange serial module gen s) := by
  dsimp only [execGenExchange]
  refine .next (wf_ite h ?_)
  split
  · exact wf_ite h (State.wf_meetCset h)
  exact wf_ite (State.wf_admitModule h) h

theorem wf_execCsetTimeout (h : Memory.wf s.mem) : OutWf (execCsetTimeout s) := by
  dsimp only [execCsetTimeout]
  refine .next ?_
  split
  · exact wf_ite (State.wf_endCset h) h
  exact h

theorem State.wf_mapPort {no f} (h : Memory.wf s.mem) : Memory.wf (s.mapPort no f).mem := h

theorem wf_execFecWindow {port wave bits} (h : Memory.wf s.mem) : OutWf (execFecWindow port wave bits s) := by
  dsimp only [execFecWindow]
  refine .next ?_
  split
  · exact wf_ite (State.wf_mapPort h) h
  exact h

theorem wf_execRetrainDone {port} (h : Memory.wf s.mem) : OutWf (execRetrainDone port s) := by
  dsimp only [execRetrainDone]
  refine .next ?_
  split
  · split
    · exact wf_ite (State.wf_mapPort h) h
    exact h
  exact h

theorem wf_execRetrainTimeout {port} (h : Memory.wf s.mem) : OutWf (execRetrainTimeout port s) := by
  dsimp only [execRetrainTimeout]
  refine .next ?_
  split
  · split
    · split
      · split
        · dsimp only
          exact State.wf_mapPort h
        exact State.wf_mapPort h
      exact h
    exact h
  exact h

theorem wf_execQuadrantRetire {clu quad} (h : Memory.wf s.mem) : OutWf (execQuadrantRetire clu quad s) := by
  dsimp only [execQuadrantRetire]
  refine .next (wf_ite h ?_)
  dsimp only
  exact State.wf_mapEngine h

theorem State.wf_shortOf {c} (h : Memory.wf s.mem) : Memory.wf (s.shortOf c).mem := wf_ite h h

theorem State.wf_evacuate {p f} (h : Memory.wf s.mem) : Memory.wf (s.evacuate p f).mem := by
  dsimp only [State.evacuate]
  refine wf_foldl (fun t ht _ => wf_ite ht ?_) h
  split
  · exact ht
  split
  · exact State.wf_mapLeaf ht
  exact State.wf_shortOf ht

theorem State.wf_moveKv {p v u d} (h : Memory.wf s.mem) : Memory.wf (s.moveKv p v u d).mem := by
  dsimp only [State.moveKv]
  refine State.wf_mapVf ?_
  dsimp only
  exact State.wf_copyPage h _ _ _

theorem State.wf_evacuateKv {p f} (h : Memory.wf s.mem) : Memory.wf (s.evacuateKv p f).mem := by
  unfold State.evacuateKv
  refine foldl_keeps State.Inv _ (fun t u ht => ?_) _ h
  split
  · exact ht
  split
  · exact State.wf_moveKv ht
  · exact State.wf_shortOf ht

theorem State.wf_writeVfReg {p v off x} (h : Memory.wf s.mem) : Memory.wf (s.writeVfReg p v off x).mem :=
  wf_ite (State.wf_setTail h) (wf_ite (State.wf_mapVf h) (wf_ite (State.wf_mapVf (State.wf_fresh h)) (wf_ite
      (State.wf_mapVf h) h)))

theorem State.wf_writePfReg {off x} (h : Memory.wf s.mem) : Memory.wf (s.writePfReg off x).mem := by
  dsimp only [State.writePfReg]
  split
  · exact State.wf_mapRepl h
  split
  · exact h
  split
  · dsimp only
    exact State.wf_fresh h
  exact wf_ite h h

theorem State.wf_hostReg {part vf off value} (h : Memory.wf s.mem) : OutWf (s.hostReg part vf off value) := by
  dsimp only [State.hostReg]
  split
  · exact .next (State.wf_writeVfReg h)
  split
  · exact wf_execReplctlGo h
  exact .next (State.wf_writePfReg h)

theorem wf_execRegisterWrite {part vf off value} (h : Memory.wf s.mem) : OutWf (execRegisterWrite part vf off value s)  := by
  dsimp only [execRegisterWrite]
  split
  · exact .next (State.wf_holdHost h)
  exact State.wf_hostReg h

theorem State.wf_hostBytes {part vf va bytes} (h : Memory.wf s.mem) : Memory.wf (s.hostBytes part vf va bytes).mem := by
  dsimp only [State.hostBytes]
  split
  · exact wf_ite h (State.wf_wrs h _)
  exact h

theorem State.wf_hostGoes (h : Memory.wf s.mem) : OutWf s.hostGoes := by
  dsimp only [State.hostGoes]
  split
  · split
    · exact .next (wf_ite h (State.wf_hostBytes h))
    · exact State.wf_hostReg h
    · exact .next (State.wf_setTail h)
    exact .next h
  exact .next h

/-! ### Agenda -/

theorem State.wf_tick (h : Memory.wf s.mem) : Memory.wf s.tick.mem :=
  State.wf_syncViews (State.wf_endIdle (State.wf_pruneAll (State.wf_noteBack h)))

theorem State.wf_meterIssue (h : Memory.wf s.mem) : Memory.wf s.meterIssue.mem := wf_ite h (State.wf_mapVf h)

theorem State.wf_ready? {gid wid} (h : Memory.wf s.mem) : OptWf (s.ready? gid wid) :=
  .ite (.ite .none (.some (State.wf_setW (State.wf_select h)))) .none

theorem State.wf_tearResult {t : State} {x ws} (ht : Memory.wf t.mem) : Memory.wf (s.tearResult t x ws).mem := by
  dsimp only [State.tearResult]
  split
  · split
    · exact ht
    dsimp only
    exact State.wf_mapWarp ht
  exact ht

theorem State.wf_landByte {id b} (h : Memory.wf s.mem) : Memory.wf (s.landByte id b).mem := by
  dsimp only [State.landByte]
  split
  · exact h
  split
  · exact h
  dsimp only
  exact State.wf_mapWarp h

theorem State.wf_landAll {id} (h : Memory.wf s.mem) : Memory.wf (s.landAll id).mem := by
  dsimp only [State.landAll]
  split
  · exact h
  dsimp only
  exact State.wf_mapWarp h

theorem State.wf_checkFails {gid wid checker} (h : Memory.wf s.mem) : Memory.wf (s.checkFails gid wid checker).mem := by
  dsimp only [State.checkFails]
  split
  · exact h
  rename_i e
  split
  · exact wf_ite h (wf_takeTrap (State.wf_ready? h _ e))
  exact h

theorem State.wf_badReg {gid wid o} (h : Memory.wf s.mem) : Memory.wf (s.badReg gid wid o).mem := by
  dsimp only [State.badReg]
  split
  · exact h
  rename_i e
  split
  · split
    · exact wf_ite (wf_takeTrap (State.wf_ready? h _ e)) h
    exact h
  exact h

theorem State.wf_strike {no cond} (h : Memory.wf s.mem) : Memory.wf (s.strike no cond).mem :=
  wf_ite h (wf_ite h (wf_ite h h))

theorem State.wf_silentError {k b} (h : Memory.wf s.mem) : Memory.wf (s.silentError k b).mem :=
  wf_ite (State.wf_wrs h _) h

theorem State.wf_silentUnit {cmd unit at_ b} (h : Memory.wf s.mem) : Memory.wf (s.silentUnit cmd unit at_ b).mem := by
  dsimp only [State.silentUnit]
  split
  · exact wf_ite (State.wf_wrs (State.wf_landUnit h) _) h
  exact h

theorem State.wf_loadImage {m bytes} (h : Memory.wf s.mem) : Memory.wf (s.loadImage m bytes).mem := by
  dsimp only [State.loadImage]
  split
  · exact h
  dsimp only
  exact State.wf_wrs h _

theorem State.wf_stageImage {m} (h : Memory.wf s.mem) : Memory.wf (s.stageImage m).mem := h
theorem State.wf_setLost {chip ok} (h : Memory.wf s.mem) : Memory.wf (s.setLost chip ok).mem := h

/-! ### Lanes -/

theorem wf_shuffle {i d a f} (h : Memory.wf s.mem) : OutWf (shuffle i s d a f) :=
  wf_issue h (fun _ => .ok (State.wf_setW h))

theorem wf_execLidx {d f} (h : Memory.wf s.mem) : OutWf (execLidx d f s) := by
  dsimp only [execLidx]
  split
  · exact wf_laneOp64 h
  exact wf_laneOp h

/-! ### Masks -/

theorem wf_maskOp {i k f} (h : Memory.wf s.mem) : OutWf (maskOp i s k f) :=
  wf_issue h (fun _ => .ok (State.wf_putMasks h))

/-! ### Dispatch -/

theorem wf_exec {i} (h : Memory.wf s.mem) : OutWf (exec i s) := by
  delta exec
  cases i with
  | mov16 | iabs | mov | popc | clz | ctz | brev | iaddi | andi | ori | xori | shli | shri | sari | cmpi | imuli =>
    exact wf_unOp h
  | nop16 | nop => exact wf_issue h (fun _ => .ok h)
  | iadd16 | isub16 | imul16 | and16 | or16 | xor16 | shl16 | shr16 | sar16 | iminI3216 | imaxI3216 | iadd | isub |
    imul | imulhI32 | imulhN32 | lea | bfe | and | or | xor | andn | shl | shr | sar | rol | cmpEqI32 | cmpNeI32 |
    cmpLtI32 | cmpLeI32 | cmpGtI32 | cmpGeI32 | cmpEqN32 | cmpNeN32 | cmpLtN32 | cmpLeN32 | cmpGtN32 | cmpGeN32 |
    iminI32 | imaxI32 | iminN32 | imaxN32 | iaddPacked | isubPacked | iminPacked | imaxPacked | shlPacked |
    shrPacked | sarPacked | idivI32 | idivN32 | iremI32 | iremN32 => exact wf_binOp h
  | fadd16 | fsub16 | fmul16 | fmax16 | fadd | fsub | fmul | fcmpEq | fcmpNe | fcmpLt | fcmpLe | fcmpGt | fcmpGe |
    fcmpUn | fmin | fmax | hadd2 | hmul2 | badd2 | bmul2 => exact wf_fpBin h
  | imad | bfi | selMask | sel | idot4 | idot2 | cmp64Eq | cmp64Ne | cmp64LtI64 | cmp64LtN64 | cmp64LeI64 |
    cmp64LeN64 | lget | movsFromScalar | movl | movh => exact wf_laneOp h
  | iadd64 | isub64 | shl64 | shr64 | imulwI32 | imulwN32 => exact wf_laneOp64 h
  | ffma | hfma2 | bfma2 => exact wf_fpTer h
  | fabs | fneg | frndRn | frndRz | frndRp | frndRm | ffrac | fsin | fcos | ftanh => exact wf_fpUn h
  | dadd | dmul | dfma => exact wf_fpOp64 h
  | cvt | lred | lscan | movsToScalar => exact wf_issue h (fun _ => .ok (State.wf_setW h))
  | cvtPk | srd => exact wf_issue h (fun _ => .ite (.ok (State.wf_setW h)) (.ok (State.wf_setW h)))
  | cvtBlkPack | cvtBlkpPack => exact wf_packBlocks h
  | cvtBlkUnpack | cvtBlkpUnpack => exact wf_unpackBlocks h
  | frcp | frsq | fsqrt | fexp2 | flog2 => exact wf_spUn h
  | lshfUp | lshfDn | lshfXor | lshfIdx | lshfUpW | lshfDnW | lshfXorW => exact wf_shuffle h
  | lbcast | lvoteAny | lvoteAll | mpop | mfirst | qlen => exact wf_issue h (fun r => .ok (State.wf_writeAll h))
  | lvoteBallot | mget | tself => exact wf_issue h (fun r => .ok (State.wf_writeAll64 h))
  | lidx => exact wf_execLidx h
  | join | mset | mand | mor | mxor | mnot => exact wf_maskOp h
  | leave => exact wf_issue h (fun _ => .ok (State.wf_putMasks h))
  | wait | yield => exact wf_issue h (fun x => .ok (State.wf_setExit h))
  | xsend => exact wf_execXsend h
  | xrecv => exact wf_execXrecv h
  | qpush => exact wf_issue h (fun _ => .ok (State.wf_maskBits (wf_pushLanes h)))
  | qpop => exact wf_issue h (fun _ => .ok (State.wf_maskBits (State.wf_setW (State.wf_putQueue h))))
  | qpopw =>
    exact wf_issue h (fun _ => .ite (.ok (State.wf_maskBits (State.wf_setW (State.wf_putQueue h)))) (wf_helpOn
        (State.wf_mapRun (State.wf_maskBits (State.wf_setW (State.wf_putQueue h)))) (.ok (State.wf_blockPop
            (State.wf_maskBits (State.wf_setW (State.wf_putQueue h))))) (.ok (State.wf_blockPop (State.wf_maskBits
                (State.wf_setW (State.wf_putQueue h)))))))
  | ld =>
    exact wf_issue h (fun r => .ite .trap (wf_checked (.ite (.ok (State.wf_push h)) (.ok (State.wf_pushPieces h)))))
  | st =>
    exact wf_issue h (fun r => wf_checked (.ite (State.wf_sendFab h (fun t ht => .ok (State.wf_pushStreams ht)))
        (.ok (State.wf_pushPieces h))))
  | stFabRel =>
    exact wf_issue h (fun _ => wf_checked (State.wf_sendFab h (fun t ht => .ok (wf_foldl
        (fun t1 ht1 _ => State.wf_pushRelease ht1) ht))))
  | atomAdd | atomMin | atomMax | atomAnd | atomOr | atomXor | atomXchg | atomCas | atomIncw | atomDecw | redAdd |
    redMin | redMax | redAnd | redOr | redXor | redIncw | redDecw => exact wf_atomicOp h
  | cpy => exact wf_execCpy h
  | cpx => exact wf_execCpx h
  | cpg => exact wf_execCpg h
  | cps => exact wf_execCps h
  | tagany | taganyMask => exact wf_tagAnyOp h
  | tagall | tagallMask => exact wf_tagAllOp h
  | tagclr | tagclrMask => exact wf_tagClrOp h
  | tagfirst => exact wf_issue h (fun _ => wf_examine h (.ok (State.wf_setW (wf_joinTags h))))
  | bcbInit | bcbInitAbandon | bcbExp | bcbArr => exact wf_barOp h
  | bcbWait =>
    exact wf_issue h (fun r => wf_checked (State.wf_ordered h (.ite (.ok (State.wf_setW (State.wf_observe h)))
        (.hold (State.wf_mapRun (State.wf_setW (State.wf_observe h)))))))
  | bcbTest => exact wf_issue h (fun r => wf_checked (State.wf_ordered h (.ok (State.wf_setW (State.wf_observe h)))))
  | sobindGrp | sobindClu | sobindChip | sobindSys => exact wf_bindOp h
  | sacq | sacqSh => exact wf_issue h (fun r => wf_acquire h (fun _ t ht => .ok ht))
  | stry => exact wf_issue h (fun r => wf_acquire h (fun _ t ht => .ok (State.wf_writeAll ht)))
  | srel => exact wf_execSrel h
  | fenceGrp | fenceClu | fenceChip => exact wf_fence h
  | fenceSys =>
    exact wf_issue h (fun r => .ite (.hold (wf_trapFence h)) (.ite (.hold h) (.ok (State.wf_showFenced
        (State.wf_takeFenced h)))))
  | hredOpen =>
    exact wf_issue h (fun r => .ite .trap (.ok (State.wf_setW (wf_eachLane (fun t ht _ => State.wf_hubOpen ht) h))))
  | hredPut => exact wf_issue h (fun r => .ite .trap (.ok (State.wf_setW (wf_putLanes h))))
  | hredWait => exact wf_execHredWait h
  | jmp | bz | bnz | bm => exact wf_issue h (fun r => .ok (State.wf_branch h))
  | call => exact wf_issue h (fun r => .ok (State.wf_branch (State.wf_setW h)))
  | jmpr | ret => exact wf_issue h (fun _ => .ok (State.wf_leap h))
  | endLanes => exact wf_issue h (fun r => .ite .trap (.ok (State.wf_setExit h)))
  | sleep => exact wf_issue h (fun _ => .ok (State.wf_setExit h))
  | trap | brk => exact wf_issue h (fun r => .ite .trap (.ok h))
  | rfe => exact wf_execRfe h
  | obres => exact wf_execObres h
  | obrec => exact wf_execObrec h
  | obrel => exact wf_execObrel h
  | mload => exact wf_execMload h
  | mswap => exact wf_issue h (fun _ => wf_inWindow (.ite (.hold h) (wf_swapChecks h (.ok (State.wf_setG h)))))
  | mswapAuto => exact wf_issue h (fun _ => wf_inWindow (wf_swapChecks h (.ok (State.wf_setG h))))
  | mstream => exact wf_execMstream h
  | mzero => exact wf_execMzero h
  | mdrain => exact wf_execMdrain h
  | mwait => exact wf_execMwait h
  | mpoll => exact wf_execMpoll h
  | accget => exact wf_execAccget h
  | accput => exact wf_execAccput h
  | mstat => exact wf_issue h (fun r => wf_inWindow (.ok (State.wf_writeAll h)))
  | tspawn =>
    exact wf_issue h (fun r => wf_withObj h (fun k => .ite .trap (.ok (State.wf_writeAll (State.wf_post
        (State.wf_meetSel (State.wf_releaseChip h)))))))
  | tfork => exact wf_execTfork h
  | tsync => exact wf_execTsync h
  | tpost =>
    exact wf_issue h (fun r => wf_withObj h (fun k => wf_inTask (.ite .trap (wf_orHold h (wf_counterArm
        (State.wf_meetSel h)) (fun t ht => .ok ht)))))
  | tdec =>
    exact wf_issue h (fun r => wf_withObj h (fun k => wf_inTask (wf_orHold h (State.wf_dec (State.wf_meetSel h))
        (fun t ht => .ok ht))))
  | tdone => exact wf_issue h (fun r => wf_inTask (.ite .trap (.ok (State.wf_setExit (State.wf_setG h)))))
  | fwait => exact wf_execFwait h
  | fset => exact wf_issue h (fun r => wf_withObj h (fun k => .ite .trap (.ok (State.wf_resolve (State.wf_meetSel h)))))
  | lkacq =>
    exact wf_issue h (fun r => wf_withObj h (fun k => wf_inTask (.ite (State.wf_takeLock h) (.ite
        (State.wf_takeLock h) (.ite (State.wf_takeLock h) (.ite (.ite .trap (.ok (State.wf_writeAll
            (State.wf_wrN h _ _ _)))) (.ite .trap (wf_helpOn h (State.wf_takeLock h) (wf_parkAt h)))))))))
  | lkrel => exact wf_execLkrel h
  | gwidth | grank => exact wf_seqRead h
  | gset => exact wf_issue h (fun r => wf_withSeq (fun q => .ok (State.wf_writeAll (State.wf_request h))))
  | gsetX =>
    exact wf_issue h (fun r => wf_withSeq (fun _ => wf_checked (State.wf_ordered h (.ok (State.wf_writeAll
        (State.wf_writeImage h))))))
  | gview => exact wf_issue h (fun r => wf_withSeq (fun _ => .ok (State.wf_writeAll64 h)))
  | gstep => exact wf_execGstep h
  | glate => exact wf_execGlate h
  | kvx => exact wf_issue h (fun _ => wf_withSeq (fun _ => .ok (State.wf_setW h)))
  | kvapp =>
    exact wf_issue h (fun r => wf_withSeq (fun _ => wf_inTurn h (fun t ht _ => .ite (.ok (State.wf_writeAll ht))
        (.ite .trap (State.wf_append ht)))))
  | kvfork => exact wf_execKvfork h
  | kvfree =>
    exact wf_issue h (fun r => wf_withSeq (fun _ => wf_inTurn h (fun t ht _ => .ite .trap (.ok (State.wf_writeAll
        (State.wf_truncate ht))))))
  | flpop => exact wf_execFlpop h
  | flpush => exact wf_execFlpush h
  | swr => exact wf_execSwr h
  | segld => exact wf_issue h (fun r => .ite .trap (.ite (.ok (State.wf_setW h)) .trap))
  | rgrow =>
    exact wf_issue h (fun r => .ite (.ok h) (.ite .trap (.ite (.ok (State.wf_gain h)) (.ok (State.wf_setW h)))))
  | rshrink => exact wf_issue h (fun r => .ite (.ok h) (.ite .trap (.ok (State.wf_capAt (State.wf_setW h)))))
  | clauseHeader => exact wf_execClauseHeader h
  | clauseTrailer => exact wf_execClauseTrailer h
  | rgrowGrant => exact wf_execRgrowGrant h
  | rgrowDeadlockPreempt => exact wf_execRgrowDeadlockPreempt h
  | parkedSubgroupReturn =>
    exact .next (wf_ite (State.wf_parkedReturn h) (State.wf_on h (fun t ht => wf_ite (State.wf_parkedReturn ht) ht)))
  | lateSplit =>
    exact .next (wf_ite (State.wf_splitLate h) (State.wf_on h (fun t ht => wf_ite (State.wf_splitLate ht) ht)))
  | sleepExpiry => exact wf_execSleepExpiry h
  | yieldTimeout => exact .next (State.wf_mapWarp h)
  | loadReply => exact wf_execLoadReply h
  | storePerformed => exact wf_execStorePerformed h
  | atomicAtHome => exact wf_execAtomicAtHome h
  | releasePerform => exact wf_execReleasePerform h
  | fabricUndeliverable => exact wf_execFabricUndeliverable h
  | fabricRequestTimeout => exact wf_execFabricRequestTimeout h
  | escapeDivert => exact wf_execEscapeDivert h
  | copyCommandComplete => exact wf_execCopyCommandComplete h
  | copyCommandFail => exact wf_execCopyCommandFail h
  | matrixGrant => exact wf_execMatrixGrant h
  | matrixCommandRetire => exact wf_execMatrixCommandRetire h
  | matrixCommandFail => exact wf_execMatrixCommandFail h
  | hredTimeout => exact .next (State.wf_hubTimeout h)
  | hredSlotExpire => exact .next (State.wf_hubExpire h)
  | taskDispatch => exact wf_execTaskDispatch h
  | gangWalk => exact .next (State.wf_walk h)
  | switchMsg | cutMsg =>
    exact .next (State.wf_inPhase h (fun _ m => wf_ite (State.wf_abandon h) (wf_ite (State.wf_putMember h) h)))
  | switchReply =>
    exact .next (State.wf_inPhase h (fun q _ => wf_ite h (wf_ite (State.wf_putSeq h) (State.wf_putSeq h))))
  | lapReport => exact .next (State.wf_inPhase h (fun q _ => wf_ite h (State.wf_closeMove (State.wf_putSeq h))))
  | switchTimeout => exact wf_execSwitchTimeout h
  | abortMsg => exact wf_execAbortMsg h
  | abortAcknowledgement => exact .next (State.wf_mapSeq h)
  | lapMessage => exact wf_execLapMessage h
  | lapDeadline => exact wf_execLapDeadline h
  | lateArrival => exact wf_execLateArrival h
  | glateTimeout => exact wf_execGlateTimeout h
  | trapDelivery => exact wf_execTrapDelivery h
  | vfSliceEnd => exact wf_execVfSliceEnd h
  | preemptStop => exact wf_execPreemptStop h
  | groupDispatch => exact wf_execGroupDispatch h
  | groupResume => exact wf_execGroupResume h
  | qtail => exact .next (wf_ite (State.wf_holdHost h) (State.wf_setTail h))
  | launchNone => exact State.wf_fetchRecord h (fun t ht _ _ _ => State.wf_finish ht)
  | grid => exact State.wf_fetchRecord h (fun t ht a f _ => State.wf_startGrid ht)
  | openSlot => exact State.wf_fetchRecord h (fun t ht a f _ => State.wf_openSlot ht)
  | closeSlot => exact State.wf_fetchRecord h (fun t ht a f _ => State.wf_closeSlot ht)
  | recordComplete => exact wf_execRecordComplete h
  | stealRequest => exact wf_execStealRequest h
  | map => exact wf_execMap h
  | unmap => exact wf_execUnmap h
  | protect => exact wf_execProtect h
  | settag => exact wf_execSettag h
  | move => exact wf_execMove h
  | regq => exact wf_execRegq h
  | pageMigration => exact wf_execPageMigration h
  | pset => exact wf_execPset h
  | vset => exact wf_execVset h
  | pdel => exact wf_execPdel h
  | enroll => exact wf_execEnroll h
  | kload => exact wf_execKload h
  | kclr => exact wf_execKclr h
  | lsign => exact wf_execLsign h
  | cset => exact wf_execCset h
  | csetTimeout => exact wf_execCsetTimeout h
  | hfree => exact wf_execHfree h
  | functionLevelReset => exact .next (State.wf_freeHubs h)
  | replctlGo => exact wf_execReplctlGo h
  | quiesceComplete => exact wf_execQuiesceComplete h
  | hbeat => exact .next (wf_ite (State.wf_inTime h) (State.wf_beat (State.wf_inTime h)))
  | heartbeatIntervalEnd => exact .next (State.wf_endInterval h)
  | imageFault => exact wf_execImageFault h
  | powerOn => exact wf_execPowerOn h
  | powerLoss | coolantCritical => exact .next (State.wf_powerDown)
  | powerInterval | quotaWindow => exact .next (wf_ite h h)
  | usageIntervalEnd => exact wf_execUsageIntervalEnd h
  | kvholdSample => exact wf_execKvholdSample h
  | hbmChannelRetire =>
    exact .next (wf_ite h (wf_ite (wf_ite h h) (wf_foldl (fun t ht _ => wf_foldl
        (fun t1 ht1 _ => State.wf_evacuateKv (State.wf_evacuate ht1)) ht) (wf_ite h h))))
  | quadrantRetire => exact wf_execQuadrantRetire h
  | fecWindow => exact wf_execFecWindow h
  | retrainDone => exact wf_execRetrainDone h
  | retrainTimeout => exact wf_execRetrainTimeout h
  | registerWrite => exact wf_execRegisterWrite h
  | genExchange => exact wf_execGenExchange h
  | crcRetry => exact .next (State.wf_spend (State.wf_mapPort h))
  | attestationQuote => exact .next h
  | hostWrite => exact .next (wf_ite (State.wf_holdHost h) (State.wf_hostBytes h))

theorem OutWf.andThen {f : State → State} {o : Host.Outcome State Fault Refusal} (ho : OutWf o)
    (hf : ∀ t, Memory.wf t.mem → Memory.wf (f t).mem) :
    OutWf (andThen f o) := by
  cases o with
  | next t => exact .next (hf t (ho t rfl))
  | fault r => exact .fault
  | refused r => exact .refused

/-! ### Step -/

theorem State.wf_noteHeld {gid wid b} (h : Memory.wf s.mem) : Memory.wf (s.noteHeld gid wid b).mem := by
  dsimp only [State.noteHeld]
  split
  · exact wf_ite (State.wf_setW h) h
  · exact h

theorem State.wf_tearIssued {i} {u : State} (hu : Memory.wf u.mem) : Memory.wf (s.tearIssued i u).mem := by
  dsimp only [State.tearIssued]
  split
  · exact wf_ite (State.wf_tearResult hu) hu
  · exact hu

/-! ### Agenda -/

theorem State.wf_fetchRun {r : Run} {u : State} (h : Memory.wf s.mem) (e : s.fetchRun r = .trap u) : Memory.wf u.mem := by
  unfold State.fetchRun at e
  split at e
  · split at e
    · cases e
    · cases e
      exact wf_takeTrap h
  · cases e
    exact wf_takeTrap h

theorem State.wf_fetchHead {u : State} (h : Memory.wf s.mem) (e : s.fetchHead = .trap u) : Memory.wf u.mem := by
  unfold State.fetchHead at e
  split at e
  · cases e
  split at e
  · cases e
  · cases e
  split at e
  · cases e
  · cases e
    exact State.wf_badHead h

theorem State.wf_fetchWord {u : State} (h : Memory.wf s.mem) (e : s.fetchWord = .trap u) : Memory.wf u.mem := by
  unfold State.fetchWord at e
  split at e
  · exact State.wf_fetchRun h e
  · exact State.wf_fetchHead h e

/-! ### Step -/

theorem wf_issueTurn {gid wid} (h : Memory.wf s.mem) : OutWf (issueTurn gid wid s) := by
  dsimp only [issueTurn]
  split
  · exact .next h
  · rename_i e
    have ht := State.wf_ready? h _ e
    split
    · exact .next ht
    · rename_i e
      exact .next (State.wf_fetchWord ht e)
    · exact (wf_exec (State.wf_meterIssue ht)).andThen fun t ht => State.wf_noteHeld ht

theorem wf_slowTurn {gid wid} (h : Memory.wf s.mem) : OutWf (slowTurn gid wid s) := by
  dsimp only [slowTurn]
  split
  · exact .next h
  · rename_i e
    split
    · exact (wf_issueTurn h).andThen fun u hu => State.wf_tearIssued hu
    · exact wf_issueTurn h

theorem wf_eventTurn {i} (h : Memory.wf s.mem) : OutWf (eventTurn i s) := by
  dsimp only [eventTurn]
  split
  · exact wf_exec h
  · exact .next h

theorem wf_tearTurn {i} (h : Memory.wf s.mem) : OutWf (tearTurn i s) := by
  dsimp only [tearTurn]
  split
  · exact .next h
  · exact (wf_eventTurn h).andThen fun t ht => State.wf_tearResult ht

theorem wf_takeTurn {t} (h : Memory.wf s.mem) : OutWf (takeTurn t s) := by
  cases t with
  | issue gid wid => exact wf_issueTurn h
  | slow gid wid => exact wf_slowTurn h
  | event i => exact wf_eventTurn h
  | copyUnit c u => exact .next (State.wf_landUnit h)
  | copySlice c u k => exact .next (State.wf_landSlice h)
  | copyRead c u => exact .next (State.wf_copyRead h)
  | stray k => exact .next (State.wf_strayLands h)
  | blocked h' b => exact .next (State.wf_setBlocked h)
  | atomicRead a => exact .next (State.wf_atomicRead h)
  | tear e => exact wf_tearTurn h
  | landBytes l b => exact .next (State.wf_landByte h)
  | landed l => exact .next (State.wf_landAll h)
  | bushel clu c u => exact .next (State.wf_earlyBushel h)
  | reload clu l u => exact .next (State.wf_reload h)
  | start gid => exact .next (State.wf_startTask h)
  | peer a => exact .next (State.wf_peerAct h)
  | forkEntry k e => exact .next (State.wf_writeEntry h)
  | mapRecord k a => exact .next (State.wf_mapRecord h)
  | badReg gid wid o => exact .next (State.wf_badReg h)
  | silent k b => exact .next (State.wf_silentError h)
  | silentUnit c u a b => exact .next (State.wf_silentUnit h)
  | pipeline gid wid c => exact .next (State.wf_checkFails h)
  | sector no c => exact .next (State.wf_strike h)
  | image m bytes => exact .next (State.wf_loadImage h)
  | stage m => exact .next (State.wf_stageImage h)
  | ring p r => exact .next (State.wf_setRing h)
  | ringRead p n => exact .next (State.wf_ringRead h)
  | reach c ok => exact .next (State.wf_setLost h)
  | endSys gid => exact .next (State.wf_endSystem h)
  | verified => exact .next (State.wf_verified h)
  | circuits p => exact .next (State.wf_hearPlan h)
  | host => exact State.wf_hostGoes h
  | trained => exact .next (State.wf_trained h)

theorem wf_takeTurnOff {t} (h : Memory.wf s.mem) : OutWf (takeTurnOff t s) := by
  dsimp only [takeTurnOff]
  split
  · exact wf_exec h
  · exact wf_exec h
  · split
    · exact wf_exec h
    · exact .next h
  · exact .next (State.wf_trained h)
  · exact .next (State.wf_stageImage h)
  · exact .next h

theorem State.wf_nextTurn (h : Memory.wf s.mem) : Memory.wf s.nextTurn.2.mem := by
  dsimp only [State.nextTurn]
  split <;> exact h

theorem wf_step (h : Memory.wf s.mem) : OutWf (step s) := by
  have hn := State.wf_nextTurn h
  dsimp only [step]
  split
  · rename_i e
    exact .next (State.wf_tick (wf_of_eq_snd hn e))
  · rename_i e
    have hu := wf_of_eq_snd hn e
    split
    · exact (wf_takeTurn hu).andThen fun t ht => State.wf_tick ht
    · exact (wf_takeTurnOff hu).andThen fun t ht => State.wf_tick ht

end

end Sys2Proof.Machine
end

section
open Sys2Proof Sys2Proof.Machine

/-- Settles O58: memory changes only by writes, by clearing, by moving cells and by renaming, and each of them keeps its
form. -/
theorem memoryInvariant : Obligations.MemoryInvariant := fun _ _ h e => wf_step h _ e

end

section
/-! SUPPORT. The pieces of one instruction (R43, R59): grouping its accesses, and putting the pieces on their way. -/

namespace Sys2Proof.Machine

/-! ### Grouping accesses -/

/-- Pieces: none is empty, each holds the accesses of one number, and no number is held by two. -/
structure Pieces (key : Acc → Nat) (ps : List (List Acc)) : Prop where
  nonempty : ∀ p ∈ ps, p ≠ []
  same : ∀ p ∈ ps, ∀ a ∈ p, ∀ b ∈ p, key a = key b
  apart : ps.Pairwise fun p q => ∀ a ∈ p, ∀ b ∈ q, key a ≠ key b

theorem addAcc_cons_hit {key : Acc → Nat} {a b : Acc} {p : List Acc} {ps : List (List Acc)} (h : key b = key a) :
    addAcc key a ((b :: p) :: ps) = (b :: p ++ [a]) :: ps := by
  simp [addAcc, h]

theorem addAcc_cons_miss {key : Acc → Nat} {a b : Acc} {p : List Acc} {ps : List (List Acc)} (h : key b ≠ key a) :
    addAcc key a ((b :: p) :: ps) = (b :: p) :: addAcc key a ps := by
  simp [addAcc, h]

theorem flatten_addAcc (key : Acc → Nat) (a : Acc) (ps : List (List Acc)) : (addAcc key a ps).flatten.Perm (a :: ps.flatten) := by
  induction ps with
  | nil => simp [addAcc]
  | cons p ps ih =>
    unfold addAcc
    split
    · simp [List.perm_middle]
    · simpa using (ih.append_left p).trans List.perm_middle

theorem mem_of_mem_addAcc {key : Acc → Nat} {a x : Acc} {ps : List (List Acc)} {q : List Acc} (hq : q ∈ addAcc key a ps)
    (hx : x ∈ q) : x = a ∨ ∃ p ∈ ps, x ∈ p := by
  have : x ∈ a :: ps.flatten := (flatten_addAcc key a ps).subset (List.mem_flatten.2 ⟨q, hq, hx⟩)
  simpa using this

theorem Pieces.addAcc {key : Acc → Nat} {ps : List (List Acc)} (h : Pieces key ps) (a : Acc) : Pieces key (addAcc key a ps) := by
  induction ps with
  | nil => exact ⟨by simp [Machine.addAcc], by simp [Machine.addAcc], by simp [Machine.addAcc]⟩
  | cons p ps ih =>
    obtain ⟨hne, hsame, hap⟩ := h
    obtain ⟨hp, hps⟩ := List.pairwise_cons.1 hap
    obtain ⟨b, p', rfl⟩ := List.exists_cons_of_ne_nil (hne p List.mem_cons_self)
    have hb : ∀ x ∈ b :: p', key x = key b := fun x hx => hsame _ List.mem_cons_self x hx b List.mem_cons_self
    by_cases hk : key b = key a
    · rw [addAcc_cons_hit hk]
      have ha : ∀ x ∈ b :: p' ++ [a], key x = key b := by
        intro x hx
        rcases List.mem_append.1 hx with hx | hx
        · exact hb x hx
        · rw [List.mem_singleton.1 hx, hk]
      refine ⟨?_, ?_, ?_⟩
      · exact List.forall_mem_cons.2 ⟨by simp, fun q hq => hne q (List.mem_cons_of_mem _ hq)⟩
      · exact List.forall_mem_cons.2 ⟨fun x hx y hy => (ha x hx).trans (ha y hy).symm,
          fun q hq => hsame q (List.mem_cons_of_mem _ hq)⟩
      · exact List.pairwise_cons.2 ⟨fun q hq x hx y hy => ha x hx ▸ hp q hq b List.mem_cons_self y hy, hps⟩
    · rw [addAcc_cons_miss hk]
      have ih := ih ⟨fun q hq => hne q (List.mem_cons_of_mem _ hq), fun q hq => hsame q (List.mem_cons_of_mem _ hq), hps⟩
      refine ⟨?_, ?_, ?_⟩
      · exact List.forall_mem_cons.2 ⟨by simp, ih.nonempty⟩
      · exact List.forall_mem_cons.2 ⟨hsame _ List.mem_cons_self, ih.same⟩
      · refine List.pairwise_cons.2 ⟨fun q hq x hx y hy => ?_, ih.apart⟩
        rcases mem_of_mem_addAcc hq hy with rfl | ⟨p, hpm, hy⟩
        · rw [hb x hx]
          exact hk
        · exact hp p hpm x hx y hy

/-- An access goes to a piece that stands, or behind the others in one of its own: the pieces' first accesses keep their order. -/
theorem heads_addAcc (key : Acc → Nat) (a : Acc) (ps : List (List Acc)) :
    ((addAcc key a ps).filterMap List.head?).Sublist (ps.filterMap List.head? ++ [a]) := by
  induction ps with
  | nil => simp [addAcc]
  | cons p ps ih =>
    cases p with
    | nil => simpa [addAcc, List.filterMap_cons] using ih
    | cons b p =>
      by_cases hk : key b = key a
      · rw [addAcc_cons_hit hk]
        simp
      · rw [addAcc_cons_miss hk]
        simpa using ih

theorem groupAccs_concat (key : Acc → Nat) (l : List Acc) (a : Acc) :
    groupAccs key (l ++ [a]) = addAcc key a (groupAccs key l) := by
  simp [groupAccs]

theorem groupAccs_pieces (key : Acc → Nat) (l : List Acc) : Pieces key (groupAccs key l) := by
  induction l using List.reverseRecOn with
  | nil => exact ⟨by simp [groupAccs], by simp [groupAccs], by simp [groupAccs]⟩
  | append_singleton l a ih => exact groupAccs_concat key l a ▸ ih.addAcc a

theorem flatten_groupAccs (key : Acc → Nat) (l : List Acc) : (groupAccs key l).flatten.Perm l := by
  induction l using List.reverseRecOn with
  | nil => simp [groupAccs]
  | append_singleton l a ih =>
    rw [groupAccs_concat]
    exact (flatten_addAcc key a _).trans ((ih.cons a).trans (List.perm_append_singleton a l).symm)

theorem heads_groupAccs (key : Acc → Nat) (l : List Acc) : ((groupAccs key l).filterMap List.head?).Sublist l := by
  induction l using List.reverseRecOn with
  | nil => simp [groupAccs]
  | append_singleton l a ih =>
    rw [groupAccs_concat]
    exact (heads_addAcc key a _).trans (ih.append_right [a])

theorem mem_groupAccs {key : Acc → Nat} {l : List Acc} {p : List Acc} {a : Acc} (hp : p ∈ groupAccs key l) (ha : a ∈ p) : a ∈ l :=
  (flatten_groupAccs key l).subset (List.mem_flatten.2 ⟨p, hp, ha⟩)

theorem exists_groupAccs {key : Acc → Nat} {l : List Acc} {a : Acc} (ha : a ∈ l) : ∃ p ∈ groupAccs key l, a ∈ p :=
  List.mem_flatten.1 ((flatten_groupAccs key l).symm.subset ha)

/-! ### Putting pieces on their way -/

/-- The operation that carries a piece, with its number. -/
def State.pieceOp (s : State) (r : Run) (kind : MKind) (n reg : Nat) (sp : Space) (fs : List Ref) (p : List Acc) (id : Nat) :
    MemOp :=
  { s.newOp r kind n reg (Acc.lanesOf p) (onlyLanes (fs.map fun f => (f.lane, f.off)) (Acc.lanesOf p)) p with
    id := id, fab := (s.fabOf sp fs p).map fun f => { f with born := id } }

theorem State.pushPieces_eq (s : State) (r : Run) (kind : MKind) (n reg : Nat) (sp : Space) (fs : List Ref)
    (ps : List (List Acc)) :
    s.pushPieces r kind n reg sp fs ps =
      { s with pend := s.pend ++ (ps.zipIdx s.nextId).map (fun q => s.pieceOp r kind n reg sp fs q.1 q.2)
               nextId := s.nextId + ps.length } := by
  induction ps generalizing s with
  | nil => simp [State.pushPieces]
  | cons p ps ih =>
    have h : s.pushPieces r kind n reg sp fs (p :: ps) =
        ({ s with pend := s.pend ++ [s.pieceOp r kind n reg sp fs p s.nextId], nextId := s.nextId + 1 } : State).pushPieces
          r kind n reg sp fs ps := rfl
    rw [h, ih]
    simp only [List.zipIdx_cons, List.map_cons, List.length_cons, List.append_assoc, List.singleton_append, Nat.add_assoc,
      Nat.add_comm 1]
    rfl

end Sys2Proof.Machine
end


section
/-! SUPPORT. What an instruction that puts operations on their way leaves (R43, R230), and when the checks of R37 find nothing. -/

namespace Sys2Proof.Machine

/-- The operations `new` of the run's instruction stand behind the outstanding ones, with new numbers; besides them only numbers,
meters, streams and look-aside buffers may differ. -/
structure Sent (s t : State) (r : Run) (new : List MemOp) : Prop where
  pend : t.pend = s.pend ++ new
  own : ∀ o ∈ new, o.gid = s.g.id ∧ o.wid = s.w.idx ∧ o.core = s.coreNo ∧ o.pc = r.pc ∧ o.flag = none ∧ o.failed = none
  fresh : ∀ o ∈ new, s.nextId ≤ o.id
  next : s.nextId ≤ t.nextId
  machine : t = { s with
    pend := t.pend, nextId := t.nextId, uses := t.uses, parts := t.parts, streams := t.streams, tlbs := t.tlbs
    walkers := t.walkers }

section
variable {s t u : State} {r : Run} {new more : List MemOp}

theorem Sent.w (h : Sent s t r new) : t.w = s.w := by rw [h.machine]
theorem Sent.mem (h : Sent s t r new) : t.mem = s.mem := by rw [h.machine]
theorem Sent.acc (h : Sent s t r new) : t.acc = s.acc := by rw [h.machine]; rfl
theorem Sent.fabOf (h : Sent s t r new) : t.fabOf = s.fabOf := by rw [h.machine]; rfl

theorem Sent.trans (h : Sent s t r new) (h' : Sent t u r more) : Sent s u r (new ++ more) where
  pend := by rw [h'.pend, h.pend, List.append_assoc]
  own o ho := by
    rcases List.mem_append.1 ho with ho | ho
    · exact h.own o ho
    · have := h'.own o ho
      rw [h.machine] at this
      exact this
  fresh o ho := by
    rcases List.mem_append.1 ho with ho | ho
    · exact h.fresh o ho
    · exact h.next.trans (h'.fresh o ho)
  next := h.next.trans h'.next
  machine := by rw [h'.machine, h.machine]

theorem advance_runsOn (n : Nat) (hr : s.w.run = some r) (hw : t.w = s.w) : RunsOn s (advance n t) r n := by
  rw [RunsOn, advance_of_run n (hw ▸ hr), State.setW_w, hw]

theorem Sent.runsOn (h : Sent s t r new) (n : Nat) (hr : s.w.run = some r) : RunsOn s (advance n t) r n :=
  advance_runsOn n hr h.w

theorem Sent.rd (h : Sent s t r new) (n a : Nat) : (advance n t).rd a = s.rd a := by
  simp only [State.rd, advance_mem, h.mem]

theorem Sent.issued (h : Sent s t r new) (n : Nat) (hr : s.w.run = some r) : Issued s (advance n t) r n new where
  pend := by rw [advance_pend, h.pend]
  own := h.own
  memory := h.rd n
  warp := by
    have := h.runsOn n hr
    rw [RunsOn] at this
    rw [this]
  run := ⟨r.faulted, by rw [h.runsOn n hr]; rfl⟩
  machine := by rw [advance_frame n t, h.machine]

end

theorem allAccs_eq (new : List MemOp) : allAccs new = (new.map MemOp.accs).flatten := rfl

theorem Pieces.onePerBlock {key : Acc → Nat} {new : List MemOp} (h : Pieces key (new.map MemOp.accs)) : OnePerBlock key new :=
  ⟨fun _ ho => h.same _ (List.mem_map_of_mem ho), List.pairwise_map.1 h.apart⟩

/-! ### The pieces of `pushPieces` -/

/-- The operations that carry some pieces, numbered from the state's next number on. -/
def State.pieceOps (s : State) (r : Run) (kind : MKind) (n reg : Nat) (sp : Space) (fs : List Ref) (ps : List (List Acc)) :
    List MemOp :=
  (ps.zipIdx s.nextId).map fun q => s.pieceOp r kind n reg sp fs q.1 q.2

section
variable {s : State} {r : Run} {kind : MKind} {n reg : Nat} {sp : Space} {fs : List Ref} {ps : List (List Acc)}

theorem map_accs_pieceOps : (s.pieceOps r kind n reg sp fs ps).map MemOp.accs = ps := by
  rw [State.pieceOps, List.map_map]
  exact List.zipIdx_map_fst s.nextId ps

theorem mem_pieceOps {o : MemOp} (ho : o ∈ s.pieceOps r kind n reg sp fs ps) :
    ∃ p ∈ ps, ∃ id, s.nextId ≤ id ∧ o = s.pieceOp r kind n reg sp fs p id := by
  obtain ⟨⟨p, id⟩, hq, rfl⟩ := List.mem_map.1 ho
  exact ⟨p, (List.fst_mem_of_mem_zipIdx hq), id, List.le_snd_of_mem_zipIdx hq, rfl⟩

theorem exists_pieceOps {p : List Acc} (hp : p ∈ ps) : ∃ o ∈ s.pieceOps r kind n reg sp fs ps, o.accs = p := by
  rw [← map_accs_pieceOps (s := s) (r := r) (kind := kind) (n := n) (reg := reg) (sp := sp) (fs := fs) (ps := ps)] at hp
  exact List.mem_map.1 hp

theorem sent_pushPieces : Sent s (s.pushPieces r kind n reg sp fs ps) r (s.pieceOps r kind n reg sp fs ps) := by
  rw [State.pushPieces_eq]
  refine ⟨rfl, fun o ho => ?_, fun o ho => ?_, Nat.le_add_right _ _, rfl⟩
  · obtain ⟨p, -, id, -, rfl⟩ := mem_pieceOps ho
    exact ⟨rfl, rfl, rfl, rfl, rfl, rfl⟩
  · obtain ⟨p, -, id, hid, rfl⟩ := mem_pieceOps ho
    exact hid

theorem sent_push {o : MemOp} (h : o.gid = s.g.id ∧ o.wid = s.w.idx ∧ o.core = s.coreNo ∧ o.pc = r.pc ∧ o.flag = none ∧ o.failed = none) :
    Sent s (s.push o) r [{ o with id := s.nextId }] :=
  ⟨rfl, fun _ ho => List.mem_singleton.1 ho ▸ h, fun _ ho => List.mem_singleton.1 ho ▸ Nat.le_refl _, Nat.le_succ _, rfl⟩

/-- R57: a piece whose lowest lane has a reference carries the fabric's fields where its space is `fab`. -/
theorem isSome_fabOf {a : Acc} {p : List Acc} {f : Ref} (hf : f ∈ fs) (hl : f.lane = a.lane) :
    (s.fabOf sp fs (a :: p)).isSome = Space.isFab sp := by
  unfold State.fabOf
  split
  · rename_i h
    have : (fs.find? fun f => f.lane == a.lane).isSome := List.find?_isSome.2 ⟨f, hf, by simp [hl]⟩
    simp [h, this]
  · rename_i h
    simpa using h

end

/-! ### The checks of R37 -/

/-- R37: an access passes the four checks. -/
def State.passes (s : State) (c : Chk) : Prop :=
  ¬ (c.sp = .con ∧ c.wr = true) ∧ c.off % c.al = 0 ∧ c.off + c.n ≤ segLimit (s.w.segOf c.sp)
  ∧ (c.sp = .fab → s.badTarget c.odd = false)

theorem r37_eq_none {s : State} {l : List Chk} (h : ∀ c ∈ l, s.passes c) : s.r37 l = none := by
  have hcon : (l.filter fun c => c.sp == .con && c.wr) = [] := by
    refine List.filter_eq_nil_iff.2 fun c hc => ?_
    have := (h c hc).1
    simpa using this
  have hmis : (l.filter fun c => c.off % c.al != 0) = [] := by
    refine List.filter_eq_nil_iff.2 fun c hc => ?_
    simpa using (h c hc).2.1
  have hlim : (l.filter fun c => segLimit (s.w.segOf c.sp) < c.off + c.n) = [] := by
    refine List.filter_eq_nil_iff.2 fun c hc => ?_
    simpa using (h c hc).2.2.1
  have hfar : (l.filter fun c => c.sp == .fab && s.badTarget c.odd) = [] := by
    refine List.filter_eq_nil_iff.2 fun c hc => ?_
    simpa using (h c hc).2.2.2
  simp only [State.r37, hcon, hmis, hlim, hfar]
  rfl

theorem checked_none {c : Option (Nat × Dword × Word)} {k : Act} (h : c = none) : checked c k = k := by rw [h]; rfl

end Sys2Proof.Machine
end

section
/-! SUPPORT. Loads (R230). -/

namespace Sys2Proof.Machine

section
variable {s : State} {r : Run} {d base : Opd} {off : Fin 32} {z : MSize} {sp : Space} {p : State → Prop}

/-- The accesses of some lanes at an instruction's operands. -/
def State.laneAccs (s : State) (sp : Space) (base : Opd) (off n : Nat) (ls : List Nat) : List Acc :=
  ls.map fun l => s.acc sp n (s.w.ref (Space.isFab sp) base off l) []

theorem goes_ld_lanes (hi : Issues (.ld d base off z sp) s r) (hd : d.kind ≠ 2)
    (hc : s.r37 ((lanesOf r.lanes).map fun l => (s.w.ref (Space.isFab sp) base (off.val * z.bytes) l).chk sp z.bytes false) = none)
    (hp : p (advance 4 (s.pushPieces r (.load (z == .b8s || z == .b16s) false) z.bytes d.toNat sp
      ((lanesOf r.lanes).map (s.w.ref (Space.isFab sp) base (off.val * z.bytes)))
      (groupAccs Acc.block (s.laneAccs sp base (off.val * z.bytes) z.bytes (lanesOf r.lanes)))))) :
    Goes (exec (.ld d base off z sp) s) p := by
  have hu : (d.kind == 2) = false := by simpa using hd
  refine issue_goes hi ?_ hp
  simp only [hu, Bool.false_and, Bool.false_eq_true, if_false, List.map_map]
  exact checked_none hc

theorem goes_ld_run (hi : Issues (.ld d base off z sp) s r) (hd : d.kind = 2) (hb : base.uniform = true) (hsp : sp ≠ .priv)
    (hc : s.r37 [(s.w.ref (Space.isFab sp) base (off.val * z.bytes) (lowLane r.lanes)).chk sp z.bytes false] = none)
    (hp : let f := s.w.ref (Space.isFab sp) base (off.val * z.bytes) (lowLane r.lanes)
      let a := { s.acc sp z.bytes f [] with seen := [s.party r.lanes] }
      p (advance 4 (s.push { s.newOp r (.load (z == .b8s || z == .b16s) true) z.bytes d.toNat r.lanes [(f.lane, f.off)] [a] with
        fab := s.fabOf sp [f] [a] }))) :
    Goes (exec (.ld d base off z sp) s) p := by
  have hu : (d.kind == 2) = true := by simpa using hd
  have hn : (sp == .priv) = false := by simpa using hsp
  refine issue_goes hi ?_ hp
  simp only [hu, hb, hn, Bool.true_and, Bool.not_true, Bool.or_self, Bool.false_eq_true, if_false, if_true]
  exact checked_none hc

end

end Sys2Proof.Machine
end

section
open Sys2Proof Sys2Proof.Machine

/-- Settles O15: a load's pieces are its accesses, grouped by block. -/
theorem loadIssue : Obligations.LoadIssue := by
  intro s r d base off z sp i ref signed hi
  have hsigned : (z == .b8s || z == .b16s) = signed := by simp [signed, Bool.decide_or, beq_eq_decide]
  refine ⟨fun hd hc => goes_ld_lanes hi hd hc ?_, fun hd hb hsp hc => goes_ld_run hi hd hb hsp hc ?_⟩
  · rw [hsigned]
    have hps := groupAccs_pieces Acc.block (s.laneAccs sp base (off.val * z.bytes) z.bytes (lanesOf r.lanes))
    refine ⟨_, sent_pushPieces.issued 4 hi.1, ?_, ?_, fun o ho => ?_⟩
    · exact Pieces.onePerBlock (map_accs_pieceOps.symm ▸ hps)
    · rw [allAccs_eq, map_accs_pieceOps]
      exact flatten_groupAccs _ _
    · obtain ⟨p, hp, id, -, rfl⟩ := mem_pieceOps ho
      obtain ⟨a, p, rfl⟩ := List.exists_cons_of_ne_nil (hps.nonempty p hp)
      obtain ⟨l, hl, rfl⟩ := List.mem_map.1 (mem_groupAccs hp List.mem_cons_self)
      refine ⟨rfl, rfl, rfl, rfl, ?_⟩
      rw [State.pieceOp, Option.isSome_map]
      exact isSome_fabOf (List.mem_map_of_mem hl) rfl
  · rw [hsigned]
    intro f a
    refine ⟨_, (sent_push ⟨rfl, rfl, rfl, rfl, rfl, rfl⟩).issued 4 hi.1, rfl, rfl, rfl, rfl, ?_, rfl⟩
    exact isSome_fabOf (List.mem_singleton.2 rfl) rfl
end

section
/-! SUPPORT. Stores and releases (R44, R57, R59, R60, R232). -/

namespace Sys2Proof.Machine

@[simp] theorem bytesAt_length (s : State) (sp : Space) (off n lane odd : Nat) : (s.bytesAt sp off n lane odd).length = n := by
  simp [State.bytesAt]

@[simp] theorem storeBytes_length (w : Warp) (d : Opd) (z : MSize) (l : Nat) : (w.storeBytes d z l).length = z.bytes := by
  cases z <;> simp [Warp.storeBytes, MSize.bytes, leBytes_length]

theorem lanesOf_pairwise (m : LaneMask) : (lanesOf m).Pairwise (· < ·) := List.pairwise_lt_range.filter _

/-- A lane of a piece is a lane of the operation that carries it. -/
theorem has_lanesOf_piece {p : List Acc} {a : Acc} (ha : a ∈ p) (hl : a.lane < 64) : has (Acc.lanesOf p) a.lane = true := by
  rw [Acc.lanesOf, has_maskOf _ hl, decide_eq_true (List.mem_map_of_mem ha)]

/-! ### What a lane shows of its bytes (R44) -/

@[simp] theorem shown_lane (all : List Acc) (a : Acc) : (Acc.shown all a).lane = a.lane := rfl

theorem mem_shown_bytes {all : List Acc} {a : Acc} (hlen : a.bytes.length = a.data.length) {k : Nat} :
    k ∈ (Acc.shown all a).bytes ↔ k ∈ a.bytes ∧ ∀ b ∈ all, a.lane < b.lane → k ∉ b.bytes := by
  have hz : a.bytes = (a.bytes.zip a.data).map Prod.fst := (List.map_fst_zip (Nat.le_of_eq hlen)).symm
  simp only [Acc.shown, List.mem_map, List.mem_filter]
  constructor
  · rintro ⟨q, ⟨hq, hall⟩, rfl⟩
    refine ⟨by rw [hz]; exact List.mem_map_of_mem hq, fun b hb hlt hk => ?_⟩
    simp only [Bool.not_eq_eq_eq_not, Bool.not_true, List.any_eq_false, Bool.and_eq_true, decide_eq_true_eq, not_and] at hall
    exact hall b hb hlt (by simpa using hk)
  · rintro ⟨hk, hall⟩
    rw [hz] at hk
    obtain ⟨q, hq, rfl⟩ := List.mem_map.1 hk
    refine ⟨q, ⟨hq, ?_⟩, rfl⟩
    simp only [Bool.not_eq_eq_eq_not, Bool.not_true, List.any_eq_false, Bool.and_eq_true, decide_eq_true_eq, not_and]
    intro b hb hlt hk
    exact hall b hb hlt (by simpa using hk)

/-! ### The port (R59, R60) -/

section
variable {s : State} {r : Run}

theorem mapStream_frame (s : State) (a b no : Nat) (f : Stream → Stream) :
    s.mapStream a b no f = { s with streams := (s.mapStream a b no f).streams } := by
  unfold State.mapStream
  split <;> rfl

theorem Sent.quiet {t : State} (h : t = { s with uses := t.uses, parts := t.parts, streams := t.streams }) : Sent s t r [] := by
  rw [h]
  exact ⟨by simp, by simp, by simp, Nat.le_refl _, rfl⟩

theorem sent_mapStream (a b no : Nat) (f : Stream → Stream) : Sent s (s.mapStream a b no f) r [] :=
  .quiet (by rw [mapStream_frame])

/-- The operation is a release that the port sends of its own: it carries no bytes. -/
def MemOp.ofPort (o : MemOp) : Prop := o.fab.isSome = true ∧ o.kind = .release ∧ o.accs = []

theorem sent_acceptPiece (f : Fab) : ∃ rel, Sent s (s.acceptPiece r f) r rel ∧ ∀ o ∈ rel, o.ofPort := by
  have h1 := sent_mapStream (s := s) (r := r) f.src f.dst f.stream fun x => { x with sent := x.sent + 1 }
  unfold State.acceptPiece
  dsimp only
  split
  · refine ⟨_, h1.trans ((sent_push ⟨rfl, rfl, rfl, rfl, rfl, rfl⟩).trans (sent_mapStream _ _ _ _)), fun o ho => ?_⟩
    simp only [List.append_nil, List.nil_append, List.mem_singleton] at ho
    subst ho
    exact ⟨rfl, rfl, rfl⟩
  · exact ⟨_, h1, by simp⟩

/-- R390: where FABQ leaves room, a lane access is metered and goes on. -/
theorem sendFab_room {n : Nat} {k : State → Act} (h : s.fabRoom s.g.chip s.g.part s.g.vf n = true) :
    ∃ u, Sent s u r [] ∧ s.sendFab n k = k u := by
  unfold State.sendFab
  split
  · exact ⟨s, .quiet rfl, rfl⟩
  · exact ⟨s.meterFab s.g.chip s.g.part s.g.vf n, .quiet rfl, rfl⟩

end

/-! ### Stores to the fabric -/

/-- The operation carries a piece of a store to the fabric. -/
def MemOp.ofStore (o : MemOp) : Prop :=
  o.fab.isSome = true ∧ o.kind = .store ∧ o.accs ≠ [] ∧ o.lanes = Acc.lanesOf o.accs

/-- The operations of a store to the fabric: one for each piece, in the pieces' order, and releases of the port's own between. -/
structure StreamOps (new : List MemOp) (ps : List (List Acc)) : Prop where
  accs : (new.map MemOp.accs).filter (· ≠ []) = ps
  kinds : ∀ o ∈ new, o.ofStore ∨ o.ofPort

theorem StreamOps.append {a b : List MemOp} {p q : List (List Acc)} (h : StreamOps a p) (h' : StreamOps b q) :
    StreamOps (a ++ b) (p ++ q) where
  accs := by rw [List.map_append, List.filter_append, h.accs, h'.accs]
  kinds o ho := (List.mem_append.1 ho).elim (h.kinds o) (h'.kinds o)

theorem StreamOps.ofPort {rel : List MemOp} (h : ∀ o ∈ rel, o.ofPort) : StreamOps rel [] where
  accs := by
    rw [List.filter_eq_nil_iff]
    intro a ha
    obtain ⟨o, ho, rfl⟩ := List.mem_map.1 ha
    simp [(h o ho).2.2]
  kinds o ho := .inr (h o ho)

theorem StreamOps.append_ofPort {a rel : List MemOp} {p : List (List Acc)} (h : StreamOps a p) (h' : ∀ o ∈ rel, o.ofPort) :
    StreamOps (a ++ rel) p := by
  simpa using h.append (.ofPort h')

/-- One piece of a store to the fabric goes on its way, and the port accepts it. -/
def State.pushStream (s : State) (r : Run) (n : Nat) (fs : List Ref) (accs p : List Acc) : State :=
  match s.fabOf .fab fs p with
  | none => s
  | some f => (s.pushPieces r .store n 127 .fab fs [p.map (Acc.shown accs)]).acceptPiece r f

theorem pushStreams_eq (s : State) (r : Run) (n : Nat) (fs : List Ref) (accs : List Acc) :
    s.pushStreams r n fs accs = (groupAccs (fun a => 16 * a.block + laneStream fs a.lane) accs).foldl
      (fun u p => u.pushStream r n fs accs p) s := rfl

section
variable {s : State} {r : Run} {n : Nat} {fs : List Ref} {accs : List Acc}

theorem sent_pushStream {a : Acc} {p : List Acc} (ha : ∃ x ∈ fs, x.lane = a.lane) :
    ∃ new, Sent s (s.pushStream r n fs accs (a :: p)) r new ∧ StreamOps new [(a :: p).map (Acc.shown accs)] := by
  obtain ⟨x, hx, hl⟩ := ha
  have hf (q : List Acc) (b : Acc) (hb : b.lane = a.lane) : (s.fabOf .fab fs (b :: q)).isSome = true :=
    isSome_fabOf hx (hl.trans hb.symm)
  obtain ⟨f, he⟩ := Option.isSome_iff_exists.1 (hf p a rfl)
  simp only [State.pushStream, he]
  obtain ⟨rel, hrel, hk⟩ := sent_acceptPiece (s := s.pushPieces r .store n 127 .fab fs [(a :: p).map (Acc.shown accs)]) (r := r) f
  refine ⟨_, sent_pushPieces.trans hrel, StreamOps.append_ofPort ⟨?_, fun o ho => .inl ?_⟩ hk⟩
  · rw [map_accs_pieceOps]
    simp
  · obtain ⟨q, hq, id, -, rfl⟩ := mem_pieceOps ho
    rw [List.mem_singleton] at hq
    subst hq
    refine ⟨?_, rfl, List.cons_ne_nil _ _, rfl⟩
    rw [State.pieceOp, Option.isSome_map]
    exact hf _ _ rfl

theorem sent_foldl_pushStream (gs : List (List Acc)) (h : ∀ p ∈ gs, p ≠ [] ∧ ∀ a ∈ p, ∃ x ∈ fs, x.lane = a.lane) :
    ∃ new, Sent s (gs.foldl (fun u p => u.pushStream r n fs accs p) s) r new
      ∧ StreamOps new (gs.map fun p => p.map (Acc.shown accs)) := by
  induction gs generalizing s with
  | nil => exact ⟨[], .quiet rfl, ⟨rfl, by simp⟩⟩
  | cons p gs ih =>
    obtain ⟨hne, hl⟩ := h p List.mem_cons_self
    obtain ⟨a, p, rfl⟩ := List.exists_cons_of_ne_nil hne
    obtain ⟨new, hs, ho⟩ := sent_pushStream (s := s) (r := r) (n := n) (accs := accs) (p := p) (hl a List.mem_cons_self)
    obtain ⟨more, hs', ho'⟩ := ih (s := s.pushStream r n fs accs (a :: p)) fun q hq => h q (List.mem_cons_of_mem _ hq)
    exact ⟨new ++ more, hs.trans hs', ho.append ho'⟩

/-- R43, R59: a store to the fabric puts one operation on its way for each block of each stream. -/
theorem sent_pushStreams (h : ∀ a ∈ accs, ∃ x ∈ fs, x.lane = a.lane) :
    ∃ new, Sent s (s.pushStreams r n fs accs) r new ∧ StreamOps new
      ((groupAccs (fun a => 16 * a.block + laneStream fs a.lane) accs).map fun p => p.map (Acc.shown accs)) := by
  rw [pushStreams_eq]
  refine sent_foldl_pushStream _ fun p hp => ⟨(groupAccs_pieces _ accs).nonempty p hp, fun a ha => h a (mem_groupAccs hp ha)⟩

end

/-! ### Releases (R60, R232) -/

section
variable {s : State} {r : Run} {n : Nat}

/-- The operation is the release of a lane. -/
def MemOp.ofRelease (o : MemOp) : Prop := o.fab.isSome = true ∧ o.kind = .release ∧ o.lanes = Acc.lanesOf o.accs

theorem sent_pushRelease (f : Ref) (data : List Byte) :
    ∃ o, Sent s (s.pushRelease r n f data) r [o] ∧ o.accs = [s.acc .fab n f data] ∧ o.ofRelease := by
  have hf : (s.fabOf .fab [f] [s.acc .fab n f data]).isSome = true := isSome_fabOf (List.mem_singleton.2 rfl) rfl
  obtain ⟨b, hb⟩ := Option.isSome_iff_exists.1 hf
  simp only [State.pushRelease, hb]
  exact ⟨_, (sent_push ⟨rfl, rfl, rfl, rfl, rfl, rfl⟩).trans (more := []) (sent_mapStream _ _ _ _), rfl, rfl, rfl,
    (BitVec.zero_or).symm⟩

theorem sent_releases (fs : List Ref) (data : Nat → List Byte) :
    ∃ new, Sent s (fs.foldl (fun t f => t.pushRelease r n f (data f.lane)) s) r new
      ∧ new.map MemOp.accs = fs.map (fun f => [s.acc .fab n f (data f.lane)]) ∧ ∀ o ∈ new, o.ofRelease := by
  induction fs generalizing s with
  | nil => exact ⟨[], .quiet rfl, rfl, by simp⟩
  | cons f fs ih =>
    obtain ⟨o, hs, ho, hk⟩ := sent_pushRelease (s := s) (r := r) (n := n) f (data f.lane)
    obtain ⟨new, hs', hnew, hks⟩ := ih (s := s.pushRelease r n f (data f.lane))
    rw [hs.acc] at hnew
    exact ⟨[o] ++ new, hs.trans hs', by simp [ho, hnew], List.forall_mem_cons.2 ⟨hk, hks⟩⟩

end

end Sys2Proof.Machine
end

section
/-! SUPPORT. What stores and releases put on their way when they complete (R37, R44, R60, R230, R232). -/

namespace Sys2Proof.Machine

section
variable {s : State} {r : Run} {d base : Opd} {off : Fin 32} {z : MSize} {sp : Space} {p : State → Prop}

/-- The reference of a lane of a load or a store. -/
def Warp.at_ (w : Warp) (sp : Space) (base : Opd) (off : Fin 32) (z : MSize) (l : Nat) : Ref :=
  w.ref (Space.isFab sp) base (off.val * z.bytes) l

/-- What a lane of a store accesses, with its bytes. -/
def State.storeAcc (s : State) (d base : Opd) (off : Fin 32) (z : MSize) (sp : Space) (l : Nat) : Acc :=
  s.acc sp z.bytes (s.w.at_ sp base off z l) (s.w.storeBytes d z l)

/-- The lanes of a store or a release pass the checks of R37. -/
def State.storePasses (s : State) (r : Run) (base : Opd) (off : Fin 32) (z : MSize) (sp : Space) : Prop :=
  s.r37 ((lanesOf r.lanes).map fun l => (s.w.at_ sp base off z l).chk sp z.bytes true) = none

@[simp] theorem storeAcc_lane (l : Nat) : (s.storeAcc d base off z sp l).lane = l := rfl

theorem storeAcc_length (l : Nat) : (s.storeAcc d base off z sp l).bytes.length = (s.storeAcc d base off z sp l).data.length := by
  simp [State.storeAcc, State.acc]

theorem map_storeAcc (ls : List Nat) :
    ((ls.map (s.w.at_ sp base off z)).map fun f => s.acc sp z.bytes f (s.w.storeBytes d z f.lane))
      = ls.map (s.storeAcc d base off z sp) :=
  List.map_map ..

/-- Where offsets are aligned, lie inside their segment and name chips of the connected group, R37 finds nothing. -/
theorem storePasses_of_fits (hcon : sp ≠ .con) (h : ∀ l, has r.lanes l = true →
      (s.w.at_ sp base off z l).off % z.bytes = 0 ∧ (s.w.at_ sp base off z l).off + z.bytes ≤ segLimit (s.w.segOf sp)
      ∧ (sp = .fab → s.badTarget (s.w.at_ sp base off z l).odd = false)) :
    s.storePasses r base off z sp := by
  refine r37_eq_none fun c hc => ?_
  obtain ⟨l, hl, rfl⟩ := List.mem_map.1 hc
  exact ⟨fun hh => hcon hh.1, h l (mem_lanesOf.1 hl)⟩

theorem goes_st (hi : Issues (.st d base off z sp) s r) (hsp : sp ≠ .fab) (hc : s.storePasses r base off z sp)
    (hp : p (advance 4 (s.pushPieces r .store z.bytes 127 sp ((lanesOf r.lanes).map (s.w.at_ sp base off z))
      (groupAccs Acc.block ((lanesOf r.lanes).map (s.storeAcc d base off z sp)))))) :
    Goes (exec (.st d base off z sp) s) p := by
  have hn : Space.isFab sp = false := by cases sp <;> simp_all [Space.isFab]
  refine issue_goes hi ?_ hp
  rw [← map_storeAcc]
  dsimp only
  rw [if_neg (by simp [hn]), List.map_map]
  exact checked_none hc

theorem goes_st_fab (hi : Issues (.st d base off z .fab) s r) (hc : s.storePasses r base off z .fab)
    (hroom : s.fabRoom s.g.chip s.g.part s.g.vf (z.bytes * (lanesOf r.lanes).length) = true)
    (hp : ∀ u, Sent s u r [] → p (advance 4 (u.pushStreams r z.bytes ((lanesOf r.lanes).map (s.w.at_ .fab base off z))
      ((lanesOf r.lanes).map (s.storeAcc d base off z .fab))))) :
    Goes (exec (.st d base off z .fab) s) p := by
  obtain ⟨u, hu, hk⟩ := sendFab_room (r := r) (k := fun u => .ok (u.pushStreams r z.bytes
    ((lanesOf r.lanes).map (s.w.at_ .fab base off z)) ((lanesOf r.lanes).map (s.storeAcc d base off z .fab)))) hroom
  refine issue_goes hi ?_ (hp u hu)
  rw [← hk, ← map_storeAcc]
  dsimp only
  rw [if_pos (show Space.isFab .fab = true from rfl), List.map_map, List.length_map]
  exact checked_none hc

theorem goes_stFabRel (hi : Issues (.stFabRel d base off z) s r) (hc : s.storePasses r base off z .fab)
    (hroom : s.fabRoom s.g.chip s.g.part s.g.vf (z.bytes * (lanesOf r.lanes).length) = true)
    (hp : ∀ u, Sent s u r [] → p (advance 4 (((lanesOf r.lanes).map (s.w.at_ .fab base off z)).foldl
      (fun t f => t.pushRelease r z.bytes f (s.w.storeBytes d z f.lane)) u))) :
    Goes (exec (.stFabRel d base off z) s) p := by
  obtain ⟨u, hu, hk⟩ := sendFab_room (r := r) (k := fun u => .ok (((lanesOf r.lanes).map (s.w.at_ .fab base off z)).foldl
    (fun t f => t.pushRelease r z.bytes f (s.w.storeBytes d z f.lane)) u)) hroom
  refine issue_goes hi ?_ (hp u hu)
  rw [← hk]
  dsimp only
  rw [List.map_map, List.length_map]
  exact checked_none hc

/-! ### The operations, lane by lane -/

/-- R43, R230: a store puts one operation on its way for each block. -/
theorem sent_st : ∃ new,
    Sent s (s.pushPieces r .store z.bytes 127 sp ((lanesOf r.lanes).map (s.w.at_ sp base off z))
      (groupAccs Acc.block ((lanesOf r.lanes).map (s.storeAcc d base off z sp)))) r new
    ∧ new.map MemOp.accs = groupAccs Acc.block ((lanesOf r.lanes).map (s.storeAcc d base off z sp))
    ∧ ∀ o ∈ new, o.kind = .store ∧ o.n = z.bytes ∧ o.lanes = Acc.lanesOf o.accs ∧ o.fab.isSome = Space.isFab sp := by
  refine ⟨_, sent_pushPieces, map_accs_pieceOps, fun o ho => ?_⟩
  obtain ⟨p, hp, id, -, rfl⟩ := mem_pieceOps ho
  obtain ⟨a, p, rfl⟩ := List.exists_cons_of_ne_nil ((groupAccs_pieces _ _).nonempty p hp)
  obtain ⟨l, hl, rfl⟩ := List.mem_map.1 (mem_groupAccs hp List.mem_cons_self)
  refine ⟨rfl, rfl, rfl, ?_⟩
  rw [State.pieceOp, Option.isSome_map]
  exact isSome_fabOf (List.mem_map_of_mem hl) rfl

/-- The pieces of a store to the fabric: the accesses of one block and one stream. -/
def State.streamGroups (s : State) (r : Run) (d base : Opd) (off : Fin 32) (z : MSize) : List (List Acc) :=
  groupAccs (fun a => 16 * a.block + laneStream ((lanesOf r.lanes).map (s.w.at_ .fab base off z)) a.lane)
    ((lanesOf r.lanes).map (s.storeAcc d base off z .fab))

/-- R44: what is stored of the lanes' accesses. -/
def State.shownAcc (s : State) (r : Run) (d base : Opd) (off : Fin 32) (z : MSize) (l : Nat) : Acc :=
  (s.storeAcc d base off z .fab l).shown ((lanesOf r.lanes).map (s.storeAcc d base off z .fab))

/-- The operations of a store to the fabric, by its pieces. -/
def StoresFab (s : State) (r : Run) (d base : Opd) (off : Fin 32) (z : MSize) (new : List MemOp) : Prop :=
  StreamOps new ((s.streamGroups r d base off z).map fun p =>
    p.map (Acc.shown ((lanesOf r.lanes).map (s.storeAcc d base off z .fab))))

theorem sent_st_fab {u : State} (hu : Sent s u r []) : ∃ new,
    Sent s (u.pushStreams r z.bytes ((lanesOf r.lanes).map (s.w.at_ .fab base off z))
      ((lanesOf r.lanes).map (s.storeAcc d base off z .fab))) r new
    ∧ StoresFab s r d base off z new := by
  obtain ⟨new, hs, hnew⟩ := sent_pushStreams (s := u) (r := r) (n := z.bytes)
    (fs := (lanesOf r.lanes).map (s.w.at_ .fab base off z)) (accs := (lanesOf r.lanes).map (s.storeAcc d base off z .fab))
    fun a ha => by
      obtain ⟨l, hl, rfl⟩ := List.mem_map.1 ha
      exact ⟨_, List.mem_map_of_mem hl, rfl⟩
  exact ⟨new, hu.trans hs, hnew⟩

theorem sent_stFabRel {u : State} (hu : Sent s u r []) : ∃ new,
    Sent s (((lanesOf r.lanes).map (s.w.at_ .fab base off z)).foldl
      (fun t f => t.pushRelease r z.bytes f (s.w.storeBytes d z f.lane)) u) r new
    ∧ new.map MemOp.accs = (lanesOf r.lanes).map (fun l => [s.storeAcc d base off z .fab l]) ∧ ∀ o ∈ new, o.ofRelease := by
  obtain ⟨new, hs, hnew, hk⟩ := sent_releases (s := u) (r := r) (n := z.bytes) ((lanesOf r.lanes).map (s.w.at_ .fab base off z))
    (s.w.storeBytes d z)
  rw [hu.acc, List.map_map] at hnew
  exact ⟨new, hu.trans hs, hnew, hk⟩

theorem laneStream_at {l : Nat} (hl : has r.lanes l = true) :
    laneStream ((lanesOf r.lanes).map (s.w.at_ sp base off z)) l = streamOf (s.w.at_ sp base off z l).odd := by
  have hmem : s.w.at_ sp base off z l ∈ (lanesOf r.lanes).map (s.w.at_ sp base off z) := List.mem_map_of_mem (mem_lanesOf.2 hl)
  obtain ⟨x, hx⟩ := Option.isSome_iff_exists.1 (List.find?_isSome (p := fun f : Ref => f.lane == l) |>.2 ⟨_, hmem, beq_self_eq_true l⟩)
  obtain ⟨k, -, rfl⟩ := List.mem_map.1 (List.mem_of_find?_eq_some hx)
  have hk : k = l := by
    have := List.find?_some hx
    exact eq_of_beq this
  rw [laneStream, hx, hk]
  rfl

theorem allAccs_streamOps {new : List MemOp} {ps : List (List Acc)} (h : StreamOps new ps) : allAccs new = ps.flatten := by
  rw [allAccs_eq, ← h.accs, List.flatten_filter_ne_nil]

/-- Two accesses of one piece of a store to the fabric share their block and their stream. -/
theorem block_stream_of_group {p : List Acc} (hp : p ∈ s.streamGroups r d base off z) {a b : Acc} (ha : a ∈ p) (hb : b ∈ p) :
    (s.storeAcc d base off z .fab a.lane).block = (s.storeAcc d base off z .fab b.lane).block
    ∧ streamOf (s.w.at_ .fab base off z a.lane).odd = streamOf (s.w.at_ .fab base off z b.lane).odd := by
  have hk := (groupAccs_pieces _ _).same p hp a ha b hb
  obtain ⟨l, hl, rfl⟩ := List.mem_map.1 (mem_groupAccs hp ha)
  obtain ⟨h, hh, rfl⟩ := List.mem_map.1 (mem_groupAccs hp hb)
  simp only [storeAcc_lane] at hk ⊢
  rw [laneStream_at (mem_lanesOf.1 hl), laneStream_at (mem_lanesOf.1 hh)] at hk
  have h1 : streamOf (s.w.at_ .fab base off z l).odd < 16 := Nat.mod_lt _ (by decide)
  have h2 : streamOf (s.w.at_ .fab base off z h).odd < 16 := Nat.mod_lt _ (by decide)
  omega

/-- R44: the lowest lanes of the pieces of a store ascend. -/
theorem heads_streamGroups : ((s.streamGroups r d base off z).filterMap List.head?).Pairwise fun a b => a.lane < b.lane := by
  refine List.Pairwise.sublist (heads_groupAccs _ _) (List.pairwise_map.2 ?_)
  exact lanesOf_pairwise r.lanes

/-- The accesses of the operations of a store to the fabric. -/
theorem StreamOps.mem_accs {new : List MemOp} {ps : List (List Acc)} (h : StreamOps new ps) {o : MemOp} (ho : o ∈ new) {a : Acc}
    (ha : a ∈ o.accs) : o.accs ∈ ps := by
  rw [← h.accs, List.mem_filter]
  exact ⟨List.mem_map_of_mem ho, by simpa using List.ne_nil_of_mem ha⟩

theorem StoresFab.block_stream {new : List MemOp} (h : StoresFab s r d base off z new) {o : MemOp} (ho : o ∈ new) {a b : Acc}
    (ha : a ∈ o.accs) (hb : b ∈ o.accs) :
    (s.storeAcc d base off z .fab a.lane).block = (s.storeAcc d base off z .fab b.lane).block
    ∧ streamOf (s.w.at_ .fab base off z a.lane).odd = streamOf (s.w.at_ .fab base off z b.lane).odd := by
  obtain ⟨p, hp, he⟩ := List.mem_map.1 (StreamOps.mem_accs h ho ha)
  rw [← he] at ha hb
  obtain ⟨x, hx, rfl⟩ := List.mem_map.1 ha
  obtain ⟨y, hy, rfl⟩ := List.mem_map.1 hb
  have := block_stream_of_group hp hx hy
  exact this

theorem StoresFab.heads {new : List MemOp} (h : StoresFab s r d base off z new) :
    new.Pairwise fun o p => ∀ a ∈ o.accs.head?, ∀ b ∈ p.accs.head?, a.lane < b.lane := by
  have hps : ((new.map MemOp.accs).filter (· ≠ [])).Pairwise fun p q => ∀ a ∈ p.head?, ∀ b ∈ q.head?, a.lane < b.lane := by
    rw [StreamOps.accs h, List.pairwise_map]
    refine (List.pairwise_filterMap.1 heads_streamGroups).imp fun hpq a ha b hb => ?_
    rw [List.head?_map, Option.mem_map] at ha hb
    obtain ⟨a, ha, rfl⟩ := ha
    obtain ⟨b, hb, rfl⟩ := hb
    exact hpq a ha b hb
  rw [List.pairwise_filter, List.pairwise_map] at hps
  refine hps.imp fun hop a ha b hb => hop ?_ ?_ a ha b hb
  · simpa using List.ne_nil_of_mem (List.mem_of_mem_head? ha)
  · simpa using List.ne_nil_of_mem (List.mem_of_mem_head? hb)

/-! ### A lane's operation -/

/-- An operation with a number from `n` on carries what a lane stores: these bytes in these places. -/
def Carries (o : MemOp) (n : Nat) (a : Acc) : Prop :=
  n ≤ o.id ∧ has o.lanes a.lane = true ∧ ∃ b ∈ o.accs, b.lane = a.lane ∧ b.bytes = a.bytes ∧ b.data = a.data

theorem Sent.carries {t : State} {new : List MemOp} (h : Sent s t r new) {a : Acc} (hl : a.lane < 64) {p : List Acc} (ha : a ∈ p)
    (hp : p ∈ new.map MemOp.accs) (hlanes : ∀ o ∈ new, a ∈ o.accs → o.lanes = Acc.lanesOf o.accs) :
    ∃ o ∈ t.pend, Carries o s.nextId a := by
  obtain ⟨o, ho, rfl⟩ := List.mem_map.1 hp
  refine ⟨o, ?_, h.fresh o ho, hlanes o ho ha ▸ has_lanesOf_piece ha hl, a, ha, rfl, rfl, rfl⟩
  rw [h.pend]
  exact List.mem_append_right _ ho

theorem StoresFab.carries {t : State} {new : List MemOp} (hnew : StoresFab s r d base off z new) (hs : Sent s t r new) {l : Nat}
    (hl : has r.lanes l = true) : ∃ o ∈ t.pend, Carries o s.nextId (s.shownAcc r d base off z l) := by
  obtain ⟨p, hp, ha⟩ := exists_groupAccs (key := fun a : Acc => 16 * a.block
    + laneStream ((lanesOf r.lanes).map (s.w.at_ .fab base off z)) a.lane)
    (List.mem_map_of_mem (f := s.storeAcc d base off z .fab) (mem_lanesOf.2 hl))
  have hq : p.map (Acc.shown ((lanesOf r.lanes).map (s.storeAcc d base off z .fab))) ∈ (new.map MemOp.accs).filter (· ≠ []) := by
    rw [StreamOps.accs hnew]
    exact List.mem_map_of_mem hp
  refine hs.carries (has_lt hl) (List.mem_map_of_mem (f := Acc.shown _) ha) (List.mem_filter.1 hq).1 fun o ho hmem => ?_
  rcases StreamOps.kinds hnew o ho with h | h
  · exact h.2.2.2
  · rw [h.2.2] at hmem
    cases hmem

/-- Where each operation's lanes are those of its accesses, each access has its operation. -/
theorem carries_of_accs {t : State} {new : List MemOp} (hs : Sent s t r new) {ps : List (List Acc)}
    (haccs : new.map MemOp.accs = ps) (hlanes : ∀ o ∈ new, o.lanes = Acc.lanesOf o.accs) {p : List Acc} (hp : p ∈ ps) {a : Acc}
    (ha : a ∈ p) (hl : a.lane < 64) : ∃ o ∈ t.pend, Carries o s.nextId a :=
  hs.carries hl ha (haccs ▸ hp) fun o ho _ => hlanes o ho

theorem storeAcc_bytes (l : Nat) : (s.storeAcc d base off z sp l).bytes =
    ((s.storeAcc d base off z sp l).bytes.zip (s.storeAcc d base off z sp l).data).map Prod.fst :=
  (List.map_fst_zip (Nat.le_of_eq (storeAcc_length l))).symm

theorem storeAcc_data (l : Nat) : (s.storeAcc d base off z sp l).data =
    ((s.storeAcc d base off z sp l).bytes.zip (s.storeAcc d base off z sp l).data).map Prod.snd :=
  (List.map_snd_zip (Nat.le_of_eq (storeAcc_length l).symm)).symm

/-- R44: of what a lane of a store to the fabric stores, the bytes that no higher lane stores. -/
def State.ownBytes (s : State) (r : Run) (d base : Opd) (off : Fin 32) (z : MSize) (l : Nat) : List (Nat × Byte) :=
  ((s.storeAcc d base off z .fab l).bytes.zip (s.storeAcc d base off z .fab l).data).filter fun b =>
    (lanesOf r.lanes).all fun h => h ≤ l || !(s.storeAcc d base off z .fab h).bytes.contains b.1

theorem not_higher (l h : Nat) (c : Bool) : (!(decide (l < h) && c)) = (decide (h ≤ l) || !c) := by
  rw [Bool.not_and, ← decide_not]
  simp only [Nat.not_lt]

theorem shownAcc_eq (l : Nat) : (s.shownAcc r d base off z l).bytes = (s.ownBytes r d base off z l).map Prod.fst
    ∧ (s.shownAcc r d base off z l).data = (s.ownBytes r d base off z l).map Prod.snd := by
  have hf : ∀ b : Nat × Byte, (!((lanesOf r.lanes).map (s.storeAcc d base off z .fab)).any fun x =>
      (s.storeAcc d base off z .fab l).lane < x.lane && x.bytes.contains b.1)
      = (lanesOf r.lanes).all fun h => h ≤ l || !(s.storeAcc d base off z .fab h).bytes.contains b.1 := by
    intro b
    rw [List.any_map, List.not_any_eq_all_not]
    congr 1
    funext h
    exact not_higher l h _
  simp only [State.shownAcc, Acc.shown, State.ownBytes, hf, and_self]

end

end Sys2Proof.Machine
end

section
open Sys2Proof Sys2Proof.Machine

/-- Settles O16: the operations of a store are its accesses by block, to the fabric by block and stream with releases of the port's
own between, and of a release one for each lane; a lane that passes finds its bytes among them. -/
theorem storeIssue : Obligations.StoreIssue := by
  constructor
  · intro s r d base off z sp ref acc passes room
    refine ⟨fun hi hsp hc => ?_, fun hi hc hr => ?_, fun hi hc hr => ?_⟩
    · refine goes_st hi hsp hc ?_
      obtain ⟨new, hs, haccs, hops⟩ := sent_st (s := s) (r := r) (d := d) (base := base) (off := off) (z := z) (sp := sp)
      refine ⟨new, hs.issued 4 hi.1, ?_, ?_, fun o ho => ?_⟩
      · exact Pieces.onePerBlock (haccs ▸ groupAccs_pieces _ _)
      · rw [allAccs_eq, haccs]
        exact flatten_groupAccs _ _
      · obtain ⟨hk, hn, hl, hfab⟩ := hops o ho
        refine ⟨hk, hn, hl, ?_⟩
        have : Space.isFab sp = false := by cases sp <;> simp_all [Space.isFab]
        simpa [this] using hfab
    · refine goes_st_fab hi hc hr fun u hu => ?_
      obtain ⟨new, hs, hnew⟩ := sent_st_fab (d := d) (base := base) (off := off) (z := z) hu
      refine ⟨new, hs.issued 4 hi.1, ?_, fun o ho a ha b hb => ?_, ?_, fun l k hl => ?_, fun o ho => ?_⟩
      · rw [allAccs_streamOps hnew, ← List.map_flatten]
        refine (flatten_groupAccs _ _).map _ |>.trans ?_
        rw [List.map_map]
        rfl
      · exact hnew.block_stream ho ha hb
      · exact hnew.heads
      · refine (mem_shown_bytes (storeAcc_length (s := s) (d := d) (base := base) (off := off) (z := z) (sp := .fab) l)).trans ?_
        simp only [List.forall_mem_map, mem_lanesOf]
        rfl
      · rcases hnew.kinds o ho with h | h
        · exact ⟨h.1, .inl h.2.1⟩
        · exact ⟨h.1, .inr h.2⟩
    · refine goes_stFabRel hi hc hr fun u hu => ?_
      obtain ⟨new, hs, haccs, hk⟩ := sent_stFabRel (d := d) (base := base) (off := off) (z := z) hu
      exact ⟨new, hs.issued 4 hi.1, haccs, fun o ho => ⟨(hk o ho).1, (hk o ho).2.1⟩⟩
  · intro s r d base off z sp n ref fits room whole own completes
    refine ⟨fun p l => ⟨bytesAt_length .., storeBytes_length ..⟩, fun hi hcon hfab hf => ?_, fun hi hf hr => ?_, fun hi hf hr => ?_⟩
    · refine goes_st hi hfab (storePasses_of_fits hcon hf) ?_
      obtain ⟨new, hs, haccs, hops⟩ := sent_st (s := s) (r := r) (d := d) (base := base) (off := off) (z := z) (sp := sp)
      refine ⟨hs.runsOn 4 hi.1, hs.rd 4, fun l hl => ?_⟩
      obtain ⟨p, hp, ha⟩ := exists_groupAccs (key := Acc.block)
        (List.mem_map_of_mem (f := s.storeAcc d base off z sp) (mem_lanesOf.2 hl))
      obtain ⟨o, ho, hid, hlane, a, ha, hal, hb, hd⟩ :=
        carries_of_accs hs haccs (fun o ho => (hops o ho).2.2.1) hp ha (has_lt hl)
      exact ⟨o, by simpa using ho, hid, hlane, a, ha, hal, hb.trans (storeAcc_bytes l), hd.trans (storeAcc_data l)⟩
    · refine goes_st_fab hi (storePasses_of_fits (by decide) hf) hr fun u hu => ?_
      obtain ⟨new, hs, hnew⟩ := sent_st_fab (d := d) (base := base) (off := off) (z := z) hu
      refine ⟨hs.runsOn 4 hi.1, hs.rd 4, fun l hl => ?_⟩
      obtain ⟨o, ho, hid, hlane, a, ha, hal, hb, hd⟩ := hnew.carries hs hl
      have hown : own l = s.ownBytes r d base off z l := by
        refine List.filter_congr fun b _ => ?_
        have hw (h : Nat) : (whole .fab h).map Prod.fst = (s.storeAcc d base off z .fab h).bytes :=
          (storeAcc_bytes (s := s) (d := d) (base := base) (off := off) (z := z) (sp := .fab) h).symm
        simp only [hw]
      rw [(shownAcc_eq l).1] at hb
      rw [(shownAcc_eq l).2] at hd
      exact ⟨o, by simpa using ho, hid, hlane, a, ha, hal, by rw [hb, hown], by rw [hd, hown]⟩
    · refine goes_stFabRel hi (storePasses_of_fits (by decide) hf) hr fun u hu => ?_
      obtain ⟨new, hs, haccs, hk⟩ := sent_stFabRel (d := d) (base := base) (off := off) (z := z) hu
      refine ⟨hs.runsOn 4 hi.1, hs.rd 4, fun l hl => ?_⟩
      obtain ⟨o, ho, hid, hlane, a, ha, hal, hb, hd⟩ := carries_of_accs hs haccs (fun o ho => (hk o ho).2.2)
        (List.mem_map_of_mem (mem_lanesOf.2 hl)) (List.mem_singleton.2 rfl) (has_lt hl)
      exact ⟨o, by simpa using ho, hid, hlane, a, ha, hal, hb.trans (storeAcc_bytes l), hd.trans (storeAcc_data l)⟩
end


section
/-! SUPPORT. Barrier instructions: a state in which the list of codewords holds an entry without a condition. -/
namespace Sys2Proof.Machine
open Sys2Proof.Tests

/-- The codeword of the first word of the barrier that `stB` names. -/
def barCode : Nat := eccNo (poolKey 0 0 4080)
/-- The state `stB` with an entry that says that this codeword shows no condition. -/
def stClean : State := { stB with ecc := [(barCode, 0)] }
/-- `bcb.init` of the barrier with 1. -/
def barInit : Instr := .bcbInit (.v 2) false (.k 1)

/-- Every byte of `stClean` can be read. -/
theorem stClean_eccAt (k : Nat) : stClean.eccAt k = 0 := by
  by_cases h : eccNo k = barCode <;> simp [State.eccAt, stClean, getKey, h]

/-- The barrier's four words are whole codewords, so that their entry leaves the list. -/
theorem stClean_issues : Issues barInit stClean run2 := ⟨rfl, by decide⟩

theorem stClean_noneBefore (m : LaneMask) (ks : List Nat) : NoneBefore stClean m ks :=
  ⟨fun _ ho => (List.not_mem_nil ho).elim, fun k _ => stClean_eccAt k⟩

theorem stClean_after : ∃ t, exec barInit stClean = .next t ∧ t.ecc = [] := ⟨_, rfl, by decide⟩
end Sys2Proof.Machine
end

section
open Sys2Proof Sys2Proof.Machine Sys2Proof.Tests
/-- Refutes O24: a write of a whole word of SRAM takes the word's entry out of `ecc`, although the frame of an update leaves
`ecc` as it was. An entry with condition 0 is one that `NoneBefore` allows: in `stClean` the update of a barrier takes it out. -/
theorem not_barrierInstructions : ¬ Obligations.BarrierInstructions := by
  unfold Obligations.BarrierInstructions
  rintro ⟨h, -⟩
  obtain ⟨hinit, -⟩ := h stClean run2 (.v 2) (.k 1) 0 false 0
  obtain ⟨t, ht, -, hframe, -⟩ := hinit ⟨stClean_issues, by decide, (by decide : Memory.wf stClean.mem),
    here_of rfl rfl, stClean_noneBefore _ _⟩
  obtain ⟨u, hu, hecc⟩ := stClean_after
  obtain rfl : t = u := Host.Outcome.next.inj (ht.symm.trans hu)
  have hkept : t.ecc = stClean.ecc := by rw [hframe]
  exact absurd (hecc.symm.trans hkept) (by decide)
end


section
/-! SUPPORT. Barriers in memory, and what the end of a command changes (R48 to R51). -/
namespace Sys2Proof.Machine

/-! ### The fields of a barrier fit its 16 bytes -/

theorem leNat_lt (l : List Byte) : leNat l < 2 ^ (8 * l.length) := by
  induction l with
  | nil => simp [leNat]
  | cons b t ih =>
    have hb := b.isLt
    have hp : 2 ^ (8 * (t.length + 1)) = 256 * 2 ^ (8 * t.length) := by rw [Nat.mul_succ, Nat.pow_add]; omega
    simp only [leNat, List.length_cons, hp]
    omega

/-- The fields of a barrier that 16 bytes can hold. -/
structure Bar.Fits (b : Bar) : Prop where
  exp : b.exp < 2 ^ 32
  arr : b.arr < 2 ^ 32
  flags : b.flags < 256
  err : b.err < 256
  phase : b.phase < 65536
  cmd : b.cmd < 2 ^ 32

/-- The values that an update brings in fit their fields. -/
def BarOp.Fits : BarOp → Prop
  | .init v => v < 2 ^ 32
  | .fail code n => code < 256 ∧ n < 2 ^ 32
  | _ => True

theorem leNat_take_lt (l : List Byte) (j : Nat) : leNat ((l.drop j).take 4) < 2 ^ 32 :=
  (leNat_lt _).trans_le (Nat.pow_le_pow_right (by omega) (by rw [List.length_take]; omega))

theorem Bar.ofBytes_fits (l : List Byte) : (Bar.ofBytes l).Fits where
  exp := leNat_take_lt l _
  arr := leNat_take_lt l _
  flags := Nat.div_lt_of_lt_mul (leNat_take_lt l _)
  err := Nat.mod_lt _ (by omega)
  phase := Nat.mod_lt _ (by omega)
  cmd := leNat_take_lt l _

theorem Bar.Fits.step {b : Bar} {op : BarOp} (h : b.Fits) (ho : op.Fits) : (b.step op).Fits := by
  obtain ⟨he, ha, hf, hr, hp, hc⟩ := h
  cases op with
  | init v => exact ⟨ho, by simp [Bar.step], by simp [Bar.step], by simp [Bar.step], hp, by simp [Bar.step]⟩
  | abandon => exact ⟨he, ha, Nat.or_lt_two_pow (n := 8) hf (by omega), hr, hp, hc⟩
  | exp v => exact ⟨Nat.mod_lt _ (by omega), ha, hf, hr, hp, hc⟩
  | arr v =>
    by_cases ht : b.flags.testBit 2
    · simp only [Bar.step, ht, if_true]
      exact ⟨he, ha, hf, hr, hp, hc⟩
    · simp only [Bar.step, ht]
      exact ⟨he, Nat.mod_lt _ (by omega), hf, hr, hp, hc⟩
  | fail code n =>
    by_cases ht : b.flags.testBit 1
    · simp only [Bar.step, ht, if_true]
      exact ⟨he, ha, hf, hr, hp, hc⟩
    · simp only [Bar.step, ht]
      exact ⟨he, ha, Nat.or_lt_two_pow (n := 8) hf (by omega), ho.1, hp, ho.2⟩

theorem Bar.Fits.settle {b : Bar} (h : b.Fits) : b.settle.Fits := by
  unfold Bar.settle
  split
  · exact ⟨h.exp, h.arr, Nat.or_lt_two_pow (n := 8) h.flags (by omega), h.err, Nat.mod_lt _ (by omega), h.cmd⟩
  · exact h

theorem Bar.Fits.update {b : Bar} {op : BarOp} (h : b.Fits) (ho : op.Fits) : (b.update op).Fits := (h.step ho).settle

@[simp] theorem Bar.toBytes_length (b : Bar) : b.toBytes.length = 16 := by simp [Bar.toBytes]

theorem leNat_leBytes_four {v : Nat} (h : v < 2 ^ 32) : leNat (leBytes 4 v) = v := by
  rw [leNat_leBytes]
  exact Nat.mod_eq_of_lt h

theorem Bar.word2_lt (b : Bar) : b.word2 < 2 ^ 32 := by unfold Bar.word2; omega
theorem Bar.Fits.word2_flags {b : Bar} (h : b.Fits) : b.word2 / 2 ^ 24 = b.flags := by
  have := h.flags
  unfold Bar.word2
  omega
theorem Bar.Fits.word2_err {b : Bar} (h : b.Fits) : b.word2 / 2 ^ 16 % 256 = b.err := by
  have := h.err
  unfold Bar.word2
  omega
theorem Bar.Fits.word2_phase {b : Bar} (h : b.Fits) : b.word2 % 65536 = b.phase := by
  have := h.phase
  unfold Bar.word2
  omega

theorem words_of_four {a b c d : List Byte} (ha : a.length = 4) (hb : b.length = 4) (hc : c.length = 4) (hd : d.length = 4) :
    ((a ++ b ++ c ++ d).drop (4 * 0)).take 4 = a ∧ ((a ++ b ++ c ++ d).drop (4 * 1)).take 4 = b
    ∧ ((a ++ b ++ c ++ d).drop (4 * 2)).take 4 = c ∧ ((a ++ b ++ c ++ d).drop (4 * 3)).take 4 = d := by
  refine ⟨?_, ?_, ?_, ?_⟩ <;>
    simp [List.drop_append, List.drop_eq_nil_of_le, List.take_of_length_le, ha, hb, hc, hd]

/-- R48: a barrier's bytes are read back as its fields. -/
theorem Bar.ofBytes_toBytes {b : Bar} (h : b.Fits) : Bar.ofBytes b.toBytes = b := by
  obtain ⟨h0, h1, h2, h3⟩ := words_of_four (leBytes_length 4 b.exp) (leBytes_length 4 b.arr) (leBytes_length 4 b.word2)
    (leBytes_length 4 b.cmd)
  simp only [Bar.ofBytes, Bar.toBytes]
  rw [h0, h1, h2, h3, leNat_leBytes_four h.exp, leNat_leBytes_four h.arr, leNat_leBytes_four b.word2_lt, leNat_leBytes_four h.cmd,
    h.word2_flags, h.word2_err, h.word2_phase]

/-! ### Barriers in memory -/

/-- A group that is not saved meets its bytes where they stand. -/
theorem State.placeFor_of_here {s : State} {gid : Nat} (h : Here s gid) (k : Nat) : s.placeFor gid k = k := by
  unfold State.placeFor
  split
  · next g hg => simp [h g hg]
  · rfl

theorem recSlot_of_le {k : Nat} (h : 2 ^ 40 ≤ k) : recSlot k = none := by simp [recSlot]; omega

theorem State.rdFor_of_here {s : State} {gid k : Nat} (h : Here s gid) (hk : 2 ^ 40 ≤ k) : s.rdFor gid k = s.rd k := by
  simp [State.rdFor, State.rdMain, State.placeFor_of_here h, recSlot_of_le hk]

theorem mem_places {a n k : Nat} : k ∈ places a n ↔ a ≤ k ∧ k < a + n := by
  rw [places, List.mem_map]
  constructor
  · rintro ⟨x, hx, rfl⟩
    have := List.mem_range.mp hx
    omega
  · rintro ⟨h1, h2⟩
    exact ⟨k - a, List.mem_range.mpr (by omega), by omega⟩

/-- R48: a barrier of SRAM as its 16 bytes stand. -/
theorem State.barAt_of_here {s : State} {gid k : Nat} (h : Here s gid) (hk : 2 ^ 40 ≤ k) :
    s.barAt gid k = Bar.ofBytes ((places k 16).map s.rd) := by
  unfold State.barAt
  rw [List.map_congr_left fun a ha => State.rdFor_of_here h (hk.trans (mem_places.mp ha).1)]

theorem State.barAt_fits (s : State) (gid k : Nat) : (s.barAt gid k).Fits := Bar.ofBytes_fits _

theorem State.barUpd_of_here {s : State} {gid : Nat} (h : Here s gid) (k : Nat) (op : BarOp) :
    s.barUpd gid k op = s.wrs ((places k 16).zip ((s.barAt gid k).update op).toBytes) := by
  simp only [State.barUpd, State.wrsFor, State.placeFor_of_here h, Prod.mk.eta, List.map_id']

theorem wrsFor_of_here {s : State} {gid : Nat} (h : Here s gid) (l : List (Nat × Byte)) : s.wrsFor gid l = s.wrs l := by
  simp only [State.wrsFor, State.placeFor_of_here h, Prod.mk.eta, List.map_id']

theorem State.rd_wrs (s : State) (l : List (Nat × Byte)) (a : Nat) : (s.wrs l).rd a = readByte (writeBytes s.mem l) a := rfl

/-- R49: a barrier after an update, and every other byte. -/
theorem State.rd_barUpd_ne {s : State} {gid k a : Nat} {op : BarOp} (hi : s.Inv) (h : Here s gid) (ha : a ∉ places k 16) :
    (s.barUpd gid k op).rd a = s.rd a := by
  rw [State.barUpd_of_here h]
  rw [State.rd_wrs, readByte_writeBytes_notMem hi, State.rd]
  rwa [List.map_fst_zip (by simp [places_length])]

theorem State.map_rd_barUpd {s : State} {gid k : Nat} {op : BarOp} (hi : s.Inv) (h : Here s gid) :
    (places k 16).map (s.barUpd gid k op).rd = ((s.barAt gid k).update op).toBytes := by
  rw [State.barUpd_of_here h]
  rw [funext (State.rd_wrs s _), map_readByte_writeBytes hi (places_nodup k 16) (by rw [places_length, Bar.toBytes_length])]

/-! ### What the end of a command leaves unchanged -/

/-- The parts of the state that counters, visibility and lists of requests do not touch. -/
structure SameStore (s t : State) : Prop where
  g : t.g = s.g
  w : t.w = s.w
  groups : t.groups = s.groups
  copies : t.copies = s.copies
  mem : t.mem = s.mem

theorem SameStore.refl (s : State) : SameStore s s := ⟨rfl, rfl, rfl, rfl, rfl⟩
theorem SameStore.trans {s t u : State} (h : SameStore s t) (k : SameStore t u) : SameStore s u :=
  ⟨k.g.trans h.g, k.w.trans h.w, k.groups.trans h.groups, k.copies.trans h.copies, k.mem.trans h.mem⟩

theorem SameStore.group? {s t : State} (h : SameStore s t) (k : Nat) : t.group? k = s.group? k := by
  simp [State.group?, State.allGroups, State.unselect, h.g, h.w, h.groups]
theorem SameStore.here {s t : State} (h : SameStore s t) {k : Nat} (hk : Here s k) : Here t k :=
  fun g hg => hk g (by rwa [← h.group? k])
theorem SameStore.rd {s t : State} (h : SameStore s t) (a : Nat) : t.rd a = s.rd a := by simp [State.rd, h.mem]
theorem SameStore.inv {s t : State} (h : SameStore s t) (hi : s.Inv) : t.Inv := by unfold State.Inv; rw [h.mem]; exact hi

theorem sameStore_mapUse (s : State) (chip p v : Nat) (f : Use → Use) : SameStore s (s.mapUse chip p v f) :=
  ⟨rfl, rfl, rfl, rfl, rfl⟩
theorem sameStore_meterFab (s : State) (chip p v n : Nat) : SameStore s (s.meterFab chip p v n) := ⟨rfl, rfl, rfl, rfl, rfl⟩
theorem sameStore_meterHbmAll (s : State) (p v : Nat) (ks : List Nat) : SameStore s (s.meterHbmAll p v ks) :=
  by
  unfold State.meterHbmAll
  exact foldl_keeps (SameStore s) (fun t c => t.meterHbm c p v _) (fun _ _ h => h.trans ⟨rfl, rfl, rfl, rfl, rfl⟩) _ (SameStore.refl s)
theorem sameStore_passOn (s : State) (id gid tag chip core : Nat) (b : Option BarRef) :
    SameStore s (s.passOn id gid tag chip core b) := by
  cases b <;> exact ⟨rfl, rfl, rfl, rfl, rfl⟩
theorem sameStore_eccSeen (s : State) (pa : Nat) : SameStore s (s.eccSeen pa) := by
  unfold State.eccSeen
  split
  · exact ⟨rfl, rfl, rfl, rfl, rfl⟩
  · split <;> exact ⟨rfl, rfl, rfl, rfl, rfl⟩
  · exact SameStore.refl s
theorem sameStore_copyMet (s : State) (c : CopyCmd) (code a : Nat) : SameStore s (s.copyMet c code a) := by
  unfold State.copyMet
  split
  · split
    · exact sameStore_eccSeen s _
    · exact SameStore.refl s
  · exact SameStore.refl s
theorem sameStore_giveUp (s : State) (c : CopyCmd) (code : Nat) : SameStore s (s.giveUp c code) := by
  unfold State.giveUp
  split
  · exact ⟨rfl, rfl, rfl, rfl, rfl⟩
  · exact SameStore.refl s

/-! ### Changes of a group that leave it where it stands -/

theorem putWarp_stand (g : Group) (w : Warp) : (g.putWarp w).stand = g.stand ∧ (g.putWarp w).id = g.id := by
  unfold Group.putWarp
  split <;> exact ⟨rfl, rfl⟩

theorem stand_mapGroup (s : State) (gid k : Nat) {f : Group → Group} (hf : ∀ g, (f g).id = g.id ∧ (f g).stand = g.stand) :
    ((s.mapGroup gid f).group? k).map Group.stand = (s.group? k).map Group.stand := by
  unfold State.mapGroup
  split
  · simp only [State.group?, State.allGroups, State.unselect, State.setG, (hf _).1]
    split
    · rfl
    · simp only [List.find?_cons, (putWarp_stand _ _).2, (hf _).1]
      split <;> simp [(putWarp_stand _ _).1, (hf _).2]
  · simp only [State.group?, State.allGroups, State.unselect]
    have hl (l : List Group) : ((l.map fun g => if g.id = gid then f g else g).find? fun g => g.id == k).map Group.stand
        = (l.find? fun g => g.id == k).map Group.stand := by
      rw [List.find?_map, Option.map_map]
      have hid : ((fun g : Group => g.id == k) ∘ fun g => if g.id = gid then f g else g) = fun g => g.id == k := by
        funext g
        by_cases h : g.id = gid <;> simp [h, (hf _).1]
      have hst : (Group.stand ∘ fun g => if g.id = gid then f g else g) = Group.stand := by
        funext g
        by_cases h : g.id = gid <;> simp [h, (hf _).2]
      rw [hid, hst]
    split
    · exact hl _
    · simp only [List.find?_cons]
      split
      · rfl
      · exact hl _

theorem here_mapGroup {s : State} {k : Nat} (h : Here s k) (gid : Nat) {f : Group → Group}
    (hf : ∀ g, (f g).id = g.id ∧ (f g).stand = g.stand) : Here (s.mapGroup gid f) k := by
  intro g hg
  have hs := stand_mapGroup s gid k hf
  rw [hg] at hs
  obtain ⟨q, hq, hst⟩ := Option.map_eq_some_iff.mp hs.symm
  have := h q hq
  unfold Group.isSaved at this ⊢
  rwa [hst] at this

/-! ### The end of a command -/

theorem sameStore_wrs (s : State) (l : List (Nat × Byte)) :
    (s.wrs l).g = s.g ∧ (s.wrs l).w = s.w ∧ (s.wrs l).groups = s.groups ∧ (s.wrs l).copies = s.copies := ⟨rfl, rfl, rfl, rfl⟩

theorem here_wrs {s : State} {k : Nat} (h : Here s k) (l : List (Nat × Byte)) : Here (s.wrs l) k := h

theorem here_barUpd {s : State} {gid x : Nat} (h : Here s x) (hg : Here s gid) (k : Nat) (op : BarOp) : Here (s.barUpd gid k op) x := by
  rw [State.barUpd_of_here hg]
  exact here_wrs h _

theorem BarRef.key_le (chip core : Nat) (b : BarRef) : 2 ^ 40 ≤ b.key chip core := by
  cases b <;> simp only [BarRef.key, poolKey, dwsKey] <;> omega

/-- R49: the barrier that an update leaves, whatever group it stands for. -/
theorem State.barAt_barUpd {s t : State} {gid k : Nat} {op : BarOp} (hi : s.Inv) (h : Here s gid) (ht : Here t gid) (hk : 2 ^ 40 ≤ k)
    (ho : op.Fits) (hm : ∀ a, t.rd a = (s.barUpd gid k op).rd a) : t.barAt gid k = (s.barAt gid k).update op := by
  rw [State.barAt_of_here ht hk, funext hm, State.map_rd_barUpd hi h, Bar.ofBytes_toBytes ((s.barAt_fits gid k).update ho)]

/-- R375: a group that is not saved has no tags in its context area. -/
theorem State.areaTags_of_here {s : State} {gid : Nat} (h : Here s gid) : s.areaTags gid = s := by
  unfold State.areaTags
  split
  · next g hg => simp [h g hg]
  · rfl

theorem freeTags_keeps (s : State) (gid : Nat) :
    (s.freeTags gid).g = s.g ∧ (s.freeTags gid).w = s.w ∧ (s.freeTags gid).groups = s.groups
    ∧ (s.freeTags gid).copies = s.copies ∧ (s.freeTags gid).mem = s.mem := by
  unfold State.freeTags
  split <;> exact ⟨rfl, rfl, rfl, rfl, rfl⟩

theorem sameStore_freeTags (s : State) (gid : Nat) : SameStore s (s.freeTags gid) :=
  let ⟨hg, hw, hgs, hc, hm⟩ := freeTags_keeps s gid
  ⟨hg, hw, hgs, hc, hm⟩

theorem tagDone_keeps (t : Nat) (g : Group) : (g.tagDone t).id = g.id ∧ (g.tagDone t).stand = g.stand := ⟨rfl, rfl⟩

theorem mapGroup_keeps (s : State) (gid : Nat) (f : Group → Group) :
    (s.mapGroup gid f).w = s.w ∧ (s.mapGroup gid f).copies = s.copies ∧ (s.mapGroup gid f).mem = s.mem
    ∧ (gid = s.g.id → (s.mapGroup gid f).g = f s.g) ∧ (gid ≠ s.g.id → (s.mapGroup gid f).g = s.g) := by
  unfold State.mapGroup
  split
  · next h => exact ⟨rfl, rfl, rfl, fun _ => rfl, fun hn => absurd h.symm hn⟩
  · next h => exact ⟨rfl, rfl, rfl, fun he => absurd he.symm h, fun _ => rfl⟩

/-- A command has left the core, and its tag counts it no longer (R46). -/
def CopyEnded (s : State) (c : CopyCmd) (t : State) : Prop :=
  t.copies = s.copies.filter (fun q => q.id != c.id)
  ∧ (c.gid = s.g.id → getKey t.g.tagCnt c.tag 0 = getKey s.g.tagCnt c.tag 0 - 1
    ∧ t.g.ctb = if getKey s.g.tagCnt c.tag 0 ≤ 1 then s.g.ctb ||| laneBit c.tag else s.g.ctb)
  ∧ t.w = s.w

/-- The state without a command. -/
def State.dropCopy (s : State) (id : Nat) : State := { s with copies := s.copies.filter fun q => q.id != id }
theorem here_dropCopy {s : State} {k : Nat} (h : Here s k) (id : Nat) : Here (s.dropCopy id) k := h

theorem State.endCopy_of_here {s : State} {c : CopyCmd} (h : Here s c.gid) :
    s.endCopy c = ((s.dropCopy c.id).mapGroup c.gid fun g => g.tagDone c.tag).freeTags c.gid :=
  congrArg (fun t => t.freeTags c.gid)
    (State.areaTags_of_here (here_mapGroup (here_dropCopy h c.id) c.gid (tagDone_keeps c.tag)))

theorem here_endCopy {s : State} {c : CopyCmd} (h : Here s c.gid) : Here (s.endCopy c) c.gid := by
  rw [State.endCopy_of_here h]
  exact (sameStore_freeTags _ _).here (here_mapGroup (here_dropCopy h c.id) _ (tagDone_keeps c.tag))

theorem rd_endCopy {s : State} {c : CopyCmd} (h : Here s c.gid) (a : Nat) : (s.endCopy c).rd a = s.rd a := by
  rw [State.endCopy_of_here h, (sameStore_freeTags _ _).rd, State.rd, (mapGroup_keeps _ _ _).2.2.1]
  rfl

theorem endCopy_g {s : State} {c : CopyCmd} (h : Here s c.gid) (hg : c.gid = s.g.id) : (s.endCopy c).g = s.g.tagDone c.tag := by
  rw [State.endCopy_of_here h, (sameStore_freeTags _ _).g]
  exact (mapGroup_keeps (s.dropCopy c.id) c.gid _).2.2.2.1 hg

/-- R46: what ending a command does, from a state that differs from `s` in none of the parts concerned. -/
theorem copyEnded_endCopy {s u : State} {c : CopyCmd} (h : Here u c.gid) (hc : u.copies = s.copies) (hw : u.w = s.w)
    (hid : u.g.id = s.g.id) (hcnt : u.g.tagCnt = s.g.tagCnt) (hctb : u.g.ctb = s.g.ctb) : CopyEnded s c (u.endCopy c) := by
  refine ⟨?_, fun hg => ?_, ?_⟩
  · rw [State.endCopy_of_here h, (sameStore_freeTags _ _).copies, (mapGroup_keeps _ _ _).2.1, ← hc]
    rfl
  · rw [endCopy_g h (hg.trans hid.symm)]
    simp only [Group.tagDone, getKey_setKey_self, hcnt, hctb, Nat.sub_eq_zero_iff_le, and_self]
  · rw [State.endCopy_of_here h, (sameStore_freeTags _ _).w, (mapGroup_keeps _ _ _).1, ← hw]
    rfl

/-- R49: a command that nothing keeps back: its bytes are written, counters and visibility change, its barrier takes the credit, and it
ends. -/
theorem landCopy_eq {s t : State} {c : CopyCmd} (h : s.landCopy c = some t) :
    ∃ v, SameStore (s.wrsFor c.gid (c.units.flatMap fun p => s.jobWrites c p.1 p.2)) v
      ∧ t = (v.credit c.gid c.chip c.core c.bar c.bytes).endCopy c := by
  unfold State.landCopy at h
  dsimp only at h
  split at h
  · exact absurd h (by simp)
  · obtain rfl := Option.some.inj h
    refine ⟨_, ?_, rfl⟩
    refine SameStore.trans ?_ (sameStore_passOn _ _ _ _ _ _ _)
    have hu := (sameStore_meterHbmAll (s.wrsFor c.gid (c.units.flatMap fun p => s.jobWrites c p.1 p.2)) c.part c.vf
      ((c.todo.flatMap fun j => (s.readSpots c j).places) ++ c.todo.flatMap fun j => (s.writeSpots c j).places)).trans
      (sameStore_mapUse _ c.chip c.part c.vf fun u => { u with copy := u.copy + c.bytes })
    split
    · exact hu
    · exact hu.trans (sameStore_meterFab _ _ _ _ _)

/-- R46, R49, R88: the end of a command that nothing keeps back. -/
theorem landCopy_ends {s t : State} {c : CopyCmd} (hi : s.Inv) (hh : Here s c.gid) (h : s.landCopy c = some t) :
    let key := c.bar.map (BarRef.key c.chip c.core)
    let ws := c.units.flatMap fun p => s.jobWrites c p.1 p.2
    CopyEnded s c t
    ∧ (∀ a, ¬ (∃ k, key = some k ∧ a ∈ places k 16) → t.rd a = (ws.reverse.lookup a).getD (s.rd a))
    ∧ ∀ k, key = some k → (∀ p ∈ ws, p.1 ∉ places k 16) → t.barAt c.gid k = (s.barAt c.gid k).update (.arr c.bytes) := by
  intro key ws
  obtain ⟨v, hv, rfl⟩ := landCopy_eq h
  rw [wrsFor_of_here hh] at hv
  have hvh : Here v c.gid := hv.here (here_wrs hh _)
  have hvg : v.g = s.g := hv.g
  have hvi : v.Inv := hv.inv (State.wf_wrs hi _)
  have hvrd (a : Nat) : v.rd a = (ws.reverse.lookup a).getD (s.rd a) := by rw [hv.rd, State.rd_wrs, readByte_writeBytes hi, State.rd]
  cases hb : c.bar with
  | none =>
    have hkey : key = none := by simp [key, hb]
    refine ⟨copyEnded_endCopy hvh hv.copies hv.w (congrArg Group.id hvg) (congrArg Group.tagCnt hvg)
      (congrArg Group.ctb hvg), fun a _ => ?_, ?_⟩
    · exact (rd_endCopy hvh a).trans (hvrd a)
    · intro k hk
      rw [hkey] at hk
      cases hk
  | some b =>
    have hkey : key = some (b.key c.chip c.core) := by simp [key, hb]
    have hbh := here_barUpd hvh hvh (b.key c.chip c.core) (.arr c.bytes)
    refine ⟨?_, fun a ha => ?_, fun k hk hn => ?_⟩
    · exact copyEnded_endCopy hbh hv.copies hv.w (congrArg Group.id hvg) (congrArg Group.tagCnt hvg) (congrArg Group.ctb hvg)
    · exact ((rd_endCopy hbh a).trans (State.rd_barUpd_ne hvi hvh fun hm => ha ⟨_, hkey, hm⟩)).trans (hvrd a)
    · obtain rfl : b.key c.chip c.core = k := Option.some.inj (hkey.symm.trans hk)
      have hsame : v.barAt c.gid (b.key c.chip c.core) = s.barAt c.gid (b.key c.chip c.core) := by
        rw [State.barAt_of_here hvh (BarRef.key_le _ _ _), State.barAt_of_here hh (BarRef.key_le _ _ _)]
        refine congrArg _ (List.map_congr_left fun a ha => ?_)
        rw [hvrd, lookup_eq_none_of_notMem fun hm => ?_, Option.getD_none]
        obtain ⟨p, hp, rfl⟩ := List.mem_map.mp hm
        exact hn p (List.mem_reverse.mp hp) ha
      rw [← hsame]
      exact State.barAt_barUpd hvi hvh (here_endCopy hbh) (BarRef.key_le _ _ _) trivial (rd_endCopy hbh)

/-- R50, R51: the end of a command that fails. -/
theorem failCopy_ends {s : State} {c : CopyCmd} {code : Nat} (a : Nat) (hi : s.Inv) (hh : Here s c.gid) (hcode : code < 256) :
    let key := c.bar.map (BarRef.key c.chip c.core)
    let t := s.failCopy c code a
    CopyEnded s c t
    ∧ (∀ a, ¬ (∃ k, key = some k ∧ a ∈ places k 16) → t.rd a = s.rd a)
    ∧ (∀ k, key = some k → t.barAt c.gid k = (s.barAt c.gid k).update (.fail code c.num.toNat))
    ∧ (key = none → c.gid = s.g.id → t.g.fails = s.g.fails ++ [⟨c.tag, code, a, c.num, false, c.wid⟩]) := by
  intro key t
  have hsame (u : State) := (sameStore_copyMet u c code a).trans (sameStore_giveUp _ c code)
  cases hb : c.bar with
  | none =>
    have hkey : key = none := by simp [key, hb]
    have ht : t = (((s.mapGroup c.gid fun g => { g with fails := g.fails ++ [CmdFail.mk c.tag code a c.num false c.wid] }).copyMet
        c code a).giveUp c code).endCopy c := by simp only [t, State.failCopy, hb]
    have hk := hsame (s.mapGroup c.gid fun g => { g with fails := g.fails ++ [CmdFail.mk c.tag code a c.num false c.wid] })
    obtain ⟨hw, hc, hm, hg, hg'⟩ :=
      mapGroup_keeps s c.gid fun g => { g with fails := g.fails ++ [CmdFail.mk c.tag code a c.num false c.wid] }
    have hu := hk.here (here_mapGroup hh c.gid fun _ => ⟨rfl, rfl⟩)
    rw [ht]
    refine ⟨?_, fun x _ => ?_, fun k h => ?_, fun _ h => ?_⟩
    · refine copyEnded_endCopy hu (hk.copies.trans hc) (hk.w.trans hw) ?_ ?_ ?_ <;>
        · rw [hk.g]
          by_cases h : c.gid = s.g.id
          · rw [hg h]
          · rw [hg' h]
    · rw [rd_endCopy hu, hk.rd, State.rd, hm, State.rd]
    · rw [hkey] at h
      cases h
    · rw [endCopy_g hu, hk.g, hg h]
      · rfl
      · rw [hk.g, hg h]
        exact h
  | some b =>
    have hkey : key = some (b.key c.chip c.core) := by simp [key, hb]
    have ht : t = (((s.barUpd c.gid (b.key c.chip c.core) (.fail code c.num.toNat)).copyMet c code a).giveUp c code).endCopy c := by
      simp only [t, State.failCopy, hb]
    have hk := hsame (s.barUpd c.gid (b.key c.chip c.core) (.fail code c.num.toNat))
    have hu := hk.here (here_barUpd hh hh (b.key c.chip c.core) (.fail code c.num.toNat))
    have hrd (x : Nat) : t.rd x = (s.barUpd c.gid (b.key c.chip c.core) (.fail code c.num.toNat)).rd x := by
      rw [ht, rd_endCopy hu, hk.rd]
    refine ⟨?_, fun x hx => ?_, fun k h => ?_, fun h => ?_⟩
    · rw [ht]
      refine copyEnded_endCopy hu hk.copies hk.w ?_ ?_ ?_ <;>
        · rw [hk.g]
          rfl
    · exact (hrd x).trans (State.rd_barUpd_ne hi hh fun hm => hx ⟨_, hkey, hm⟩)
    · obtain rfl : b.key c.chip c.core = k := Option.some.inj (hkey.symm.trans h)
      refine State.barAt_barUpd hi hh ?_ (BarRef.key_le _ _ _) ⟨hcode, c.num.isLt⟩ hrd
      rw [ht]
      exact here_endCopy hu
    · rw [hkey] at h
      cases h

end Sys2Proof.Machine
end

section
open Sys2Proof Sys2Proof.Machine
/-- Settles O23: `landCopy` and `failCopy` are writes of bytes and one update of the barrier, between changes that touch neither. -/
theorem copyEnd : Obligations.CopyEnd := by
  unfold Obligations.CopyEnd
  intro s id c hi hc hh key inBar ends ws
  have hid : c.id = id := by simpa using List.find?_some hc
  subst hid
  refine ⟨fun hl => ?_, fun code unit a haway hlost hfault hcode => ?_⟩
  · obtain ⟨t, ht⟩ := Option.isSome_iff_exists.mp hl
    refine ⟨t, ?_, landCopy_ends hi hh ht⟩
    simp only [exec, execCopyCommandComplete, hc, ht]
  · refine ⟨s.failCopy c code a, ?_, failCopy_ends a hi hh hcode⟩
    simp [exec, execCopyCommandFail, hc, haway, hlost, hfault]
end


section
/-! SUPPORT. Tags: what an examination finds, and the lanes that it lets go on (R46, R243). -/
namespace Sys2Proof.Machine

/-! ### A destination written at the end of an instruction -/

/-- The registers that a written destination does not name. -/
theorem RegsOnly.onlyWrites {s t : State} {u : Warp} {d : Opd} {n : Nat} {m : LaneMask} {q : Option Run} (h : RegsOnly s.w u d n m)
    (ht : t.w = { u with run := q }) : OnlyWrites s t d n m := by
  have hr := h.rest
  refine ⟨fun k l hl hn => ?_, fun k l hl hn => ?_, fun k hn => ?_, ?_, ?_, ?_, ?_⟩
  · rw [ht, ← h.v k l hl hn]; rfl
  · rw [ht, ← h.x k l hl hn]; rfl
  · rw [ht, ← h.s k hn]; rfl
  all_goals rw [ht, hr]

/-- What a written destination holds. -/
theorem holds_write {t : State} {w : Warp} {d : Opd} {m : LaneMask} {f : Nat → Word} {q : Option Run}
    (ht : t.w = { w.write d m f with run := q }) : Holds t d m f := by
  intro hk l hl
  have hg := Warp.getAt_writeAt w d 0 0 m f l hl hk
  rw [if_pos rfl] at hg
  rw [← hg, ht]
  cases d <;> rfl

theorem write_onlyWrites {s t : State} {d : Opd} {m : LaneMask} {f : Nat → Word} {q : Option Run}
    (ht : t.w = { s.w.write d m f with run := q }) : OnlyWrites s t d 1 m :=
  ((RegsOnly.refl s.w d 1 m).writeAt (by omega) f).onlyWrites ht

theorem Holds.congr {t : State} {d : Opd} {m : LaneMask} {f g : Nat → Word} (h : Holds t d m f) (hfg : ∀ l, f l = g l) :
    Holds t d m g := fun hk l hl => (h hk l hl).trans (hfg _)

theorem Warp.write_run (w : Warp) (d : Opd) (m : LaneMask) (f : Nat → Word) : (w.write d m f).run = w.run := by cases d <;> rfl

/-! ### Examination -/

/-- Every lane's mask names tags of the kernel only. -/
theorem badTags_of_legal {s : State} {r : Run} {f : Nat → Dword}
    (h : ∀ l, has r.lanes l = true → (f l).toNat < 2 ^ s.g.kern.tags) : badTags s r f = false := by
  simp only [badTags, List.any_eq_false, mem_lanesOf]
  intro l hl
  simp [Nat.div_eq_of_lt (h l hl)]

/-- R51: no failed command belongs to a tag that the lanes name. -/
theorem tagFail_of_clean {s : State} {r : Run} {f : Nat → Dword}
    (h : ∀ q ∈ s.g.fails, q.matrix = true ∨ ∀ l, has r.lanes l = true → (f l).getLsbD q.tag = false) : tagFail s r f = none := by
  simp only [tagFail, List.findSome?_eq_none_iff]
  intro t _
  split
  · next ha =>
    obtain ⟨l, hl, hb⟩ := List.any_eq_true.mp ha
    refine List.find?_eq_none.mpr fun q hq => ?_
    rcases h q hq with hm | hc
    · simp [hm]
    · have hne : q.tag ≠ t := fun he => by
        have := hc l (mem_lanesOf.mp hl)
        rw [he, hb] at this
        cases this
      simp [hne]
  · rfl

theorem examine_of_clean {s : State} {r : Run} {f : Nat → Dword} (k : Act)
    (hl : ∀ l, has r.lanes l = true → (f l).toNat < 2 ^ s.g.kern.tags)
    (hc : ∀ q ∈ s.g.fails, q.matrix = true ∨ ∀ l, has r.lanes l = true → (f l).getLsbD q.tag = false) : examine s r f k = k := by
  simp [examine, badTags_of_legal hl, tagFail_of_clean hc]

/-- R86: joining finished commands shows accesses and changes nothing else. -/
theorem joinTags_frame (s : State) (m : LaneMask) (f : Nat → Dword) : joinTags s m f = { s with pend := (joinTags s m f).pend } := by
  unfold joinTags
  refine foldl_keeps (fun t : State => t = { s with pend := t.pend }) _ (fun t k ht => ?_) _ rfl
  dsimp only
  split
  · rw [ht]
    rfl
  · exact ht

theorem joinTags_w (s : State) (m : LaneMask) (f : Nat → Dword) : (joinTags s m f).w = s.w := by rw [joinTags_frame]

/-! ### Waiting for tags -/

/-- The lanes that a wait has not let go on. -/
theorem has_left {r : Run} {ok : Nat → Bool} {l : Nat} (h : has r.lanes l = true) :
    has (r.lanes &&& ~~~ (r.done ||| keepLanes (r.lanes &&& ~~~ r.done) ok)) l = (!has r.done l && !ok l) := by
  rw [has_and_not, has_or, has_keepLanes _ _ (has_lt h), has_and_not, h]
  cases has r.done l <;> cases ok l <;> rfl

theorem left_eq_zero {r : Run} {ok : Nat → Bool} :
    r.lanes &&& ~~~ (r.done ||| keepLanes (r.lanes &&& ~~~ r.done) ok) = 0
      ↔ ∀ l, has r.lanes l = true → has r.done l = true ∨ ok l = true := by
  constructor
  · intro h l hl
    have := has_left (ok := ok) hl
    rw [h] at this
    cases hd : has r.done l <;> cases ho : ok l <;> simp_all
  · intro h
    refine BitVec.eq_of_getLsbD_eq fun l _ => ?_
    change has _ l = has 0#64 l
    rw [has_zero]
    cases hl : has r.lanes l with
    | false => rw [has_and_not, hl, Bool.false_and]
    | true =>
      rw [has_left hl]
      rcases h l hl with h | h <;> simp [h]

/-- R243: a wait for tags that nothing has failed of: it goes on when every lane's test has been met, and holds the lanes left. -/
theorem tagWait {i : Instr} {s : State} {r : Run} {f : Nat → Dword} {ok : Nat → Bool} {n : Nat} (hn : i.info.len = n)
    (hi : Issues i s r) (hl : ∀ l, has r.lanes l = true → (f l).toNat < 2 ^ s.g.kern.tags)
    (hc : ∀ q ∈ s.g.fails, q.matrix = true ∨ ∀ l, has r.lanes l = true → (f l).getLsbD q.tag = false) :
    ((∀ l, has r.lanes l = true → has r.done l = true ∨ ok l = true) →
      Goes (issue i s fun r => examine s r f (holdLanes s r f ok)) fun t => RunsOn s t r n ∧ t = { s with w := t.w, pend := t.pend })
    ∧ ∀ l, has r.lanes l = true → has r.done l = false → ok l = false →
      Goes (issue i s fun r => examine s r f (holdLanes s r f ok)) fun t => ∃ dn,
        t = { s with pend := t.pend, w := { s.w with run := some { r with done := dn } } } ∧ has dn l = false := by
  subst hn
  obtain ⟨hrun, hchk⟩ := hi
  have hex : examine s r f (holdLanes s r f ok) = holdLanes s r f ok := examine_of_clean _ hl hc
  have hf := joinTags_frame s (keepLanes (r.lanes &&& ~~~ r.done) ok) f
  refine ⟨fun h => ?_, fun l h hd ho => ?_⟩
  · refine issue_goes ⟨hrun, hchk⟩ (t := joinTags s (keepLanes (r.lanes &&& ~~~ r.done) ok) f) ?_ ?_
    · rw [hex, holdLanes, if_pos (left_eq_zero.mpr h)]
    · rw [advance_of_run _ (r := r) (by rw [joinTags_w]; exact hrun)]
      exact ⟨by rw [hf]; rfl, by rw [hf]; rfl⟩
  · refine ⟨_, issue_hold ⟨hrun, hchk⟩ (t := (joinTags s (keepLanes (r.lanes &&& ~~~ r.done) ok) f).mapRun
      fun q => { q with done := q.done ||| keepLanes (r.lanes &&& ~~~ r.done) ok }) ?_,
      r.done ||| keepLanes (r.lanes &&& ~~~ r.done) ok, ?_, ?_⟩
    · rw [hex, holdLanes, if_neg fun hz => by simpa [hd, ho] using left_eq_zero.mp hz l h]
    · rw [State.mapRun, joinTags_w, hrun, hf]
      rfl
    · rw [has_or, has_keepLanes _ _ (has_lt h), hd, ho]
      simp

/-- R46: the bits that `tagclr` clears. -/
theorem tagClear_ctb (g : Group) (m : Dword) {k : Nat} (hk : k < 64) :
    (g.tagClear m).ctb.getLsbD k = true ↔ g.ctb.getLsbD k = true ∧ ¬ (getKey g.tagCnt k 0 = 0 ∧ m.getLsbD k = true) := by
  change has (keepLanes g.ctb _) k = true ↔ _
  rw [has_keepLanes _ _ hk]
  simp [has]
  tauto

theorem getLsbD_foldl_or (ls : List Nat) (f : Nat → Dword) (m : Dword) (k : Nat) :
    (ls.foldl (fun m l => m ||| f l) m).getLsbD k = true ↔ m.getLsbD k = true ∨ ∃ l ∈ ls, (f l).getLsbD k = true := by
  induction ls generalizing m with
  | nil => simp
  | cons a t ih => simp [ih, or_assoc]

theorem tagClears {i : Instr} {s : State} {r : Run} {f : Warp → Nat → Dword} {n : Nat} (hn : i.info.len = n) (hi : Issues i s r)
    (hl : ∀ l, has r.lanes l = true → (f s.w l).toNat < 2 ^ s.g.kern.tags) : Goes (tagClrOp i s f) fun t =>
      RunsOn s t r n ∧ t = { s with w := t.w, g := { s.g with ctb := t.g.ctb } }
      ∧ ∀ k, k < 64 → (t.g.ctb.getLsbD k = true ↔ s.g.ctb.getLsbD k = true
          ∧ ¬ (getKey s.g.tagCnt k 0 = 0 ∧ ∃ l, has r.lanes l = true ∧ (f s.w l).getLsbD k = true)) := by
  subst hn
  refine issue_goes hi (t := s.setG (s.g.tagClear ((lanesOf r.lanes).foldl (fun m l => m ||| f s.w l) 0))) ?_ ?_
  · simp [badTags_of_legal hl]
  · rw [advance_of_run (s := s.setG (s.g.tagClear _)) _ hi.1]
    refine ⟨rfl, rfl, fun k hk => ?_⟩
    refine (tagClear_ctb s.g _ hk).trans ?_
    simp [getLsbD_foldl_or, mem_lanesOf]

/-- R243: the lowest of the finished tags of a mask. -/
theorem lowest_finished (a b : Dword) :
    (if a &&& b = 0 then 0xFFFFFFFF else BitVec.ofNat 32 (lowLane (a &&& b)))
      = match (List.range 64).find? fun k => a.getLsbD k && b.getLsbD k with
        | some k => BitVec.ofNat 32 k
        | none => 0xFFFFFFFF := by
  have hhas : (fun k => a.getLsbD k && b.getLsbD k) = has (a &&& b) := by
    funext k
    simp [has]
  rw [hhas]
  cases hf : (List.range 64).find? (has (a &&& b)) with
  | none =>
    have hz : a &&& b = 0 := BitVec.eq_of_getLsbD_eq fun k hk => by
      have := List.find?_eq_none.mp hf k (List.mem_range.mpr hk)
      simpa [has] using this
    simp [hz]
  | some k =>
    have hne : a &&& b ≠ 0 := fun hz => by
      have := List.find?_some hf
      rw [hz] at this
      simp [has] at this
    rw [if_neg hne, lowLane, hf]
    rfl

end Sys2Proof.Machine
end

section
open Sys2Proof Sys2Proof.Machine
/-- Settles O25: with no bad tag and no failed command the examination comes down to the lanes' test, lane by lane. -/
theorem tagInstructions : Obligations.TagInstructions := by
  unfold Obligations.TagInstructions
  intro s r m d tag one' many legal clean waits clears some' all
  have hany {i : Instr} {f : Nat → Dword} (g : Warp → Nat → Dword) (hg : g s.w = f) (hn : i.info.len = 4)
      (he : exec i s = tagAnyOp i s g) : waits i f (some' f) := by
    intro hi hl hc
    subst hg
    have h := tagWait (ok := fun l => g s.w l == 0 || g s.w l &&& s.g.ctb != 0) hn hi hl hc
    rw [he]
    simpa [some', tagAnyOp] using h
  have hall {i : Instr} {f : Nat → Dword} (g : Warp → Nat → Dword) (hg : g s.w = f) (hn : i.info.len = 4)
      (he : exec i s = tagAllOp i s g) : waits i f (all f) := by
    intro hi hl hc
    subst hg
    have h := tagWait (ok := fun l => g s.w l &&& s.g.ctb == g s.w l) hn hi hl hc
    rw [he]
    simpa [all, tagAllOp] using h
  refine ⟨hany (one tag) rfl rfl rfl, hany (fun w l => w.sel m l) rfl rfl rfl, hall (one tag) rfl rfl rfl,
    hall (fun w l => w.sel m l) rfl rfl rfl, fun hi hl => tagClears (f := one tag) rfl hi hl,
    fun hi hl => tagClears (f := fun w l => w.sel m l) rfl hi hl, fun hi hl hc => ?_⟩
  refine issue_goes hi (examine_of_clean _ hl hc) ?_
  rw [advance_setW (r := r) ((Warp.write_run ..).trans hi.1)]
  exact ⟨rfl, write_onlyWrites rfl, by rw [joinTags_frame]; rfl,
    Holds.congr (holds_write rfl) fun l => lowest_finished _ _⟩
end


section
/-! SUPPORT. Copies: what forking a command changes, and the numbers that its lanes receive (R45, R239). -/
namespace Sys2Proof.Machine

/-- R365: looking up pages fills translation buffers and changes nothing else. -/
theorem State.lookUp_frame (s : State) (vas : List Nat) : ∃ x y, s.lookUp vas = { s with tlbs := x, walkers := y } := by
  unfold State.lookUp
  refine foldl_keeps (fun t : State => ∃ x y, t = { s with tlbs := x, walkers := y }) _ ?_ _ ⟨_, _, rfl⟩
  rintro t a ⟨x, y, rfl⟩
  unfold State.lookPage
  dsimp only
  split <;> exact ⟨_, _, rfl⟩

/-- What a command has from the instruction that forked it, with its number. -/
structure CopyCmd.From (s : State) (r : Run) (tag : Nat) (n : Word) (c : CopyCmd) : Prop where
  num : c.num = n
  tag : c.tag = tag
  gid : c.gid = s.g.id
  wid : c.wid = s.w.idx
  done : c.done = []
  pc : c.pc = r.pc
  region : c.region = s.w.region

/-- The lanes, the move and the barrier of a command. -/
def CopyCmd.req (c : CopyCmd) : LaneMask × CopyKind × Option BarRef := (c.lanes, c.kind, c.bar)
def CopyReq.req (q : CopyReq) : LaneMask × CopyKind × Option BarRef := (q.lanes, q.kind, q.bar)

/-- The commands `cs` have been forked as `qs` asks. -/
structure Forked (s t : State) (r : Run) (tag : Nat) (qs : List CopyReq) (cs : List CopyCmd) : Prop where
  copies : t.copies = s.copies ++ cs
  reqs : cs.map CopyCmd.req = qs.map CopyReq.req
  each : ∀ (j : Nat) (c : CopyCmd), cs[j]? = some c → CopyCmd.From s r tag (getKey s.cmdNo s.coreNo 0 + BitVec.ofNat 32 j) c
  ctb : qs ≠ [] → t.g.ctb = s.g.ctb &&& ~~~ laneBit tag
  count : getKey t.g.tagCnt tag 0 = getKey s.g.tagCnt tag 0 + qs.length
  mem : t.mem = s.mem
  w : ∃ fl, t.w = { s.w with run := some { r with faulted := fl } }

/-- R86: what is visible to the lanes becomes visible to the command; of their run only the lanes that wait for a page change. -/
theorem addFaulted_meetSel {s : State} {r : Run} (hrun : s.w.run = some r) (m k : LaneMask) (p : Party) :
    (s.meetSel m p).addFaulted k = { s with
      pend := (s.meetSel m p).pend, w := { s.w with run := some { r with faulted := r.faulted ||| k } } } := by
  have hr : (s.meetSel m p).w.run = some r := hrun
  simp only [State.addFaulted, hr]
  rfl

/-- The command that a request becomes. -/
def State.newCopy (s : State) (tag : Nat) (q : CopyReq) : CopyCmd :=
  { id := s.nextId, num := getKey s.cmdNo s.coreNo 0, gid := s.g.id, wid := s.w.idx, chip := s.g.chip, core := s.g.core
    part := s.g.part, vf := s.g.vf, tag := tag, bar := q.bar, region := s.w.region, kind := q.kind, done := [], lanes := q.lanes
    waiting := q.waiting, pc := (s.w.run.map Run.pc).getD 0, issued := s.cyc s.coreNo }
/-- The state that holds it, before what its lanes see passes to it. -/
def State.withCopy (s : State) (tag : Nat) (q : CopyReq) : State :=
  { s with copies := s.copies ++ [s.newCopy tag q], nextId := s.nextId + 1, g := s.g.tagIssue tag
           cmdNo := setKey s.cmdNo s.coreNo (getKey s.cmdNo s.coreNo 0 + 1) }

theorem forkCopy_eq (s : State) (tag : Nat) (q : CopyReq) : s.forkCopy tag q = (getKey s.cmdNo s.coreNo 0,
    ((s.withCopy tag q).meetSel q.lanes (.cmd s.nextId)).addFaulted (if q.waiting then q.lanes else 0)) := rfl

/-- R45, R46: one command. -/
theorem forked_one {s : State} {r : Run} (hrun : s.w.run = some r) (tag : Nat) (q : CopyReq) :
    ∃ c, Forked s (s.forkCopy tag q).2 r tag [q] [c] ∧ (s.forkCopy tag q).1 = getKey s.cmdNo s.coreNo 0
      ∧ (s.forkCopy tag q).2.g = s.g.tagIssue tag
      ∧ (s.forkCopy tag q).2.cmdNo = setKey s.cmdNo s.coreNo (getKey s.cmdNo s.coreNo 0 + 1) := by
  rw [forkCopy_eq, addFaulted_meetSel (s := s.withCopy tag q) (r := r) hrun]
  refine ⟨s.newCopy tag q, ⟨rfl, rfl, fun j c hc => ?_, fun _ => rfl, ?_, rfl, ⟨_, rfl⟩⟩, rfl, rfl, rfl⟩
  · obtain ⟨rfl, rfl⟩ : j = 0 ∧ s.newCopy tag q = c := by simpa [List.getElem?_singleton] using hc
    exact ⟨by simp [State.newCopy], rfl, rfl, rfl, rfl, by simp [State.newCopy, hrun], rfl⟩
  · exact getKey_setKey_self ..

/-- R45: the lanes of commands, each with its command's number. -/
def numbersOf (cs : List CopyCmd) : List (Nat × Word) := cs.flatMap fun c => (lanesOf c.lanes).map fun l => (l, c.num)

/-- R45, R46: all commands of an instruction. -/
theorem forked_all (tag : Nat) (qs : List CopyReq) {s : State} {r : Run} (hrun : s.w.run = some r) :
    ∃ cs, Forked s (s.forkAll tag qs).2 r tag qs cs ∧ (s.forkAll tag qs).1 = numbersOf cs := by
  induction qs generalizing s r with
  | nil => exact ⟨[], ⟨by simp [State.forkAll], rfl, by simp, by simp, rfl, rfl, ⟨r.faulted, by rw [State.forkAll, ← hrun]⟩⟩, rfl⟩
  | cons q qs ih =>
    obtain ⟨c, hc, hnum, hg, hno⟩ := forked_one hrun tag q
    obtain ⟨fl, hw⟩ := hc.w
    obtain ⟨cs, hcs, hl⟩ := ih (s := (s.forkCopy tag q).2) (r := { r with faulted := fl }) (by rw [hw])
    have hc0 := hc.each 0 c rfl
    refine ⟨c :: cs, ⟨?_, ?_, ?_, fun _ => ?_, ?_, ?_, ?_⟩, ?_⟩
    · exact hcs.copies.trans (by rw [hc.copies, List.append_assoc]; rfl)
    · have h := hc.reqs
      have h' := hcs.reqs
      simp only [List.map_cons, List.map_nil, List.cons.injEq, and_true] at h ⊢
      exact ⟨h, h'⟩
    · intro j x hx
      cases j with
      | zero =>
        obtain rfl : c = x := by simpa using hx
        exact hc0
      | succ j =>
        have hx := hcs.each j x (by simpa using hx)
        have hcore : (s.forkCopy tag q).2.coreNo = s.coreNo := by simp only [State.coreNo, hg]; rfl
        refine ⟨?_, hx.tag, hx.gid.trans (by rw [hg]; rfl), hx.wid.trans (by rw [hw]), hx.done, hx.pc, hx.region.trans (by rw [hw])⟩
        rw [hx.num, hcore, hno, getKey_setKey_self, BitVec.add_assoc]
        congr 1
        rw [Nat.add_comm j 1, BitVec.ofNat_add]
        rfl
    · by_cases hq : qs = []
      · subst hq
        exact hc.ctb (by simp)
      · refine (hcs.ctb hq).trans ?_
        rw [hc.ctb (by simp), BitVec.and_assoc, BitVec.and_self]
    · refine hcs.count.trans ?_
      rw [hc.count]
      simp only [List.length_cons, List.length_nil]
      omega
    · exact hcs.mem.trans hc.mem
    · obtain ⟨fl', hw'⟩ := hcs.w
      exact ⟨fl', by rw [State.forkAll, hw', hw]⟩
    · have hlanes : c.lanes = q.lanes := by
        have h := hc.reqs
        simp only [List.map_cons, List.map_nil, List.cons.injEq, and_true] at h
        exact congrArg Prod.fst h
      simp only [State.forkAll, numbersOf, List.flatMap_cons, hl, hnum, hlanes, hc0.num]
      simp

/-- A lane of some command has the number of one of the commands that hold it. -/
theorem numbersOf_lookup {cs : List CopyCmd} {l : Nat} (h : ∃ c ∈ cs, has c.lanes l = true) :
    ∃ c ∈ cs, getKey (numbersOf cs) l 0 = c.num ∧ has c.lanes l = true := by
  obtain ⟨c, hc, hl⟩ := h
  have hmem : (l, c.num) ∈ numbersOf cs := List.mem_flatMap.mpr ⟨c, hc, List.mem_map.mpr ⟨l, mem_lanesOf.mpr hl, rfl⟩⟩
  cases hv : (numbersOf cs).lookup l with
  | none => exact absurd (List.lookup_eq_none_iff.mp hv _ hmem) (by simp)
  | some v =>
    obtain ⟨l₁, l₂, he, -⟩ := List.lookup_eq_some_iff.mp hv
    have hin : (l, v) ∈ numbersOf cs := by rw [he]; simp
    obtain ⟨x, hx, hm⟩ := List.mem_flatMap.mp hin
    obtain ⟨k, hk, he⟩ := List.mem_map.mp hm
    obtain ⟨rfl, rfl⟩ := Prod.mk.inj he
    exact ⟨x, hx, by rw [getKey, hv]; rfl, mem_lanesOf.mp hk⟩

/-- The lowest lane of a set that holds a lane. -/
theorem has_lowLane {m : LaneMask} {l : Nat} (h : has m l = true) : has m (lowLane m) = true := by
  cases hf : (List.range 64).find? (has m) with
  | none => exact absurd h (by simpa using List.find?_eq_none.mp hf l (List.mem_range.mpr (has_lt h)))
  | some k =>
    rw [lowLane, hf]
    exact List.find?_some hf

/-- What the statement says of a copy that has forked its commands. -/
def CopyForks (s t : State) (r : Run) (d : Opd) (tag : Nat) (qs : List (LaneMask × CopyKind × Option BarRef)) : Prop := ∃ cs,
  t.copies = s.copies ++ cs ∧ cs.map CopyCmd.req = qs
  ∧ (∀ (j : Nat) c, cs[j]? = some c → c.num = getKey s.cmdNo s.coreNo 0 + BitVec.ofNat 32 j ∧ c.tag = tag
      ∧ c.gid = s.g.id ∧ c.wid = s.w.idx ∧ c.done = [] ∧ c.pc = r.pc ∧ c.region = s.w.region)
  ∧ (qs ≠ [] → t.g.ctb = s.g.ctb &&& ~~~ laneBit tag)
  ∧ getKey t.g.tagCnt tag 0 = getKey s.g.tagCnt tag 0 + qs.length
  ∧ (∀ a, t.rd a = s.rd a) ∧ OnlyWrites s t d 1 r.lanes
  ∧ (d.kind ≠ 8 → ∀ l, has r.lanes l = true → ∃ c ∈ cs, t.w.src d l = c.num
      ∧ has c.lanes (if d.kind = 2 then lowLane r.lanes else l) = true)

/-- R239: the end of every form, with room for its commands. -/
theorem issueCopies_forks {s : State} {r : Run} (hrun : s.w.run = some r) (n tag : Nat) (d : Opd) {qs : List CopyReq}
    (hroom : s.copiesOn s.g.chip s.g.core + qs.length ≤ 64) (hl : ∀ l, has r.lanes l = true → ∃ q ∈ qs, has q.lanes l = true) :
    ∃ t, s.issueCopies r tag d qs = .ok t ∧ CopyForks s (advance n t) r d tag (qs.map CopyReq.req) := by
  obtain ⟨x, y, hframe⟩ := s.lookUp_frame (qs.flatMap fun q => q.kind.firstPages)
  generalize hu : s.lookUp (qs.flatMap fun q => q.kind.firstPages) = u at hframe
  obtain ⟨cs, hcs, hnum⟩ := forked_all tag qs (s := u) (r := r) (by rw [hframe]; exact hrun)
  obtain ⟨fl, hw⟩ := hcs.w
  have huw : u.w = s.w := by rw [hframe]
  have hug : u.g = s.g := by rw [hframe]
  refine ⟨(u.forkAll tag qs).2.setW ((u.forkAll tag qs).2.w.write d r.lanes fun l => getKey (u.forkAll tag qs).1 l 0), ?_, cs, ?_⟩
  · rw [State.issueCopies, if_neg (by omega)]
    simp only [hu]
  · rw [advance_setW (r := { r with faulted := fl }) ((Warp.write_run ..).trans (by rw [hw]))]
    have htw : ((u.forkAll tag qs).2.setW { (u.forkAll tag qs).2.w.write d r.lanes fun l => getKey (u.forkAll tag qs).1 l 0 with
        run := some (Run.behind { r with faulted := fl } n) }).w = { (s.w.write d r.lanes fun l => getKey (numbersOf cs) l 0) with
        run := some (Run.behind { r with faulted := fl } n) } := by
      rw [State.setW_w, hw, huw, hnum]
      cases d <;> rfl
    refine ⟨?_, hcs.reqs, ?_, ?_, ?_, ?_, write_onlyWrites htw, ?_⟩
    · exact hcs.copies.trans (by rw [hframe])
    · intro j c hc
      have h := hcs.each j c hc
      refine ⟨h.num.trans (by rw [State.coreNo, hug, State.coreNo, hframe]), h.tag, h.gid.trans (by rw [hug]), h.wid.trans (by rw [huw]),
        h.done, h.pc, h.region.trans (by rw [huw])⟩
    · exact fun hq => (hcs.ctb fun h => hq (by rw [h]; rfl)).trans (by rw [hug])
    · exact hcs.count.trans (by rw [hug, List.length_map])
    · intro a
      exact congrArg (fun m => readByte m a) (hcs.mem.trans (by rw [hframe]))
    · intro hk l hl'
      have hlow : has r.lanes (if d.kind = 2 then lowLane r.lanes else l) = true := by
        split
        · exact has_lowLane hl'
        · exact hl'
      obtain ⟨q, hq, hql⟩ := hl _ hlow
      obtain ⟨c, hc, hcq⟩ := List.mem_map.mp (hcs.reqs ▸ List.mem_map_of_mem (f := CopyReq.req) hq)
      have hcl : c.lanes = q.lanes := congrArg Prod.fst hcq
      obtain ⟨x, hx, hv, hxl⟩ := numbersOf_lookup ⟨c, hc, hcl ▸ hql⟩
      exact ⟨x, hx, (holds_write htw hk l hl').trans hv, hxl⟩

/-! ### The checks of a copy -/

theorem lowestPair_nil {l : List (Nat × Nat)} (h : l = []) : lowestPair l = none := by rw [h]; rfl

/-- R239: no first page of the lanes' endpoints is missing. -/
theorem lanes_pages_nil {s : State} {ls : List Nat} {f g : Nat → End × Bool}
    (h : ∀ l ∈ ls, s.pageTrap (f l) = [] ∧ s.pageTrap (g l) = []) :
    lowestPair (ls.flatMap fun l => s.pageTrap (f l) ++ s.pageTrap (g l)) = none :=
  lowestPair_nil (List.flatMap_eq_nil_iff.mpr fun l hl => by rw [(h l hl).1, (h l hl).2]; rfl)

theorem pages_nil {α : Type} {s : State} {e : End × Bool} {ls : List α} {f : α → End × Bool} (he : s.pageTrap e = [])
    (h : ∀ l ∈ ls, s.pageTrap (f l) = []) : lowestPair (s.pageTrap e ++ ls.flatMap fun l => s.pageTrap (f l)) = none :=
  lowestPair_nil (by rw [he, List.flatMap_eq_nil_iff.mpr h]; rfl)

/-- One command for each lane: every lane has one. -/
theorem exists_laneReq {r : Run} (f : Nat → CopyReq) (hf : ∀ l, (f l).lanes = laneBit l) (l : Nat) (h : has r.lanes l = true) :
    ∃ q ∈ (lanesOf r.lanes).map f, has q.lanes l = true :=
  ⟨f l, List.mem_map_of_mem (mem_lanesOf.mpr h), by rw [hf, has_laneBit _ (has_lt h)]; exact decide_eq_true rfl⟩

/-- R75, R371: with nothing before them, bytes are read at once. -/
theorem NoneBefore.ordered {s : State} {m : LaneMask} {ks : List Nat} (h : NoneBefore s m ks) (k : Act) : s.ordered m ks k = k := by
  obtain ⟨hp, he⟩ := h
  have hany : (s.pend.any fun o => o.accs.any fun a => a.binds s.coreNo s.g.id s.w.idx m && overlap a.bytes ks) = false := by
    refine List.any_eq_false.mpr fun o ho hm => ?_
    obtain ⟨a, ha, hm⟩ := List.any_eq_true.mp hm
    obtain ⟨hb, hov⟩ := Bool.and_eq_true_iff.mp hm
    obtain ⟨x, hx, hk⟩ := List.any_eq_true.mp hov
    exact hp o ho a ha hb x (by simpa using hk) hx
  have hfind : (ks.find? fun p => s.eccAt p != 0) = none := List.find?_eq_none.mpr fun p hp => by simp [he p hp]
  rw [State.ordered, hany, hfind]
  rfl

end Sys2Proof.Machine
end

section
open Sys2Proof Sys2Proof.Machine
/-- Settles O22: each form passes its checks and ends in `issueCopies`, whose commands `forked_all` describes. -/
theorem copyIssue : Obligations.CopyIssue := by
  unfold Obligations.CopyIssue
  intro s r dst src len d tag dsp ssp bar ls low room forks de se n x te
  have done {i : Instr} {body : Run → Act} (qs : List CopyReq) {rs : List (LaneMask × CopyKind × Option BarRef)}
      (hi : Issues i s r) (hroom : room qs.length) (hl : ∀ l, has r.lanes l = true → ∃ q ∈ qs, has q.lanes l = true)
      (hr : qs.map CopyReq.req = rs) (hb : body r = s.issueCopies r tag.val d qs) : Goes (issue i s body) fun t => forks t rs := by
    obtain ⟨t, ht, hf⟩ := issueCopies_forks hi.1 i.info.len tag.val d hroom.2 hl
    exact issue_goes hi (hb.trans ht) (hr ▸ hf)
  have htags {m : Nat} (h : room m) : decide (s.g.kern.tags ≤ tag.val) = false := decide_eq_false (Nat.not_le.mpr h.1)
  refine ⟨?_, ?_, ?_, ?_⟩
  · intro len' bs hi hroom hlen hchk hpage
    have hbad : (ls.any fun l => badLen (len' l)) = false := List.any_eq_false.mpr fun l hl => by simp [hlen l hl]
    refine done (ls.map fun l => { lanes := laneBit l, kind := .linear (se l) (de l) (len' l), bar := (bs l).1
                                   waiting := s.pageWaits [(se l, false), (de l, true)] })
      hi (by rwa [List.length_map]) (exists_laneReq _ fun _ => rfl) (by rw [List.map_map]; rfl) ?_
    dsimp only
    rw [htags hroom, hbad, checked_none hchk, lanes_pages_nil hpage]
    rfl
  · intro bs hi hroom hdesc hbefore hwords hok hdst ge hchk hpage
    have hte : (ls.any fun l => (te l).isNone) = false := List.any_eq_false.mpr fun l hl => by simpa using hdst l hl
    have hob : (ls.filterMap fun l => s.pastOb x (ge l)) = [] := List.filterMap_eq_nil_iff.mpr fun l hl => (hpage l hl).1
    refine done (ls.map fun l => { lanes := laneBit l, kind := .tile (se l) (ge l) x, bar := (bs l).1
                                   waiting := s.pageWaits [(se l, false), (ge l, true)] })
      hi (by rwa [List.length_map]) (exists_laneReq _ fun _ => rfl) (by rw [List.map_map]; rfl) ?_
    dsimp only
    rw [if_neg (Nat.not_le.mpr hroom.1), checked_none hdesc, hbefore.ordered]
    refine (if_neg ?_).trans ?_
    · rw [hwords, hte, Bool.not_true, Bool.false_or, Bool.or_false, Bool.not_eq_true']
      cases dsp <;> simpa using hok
    · rw [checked_none hchk, hob, lanes_pages_nil fun l hl => (hpage l hl).2]
      rfl
  · intro b hi hroom hlen hchk hsrc hdst hwait
    refine done [{ lanes := r.lanes, kind := .gather (ls.map se) (de low) n, bar := b.1, waiting := false }]
      hi hroom (fun l hl => ⟨_, List.mem_singleton_self _, hl⟩) rfl ?_
    have hchk' : s.checkEnds ((de low, n * ls.length, true) :: (ls.map se).map fun e => (e, n, false)) b.2 = none := by
      rw [List.map_map]
      exact hchk
    have hwait' : s.pageWaits ((de low, true) :: (ls.map se).map fun e => (e, false)) = false := by
      rw [List.map_map]
      exact hwait
    dsimp only
    rw [htags hroom, hlen, checked_none hchk', pages_nil hdst (List.forall_mem_map.mpr hsrc), hwait']
    rfl
  · intro b des hi hroom hlen hchk hdst hsrc hwait
    refine done [{ lanes := r.lanes, kind := .scatter (se low) des n, bar := b.1, waiting := false }]
      hi hroom (fun l hl => ⟨_, List.mem_singleton_self _, hl⟩) rfl ?_
    dsimp only
    rw [htags hroom, hlen, checked_none hchk, pages_nil hsrc hdst, hwait]
    rfl
end


section
/-! SUPPORT. A rendezvous in the group of number 0, which `State.group?` does not look up in the selection. -/
namespace Sys2Proof.Machine
open Sys2Proof.Tests

/-- A warp that waits to receive lane 0's value in v1, at no clause. -/
def warpWaits : Warp := { warp2 with idx := 5, run := none, parked := [] }
/-- Its receive. -/
def recvWaits : Rendez := ⟨0, false, 5, 1, 0x200, 1, [], run2, []⟩
/-- The selected group has number 0, and so has the one that `State.warp?` finds the waiting warp in. -/
def stZero : State :=
  { st2 with g := { group2 with id := 0, rvz := [recvWaits] }, groups := [{ group2 with id := 0, others := [warpWaits] }] }
/-- The send that meets it: lanes 0 and 5 send 1. -/
def sendOne : Instr := .xsend (.k 0) (.k 1)

theorem stZero_issues : Issues sendOne stZero run2 := ⟨rfl, by decide⟩
theorem stZero_waits : stZero.warp? stZero.g.id recvWaits.wid = some warpWaits := rfl

/-- The send changes the warps of the selection, and `State.warp?` finds the other group's warp as it was. -/
theorem stZero_after : ∃ t, exec sendOne stZero = .next t ∧ t.warp? 0 5 = some warpWaits := ⟨_, rfl, rfl⟩

end Sys2Proof.Machine
end

section
open Sys2Proof Sys2Proof.Machine Sys2Proof.Tests
/-- Refutes O14: in the state `stZero` the partner of a send is the group of number 0's, where `State.warp?` finds a warp that the
send does not change: it waits on with 0 in v1 instead of the 1 that was sent. -/
theorem not_queuesAndRendezvous : ¬ Obligations.QueuesAndRendezvous := by
  unfold Obligations.QueuesAndRendezvous
  rintro ⟨-, h⟩
  obtain ⟨-, -, hsend, -⟩ := h stZero run2 (.k 0) (.k 1) (.v 1) (by decide)
  obtain ⟨t, ht, -, -, hback⟩ := hsend recvWaits stZero_issues rfl
  obtain ⟨u, hu, hgets, -⟩ := hback rfl warpWaits stZero_waits
  obtain ⟨t', ht', hkept⟩ := stZero_after
  obtain rfl : t = t' := Host.Outcome.next.inj (ht.symm.trans ht')
  obtain rfl : u = warpWaits := Option.some.inj (hu.symm.trans hkept)
  exact absurd (hgets 1 rfl (by decide) 0 (by decide) (by decide)) (by decide)
end


section
/-! SUPPORT. A piece that is performed, that fails, or that takes the escape channel (R58, R62, R63, R74, R231). -/
namespace Sys2Proof.Machine

/-! ### The operation that an event names -/

theorem op?_id {s : State} {id : Nat} {o : MemOp} (h : s.op? id = some o) : o.id = id := by simpa using List.find?_some h

/-- What holds of an operation that may be performed. -/
theorem due_eq {s : State} {id : Nat} {p : MemOp → Bool} {o : MemOp} (h : s.due id p = some o) : s.op? id = some o ∧ p o = true := by
  obtain ⟨q, hq, hif⟩ := Option.bind_eq_some_iff.mp h
  split at hif
  · next hc =>
    obtain rfl : q = o := by simpa using hif
    simp only [Bool.and_eq_true] at hc
    exact ⟨hq, hc.1.1⟩
  · cases hif

/-- An operation that does not satisfy the event's test is not performed. -/
theorem due_none {s : State} {id : Nat} {p : MemOp → Bool} {o : MemOp} (h : s.op? id = some o) (hp : p o = false) : s.due id p = none := by
  simp [State.due, h, hp]

/-! ### A load's reply -/

theorem Warp.getV_endFlag (w : Warp) (f : Option Nat) (ls : List Nat) (k l : Nat) : (w.endFlag f ls).getV k l = w.getV k l := by
  cases f with
  | none => rfl
  | some n =>
    refine foldl_keeps (fun v : Warp => v.getV k l = w.getV k l) (fun v i => v.setFlag n i (v.flagCount n i - 1)) ?_ ls rfl
    exact fun _ _ h => h

/-- The words of a load that have reached the registers behind the first one: register `j` of the first `k` holds word `j`. -/
theorem land_words (w : Warp) (cap : Nat) (q : Fin 96) (m : LaneMask) (f : Nat → Nat → Word) (k : Nat) :
    let u := (List.range k).foldl (fun v j => v.land cap (.v q) j m (f j)) w
    u.nregs = w.nregs ∧ u.live = w.live ∧ ∀ j l, j < k → q.val + j < w.nregs → q.val + j < cap → has m l = true → has w.live l = true →
      u.getV (q.val + j) l = f j l := by
  induction k with
  | zero => exact ⟨rfl, rfl, fun j l hj => absurd hj (Nat.not_lt_zero j)⟩
  | succ k ih =>
    rw [List.range_succ, List.foldl_append]
    generalize (List.range k).foldl (fun v j => v.land cap (.v q) j m (f j)) w = u at ih
    obtain ⟨hn, hl, hv⟩ := ih
    dsimp only [List.foldl_cons, List.foldl_nil]
    by_cases hr : q.val + k < min u.nregs cap
    · rw [Warp.land_v _ _ _ _ _ _ hr]
      refine ⟨hn, hl, fun j l hj h1 h2 hm hlive => ?_⟩
      rw [Warp.getV_putV _ _ _ _ _ _ (has_lt hm), has_and, hm, hl, hlive]
      by_cases he : j = k
      · subst he
        simp
      · rw [if_neg (by simp; omega), hv j l (by omega) h1 h2 hm hlive]
    · rw [Warp.land_above _ _ _ _ _ _ (Nat.not_lt.mp hr)]
      refine ⟨hn, hl, fun j l hj h1 h2 hm hlive => hv j l ?_ h1 h2 hm hlive⟩
      rw [hn] at hr
      by_contra hjk
      obtain rfl : j = k := by omega
      exact hr (Nat.lt_min.mpr ⟨h1, h2⟩)

theorem mapWarp_keeps (s : State) (gid wid : Nat) (f : Warp → Warp) :
    (s.mapWarp gid wid f).mem = s.mem ∧ (s.mapWarp gid wid f).pend = s.pend
    ∧ (s.isSel gid wid = true → (s.mapWarp gid wid f).w = f s.w) := by
  unfold State.mapWarp
  split
  · exact ⟨rfl, rfl, fun _ => rfl⟩
  · next h => split <;> exact ⟨rfl, rfl, fun h' => absurd h' h⟩

/-- The access whose bytes a lane of a load receives. -/
theorem reply_value {s : State} {o : MemOp} {uni : Bool} {l : Nat} {x : Acc}
    (h : (if uni then o.accs.head? else o.accs.find? fun y => y.lane == l) = some x) :
    (let vs := o.accs.map fun a => (a.lane, readLE s.mem a.bytes)
     if uni then (vs.head?.map Prod.snd).getD 0 else getKey vs l 0) = readLE s.mem x.bytes := by
  cases uni with
  | true =>
    have h : o.accs.head? = some x := h
    simp [h]
  | false =>
    have h : (o.accs.find? fun y => y.lane == l) = some x := h
    have hl (as : List Acc) : (as.map fun a => (a.lane, readLE s.mem a.bytes)).lookup l
        = (as.find? fun y => y.lane == l).map fun a => readLE s.mem a.bytes := by
      induction as with
      | nil => rfl
      | cons a t ih =>
        simp only [List.map_cons, List.lookup_cons, List.find?_cons, BEq.comm (a := l)]
        cases a.lane == l
        · exact ih
        · rfl
    simp [getKey, hl, h]

/-- R230, R231: what a load's reply does. -/
theorem replyLoad_does {s : State} {o : MemOp} {signed uni : Bool} (hk : o.kind = .load signed uni) :
    (s.replyLoad o).pend = s.pend.filter (fun p => p.id != o.id) ∧ (∀ a, (s.replyLoad o).rd a = s.rd a)
    ∧ ∀ q l j x, s.isSel o.gid o.wid = true → Opd.ofBits o.reg = .v q → j < max (o.n / 4) 1 → q.val + j < s.w.nregs →
        q.val + j < o.cap → has o.lanes l = true → has s.w.live l = true →
        (if uni then o.accs.head? else o.accs.find? fun y => y.lane == l) = some x →
        (s.replyLoad o).w.getV (q.val + j) l = loadWord o.n signed (readLE s.mem x.bytes) j := by
  simp only [State.replyLoad, hk, State.landOp]
  obtain ⟨hm, hp, hw⟩ := mapWarp_keeps s o.gid o.wid fun w =>
    ((List.range (max (o.n / 4) 1)).foldl (fun v j => v.land o.cap (Opd.ofBits o.reg) j o.lanes fun i => loadWord o.n signed
      (if uni = true then ((o.accs.map fun a => (a.lane, readLE s.mem a.bytes)).head?.map Prod.snd).getD 0
       else getKey (o.accs.map fun a => (a.lane, readLE s.mem a.bytes)) i 0) j) w).endFlag o.flag (lanesOf o.lanes)
  refine ⟨congrArg (List.filter _) hp, fun a => congrArg (fun m => readByte m a) hm, fun q l j x hsel hreg hj hn hc hl hlive hx => ?_⟩
  rw [State.dropOp_w, hw hsel, Warp.getV_endFlag, hreg]
  refine ((land_words s.w o.cap q o.lanes _ _).2.2 j l hj hn hc hl hlive).trans ?_
  rw [reply_value hx]

/-! ### Stores and releases -/

theorem rd_performed {s : State} (hi : s.Inv) (l : List (Nat × Byte)) (a : Nat) :
    (s.wrs l).rd a = (l.reverse.lookup a).getD (s.rd a) := by
  rw [State.rd_wrs, readByte_writeBytes hi, State.rd]

/-- A store or release that is performed: its bytes are written, the operation leaves, and only streams count besides. -/
theorem performed {s t : State} {o : MemOp} (hi : s.Inv)
    (ht : ∃ x, t = { (s.wrs (o.accs.flatMap fun a => a.bytes.zip a.data)).dropOp o.id with streams := x }) :
    t.pend = s.pend.filter (fun p => p.id != o.id)
    ∧ (∀ a, t.rd a = ((o.accs.flatMap fun x => x.bytes.zip x.data).reverse.lookup a).getD (s.rd a)) ∧ t.w = s.w ∧ t.g = s.g := by
  obtain ⟨x, rfl⟩ := ht
  exact ⟨rfl, rd_performed hi _, rfl, rfl⟩

theorem performStore_eq (s : State) (o : MemOp) :
    ∃ x, s.performStore o = { (s.wrs (o.accs.flatMap fun a => a.bytes.zip a.data)).dropOp o.id with streams := x } := by
  unfold State.performStore
  dsimp only
  split
  · exact ⟨_, rfl⟩
  · exact ⟨_, mapStream_frame ..⟩

theorem performRelease_eq (s : State) (o : MemOp) (f : Fab) :
    ∃ x, s.performRelease o f = { (s.wrs (o.accs.flatMap fun a => a.bytes.zip a.data)).dropOp o.id with streams := x } :=
  ⟨_, mapStream_frame ..⟩

/-! ### The values of a load -/

theorem toInt_signExtend_ofNat {w v : Nat} (hw : w ≤ 32) (hv : v < 2 ^ w) :
    ((BitVec.ofNat w v).signExtend 32).toInt = if 2 * v < 2 ^ w then (v : Int) else v - 2 ^ w := by
  rw [BitVec.toInt_signExtend_of_le hw, BitVec.toInt_eq_toNat_cond, BitVec.toNat_ofNat, Nat.mod_eq_of_lt hv, Nat.cast_pow]
  rfl

theorem loadWord_zero {n v : Nat} (h : v < 2 ^ 32) : (loadWord n false v 0).toNat = v := by
  simp only [loadWord, Bool.and_false, Bool.false_eq_true, if_false, Nat.mul_zero, Nat.pow_zero, Nat.div_one, BitVec.toNat_ofNat,
    Nat.mod_eq_of_lt h]

theorem loadWord_byte {v : Nat} (h : v < 2 ^ 8) :
    (loadWord 1 false v 0).toNat = v ∧ (loadWord 1 true v 0).toInt = if v < 2 ^ 7 then (v : Int) else v - 2 ^ 8 := by
  refine ⟨loadWord_zero (h.trans (by decide)), (toInt_signExtend_ofNat (w := 8) (by decide) h).trans ?_⟩
  split <;> split <;> omega

theorem loadWord_half {v : Nat} (h : v < 2 ^ 16) :
    (loadWord 2 false v 0).toNat = v ∧ (loadWord 2 true v 0).toInt = if v < 2 ^ 15 then (v : Int) else v - 2 ^ 16 := by
  refine ⟨loadWord_zero (h.trans (by decide)), (toInt_signExtend_ofNat (w := 16) (by decide) h).trans ?_⟩
  split <;> split <;> omega

theorem loadWord_word {n : Nat} (hn : 4 ≤ n) (b : Bool) (v j : Nat) : (loadWord n b v j).toNat = v / 2 ^ (32 * j) % 2 ^ 32 := by
  have h1 : decide (n = 1) = false := by simp; omega
  have h2 : decide (n = 2) = false := by simp; omega
  simp only [loadWord, h1, h2, Bool.false_and, Bool.false_eq_true, if_false, BitVec.toNat_ofNat]

/-! ### Requests that are given up -/

/-- R63: a late request of lanes that wait has been given up. -/
theorem givenUp_of {s : State} {o : MemOp} (hr : o.remote = true) (ha : MKind.asks o.kind = true) (hl : o.issued + 2 ^ 24 ≤ s.cyc o.core)
    (hh : s.homeAway o = false) : s.overdue o = true ∧ s.givenUp o = true := by
  have ho : s.overdue o = true := by
    simp only [State.overdue, hr, ha, decide_eq_true hl, Bool.and_self]
  exact ⟨ho, by simp [State.givenUp, ho, hh]⟩

/-- A piece fails with trap 0x11 that names its lowest address and the chip it went to. -/
def MemOp.failAt (o : MemOp) (dst : Nat) (p : MemOp) : MemOp :=
  { p with failed := some (0x11, BitVec.ofNat 64 o.lowest, BitVec.ofNat 32 dst) }

theorem failFab_eq {s : State} {o : MemOp} {id : Nat} (h : o.id = id) :
    s.failFab o = { s with pend := s.pend.map fun p => if p.id = id then o.failAt (s.target o) p else p } := by
  subst h
  rfl

theorem timeout_load {s : State} {o : MemOp} {id : Nat} {signed uni : Bool} (h : s.op? id = some o) (hf : o.failed = none)
    (hk : o.kind = .load signed uni) (hg : s.givenUp o = true) : execFabricRequestTimeout id s = .next (s.failFab o) := by
  simp [execFabricRequestTimeout, h, hf, hk, hg]

/-- R63: an atomic that has been given up goes on without its lanes. -/
theorem timeout_atomic {s : State} {o : MemOp} {id : Nat} {op : AOp} {ty : AType} {sc : Scope} {m ret : Bool} (h : s.op? id = some o)
    (hf : o.failed = none) (hk : o.kind = .atomic op ty sc m ret) (hg : s.givenUp o = true) : execFabricRequestTimeout id s
      = .next ((s.failFab o).push { o with kind := .atomic op ty sc m false, lanes := 0, flag := none, reg := 127 }) := by
  simp [execFabricRequestTimeout, h, hf, hk, hg]

/-- R63: what a given-up atomic leaves: the piece failed, and behind it one that nobody waits for. -/
theorem timeout_atomic_does {s : State} {o : MemOp} {id : Nat} {op : AOp} {ty : AType} {sc : Scope} {m : Bool} (h : s.op? id = some o)
    (hf : o.failed = none) (hk : o.kind = .atomic op ty sc m true) (hg : s.givenUp o = true) :
    Goes (exec (.fabricRequestTimeout id) s) fun t =>
      (s.pend.map fun p => if p.id = id then o.failAt (s.target o) p else p) <+: t.pend
      ∧ (∃ late, t.pend.drop s.pend.length = [late] ∧ late.kind = .atomic op ty sc m false ∧ late.lanes = 0 ∧ late.accs = o.accs)
      ∧ t.w = s.w ∧ t.g = s.g ∧ ∀ a, t.rd a = s.rd a := by
  refine ⟨_, timeout_atomic h hf hk hg, ?_⟩
  rw [failFab_eq (op?_id h)]
  refine ⟨List.prefix_append _ _, ⟨{ o with kind := .atomic op ty sc m false, lanes := 0, flag := none, reg := 127, id := s.nextId },
    ?_, rfl, rfl, rfl⟩, rfl, rfl, fun _ => rfl⟩
  exact List.drop_left' (List.length_map _)

/-- R62: the packet leaves the head of its channel, and its port counts it. -/
def State.leaveHead (s : State) (h : VcHead) (no : Nat) : State := { s with
  heads := s.heads.filter fun x => x != h
  ports := s.ports.map fun (p : Port) => if p.no = no then { p with divert := p.divert + 1 } else p }

/-- R62: a unit of a command takes the escape channel. -/
theorem escape_command {s : State} {id no : Nat} {h : VcHead} (hop : s.op? id = none) (hhead : s.blockedLong id no = some h)
    (hany : (s.copies.any fun q => q.id == id) = true) (hin : s.unitInChannel (id, h.unit) = true) :
    exec (.escapeDivert id no) s = .next { s.leaveHead h no with
      copies := s.copies.map fun q => if q.id = id then
        { q with diverts := (h.unit, h.ops.filter s.inChannel,
                             h.units.filter fun x => s.unitInChannel x && x != (id, h.unit)) :: q.diverts } else q } := by
  simp only [exec, execEscapeDivert, hhead, hop, Option.bind_none, hany, hin, Bool.not_true, Bool.false_eq_true, if_false,
    Bool.and_true, decide_eq_true_eq]
  rfl

end Sys2Proof.Machine
end

section
open Sys2Proof Sys2Proof.Machine
/-- Settles O19: each event names one piece, and does to it what the lemmas about replies, stores, releases and failures say. -/
theorem piecePerformed : Obligations.PiecePerformed := by
  unfold Obligations.PiecePerformed
  refine ⟨?_, fun v j => ⟨loadWord_byte, loadWord_half, fun n hn b => loadWord_word hn b v j⟩, ?_,
    fun s id o op ty h hfab hf hk hlate hh => ?_, fun s c no h hop hc hin hhead => ?_⟩
  · intro s id o gone stored
    refine ⟨fun signed uni hk hd hb => ?_, fun hi hd => ?_, fun f hi hf hr hd => ?_⟩
    · refine ⟨s.replyLoad o, ?_, replyLoad_does hk⟩
      simp only [exec, execLoadReply, hd, hb]
    · refine ⟨s.performStore o, ?_, performed hi (performStore_eq s o)⟩
      simp only [exec, execStorePerformed, hd]
    · refine ⟨s.performRelease o f, ?_, performed hi (performRelease_eq s o f)⟩
      simp only [exec, execReleasePerform, hd, hf, hr, if_true]
  · intro s id o f h hf failed marks
    have htarget : s.target o = f.dst := by simp only [State.target, hf]
    have hremote : o.remote = true := by simp [MemOp.remote, hf]
    have hfails : s.failFab o = { s with pend := s.pend.map fun p => if p.id = id then failed p else p } := by
      rw [failFab_eq (op?_id h), htarget]
      rfl
    have hmarks : marks (s.failFab o) ∧ (s.failFab o).pend.length = s.pend.length := by
      rw [hfails]
      exact ⟨⟨List.prefix_rfl, rfl, rfl, fun _ => rfl⟩, List.length_map _⟩
    refine ⟨fun hn hlink hlanes => ⟨_, ?_, hmarks⟩, fun sg uni hn hk hlate hh => ?_, fun op ty sc m hn hk hlate hh => ?_,
      fun no h' hhead => ?_⟩
    · have hdel : s.deliverable o = false := by simp only [State.deliverable, hf, hlink]
      simp [exec, execFabricUndeliverable, h, hf, hn, hdel]
      exact fun h0 => absurd h0 hlanes
    · obtain ⟨hover, hgiven⟩ := givenUp_of hremote (by rw [hk]; rfl) hlate hh
      refine ⟨?_, _, timeout_load h hn hk hgiven, hmarks⟩
      simp only [exec, execLoadReply, due_none h (p := fun o => !MKind.writes o.kind && s.deliverable o && s.drained o && !s.overdue o)
        (by simp [hover])]
    · obtain ⟨-, hgiven⟩ := givenUp_of hremote (by rw [hk]; rfl) hlate hh
      obtain ⟨t, ht, hp, hlast, hw, hg, hrd⟩ := timeout_atomic_does h hn hk hgiven
      rw [htarget] at hp
      exact ⟨t, ht, ⟨hp, hw, hg, hrd⟩, hlast⟩
    · refine ⟨_, by simp only [exec, execEscapeDivert, State.blockedLong, hhead, h, Option.bind_some, hf]; rfl, ?_⟩
      refine ⟨rfl, rfl, ?_, rfl, rfl⟩
      simp [State.mapOp]
  · have hremote : o.remote = true := by simp [MemOp.remote, hk]
    obtain ⟨-, hgiven⟩ := givenUp_of hremote (by rw [hk]; rfl) hlate hh
    refine ⟨?_, timeout_atomic_does h hf hk hgiven⟩
    simp only [exec, execAtomicAtHome, due_none h (p := fun o => MKind.isAtomic o.kind && s.deliverable o && s.drained o && !s.givenUp o)
      (by simp [hgiven])]
  · have hany : (s.copies.any fun q => q.id == c.id) = true := List.any_eq_true.mpr ⟨c, hc, by simp⟩
    exact ⟨_, escape_command hop hhead hany hin, rfl, rfl, rfl, _, List.mem_map_of_mem hc, by simp⟩
end


section
/-! SUPPORT. Traps at issue: an instruction whose block comes to a trap takes it (R37, R212). -/
namespace Sys2Proof.Machine

/-- R212: a trap at issue other than a page that is being loaded is taken as it is. -/
theorem trapTaken_of_issue {i : Instr} {s : State} {r : Run} {body : Run → Act} {c : Nat} {a : Dword} {v : Word}
    (hh : s.g.trapHeld = false) (hi : Issues i s r) (hc : c ≠ 7) (hb : body r = .trap c a v) :
    Goes (issue i s body) fun t => TrapTaken s t r c a v :=
  ⟨_, issue_trap hi hb, takeTrap_taken hh r c a v (by simp [hc])⟩

/-- R37: the checks of an access raise no other cause. -/
theorem State.r37_cause {s : State} {l : List Chk} {q : Nat × Dword × Word} (h : s.r37 l = some q) : q.1 ≠ 7 := by
  unfold State.r37 at h
  dsimp only at h
  split at h
  case h_5 => cases h
  all_goals
    obtain rfl := Option.some.inj h
    simp

/-- R37: an access that fails its checks traps. -/
theorem checked_some {c : Option (Nat × Dword × Word)} {q : Nat × Dword × Word} {k : Act} (h : c = some q) :
    checked c k = .trap q.1 q.2.1 q.2.2 := by
  rw [h]
  rfl

/-- R234: the one address of a main-memory atomic that is not aligned. -/
theorem misaligned_one {n l a : Nat} (h : a % n ≠ 0) : misaligned n [(l, a)] = some a := by
  simp [misaligned, h]

/-- R211: an instruction that only lets its run go on. -/
theorem then_runsOn {i : Instr} {s : State} {body : Run → Act} (he : exec i s = issue i s body) (hb : ∀ r, body r = .ok s) :
    Then i s fun r t => RunsOn s t r i.info.len ∧ t = { s with w := t.w } := by
  intro r hi
  rw [he]
  refine issue_goes hi (hb r) ?_
  rw [advance_of_run _ hi.1]
  exact ⟨rfl, rfl⟩

end Sys2Proof.Machine
end

section
open Sys2Proof Sys2Proof.Machine
/-- Settles O33: each form's block comes to its trap, which the run takes. -/
theorem trapsTaken : Obligations.TrapsTaken := by
  unfold Obligations.TrapsTaken
  refine ⟨fun s d a off z sp x ty sc => ⟨?_, ?_, ?_, ?_, ?_, ?_, ?_, ?_, ?_, ?_⟩, fun s n => ⟨?_, ?_, ?_, ?_⟩⟩
  · intro r q hh hi hq
    refine trapTaken_of_issue hh hi (State.r37_cause hq) ?_
    simp only [List.map_map]
    exact checked_some hq
  · intro r q hh hk hi hq
    refine trapTaken_of_issue hh hi (State.r37_cause hq) ?_
    have huni : (d.kind == 2) = false := by simpa using hk
    simp only [huni, Bool.false_and, Bool.false_eq_true, if_false, List.map_map]
    exact checked_some hq
  · intro r l hh hi hl ha
    refine trapTaken_of_issue hh hi (by decide) ?_
    simp only [if_true, hl, List.map_cons, List.map_nil, misaligned_one ha, BitVec.ofNat_toNat, BitVec.setWidth_eq]
  · intro hs hh r hi
    exact trapTaken_of_issue hh hi (by decide) (by simp only [hs]; rfl)
  · intro hs hh r hi
    exact trapTaken_of_issue hh hi (by decide) (by simp only [hs]; rfl)
  · intro hs hn hh r hi
    exact trapTaken_of_issue hh hi (by decide) (by simp only [hs, hn]; rfl)
  · intro h1 h2 h3 hh r hi
    refine trapTaken_of_issue hh hi (by decide) ?_
    cases x
    case flg => exact absurd rfl h1
    case late => exact absurd rfl h2
    case seed => exact absurd rfl h3
    all_goals rfl
  · intro r hh hi h0 h96
    exact trapTaken_of_issue hh hi (by decide) (by rw [if_neg h0, if_pos h96])
  · intro r hh hi h0 h8
    exact trapTaken_of_issue hh hi (by decide) (by rw [if_neg h0, if_pos h8]; rfl)
  · intro r len fb fa wait hh hrun
    exact ⟨_, by simp only [exec, execClauseHeader, hrun], takeTrap_taken hh r 2 r.addr 0 (by simp)⟩
  · intro h hh r hi
    exact trapTaken_of_issue hh hi (by decide) (if_pos h)
  · intro h hh r hi
    exact trapTaken_of_issue hh hi (by decide) (if_pos h)
  · intro h
    exact then_runsOn rfl fun r => by rw [h]; rfl
  · intro h
    exact then_runsOn rfl fun r => by rw [h]; rfl
end

section
/-! SUPPORT. What the Hub changes as it serves a request (R65 to R71), and how far a run goes on behind an `hred.open`. -/
namespace Sys2Proof.Machine

/-- What the Hub changes as it serves a request: its slots, what waits on them, and who sees what is outstanding. -/
structure HubOnly (s t : State) : Prop where
  rest : t = { s with hub := t.hub, hubw := t.hubw, pend := t.pend }

theorem HubOnly.refl (s : State) : HubOnly s s := ⟨rfl⟩
theorem HubOnly.trans {s t u : State} (h : HubOnly s t) (k : HubOnly t u) : HubOnly s u := ⟨by rw [k.rest, h.rest]⟩
theorem HubOnly.w {s t : State} (h : HubOnly s t) : t.w = s.w := by rw [h.rest]
theorem HubOnly.mem {s t : State} (h : HubOnly s t) : t.mem = s.mem := by rw [h.rest]

theorem putHub_hubOnly (s : State) (h : HubSlot) : HubOnly s (s.putHub h) := ⟨rfl⟩

theorem answerHub_hubOnly (s : State) (k : Nat) (a : Word × Word) : HubOnly s (s.answerHub k a) := by
  have h := foldl_keeps (HubOnly s) (fun t (q : HubWait) => t.meetPlace (hubPlace k) (.lanes q.gid q.wid q.lanes))
    (fun t q ht => ht.trans ⟨rfl⟩) (s.hubw.filter fun q => q.slot == k && q.ans.isNone) (.refl s)
  exact h.trans ⟨rfl⟩

/-- Answering what waits on a slot changes no slot. -/
theorem answerHub_hub (s : State) (k : Nat) (a : Word × Word) : (s.answerHub k a).hub = s.hub :=
  foldl_keeps (fun t : State => t.hub = s.hub) (fun t (q : HubWait) => t.meetPlace (hubPlace k) (.lanes q.gid q.wid q.lanes))
    (fun _ _ ht => ht) _ rfl

theorem freeHub_hubOnly (s : State) (k : Nat) : HubOnly s (s.freeHub k) :=
  HubOnly.trans (t := { s with hub := s.hub.filter fun h => h.idx != k }) ⟨rfl⟩ (answerHub_hubOnly _ _ _)

theorem freeHub_hub (s : State) (k : Nat) : (s.freeHub k).hub = s.hub.filter fun h => h.idx != k := answerHub_hub _ _ _

theorem serveHub_hubOnly (s : State) (h : HubSlot) (chips : Nat) : HubOnly s (s.serveHub h chips) := by
  simp only [State.serveHub]
  split
  · exact freeHub_hubOnly _ _
  · exact putHub_hubOnly _ _

theorem completeHub_hubOnly (s : State) (h : HubSlot) (c : Nat) : HubOnly s (s.completeHub h c) :=
  ((putHub_hubOnly _ _).trans (answerHub_hubOnly _ _ _)).trans (serveHub_hubOnly _ _ _)

theorem hubTimeout_hubOnly (s : State) (k : Nat) : HubOnly s (s.hubTimeout k) := by
  unfold State.hubTimeout
  split
  · split
    · exact completeHub_hubOnly _ _ _
    · exact .refl s
  · exact .refl s

theorem hubExpire_hubOnly (s : State) (k : Nat) : HubOnly s (s.hubExpire k) := by
  unfold State.hubExpire
  split
  · split
    · exact freeHub_hubOnly _ _
    · exact .refl s
  · exact .refl s

theorem hubNow_hubOnly (s : State) (k : Nat) : HubOnly s (s.hubNow k) :=
  (hubTimeout_hubOnly _ _).trans (hubExpire_hubOnly _ _)

/-- R250: a lane that asks for a slot. -/
theorem hubOpen_hubOnly (s : State) (k op timeout mask : Nat) : HubOnly s (s.hubOpen k op timeout mask).2 := by
  simp only [State.hubOpen]
  split
  · exact .refl s
  · split
    · exact hubNow_hubOnly _ _
    · split
      · exact hubNow_hubOnly _ _
      · exact (hubNow_hubOnly _ _).trans ⟨rfl⟩

theorem eachLane_hubOnly {f : State → Nat → Word × State} (hf : ∀ t l, HubOnly t (f t l).2) (ls : List Nat) (s : State) :
    HubOnly s (eachLane f ls s).2 := by
  induction ls generalizing s with
  | nil => exact .refl s
  | cons l ls ih => exact (hf s l).trans (ih _)

/-- R250: the lanes' requests one after another, as `hred.open` makes them. -/
def State.opened (s : State) (r : Run) (slot op timeout mask : Opd) : List (Nat × Word) × State :=
  let v (o : Opd) (l : Nat) := (s.w.src o l).toNat
  eachLane (fun t l => t.hubOpen (v slot l) (v op l) (v timeout l) (v mask l)) (lanesOf r.lanes) s

theorem opened_hubOnly (s : State) (r : Run) (slot op timeout mask : Opd) : HubOnly s (s.opened r slot op timeout mask).2 :=
  eachLane_hubOnly (fun t _ => hubOpen_hubOnly t _ _ _ _) _ _

/-- R178: `hred.open` has 64 bits, so the run goes on 8 bytes behind it. -/
theorem hredOpen_run {s : State} {r : Run} {slot op timeout mask d : Opd} (hi : Issues (.hredOpen slot op timeout mask d) s r)
    (hd : hubDestOk d [slot, op, timeout, mask] = true) :
    Goes (exec (.hredOpen slot op timeout mask d) s) fun t => t.w.run = some (r.behind 8) := by
  let p := s.opened r slot op timeout mask
  let u := p.2.setW (p.2.w.write d r.lanes fun l => getKey p.1 l 0)
  have hrun : u.w.run = some r := by
    rw [State.setW_w, Warp.write_run, (opened_hubOnly s r slot op timeout mask).w]
    exact hi.1
  refine issue_goes (t := u) hi ?_ ?_
  · simp only [hd]
    rfl
  · rw [advance_of_run _ hrun]
    rfl
end Sys2Proof.Machine
end

section
open Sys2Proof Sys2Proof.Machine Sys2Proof.Tests
/-- Refutes O28: the frame of `hred.open` has the run go on 4 bytes behind it, but its word has 64 bits, and the run goes on 8 bytes behind
it (`hredOpen_run`), as in the tests' state `st1h`, whose lane 0 opens slot 63. -/
theorem not_hubReductions : ¬ Obligations.HubReductions := by
  unfold Obligations.HubReductions
  intro h
  obtain ⟨hopen, -⟩ := h st1h run1 (.v 1) (.v 2) (.v 3) (.v 4) (.v 5) 0 (hub2 1 false none)
  have hi : Issues (.hredOpen (.v 1) (.v 2) (.v 3) (.v 4) (.v 5)) st1h run1 := issues_of_goes rfl (by decide)
  obtain ⟨t, ht, ⟨-, hrun, -⟩, -⟩ := hopen hi (by decide) fun _ _ _ hslot => nomatch hslot
  obtain ⟨u, hu, hbehind⟩ := hredOpen_run hi (by decide)
  obtain rfl : t = u := Host.Outcome.next.inj (ht.symm.trans hu)
  exact absurd (hrun.symm.trans hbehind) (by decide)

/-- Settles O57: each part is a field of `State.reset`; no group is selected there, and its memory lists nothing (`reset_wf`). -/
theorem resetState : Obligations.ResetState := by
  unfold Obligations.ResetState
  exact ⟨rfl, rfl, rfl, rfl, rfl, rfl, rfl, rfl, rfl, rfl, rfl, rfl, rfl, reset_wf, rfl⟩
end

section
/-! SUPPORT. How an operator request is answered (R362, R385): STATUS is written last, the request leaves the mailbox, and of the rest
only what the change itself does is to be seen. -/
namespace Sys2Proof.Machine

/-- The oldest operator request can be read, is in its place, and the image that serves it is not being replaced. -/
structure OpRequest (s : State) (q : MailReq) (bs : List Byte) : Prop where
  oldest : ∃ rest, s.md.opmail = q :: rest
  inv : s.Inv
  free : s.holdsKind 1 = false
  aligned : q.addr % 64 = 0
  bytes : s.physBytes q.addr 64 = some bs

/-- R385: a request of the event's OP whose change comes with a STATUS is changed for, then answered. -/
theorem serveOp_answers {s : State} {q : MailReq} {bs : List Byte} (R : OpRequest s q bs) {op st : Nat} (hop : field bs 0 4 = op)
    {k : MailReq → List Byte → Option (Nat × (State → State))} {f : State → State} (hk : k q bs = some (st + 1, f)) :
    s.serveOp op 1 k = .next ((f s).answerOp q (st + 1)) := by
  obtain ⟨rest, hq⟩ := R.oldest
  simp [State.serveOp, hq, R.free, R.aligned, R.bytes, hop, hk]

/-! ### The write of STATUS -/

/-- A write to physical memory changes bytes and their codewords alone. -/
theorem physWrite_frame (s : State) (a n x : Nat) :
    s.physWrite a n x = { s with mem := (s.physWrite a n x).mem, ecc := (s.physWrite a n x).ecc } := by
  unfold State.physWrite
  split
  · rfl
  · rfl

theorem physWrite_rd_ne (s : State) {a n k : Nat} (x : Nat) (hk : k ∉ places a n) : (s.physWrite a n x).rd k = s.rd k := by
  unfold State.physWrite
  split
  · exact rd_wrs_ne s fun p hp e => hk (e ▸ (List.of_mem_zip hp).1)
  · rfl

/-- R372: a write to places whose codewords can be read is made. -/
theorem physWrite_of_clean {s : State} {a n : Nat} (x : Nat) (he : a + n ≤ physEnd) (hc : ∀ k ∈ places a n, s.eccAt k = 0) :
    s.physWrite a n x = s.wrN a n x := by
  have hp : s.partial? (places a n) = none := by
    rw [State.partial?, Option.map_eq_none_iff, List.find?_eq_none]
    intro k hk
    simp [hc k hk]
  simp [State.physWrite, he, hp]

/-- What can be read from physical memory lies below its end, in good codewords. -/
theorem clean_of_physBytes {s : State} {a n : Nat} {bs : List Byte} (h : s.physBytes a n = some bs) :
    a + n ≤ physEnd ∧ ∀ k ∈ places a n, s.eccAt k = 0 := by
  obtain ⟨ks, hks, -⟩ := Option.map_eq_some_iff.mp h
  unfold State.physRun at hks
  split at hks
  · next hc => simpa using hc
  · cases hks

/-! ### The answer -/

/-- Beside the bytes of STATUS and their codewords an answer changes the mailbox alone. -/
theorem answerOp_frame (s : State) (q : MailReq) (st : Nat) : s.answerOp q st = { s with
    mem := (s.answerOp q st).mem, ecc := (s.answerOp q st).ecc
    md := { s.md with opmail := s.md.opmail.filter fun x => x.id != q.id } } := by
  simp only [State.answerOp]
  rw [physWrite_frame]

section
variable (s : State) (q : MailReq) (st : Nat)
@[simp] theorem answerOp_w : (s.answerOp q st).w = s.w := by rw [answerOp_frame]
@[simp] theorem answerOp_g : (s.answerOp q st).g = s.g := by rw [answerOp_frame]
@[simp] theorem answerOp_parts : (s.answerOp q st).parts = s.parts := by rw [answerOp_frame]
@[simp] theorem answerOp_hub : (s.answerOp q st).hub = s.hub := by rw [answerOp_frame]
@[simp] theorem answerOp_kv : (s.answerOp q st).kv = s.kv := by rw [answerOp_frame]
@[simp] theorem answerOp_seqs : (s.answerOp q st).seqs = s.seqs := by rw [answerOp_frame]
@[simp] theorem answerOp_md :
    (s.answerOp q st).md = { s.md with opmail := s.md.opmail.filter fun x => x.id != q.id } := by rw [answerOp_frame]
@[simp] theorem answerOp_part? (p : Nat) : (s.answerOp q st).part? p = s.part? p := by rw [State.part?, answerOp_parts]; rfl
@[simp] theorem answerOp_vf? (p v : Nat) : (s.answerOp q st).vf? p v = s.vf? p v := by rw [State.vf?, answerOp_part?]; rfl
@[simp] theorem answerOp_logOf (p : Nat) : (s.answerOp q st).logOf p = s.logOf p := by rw [State.logOf, answerOp_md]; rfl
end

/-- R362: every byte outside STATUS stands as the change has left it. -/
theorem answerOp_rd (s : State) (q : MailReq) (st : Nat) {a : Nat} (ha : a < q.addr + 4 ∨ q.addr + 8 ≤ a) :
    (s.answerOp q st).rd a = s.rd a := by
  refine physWrite_rd_ne s st fun h => ?_
  have := mem_places.mp h
  omega

/-- What a request's change leaves for its answer: the selected warp and group, the codewords and the mailbox. -/
structure KeepsRequest (s t : State) : Prop where
  w : t.w = s.w
  g : t.g = s.g
  ecc : t.ecc = s.ecc
  opmail : t.md.opmail = s.md.opmail

theorem KeepsRequest.refl (s : State) : KeepsRequest s s := ⟨rfl, rfl, rfl, rfl⟩
theorem KeepsRequest.trans {s t u : State} (h : KeepsRequest s t) (k : KeepsRequest t u) : KeepsRequest s u :=
  ⟨k.w.trans h.w, k.g.trans h.g, k.ecc.trans h.ecc, k.opmail.trans h.opmail⟩

/-- R362, R385: what stands after the answer to a request of `s`, whose change has led to `u`. -/
theorem answerOp_status {s u : State} {q : MailReq} {bs : List Byte} (R : OpRequest s q bs) (hu : KeepsRequest s u) (hi : u.Inv)
    {st : Nat} (hst : st < 2 ^ 32) : readLE (u.answerOp q st).mem (places (q.addr + 4) 4) = st := by
  obtain ⟨hend, hclean⟩ := clean_of_physBytes R.bytes
  have hw : u.physWrite (q.addr + 4) 4 st = u.wrN (q.addr + 4) 4 st := by
    refine physWrite_of_clean st (by omega) fun k hk => ?_
    rw [State.eccAt, hu.ecc]
    obtain ⟨h1, h2⟩ := mem_places.mp hk
    exact hclean k (mem_places.mpr ⟨by omega, by omega⟩)
  have he : (u.answerOp q st).mem = writeBytes u.mem ((places (q.addr + 4) 4).zip (leBytes 4 st)) := by
    simp only [State.answerOp, hw]
    rfl
  rw [he, readLE_writeBytes hi]
  omega

/-- A served request ends in a state of which `c` holds, with the warp and group as they were, and leaves the mailbox. -/
def Done (i : Instr) (s : State) (q : MailReq) (c : State → Prop) : Prop :=
  Goes (exec i s) fun t => c t ∧ t.w = s.w ∧ t.g = s.g ∧ t.md.opmail = s.md.opmail.filter fun x => x.id != q.id

/-- And of the memory it changes STATUS alone. -/
def Answers (i : Instr) (s : State) (q : MailReq) (st : Nat) (c : State → Prop) : Prop :=
  Done i s q fun t => c t ∧ readLE t.mem (places (q.addr + 4) 4) = st
    ∧ ∀ a, (a < q.addr + 4 ∨ q.addr + 8 ≤ a) → t.rd a = s.rd a

theorem Answers.mono {i : Instr} {s : State} {q : MailReq} {st : Nat} {c d : State → Prop} (h : Answers i s q st c)
    (hcd : ∀ t, c t → d t) : Answers i s q st d :=
  Goes.mono h fun t ⟨⟨hc, hst⟩, hrest⟩ => ⟨⟨hcd t hc, hst⟩, hrest⟩

section
variable {s : State} {q : MailReq} {bs : List Byte} {i : Instr} {op st : Nat}
  {k : MailReq → List Byte → Option (Nat × (State → State))} {f : State → State} {c : State → Prop}

/-- R385: a change that leaves what its answer needs is followed by it. -/
theorem serveOp_done (R : OpRequest s q bs) (hop : field bs 0 4 = op) (he : exec i s = s.serveOp op 1 k)
    (hk : k q bs = some (st + 1, f)) (hst : st + 1 < 2 ^ 32) (hu : KeepsRequest s (f s)) (hi : (f s).Inv)
    (hc : readLE ((f s).answerOp q (st + 1)).mem (places (q.addr + 4) 4) = st + 1 → c ((f s).answerOp q (st + 1))) : Done i s q c := by
  refine ⟨_, he.trans (serveOp_answers R hop hk), hc (answerOp_status R hu hi hst), ?_, ?_, ?_⟩
  · rw [answerOp_w, hu.w]
  · rw [answerOp_g, hu.g]
  · rw [answerOp_md, hu.opmail]

/-- A change that leaves the memory too: then STATUS alone changes there. -/
theorem serveOp_keeps (R : OpRequest s q bs) (hop : field bs 0 4 = op) (he : exec i s = s.serveOp op 1 k)
    (hk : k q bs = some (st + 1, f)) (hst : st + 1 < 2 ^ 32) (hu : KeepsRequest s (f s)) (hm : (f s).mem = s.mem)
    (hc : c ((f s).answerOp q (st + 1))) : Answers i s q (st + 1) c := by
  have hi : (f s).Inv := by rw [State.Inv, hm]; exact R.inv
  exact serveOp_done R hop he hk hst hu hi fun h => ⟨hc, h, fun a ha => by rw [answerOp_rd _ _ _ ha, State.rd, hm]; rfl⟩

/-- A refusal changes nothing but STATUS. -/
theorem serveOp_refuses (R : OpRequest s q bs) (hop : field bs 0 4 = op) (he : exec i s = s.serveOp op 1 k)
    (hk : k q bs = refuse (st + 1)) (hst : st + 1 < 2 ^ 32) (hc : c (s.answerOp q (st + 1))) : Answers i s q (st + 1) c :=
  serveOp_keeps R hop he hk hst (.refl s) rfl hc

end

end Sys2Proof.Machine
end

section
/-! SUPPORT. Partitions and their logs as operator requests change them (R386 to R389, R392 to R395). -/
namespace Sys2Proof.Machine

/-! ### Look-ups -/

theorem part?_mapPart (s : State) (p o : Nat) {f : Partition → Partition} (hf : ∀ y, (f y).idx = y.idx) :
    (s.mapPart p f).part? o = (s.part? o).map fun y => if y.idx = p then f y else y := by
  simp only [State.part?, State.mapPart, List.find?_map]
  congr 2
  funext y
  by_cases h : y.idx = p <;> simp [h, hf]

theorem part?_idx {s : State} {p : Nat} {y : Partition} (h : s.part? p = some y) : y.idx = p := by simpa using List.find?_some h

theorem part?_mapPart_self {s : State} {p : Nat} {y : Partition} (h : s.part? p = some y) {f : Partition → Partition}
    (hf : ∀ y, (f y).idx = y.idx) : (s.mapPart p f).part? p = some (f y) := by
  simp [part?_mapPart s p p hf, h, part?_idx h]

theorem vf?_vf {s : State} {p v : Nat} {f : Vf} (h : s.vf? p v = some f) : f.vf = v := by
  obtain ⟨y, -, hy⟩ := Option.bind_eq_some_iff.mp h
  simpa using List.find?_some hy

theorem vf?_mapVf_self {s : State} {p v : Nat} {x : Vf} (h : s.vf? p v = some x) {f : Vf → Vf} (hf : ∀ y, (f y).vf = y.vf) :
    (s.mapVf p v f).vf? p v = some (f x) := by
  obtain ⟨y, hy, hx⟩ := Option.bind_eq_some_iff.mp h
  have hcomp : (fun z : Vf => z.vf == v) ∘ (fun z => if z.vf = v then f z else z) = fun z => z.vf == v := by
    funext z
    by_cases hz : z.vf = v <;> simp [hz, hf]
  have hp : (s.mapVf p v f).part? p = some { y with vfs := y.vfs.map fun z => if z.vf = v then f z else z } :=
    part?_mapPart_self hy fun _ => rfl
  rw [State.vf?, hp]
  show List.find? _ (y.vfs.map _) = _
  rw [List.find?_map, hcomp, hx]
  simp [vf?_vf h]

theorem logOf_idx (s : State) (p : Nat) : (s.logOf p).idx = p := by
  unfold State.logOf
  cases h : s.md.logs.find? fun x => x.idx == p with
  | none => rfl
  | some x => simpa using List.find?_some h

theorem logOf_mapLog_self (s : State) (p : Nat) {f : PartLog → PartLog} (hf : ∀ x, (f x).idx = x.idx) :
    (s.mapLog p f).logOf p = f (s.logOf p) := by
  simp [State.logOf, State.mapLog, hf, show ((s.md.logs.find? fun x => x.idx == p).getD (PartLog.zero p)).idx = p from
    logOf_idx s p]

theorem logOf_mapLog_ne (s : State) {p o : Nat} (h : o ≠ p) {f : PartLog → PartLog} (hf : ∀ x, (f x).idx = x.idx) :
    (s.mapLog p f).logOf o = s.logOf o := by
  have hne : ((f (s.logOf p)).idx == o) = false := by simpa [hf, logOf_idx] using h.symm
  have hfind : (s.mapLog p f).md.logs.find? (fun x => x.idx == o) = s.md.logs.find? fun x => x.idx == o := by
    show List.find? _ (f (s.logOf p) :: s.md.logs.filter fun x => x.idx != p) = _
    rw [List.find?_cons, hne]
    simp only [List.find?_filter]
    congr 1
    funext x
    by_cases hx : x.idx = o <;> simp [hx, h]
  rw [State.logOf, hfind]
  rfl

/-! ### Records that close in a partition without a ring -/

/-- What counting, logs and virtual functions leave: the memory too, and where every group stands. -/
structure LogsOnly (s t : State) : Prop extends KeepsRequest s t where
  mem : t.mem = s.mem
  groups : t.groups = s.groups

theorem LogsOnly.refl (s : State) : LogsOnly s s := ⟨.refl s, rfl, rfl⟩
theorem LogsOnly.trans {s t u : State} (h : LogsOnly s t) (k : LogsOnly t u) : LogsOnly s u :=
  ⟨h.toKeepsRequest.trans k.toKeepsRequest, k.mem.trans h.mem, k.groups.trans h.groups⟩

theorem mapLog_logsOnly (s : State) (p : Nat) (f : PartLog → PartLog) : LogsOnly s (s.mapLog p f) := ⟨⟨rfl, rfl, rfl, rfl⟩, rfl, rfl⟩
theorem mapPart_logsOnly (s : State) (p : Nat) (f : Partition → Partition) : LogsOnly s (s.mapPart p f) :=
  ⟨⟨rfl, rfl, rfl, rfl⟩, rfl, rfl⟩

/-- R395: no ring takes a partition's records. -/
def NoRing (s : State) (p : Nat) : Prop := ∀ y, s.part? p = some y → y.ring = none

theorem NoRing.flushRing {s : State} {p : Nat} (h : NoRing s p) : s.flushRing p = s := by
  have hspot : (s.part? p).bind s.ringSpot = none := by
    cases hp : s.part? p with
    | none => rfl
    | some y => simp [State.ringSpot, h y hp]
  have hone : s.flushOne p = s := by simp [State.flushOne, hspot]
  exact foldl_keeps (fun t => t = s) (fun (t : State) (_ : Nat) => t.flushOne p) (fun t _ ht => by rw [ht, hone]) _ rfl

/-- R393: the log of a partition behind one more record, whatever its bytes. -/
def PartLog.closing (x : PartLog) (b : List Byte) (d : BitVec 384) : PartLog :=
  { x with closed := x.closed ++ [b], seq := x.seq + 1, prev := d }

/-- R393, R395: without a ring a record that closes is kept in the log. -/
theorem NoRing.closeRecord {s : State} {p : Nat} (h : NoRing s p) (u : Usage) :
    ∃ b d, s.closeRecord p u = s.mapLog p fun x => x.closing b d := by
  exact ⟨_, _, NoRing.flushRing (s := s.mapLog p fun x => x.closing _ _) h⟩

theorem takeRing_logsOnly (s : State) (p : Nat) : LogsOnly s (s.takeRing p) := by
  simp only [State.takeRing]
  split
  · exact .refl s
  · split
    · exact (mapPart_logsOnly s p _).trans (mapLog_logsOnly _ p _)
    · exact mapPart_logsOnly s p _

theorem takeRing_noRing (s : State) (p : Nat) : NoRing (s.takeRing p) p := by
  cases hp : s.part? p with
  | none =>
    intro y hy
    rw [State.takeRing, hp, hp] at hy
    cases hy
  | some y =>
    have ht : (s.takeRing p).part? p = some { y with ring := none } := by
      have hparts : (s.takeRing p).part? p = (s.mapPart p fun x => { x with ring := none }).part? p := by
        simp only [State.takeRing, hp]
        split <;> rfl
      exact hparts.trans (part?_mapPart_self hp fun _ => rfl)
    intro z hz
    cases ht.symm.trans hz
    rfl

theorem NoRing.closeVfs {s : State} {p : Nat} (h : NoRing s p) : LogsOnly s (s.closeVfs p) := by
  unfold State.closeVfs
  split
  · refine (foldl_keeps (fun t => NoRing t p ∧ LogsOnly s t) _ (fun t f ht => ?_) _ ⟨h, .refl s⟩).2
    obtain ⟨hring, hlogs⟩ := ht
    obtain ⟨b, d, hclose⟩ := hring.closeRecord (Usage.ofVf f 2)
    rw [hclose]
    exact ⟨hring, hlogs.trans (mapLog_logsOnly t p _)⟩
  · exact .refl s

/-- R389: where a partition has no group, its end touches none. -/
theorem endGroups_of_none {s : State} {p : Nat} (h : ∀ g ∈ s.allGroups, g.part ≠ p) : LogsOnly s (s.endGroups p) := by
  have hids : (s.allGroups.filter fun g => g.part == p) = [] := List.filter_eq_nil_iff.mpr fun g hg => by simpa using h g hg
  unfold State.endGroups
  rw [hids]
  exact ⟨⟨rfl, rfl, rfl, rfl⟩, rfl, rfl⟩

theorem endPart_of_idle {s : State} {p : Nat} (h : ∀ g ∈ s.allGroups, g.part ≠ p) : LogsOnly s (s.endPart p) := by
  have hc : LogsOnly s ((s.takeRing p).closeVfs p) := (takeRing_logsOnly s p).trans (takeRing_noRing s p).closeVfs
  refine hc.trans (endGroups_of_none ?_)
  simpa [State.allGroups, State.unselect, hc.g, hc.w, hc.groups] using h

end Sys2Proof.Machine
end

section
/-! SUPPORT. PSET and VSET: what a partition and a virtual function hold once they are set (R386 to R388). -/
namespace Sys2Proof.Machine

/-! ### PSET -/

/-- R386: the partition that a descriptor and its grants build. -/
def PartDesc.partition (x : PartDesc) (p : Nat) (hbm cxl : List Nat) : Partition :=
  { idx := p, clumask := BitVec.ofNat 32 x.clumask, pool := x.pool, pmodes := x.pmodes, vfn := x.vfn, degm := x.degm
    intv := x.intv, fpool := x.fpool, hbm := hbm, cxl := cxl, handler := none, ring := none, vfs := [] }

/-- R388: a partition that is not busy has no group. -/
theorem no_group_of_idle {s : State} {p : Nat} (h : s.partBusy p = false) : ∀ g ∈ s.allGroups, g.part ≠ p := by
  simp only [State.partBusy, Bool.or_eq_false_iff] at h
  obtain ⟨⟨hg, -⟩, -⟩ := h
  intro g hm he
  have := List.any_eq_false.mp hg g hm
  simp [he] at this

theorem mapEngines_logsOnly {s t : State} (h : LogsOnly s t) (l : List Nat) (f : Engine → Engine) :
    LogsOnly s (l.foldl (fun t c => t.mapEngine c f) t) :=
  foldl_keeps (LogsOnly s) (fun t c => t.mapEngine c f) (fun _ _ h => h.trans ⟨⟨rfl, rfl, rfl, rfl⟩, rfl, rfl⟩) l h

theorem mapEngines_parts (t : State) (l : List Nat) (f : Engine → Engine) : (l.foldl (fun t c => t.mapEngine c f) t).parts = t.parts :=
  foldl_keeps (fun u : State => u.parts = t.parts) (fun t c => t.mapEngine c f) (fun _ _ h => h) l rfl

/-- R386: a partition in order is built of what it is granted. -/
theorem buildPart_builds {s : State} {p : Nat} {d : List Byte} {hbm cxl : List Nat} (hp : p < 24) (hbad : (partDescOf d).bad = false)
    (hidle : s.partBusy p = false) (hclu : ∀ o ∈ s.parts.filter fun x => x.idx != p, o.clumask.toNat &&& (partDescOf d).clumask = 0)
    (hh : s.takeUnits (hbmUnits (maskChips (partDescOf d).clumask)) (s.unitsHeld p) (partDescOf d).hbmg = some hbm)
    (hc : s.takeUnits cxlUnits (s.unitsHeld p) (partDescOf d).cxlg = some cxl)
    (hs : s.slicesMove (s.parts.filter fun x => x.idx != p) ((partDescOf d).partition p hbm cxl) = false) :
    ∃ u, s.buildPart p d = (1, u) ∧ LogsOnly s u
      ∧ u.parts = (s.parts.filter fun x => x.idx != p) ++ [(partDescOf d).partition p hbm cxl] := by
  have hclu' : (s.parts.filter fun x => x.idx != p).any (fun o => o.clumask.toNat &&& (partDescOf d).clumask != 0) = false :=
    List.any_eq_false.mpr fun o ho => by simpa using hclu o ho
  simp only [PartDesc.partition] at hs
  simp only [State.buildPart, Nat.not_lt.mpr (Nat.le_of_lt_succ hp), decide_false, hbad, hidle, hclu', hh, hc, hs, Bool.or_self,
    Bool.false_eq_true, if_false]
  have he := endPart_of_idle (no_group_of_idle hidle)
  refine ⟨_, rfl, mapEngines_logsOnly ?_ _ _, mapEngines_parts ..⟩
  exact ⟨⟨he.w, he.g, he.ecc, he.opmail⟩, he.mem, he.groups⟩

theorem store_logsOnly (s : State) (op p v : Nat) (bs : List Byte) : LogsOnly s (s.store op p v bs) := ⟨⟨rfl, rfl, rfl, rfl⟩, rfl, rfl⟩

section
variable {s : State} {q : MailReq} {bs d : List Byte} (R : OpRequest s q bs) (hop : field bs 0 4 = 16)
  (hd : s.physBytes (field bs 16 8) 64 = some d)
include R hop hd

/-- R386, R392: the records of the virtual functions that go with a rebuild can close, and the partition is built. -/
theorem pset_builds {u : State} (hb : s.buildPart (field bs 8 1) d = (1, u)) (hu : LogsOnly s u)
    (hclose : s.canCloseVfs (field bs 8 1) = true) : Answers .pset s q 1 fun t => t.parts = u.parts := by
  refine serveOp_keeps (f := fun _ => u.store 16 (field bs 8 1) 0 d) R hop rfl ?_ (by decide)
    (hu.trans (store_logsOnly u ..)).toKeepsRequest hu.mem (answerOp_parts ..)
  simp [hd, hb, hclose]

/-- R386, R388: a refusal's STATUS. -/
theorem pset_refuses {st : Nat} (hb : s.buildPart (field bs 8 1) d = (st + 1, s)) (h1 : st ≠ 0) (hst : st + 1 < 2 ^ 32) :
    Answers .pset s q (st + 1) fun t => t.parts = s.parts := by
  refine serveOp_refuses R hop rfl ?_ hst (answerOp_parts ..)
  simp [hd, hb, h1]

end

theorem buildPart_bad {s : State} {p : Nat} {d : List Byte} (h : 23 < p ∨ (partDescOf d).bad = true) : s.buildPart p d = (5, s) := by
  rcases h with h | h <;> simp [State.buildPart, h]

theorem buildPart_busy {s : State} {p : Nat} {d : List Byte} (hp : p < 24) (hbad : (partDescOf d).bad = false)
    (hbusy : s.partBusy p = true) : s.buildPart p d = (4, s) := by
  simp [State.buildPart, Nat.not_lt.mpr (Nat.le_of_lt_succ hp), hbad, hbusy]

/-! ### VSET -/

/-- R387: a virtual function as a descriptor sets it. -/
def VfDesc.setVf (d : VfDesc) (f : Vf) (kvw : Nat) (hbm cxl : List Nat) : Vf :=
  { f with
    slice := d.slice, passq := d.passq, hbmsh := d.hbmsh, cpysh := d.cpysh, fabq := d.fabq, kvq := d.kvq
    seqn := d.seqn, weight := d.weight, kvkey := d.kvkey, kvw := kvw, hbm := hbm, cxl := cxl }

/-- R387: a virtual function of a partition that differs from a given one in its KV free lists alone. -/
def HasVf (s : State) (p v : Nat) (x : Vf) : Prop := ∃ us l, s.vf? p v = some { x with kvUnits := us, freeKv := l }

/-- R387: as free lists grow, nothing else of a virtual function changes. -/
theorem growKv_grows {s : State} {p v : Nat} {x : Vf} (hx : HasVf s p v x) (kvq : Nat) (chips : List Nat) :
    LogsOnly s (s.growKv p v kvq chips) ∧ (s.growKv p v kvq chips).seqs = s.seqs ∧ HasVf (s.growKv p v kvq chips) p v x := by
  unfold State.growKv
  refine foldl_keeps (fun t => LogsOnly s t ∧ t.seqs = s.seqs ∧ HasVf t p v x) _ (fun t c ht => ?_) chips ⟨.refl s, rfl, hx⟩
  refine foldl_keeps (fun t => LogsOnly s t ∧ t.seqs = s.seqs ∧ HasVf t p v x) _ (fun t tier ht => ?_) [0, 1] ht
  obtain ⟨hlogs, hseqs, us, l, hf⟩ := ht
  simp only [hf]
  exact ⟨hlogs.trans ⟨⟨rfl, rfl, rfl, rfl⟩, rfl, rfl⟩, hseqs, _, _, vf?_mapVf_self hf fun _ => rfl⟩

/-- R388: what holds on of a running virtual function's rates is kept with its use of the chips. -/
theorem keepRates_keeps (s : State) (p : Nat) (f : Vf) (chips : List Nat) :
    LogsOnly s (s.keepRates p f chips) ∧ (s.keepRates p f chips).parts = s.parts ∧ (s.keepRates p f chips).seqs = s.seqs := by
  unfold State.keepRates
  refine foldl_keeps (fun t => LogsOnly s t ∧ t.parts = s.parts ∧ t.seqs = s.seqs) _ (fun t c ht => ?_) chips ⟨.refl s, rfl, rfl⟩
  exact ⟨ht.1.trans ⟨⟨rfl, rfl, rfl, rfl⟩, rfl, rfl⟩, ht.2⟩

/-- R387: a virtual function takes its place before the others of its partition, its free lists grow, and its sequence slots follow those
that stand. -/
theorem placeVf_sets {s t : State} {p : Nat} {y : Partition} (hy : s.part? p = some y)
    (ht : LogsOnly s t ∧ t.parts = s.parts ∧ t.seqs = s.seqs) (x : Vf) (sq : List Seq) (kvq : Nat) :
    let u : State := { t.mapPart p fun y => { y with vfs := x :: y.vfs.filter fun z => z.vf != x.vf } with seqs := t.seqs ++ sq }
    LogsOnly s (u.growKv p x.vf kvq y.chips) ∧ (u.growKv p x.vf kvq y.chips).seqs = s.seqs ++ sq
      ∧ HasVf (u.growKv p x.vf kvq y.chips) p x.vf x := by
  intro u
  obtain ⟨hlogs, hparts, hseqs⟩ := ht
  have hty : t.part? p = some y := by rw [State.part?, hparts]; exact hy
  have hu : u.part? p = some { y with vfs := x :: y.vfs.filter fun z => z.vf != x.vf } := part?_mapPart_self hty fun _ => rfl
  have hx : u.vf? p x.vf = some x := by rw [State.vf?, hu]; simp
  have hsu : LogsOnly s u := ⟨⟨hlogs.w, hlogs.g, hlogs.ecc, hlogs.opmail⟩, hlogs.mem, hlogs.groups⟩
  obtain ⟨hgrow, hsame, hhas⟩ := growKv_grows (s := u) ⟨x.kvUnits, x.freeKv, hx⟩ kvq y.chips
  exact ⟨hsu.trans hgrow, hsame.trans (congrArg (· ++ sq) hseqs), hhas⟩

/-- R387, R388: a virtual function in order is set to its descriptor, over what it was. -/
theorem buildVf_sets {s : State} {p v kvw : Nat} {d : List Byte} {y : Partition} {sq : List Seq} {hbm cxl : List Nat}
    (hy : s.part? p = some y) (hv : v < y.vfn) (hbad : (vfDescOf d).bad = false) (hk : s.chooseKvw p v (vfDescOf d) = some kvw)
    (hs : s.assignSeqs p v (vfDescOf d).seqn y.chips = some sq)
    (hh : shareOf (y.hbm.take (y.hbm.length - poolUnits y.fpool y.chips.length))
      ((y.vfs.filter fun f => f.vf != v).flatMap Vf.unitsUsed) (vfDescOf d).hbmv = some hbm)
    (hc : shareOf y.cxl ((y.vfs.filter fun f => f.vf != v).flatMap Vf.unitsUsed) (vfDescOf d).cxlv = some cxl) :
    ∃ u, s.buildVf p v d = (1, u) ∧ LogsOnly s u ∧ u.seqs = s.seqs ++ sq
      ∧ HasVf u p v ((vfDescOf d).setVf ((s.vf? p v).getD (Vf.fresh v s.clk.hub)) kvw hbm cxl) := by
  simp only [State.buildVf, hy, Nat.not_le.mpr hv, decide_false, hbad, Bool.or_self, Bool.false_eq_true, if_false, hk, hs, hh, hc]
  refine ⟨_, rfl, ?_⟩
  cases ho : s.vf? p v with
  | none =>
    exact placeVf_sets hy ⟨.refl s, rfl, rfl⟩ ((vfDescOf d).setVf (Vf.fresh v s.clk.hub) kvw hbm cxl) sq (vfDescOf d).kvq
  | some o =>
    obtain rfl := vf?_vf ho
    exact placeVf_sets hy (keepRates_keeps s p o y.chips) ((vfDescOf d).setVf o kvw hbm cxl) sq (vfDescOf d).kvq

theorem buildVf_bad {s : State} {p v : Nat} {d : List Byte} {y : Partition} (hy : s.part? p = some y)
    (h : y.vfn ≤ v ∨ (vfDescOf d).bad = true) : s.buildVf p v d = (5, s) := by
  rcases h with h | h <;> simp [State.buildVf, hy, h]

section
variable {s : State} {q : MailReq} {bs d : List Byte} (R : OpRequest s q bs) (hop : field bs 0 4 = 17)
  (hd : s.physBytes (field bs 16 8) 64 = some d)
include R hop hd

/-- R387: a virtual function is set. -/
theorem vset_sets {u : State} (hb : s.buildVf (field bs 8 1) (field bs 9 1) d = (1, u)) (hu : LogsOnly s u) :
    Answers .vset s q 1 fun t => t.seqs = u.seqs
      ∧ t.vf? (field bs 8 1) (field bs 9 1) = u.vf? (field bs 8 1) (field bs 9 1) := by
  refine serveOp_keeps (f := fun _ => u.store 17 (field bs 8 1) (field bs 9 1) d) R hop rfl ?_ (by decide)
    (hu.trans (store_logsOnly u ..)).toKeepsRequest hu.mem ⟨answerOp_seqs .., answerOp_vf? ..⟩
  simp [hd, hb]

/-- R387: a refusal's STATUS. -/
theorem vset_refuses {st : Nat} (hb : s.buildVf (field bs 8 1) (field bs 9 1) d = (st + 1, s)) (h1 : st ≠ 0) (hst : st + 1 < 2 ^ 32) :
    Answers .vset s q (st + 1) fun t => t.parts = s.parts := by
  refine serveOp_refuses R hop rfl ?_ hst (answerOp_parts ..)
  simp [hd, hb, h1]

end

end Sys2Proof.Machine
end

section
/-! SUPPORT. What the end of groups leaves of the module (R389, R146, R81). -/
namespace Sys2Proof.Machine

section
variable (s : State)

@[simp] theorem mapGroup_md (gid : Nat) (f : Group → Group) : (s.mapGroup gid f).md = s.md := by
  unfold State.mapGroup
  split
  · rfl
  · rfl

@[simp] theorem mapWarp_md (gid wid : Nat) (f : Warp → Warp) : (s.mapWarp gid wid f).md = s.md := by
  unfold State.mapWarp
  split
  · rfl
  · split
    · rfl
    · rfl

@[simp] theorem mapEngine_md (clu : Nat) (f : Engine → Engine) : (s.mapEngine clu f).md = s.md := rfl
@[simp] theorem unselect_md : s.unselect.md = s.md := rfl
@[simp] theorem setWord3_md (k w : Nat) : (s.setWord3 k w).md = s.md := rfl
@[simp] theorem meetPlace_md (k : Nat) (p : Party) : (s.meetPlace k p).md = s.md := rfl
@[simp] theorem meetSel_md (m : LaneMask) (p : Party) : (s.meetSel m p).md = s.md := rfl
@[simp] theorem passRegion_md (m : LaneMask) (h : Hold) : (s.passRegion m h).md = s.md := rfl

@[simp] theorem select_md (gid wid : Nat) : (s.select gid wid).md = s.md := by
  simp only [State.select]
  split
  · rfl
  · split
    · rfl
    · split
      · rfl
      · rfl

@[simp] theorem grant_md (q : ObjReq) : (s.grant q).md = s.md := by simp [State.grant]

@[simp] theorem serveObj_md (l : List ObjReq) (k : Nat) : (State.serveObj l k s).md = s.md := by
  induction l generalizing s with
  | nil => rfl
  | cons q l ih =>
    simp only [State.serveObj]
    split
    · split
      · rw [ih, grant_md]
      · rfl
    · exact ih s

@[simp] theorem release_md (h : Hold) : (s.release h).md = s.md := by simp [State.release]

@[simp] theorem withdrawReqs_md (t : ObjReq → Bool) : (s.withdrawReqs t).md = s.md :=
  foldl_keeps (fun u : State => u.md = s.md) (fun u k => State.serveObj u.objq k u) (fun u k hu => (serveObj_md u _ k).trans hu) _ rfl

@[simp] theorem endSeen_md (m : LaneMask) : (s.endSeen m).md = s.md := by
  unfold State.endSeen
  split
  · rfl
  · split
    · rfl
    · rfl

@[simp] theorem dropWarp_md : s.dropWarp.md = s.md := by
  have hheld : (s.w.holds.foldl (fun t h => (t.passRegion (BitVec.allOnes 64) h).release h) s).md = s.md :=
    foldl_keeps (fun t : State => t.md = s.md) (fun t h => (t.passRegion (BitVec.allOnes 64) h).release h)
      (fun t h ht => by rw [release_md, passRegion_md, ht]) _ rfl
  exact (withdrawReqs_md _ _).trans hheld

theorem on_md (gid wid : Nat) {f : State → State} (hf : ∀ t, (f t).md = t.md) : (s.on gid wid f).md = s.md := by
  simp [State.on, hf]

@[simp] theorem cancelWaits_md (gid : Nat) : (s.cancelWaits gid).md = s.md := by simp [State.cancelWaits]

/-- R146: ending a group's warps leaves the module. -/
@[simp] theorem clearGroup_md (gid : Nat) : (s.clearGroup gid).md = s.md := by
  unfold State.clearGroup
  split
  · rfl
  · next g _ =>
    have hwarps : (g.others.foldl (fun t w => t.on gid w.idx fun u => (u.endSeen u.w.live).dropWarp) s).md = s.md :=
      foldl_keeps (fun t : State => t.md = s.md) (fun t (w : Warp) => t.on gid w.idx fun u => (u.endSeen u.w.live).dropWarp)
        (fun t w ht => (on_md t gid w.idx fun u => by rw [dropWarp_md, endSeen_md]).trans ht) _ rfl
    simp [hwarps]

@[simp] theorem dropGroup_md (gid : Nat) : (s.dropGroup gid).md = s.md := by
  simp only [State.dropGroup]
  split
  · rfl
  · split
    · rfl
    · rfl

/-- R389: and so does ending every group of a partition. -/
@[simp] theorem endGroups_md (p : Nat) : (s.endGroups p).md = s.md :=
  foldl_keeps (fun t : State => t.md = s.md) (fun t i => (t.clearGroup i).dropGroup i)
    (fun t i ht => by rw [dropGroup_md, clearGroup_md, ht]) _ rfl

end

/-! ### Keys stay as a partition's records close -/

@[simp] theorem takeRing_keys (s : State) (p : Nat) : (s.takeRing p).md.keys = s.md.keys := by
  simp only [State.takeRing]
  split
  · rfl
  · split
    · rfl
    · rfl

theorem flushOne_keys (s : State) (p : Nat) : (s.flushOne p).md.keys = s.md.keys := by
  unfold State.flushOne
  split
  · rfl
  · rfl

theorem flushRing_keys (s : State) (p : Nat) : (s.flushRing p).md.keys = s.md.keys := by
  unfold State.flushRing
  generalize List.range 65 = l
  exact foldl_keeps (fun t : State => t.md.keys = s.md.keys) (fun t _ => t.flushOne p) (fun t _ ht => (flushOne_keys t p).trans ht) l rfl

@[simp] theorem closeRecord_keys (s : State) (p : Nat) (u : Usage) : (s.closeRecord p u).md.keys = s.md.keys := by
  unfold State.closeRecord
  rw [flushRing_keys]
  rfl

@[simp] theorem closeVfs_keys (s : State) (p : Nat) : (s.closeVfs p).md.keys = s.md.keys := by
  unfold State.closeVfs
  split
  · exact foldl_keeps (fun t : State => t.md.keys = s.md.keys) (fun t (f : Vf) => t.closeRecord p (Usage.ofVf f 2))
      (fun t f ht => (closeRecord_keys t p _).trans ht) _ rfl
  · rfl

end Sys2Proof.Machine
end

section
/-! SUPPORT. KLOAD and KCLR: which bytes a change of key pairs leaves free (R391, log 73). -/
namespace Sys2Proof.Machine

/-- A place that belongs to no view of some frames. -/
def ClearOf (fs : List Nat) (a : Nat) : Prop := ∀ f ∈ fs, ∀ no, a ∉ places (viewAt (f * 2 ^ 14) no) (2 ^ 14)

theorem ClearOf.mono {fs gs : List Nat} {a : Nat} (h : ClearOf fs a) (hs : gs ⊆ fs) : ClearOf gs a := fun f hf => h f (hs hf)

/-- What giving frames other key pairs leaves: what an answer needs, the keys, and every byte outside the frames. -/
structure Rekeyed (fs : List Nat) (s t : State) : Prop extends KeepsRequest s t where
  keys : t.md.keys = s.md.keys
  bytes : ∀ a, ClearOf fs a → t.rd a = s.rd a

theorem Rekeyed.refl (fs : List Nat) (s : State) : Rekeyed fs s s := ⟨.refl s, rfl, fun _ _ => rfl⟩
theorem Rekeyed.trans {fs : List Nat} {s t u : State} (h : Rekeyed fs s t) (k : Rekeyed fs t u) : Rekeyed fs s u :=
  ⟨h.toKeepsRequest.trans k.toKeepsRequest, k.keys.trans h.keys, fun a ha => (k.bytes a ha).trans (h.bytes a ha)⟩
theorem Rekeyed.mono {fs gs : List Nat} {s t : State} (h : Rekeyed gs s t) (hs : gs ⊆ fs) : Rekeyed fs s t :=
  ⟨h.toKeepsRequest, h.keys, fun a ha => h.bytes a (ha.mono hs)⟩

/-- The frame itself is its view of number 0. -/
theorem viewAt_zero (k : Nat) : viewAt k 0 = k := by simp [viewAt]

theorem writeBytes_rd_ne (s : State) {l : List (Nat × Byte)} {a : Nat} (h : ∀ p ∈ l, a ≠ p.1) :
    readByte (writeBytes s.mem l) a = s.rd a := rd_wrs_ne s h

theorem garble_rekeyed (s : State) {fs ks : List Nat} (hk : ∀ a, ClearOf fs a → a ∉ ks) : Rekeyed fs s (s.garble ks) := by
  unfold State.garble
  split
  · exact .refl fs s
  · refine ⟨⟨rfl, rfl, rfl, rfl⟩, rfl, fun a ha => writeBytes_rd_ne s fun p hp e => ?_⟩
    obtain ⟨b, hb, rfl⟩ := List.mem_map.mp hp
    exact hk a ha (e ▸ hb)

@[simp] theorem garble_md (s : State) (ks : List Nat) : (s.garble ks).md = s.md := by
  unfold State.garble
  split
  · rfl
  · rfl

theorem copyBytes_rekeyed (s : State) {fs : List Nat} {a n : Nat} (b : Nat) (h : ∀ k, ClearOf fs k → k ∉ places a n) :
    Rekeyed fs s (s.copyBytes a b n) :=
  ⟨⟨rfl, rfl, rfl, rfl⟩, rfl, fun k hk => writeBytes_rd_ne s fun _ hp e => h k hk (e ▸ (List.of_mem_zip hp).1)⟩

theorem noteView_rekeyed (s : State) {fs : List Nat} {f : Nat} (hf : f ∈ fs) (no : Nat) : Rekeyed fs s (s.noteView f no) :=
  copyBytes_rekeyed s _ fun _ hk => hk f hf (no + 512)

@[simp] theorem copyBytes_md (s : State) (a b n : Nat) : (s.copyBytes a b n).md = s.md := rfl
@[simp] theorem noteView_md (s : State) (f no : Nat) : (s.noteView f no).md = s.md := copyBytes_md ..

/-- What is noted of frames and key pairs lies in no byte. -/
theorem withNotes_rekeyed (fs : List Nat) (s : State) (keyed : List (Nat × Nat)) (views : List KeyView) :
    Rekeyed fs s { s with md := { s.md with keyed := keyed, views := views } } := ⟨⟨rfl, rfl, rfl, rfl⟩, rfl, fun _ _ => rfl⟩

theorem noteViews_rekeyed (s : State) {fs : List Nat} {f : Nat} (hf : f ∈ fs) (nos : List Nat) :
    Rekeyed fs s (nos.foldl (fun u j => u.noteView f j) s) :=
  foldl_keeps (Rekeyed fs s) (fun u j => u.noteView f j) (fun u j hu => hu.trans (noteView_rekeyed u hf j)) nos (.refl fs s)

/-! ### KLOAD -/

/-- R391: a frame that comes under a key pair. -/
theorem rekeyFrame_rekeyed (s : State) {fs : List Nat} {f : Nat} (hf : f ∈ fs) (n : Nat) : Rekeyed fs s (s.rekeyFrame n f) := by
  simp only [State.rekeyFrame]
  split
  · exact .refl fs s
  · split
    · exact withNotes_rekeyed ..
    · generalize ((List.drop 1 (List.range 512)).find? _).getD 1 = no
      have hg : Rekeyed fs s (s.garble (places (viewAt (f * 2 ^ 14) no) (2 ^ 14))) := garble_rekeyed s fun a ha => ha f hf no
      exact (hg.trans (withNotes_rekeyed ..)).trans (noteViews_rekeyed _ hf _)

theorem rekey_rekeyed (s : State) (fs : List Nat) (k : Nat) : Rekeyed fs s (s.rekey fs k) :=
  List.foldlRecOn fs _ (.refl fs s) fun t ht _ hf => ht.trans (rekeyFrame_rekeyed t hf _)

/-- R391: a KV block's frame that comes under a key pair alone. -/
theorem rekeyBlock_rekeyed (s : State) {fs : List Nat} {f : Nat} (hf : f ∈ fs) (k : Nat) : Rekeyed fs s (s.rekeyBlock f k) := by
  have hg : Rekeyed fs s (s.garble (framePlaces [f])) := garble_rekeyed s fun a ha hm =>
    ha f hf 0 (by simpa [framePlaces, viewAt_zero] using hm)
  simp only [State.rekeyBlock]
  split
  · exact hg.trans (withNotes_rekeyed ..)
  · exact withNotes_rekeyed ..

/-- R391: a key pair that is loaded stands before the others; the frames that name its slot are left open. -/
theorem putKey_loads (s : State) (k : KeySlot) : KeepsRequest s (s.putKey k) ∧ (s.putKey k).md.keys = k :: s.md.keys
    ∧ ∀ a, ClearOf (s.keyPages k ++ s.keyBlocks k) a → (s.putKey k).rd a = s.rd a := by
  let t : State := { s with md := { s.md with keys := k :: s.md.keys }, nextId := s.nextId + 1 }
  have hp : Rekeyed (s.keyPages k ++ s.keyBlocks k) t (t.rekey (s.keyPages k) k.slot) :=
    (rekey_rekeyed t (s.keyPages k) k.slot).mono (List.subset_append_left _ _)
  have hb : Rekeyed (s.keyPages k ++ s.keyBlocks k) t (s.putKey k) :=
    List.foldlRecOn (s.keyBlocks k) _ hp fun u hu f hf => hu.trans (rekeyBlock_rekeyed u (List.mem_append_right _ hf) _)
  exact ⟨⟨hb.w, hb.g, hb.ecc, hb.opmail⟩, hb.keys, hb.bytes⟩

/-! ### KCLR -/

/-- The frames that are seen under a slot's key pair, in any view. -/
def State.framesUnder (s : State) (k : KeySlot) : List Nat :=
  ((s.md.keyed.filter fun x => x.2 == k.serial).map Prod.fst) ++ (s.md.views.filter fun x => x.serial == k.serial).map KeyView.frame

/-- R391: what is stored under a key pair lies in the frames that are seen under it. -/
theorem notMem_underKey {s : State} {k : KeySlot} {a : Nat} (h : ClearOf (s.framesUnder k) a) : a ∉ s.underKey k := by
  simp only [State.underKey, framePlaces, List.mem_append, List.mem_flatMap, not_or, not_exists, not_and]
  refine ⟨fun f hf hm => ?_, fun x hx => ?_⟩
  · exact h f (List.mem_append_left _ hf) 0 (by rwa [viewAt_zero])
  · exact h x.frame (List.mem_append_right _ (List.mem_map_of_mem hx)) x.no

/-- What a slot that is scrambled leaves of the module's notes of keys. -/
theorem scramble_md (s : State) (k : KeySlot) : (s.scramble k).md = { s.md with
    keyed := s.md.keyed.filter fun x => x.2 != k.serial, views := s.md.views.filter fun x => x.serial != k.serial } := by
  have hn (fs : List Nat) : (fs.foldl (fun t f => t.noteView f 0) (s.garble (s.underKey k))).md = s.md :=
    foldl_keeps (fun t : State => t.md = s.md) (fun t f => t.noteView f 0) (fun t f ht => (noteView_md t f 0).trans ht) fs (garble_md ..)
  simp only [State.scramble, hn]

theorem scramble_rekeyed (s : State) (k : KeySlot) : Rekeyed (s.framesUnder k) s (s.scramble k) := by
  have hg : Rekeyed (s.framesUnder k) s (s.garble (s.underKey k)) := garble_rekeyed s fun a ha => notMem_underKey ha
  have hn : Rekeyed (s.framesUnder k) s
      (((s.md.keyed.filter fun x => x.2 == k.serial).map Prod.fst).foldl (fun t f => t.noteView f 0) (s.garble (s.underKey k))) :=
    List.foldlRecOn _ _ hg fun t ht f hf => ht.trans (noteView_rekeyed t (List.mem_append_left _ hf) 0)
  exact hn.trans (withNotes_rekeyed ..)

/-- What is no longer seen under one key pair is seen under no other for that. -/
theorem framesUnder_scramble_subset (s : State) (k j : KeySlot) : (s.scramble k).framesUnder j ⊆ s.framesUnder j := by
  unfold State.framesUnder
  rw [scramble_md]
  refine List.append_subset.mpr ⟨List.subset_append_of_subset_left _ ?_, List.subset_append_of_subset_right _ ?_⟩
  · exact List.map_subset _ (List.filter_sublist.filter _).subset
  · exact List.map_subset _ (List.filter_sublist.filter _).subset

theorem scrambleAll_rekeyed (l : List KeySlot) (s : State) : Rekeyed (l.flatMap s.framesUnder) s (l.foldl State.scramble s) := by
  induction l generalizing s with
  | nil => exact .refl _ s
  | cons k l ih =>
    refine Rekeyed.trans ((scramble_rekeyed s k).mono (List.subset_append_left _ _)) ((ih (s.scramble k)).mono fun f hf => ?_)
    obtain ⟨j, hj, hfj⟩ := List.mem_flatMap.mp hf
    exact List.mem_flatMap.mpr ⟨j, List.mem_cons_of_mem _ hj, framesUnder_scramble_subset s k j hfj⟩

/-- R389, R391: cleared slots go, and what is seen under their key pairs is left open. -/
theorem clearKeys_clears (s : State) (t : KeySlot → Bool) : KeepsRequest s (s.clearKeys t)
    ∧ (s.clearKeys t).md.keys = s.md.keys.filter (fun k => !t k)
    ∧ ∀ a, ClearOf ((s.md.keys.filter t).flatMap s.framesUnder) a → (s.clearKeys t).rd a = s.rd a := by
  have h := scrambleAll_rekeyed (s.md.keys.filter t) s
  exact ⟨⟨h.w, h.g, h.ecc, h.opmail⟩, congrArg (List.filter fun k => !t k) h.keys, h.bytes⟩

/-! ### The requests -/

section
variable {s : State} {q : MailReq} {bs : List Byte} (R : OpRequest s q bs)
include R

/-- R391: a key pair is loaded into a free slot. -/
theorem kload_loads (hop : field bs 0 4 = 20) {f : Vf} {k : BitVec 512} (hslot : field bs 8 1 ≠ 0) (hmode : field bs 11 1 < 2)
    (hf : s.vf? (field bs 9 1) (field bs 10 1) = some f) (hfree : ∀ k ∈ s.md.keys, k.slot ≠ field bs 8 1)
    (hk : s.newKey (field bs 9 1) (field bs 11 1) (field bs 16 8) = some k) :
    let z : KeySlot := ⟨field bs 8 1, field bs 9 1, field bs 10 1, k, s.nextId + 1⟩
    Done .kload s q fun t => t.md.keys = z :: s.md.keys ∧ readLE t.mem (places (q.addr + 4) 4) = 1
      ∧ ∀ a, (a < q.addr + 4 ∨ q.addr + 8 ≤ a) → ClearOf (s.keyPages z ++ s.keyBlocks z) a → t.rd a = s.rd a := by
  intro z
  obtain ⟨hkeeps, hkeys, hbytes⟩ := putKey_loads s z
  have hany : s.md.keys.any (fun k => k.slot == field bs 8 1) = false := List.any_eq_false.mpr fun k hm => by simpa using hfree k hm
  refine serveOp_done (st := 0) R hop rfl
    (f := fun t => (t.putKey ⟨field bs 8 1, field bs 9 1, field bs 10 1, k, t.nextId + 1⟩).bumpGen (if field bs 11 1 = 0 then 1 else 0))
    ?_ (by decide) ⟨hkeeps.w, hkeeps.g, hkeeps.ecc, hkeeps.opmail⟩ (State.wf_putKey R.inv) fun hst => ⟨?_, hst, fun a ha hc => ?_⟩
  · simp [hslot, Nat.not_lt.mpr (Nat.le_of_lt_succ hmode), hf, hany, hk]
  · rw [answerOp_md]
    exact hkeys
  · rw [answerOp_rd _ _ _ ha]
    exact hbytes a hc

/-- R391: a slot that is taken is not loaded again. -/
theorem kload_busy (hop : field bs 0 4 = 20) {f : Vf} {k : KeySlot} (hslot : field bs 8 1 ≠ 0) (hmode : field bs 11 1 < 2)
    (hf : s.vf? (field bs 9 1) (field bs 10 1) = some f) (hk : k ∈ s.md.keys) (hs : k.slot = field bs 8 1) :
    Answers .kload s q 4 fun t => t.md.keys = s.md.keys := by
  have hany : s.md.keys.any (fun k => k.slot == field bs 8 1) = true := List.any_eq_true.mpr ⟨k, hk, by simpa using hs⟩
  refine serveOp_refuses R hop rfl ?_ (by decide) (by rw [answerOp_md])
  simp [hslot, Nat.not_lt.mpr (Nat.le_of_lt_succ hmode), hf, hany]

/-- R391: a slot that nothing names, or one whose clearing is forced, is cleared. -/
theorem kclr_clears (hop : field bs 0 4 = 21) (hslot : field bs 8 1 ≠ 0)
    (hfree : (field bs 9 1).testBit 0 = true ∨ ∀ k ∈ s.md.keys, k.slot = field bs 8 1 → s.keyUsed k = false) :
    Done .kclr s q fun t => t.md.keys = s.md.keys.filter (fun k => k.slot != field bs 8 1) ∧ readLE t.mem (places (q.addr + 4) 4) = 1
      ∧ ∀ a, (a < q.addr + 4 ∨ q.addr + 8 ≤ a) → ClearOf ((s.md.keys.filter fun k => k.slot == field bs 8 1).flatMap s.framesUnder) a →
        t.rd a = s.rd a := by
  obtain ⟨hkeeps, hkeys, hbytes⟩ := clearKeys_clears s fun k => k.slot == field bs 8 1
  have hused : (!(field bs 9 1).testBit 0 && s.md.keys.any fun k => k.slot == field bs 8 1 && s.keyUsed k) = false := by
    rcases hfree with h | h
    · simp [h]
    · rw [Bool.and_eq_false_iff, List.any_eq_false]
      exact .inr fun k hk => by simpa using h k hk
  refine serveOp_done (st := 0) R hop rfl (f := fun t => t.clearKeys fun k => k.slot == field bs 8 1)
    ?_ (by decide) hkeeps (State.wf_clearKeys R.inv) fun hst => ⟨?_, hst, fun a ha hc => ?_⟩
  · simp only [hslot, hused, Bool.false_eq_true, if_false]
  · rw [answerOp_md]
    exact hkeys
  · rw [answerOp_rd _ _ _ ha]
    exact hbytes a hc

/-- R391: a slot that something names is kept. -/
theorem kclr_busy (hop : field bs 0 4 = 21) {k : KeySlot} (hslot : field bs 8 1 ≠ 0) (hb : (field bs 9 1).testBit 0 = false)
    (hk : k ∈ s.md.keys) (hs : k.slot = field bs 8 1) (hu : s.keyUsed k = true) :
    Answers .kclr s q 4 fun t => t.md.keys = s.md.keys := by
  have hused : (!(field bs 9 1).testBit 0 && s.md.keys.any fun k => k.slot == field bs 8 1 && s.keyUsed k) = true := by
    rw [hb, Bool.not_false, Bool.true_and, List.any_eq_true]
    exact ⟨k, hk, by simp [hs, hu]⟩
  refine serveOp_refuses R hop rfl ?_ (by decide) (by rw [answerOp_md])
  simp only [hslot, hused, if_true, if_false]

end

end Sys2Proof.Machine
end

section
/-! SUPPORT. ENROLL, LSIGN, HFREE and PDEL, and what the end of a partition leaves (R71, R385, R389, R394). -/
namespace Sys2Proof.Machine

/-! ### Hub slots that are freed -/

theorem freeHubsOf_hubOnly (l : List HubSlot) (s : State) : HubOnly s (l.foldl (fun t h => t.freeHub h.idx) s) :=
  foldl_keeps (HubOnly s) (fun t (h : HubSlot) => t.freeHub h.idx) (fun t h ht => ht.trans (freeHub_hubOnly t h.idx)) l (.refl s)

/-- R71: a slot stays held where none of its number is freed. -/
theorem freeHubsOf_hub (l : List HubSlot) (s : State) :
    (l.foldl (fun t h => t.freeHub h.idx) s).hub = s.hub.filter fun h => l.all fun o => o.idx != h.idx := by
  induction l generalizing s with
  | nil => simp
  | cons o l ih =>
    refine (ih (s.freeHub o.idx)).trans ?_
    rw [freeHub_hub, List.filter_filter]
    refine List.filter_congr fun h _ => ?_
    rw [List.all_cons, Bool.and_comm, bne_comm]

theorem freeHubs_hubOnly (s : State) (p v : Nat) (t : Nat → Bool) : HubOnly s (s.freeHubs p v t) := freeHubsOf_hubOnly _ s

theorem freeHubs_hub (s : State) (p v : Nat) (t : Nat → Bool) : (s.freeHubs p v t).hub = s.hub.filter fun h =>
    s.hub.all fun o => o.idx != h.idx || !(o.part == p && o.vf == v && t o.idx) := by
  refine (freeHubsOf_hub _ s).trans (List.filter_congr fun h _ => ?_)
  rw [List.all_filter]
  congr 1
  funext o
  cases o.idx != h.idx <;> cases (o.part == p && o.vf == v && t o.idx) <;> rfl

theorem HubOnly.keepsRequest {s t : State} (h : HubOnly s t) : KeepsRequest s t := by
  constructor <;> rw [h.rest]

/-! ### The end of a partition -/

/-- R389: a place that is zeroed reads as zero. -/
theorem readByte_filter_zero {m : List Host.Cell} {z : Nat → Bool} {a : Nat} (h : z a = true) :
    readByte (m.filter fun c => !z c.1) a = 0 := by
  have hl : (m.filter fun c => !z c.1).lookup a = none := List.lookup_eq_none_iff.mpr fun c hc => by
    rw [bne_iff_ne]
    rintro rfl
    simp [h] at hc
  rw [readByte, hl]
  rfl

section
variable (s : State) {y : Partition} {p : Nat} (hp : y.idx = p)
include hp

theorem dropPart_part? : (s.dropPart y).part? p = none := by
  subst hp
  simp [State.dropPart, State.part?, List.find?_eq_none]

theorem dropPart_kv : ∀ k ∈ (s.dropPart y).kv, k.part ≠ p := by
  subst hp
  intro k hk
  simpa using (List.mem_filter.mp hk).2

theorem dropPart_seqs : ∀ k ∈ (s.dropPart y).seqs, k.part ≠ p := by
  subst hp
  intro k hk
  simpa using (List.mem_filter.mp hk).2

theorem dropPart_hub : ∀ h ∈ (s.dropPart y).hub, h.part ≠ p := by
  subst hp
  intro h hh he
  have hf : h ∈ ((s.hub.filter fun h => h.part == y.idx).foldl (fun t h => t.freeHub h.idx) s).hub := hh
  rw [freeHubsOf_hub] at hf
  obtain ⟨hm, hall⟩ := List.mem_filter.mp hf
  have := List.all_eq_true.mp hall h (List.mem_filter.mpr ⟨hm, by simpa using he⟩)
  simp at this

end

theorem dropPart_keys (s : State) (y : Partition) : (s.dropPart y).md.keys = s.md.keys := by
  show ((s.hub.filter fun h => h.part == y.idx).foldl (fun t h => t.freeHub h.idx) s).md.keys = s.md.keys
  rw [(freeHubsOf_hubOnly _ s).rest]

theorem dropPart_zeroes (s : State) {y : Partition} {a : Nat} (h : y.zeroes a = true) : (s.dropPart y).rd a = 0 := readByte_filter_zero h

/-- R389: a partition's ring, groups, records and keys go before what the module keeps for its virtual functions. -/
def State.clearedPart (s : State) (p : Nat) : State := (((s.takeRing p).endGroups p).closeVfs p).clearKeys fun k => k.part == p

theorem clearedPart_keys (s : State) (p : Nat) : (s.clearedPart p).md.keys = s.md.keys.filter fun k => k.part != p := by
  unfold State.clearedPart
  obtain ⟨-, hkeys, -⟩ := clearKeys_clears (((s.takeRing p).endGroups p).closeVfs p) fun k => k.part == p
  rw [hkeys, closeVfs_keys, endGroups_md, takeRing_keys]
  rfl

/-! ### The requests -/

/-- R385: a log under the key that a partition's number is enrolled with. -/
def PartLog.enrolled (key : BitVec 768) (x : PartLog) : PartLog := { x with pubkey := key }

section
variable {s : State} {q : MailReq} {bs : List Byte} (R : OpRequest s q bs)
include R

/-- R385: a partition's number is enrolled with a key. -/
theorem enroll_enrolls (hop : field bs 0 4 = 19) {d : List Byte} (hd : s.physBytes (field bs 16 8) 96 = some d) (hp : field bs 8 1 < 24) :
    Answers .enroll s q 1 fun t => (t.logOf (field bs 8 1)).pubkey = BitVec.ofNat 768 (beNat d)
      ∧ (t.logOf (field bs 8 1)).events = (s.logOf (field bs 8 1)).events ∧ ∀ o, o ≠ field bs 8 1 → t.logOf o = s.logOf o := by
  let key : BitVec 768 := BitVec.ofNat 768 (beNat d)
  refine serveOp_keeps (f := fun t => (t.mapLog (field bs 8 1) (PartLog.enrolled key)).store 19 (field bs 8 1) 0 d) R hop rfl ?_
    (by decide) ⟨rfl, rfl, rfl, rfl⟩ rfl ?_
  · simp only [hd, Nat.not_lt.mpr (Nat.le_of_lt_succ hp), if_false]
    rfl
  · have hself : ((s.mapLog (field bs 8 1) (PartLog.enrolled key)).store 19 (field bs 8 1) 0 d).logOf (field bs 8 1)
        = (s.logOf (field bs 8 1)).enrolled key := logOf_mapLog_self s _ fun _ => rfl
    simp only [answerOp_logOf, hself]
    exact ⟨rfl, rfl, fun o ho => logOf_mapLog_ne s ho (f := PartLog.enrolled key) fun _ => rfl⟩

/-- R394: a mark closes in the log of a partition without a ring. -/
theorem lsign_marks (hop : field bs 0 4 = 22) {y : Partition} (hy : s.part? (field bs 8 1) = some y) (hr : y.ring = none)
    (hc : s.canClose (field bs 8 1) = true) : Answers .lsign s q 1 fun t =>
      (t.logOf (field bs 8 1)).seq = (s.logOf (field bs 8 1)).seq + 1
      ∧ (t.logOf (field bs 8 1)).closed.length = (s.logOf (field bs 8 1)).closed.length + 1 := by
  have hring : NoRing s (field bs 8 1) := fun z hz => by
    cases hy.symm.trans hz
    exact hr
  obtain ⟨b, d, hclose⟩ := hring.closeRecord Usage.mark
  refine serveOp_keeps (f := fun t => t.closeRecord (field bs 8 1) Usage.mark) R hop rfl ?_ (by decide) ?_ ?_ ?_
  · simp [hy, hc]
  · rw [hclose]
    exact (mapLog_logsOnly s _ _).toKeepsRequest
  · rw [hclose]
    rfl
  · rw [answerOp_logOf, hclose, logOf_mapLog_self s _ (f := fun x => x.closing b d) fun _ => rfl]
    exact ⟨rfl, List.length_append⟩

/-- R71, R385: the slots of a virtual function that the request names are freed. -/
theorem hfree_frees (hop : field bs 0 4 = 24) {f : Vf} (hf : s.vf? (field bs 8 1) (field bs 9 1) = some f) :
    Answers .hfree s q 1 fun t => t.hub = s.hub.filter fun h => s.hub.all fun o =>
      o.idx != h.idx || !(o.part == field bs 8 1 && o.vf == field bs 9 1 && (field bs 16 8).testBit o.idx) := by
  have hfree := freeHubs_hubOnly s (field bs 8 1) (field bs 9 1) (field bs 16 8).testBit
  refine serveOp_keeps (f := fun t => t.freeHubs (field bs 8 1) (field bs 9 1) (field bs 16 8).testBit) R hop rfl ?_ (by decide)
    hfree.keepsRequest hfree.mem ?_
  · simp [hf]
  · rw [answerOp_hub, freeHubs_hub]

/-- R389: a partition is deleted, with its keys, blocks, slots and bytes. -/
theorem pdel_deletes (hop : field bs 0 4 = 18) {y : Partition} (hy : s.part? (field bs 8 1) = some y)
    (hc : (s.logOf (field bs 8 1)).closed.length + y.vfs.length ≤ 64) : Goes (exec .pdel s) fun t => t.part? (field bs 8 1) = none
      ∧ t.md.keys = s.md.keys.filter (fun k => k.part != field bs 8 1) ∧ (∀ k ∈ t.kv, k.part ≠ field bs 8 1)
      ∧ (∀ k ∈ t.seqs, k.part ≠ field bs 8 1) ∧ (∀ h ∈ t.hub, h.part ≠ field bs 8 1)
      ∧ ∀ a, y.zeroes a = true → (a < q.addr + 4 ∨ q.addr + 8 ≤ a) → t.rd a = 0 := by
  have hidx := part?_idx hy
  have hclose : s.canCloseVfs (field bs 8 1) = true := by simpa [State.canCloseVfs, hy] using hc
  have hgo : exec .pdel s = .next (((s.clearedPart (field bs 8 1)).dropPart y).answerOp q 1) :=
    serveOp_answers (st := 0) R hop (f := fun t => (t.clearedPart (field bs 8 1)).dropPart y) (by simp [hy, hclose, State.clearedPart])
  rw [hgo, goes_iff]
  simp only [answerOp_part?, answerOp_md, answerOp_kv, answerOp_seqs, answerOp_hub]
  exact ⟨dropPart_part? _ hidx, (dropPart_keys ..).trans (clearedPart_keys ..), dropPart_kv _ hidx, dropPart_seqs _ hidx,
    dropPart_hub _ hidx, fun a ha hout => (answerOp_rd _ _ _ hout).trans (dropPart_zeroes _ ha)⟩

end

end Sys2Proof.Machine
end

section
open Sys2Proof Sys2Proof.Machine

/-- Settles O51: each request that is in order is served, and its answer writes STATUS alone (`serveOp_keeps`, `serveOp_done`); what its
change leaves is said OP by OP: `buildPart_builds`, `buildVf_sets`, `pdel_deletes`, `enroll_enrolls`, `putKey_loads`, `clearKeys_clears`,
`lsign_marks` and `freeHubs_hub`. -/
theorem operatorRequests : Obligations.OperatorRequests := by
  unfold Obligations.OperatorRequests
  intro s q rest bs d y hq hi hfree hal hbytes
  have R : OpRequest s q bs := ⟨⟨rest, hq⟩, hi, hfree, hal, hbytes⟩
  refine ⟨?pset, ?psetBad, ?psetBusy, ?vset, ?vsetBad, fun hop hy hc => pdel_deletes R hop hy hc,
    fun hop hd hp => enroll_enrolls R hop hd hp, ?generated, ?imported, ?taken, ?kclr, ?kclrUsed, fun hop hy hr hc => lsign_marks R hop hy hr hc, fun f hop hf => hfree_frees R hop hf, ?reset⟩
  case pset =>
    intro hbm cxl hop hd hp hbad hidle hclu hh hc hs hclose _
    obtain ⟨u, hb, hu, hparts⟩ := buildPart_builds hp hbad hidle hclu hh hc hs
    exact (pset_builds R hop hd hb hu hclose).mono fun t ht => ht.trans hparts
  case psetBad => exact fun hop hd h => pset_refuses R hop hd (buildPart_bad h) (by decide) (by decide)
  case psetBusy => exact fun hop hd hp hbad hbusy => pset_refuses R hop hd (buildPart_busy hp hbad hbusy) (by decide) (by decide)
  case vset =>
    intro kvw sq hbm cxl hop hd hy hv hbad hk hs ⟨hh, hc⟩
    obtain ⟨u, hb, hu, hseqs, us, l, hvf⟩ := buildVf_sets hy hv hbad hk hs hh hc
    refine (vset_sets R hop hd hb hu).mono fun t ⟨hts, htv⟩ => ⟨hts.trans hseqs, _, htv.trans hvf, rfl, rfl, rfl, rfl, rfl, rfl, rfl, ?_⟩
    intro o ho
    simp only [ho]
    exact ⟨rfl, rfl, rfl⟩
  case vsetBad => exact fun hop hd hy h => vset_refuses R hop hd (buildVf_bad hy h) (by decide) (by decide)
  case generated =>
    intro f hop hslot hmode hf hfree
    exact kload_loads R hop hslot (by omega) hf hfree (by simp [State.newKey, hmode])
  case imported =>
    intro f k hop hslot hmode hf hfree hd hk
    exact kload_loads R hop hslot (by omega) hf hfree (by simp [State.newKey, hmode, hd, hk])
  case taken => exact fun f k hop hslot hmode hf hk hs => kload_busy R hop hslot hmode hf hk hs
  case kclr =>
    intro hop hslot h
    refine (kclr_clears R hop hslot h).mono fun t ⟨⟨hkeys, hst, hrd⟩, hrest⟩ => ⟨⟨hkeys, hst, fun a ha hc => hrd a ha ?_⟩, hrest⟩
    intro f hf
    obtain ⟨k, hk, hfk⟩ := List.mem_flatMap.mp hf
    obtain ⟨hm, hs⟩ := List.mem_filter.mp hk
    exact hc k hm (by simpa using hs) f hfk
  case kclrUsed => exact fun k hop hslot hb hk hs hu => kclr_busy R hop hslot hb hk hs hu
  case reset =>
    intro pt vf
    have h := freeHubs_hubOnly s pt vf fun _ => true
    refine ⟨_, rfl, h.w, h.mem, ?_⟩
    rw [freeHubs_hub]
    simp only [Bool.and_true]
end


section
/-! SUPPORT. What a fence shows, and to whom (R73, R77, R78). -/
namespace Sys2Proof.Machine

/-! ### Showing accesses to a party -/

theorem State.show_ids (s : State) (t : MemOp → Acc → Bool) (p : Party) : (s.show t p).pend.map MemOp.id = s.pend.map MemOp.id := by
  simp [State.show, Function.comp_def]

/-- An access that has been shown to a party where a test holds is one of before, with the party before those that saw it. -/
theorem State.exists_of_mem_show {s : State} {t : MemOp → Acc → Bool} {p : Party} {o : MemOp} {a : Acc}
    (ho : o ∈ (s.show t p).pend) (ha : a ∈ o.accs) :
    ∃ q ∈ s.pend, q.kind = o.kind ∧ ∃ b ∈ q.accs, a.seen = if t q b then p :: b.seen else b.seen := by
  obtain ⟨q, hq, rfl⟩ := List.mem_map.mp ho
  obtain ⟨b, hb, rfl⟩ := List.mem_map.mp ha
  refine ⟨q, hq, rfl, b, hb, ?_⟩
  split <;> rfl

/-- R78: whether an access binds lanes depends on the parties other than those of fences that it is shown to. -/
theorem Acc.binds_congr {a b : Acc} {sc c g core gid wid : Nat} {m : LaneMask} {x : Bool}
    (h : a.seen = if x then .fenced sc c g :: b.seen else b.seen) : a.binds core gid wid m = b.binds core gid wid m := by
  cases x <;> simp [Acc.binds, h]

/-! ### The two parts of a fence -/

/-- R78: what the lanes see is shown to the fence's parties. -/
theorem State.fenced_mem_showFenced {s : State} {sc : Nat} {m : LaneMask} {o : MemOp} {a : Acc} (ho : o ∈ (s.showFenced sc m).pend)
    (ha : a ∈ o.accs) (hw : MKind.writes o.kind = true) (hb : a.binds s.coreNo s.g.id s.w.idx m = true) :
    .fenced sc s.coreNo s.g.id ∈ a.seen := by
  obtain ⟨q, -, hk, b, -, hseen⟩ := State.exists_of_mem_show ho ha
  have hbinds := Acc.binds_congr (core := s.coreNo) (gid := s.g.id) (wid := s.w.idx) (m := m) hseen
  rw [hseen, hk, hw, ← hbinds, hb]
  simp

/-- A party other than a fence's own that sees an access behind the fence saw it before. -/
theorem State.exists_of_mem_showFenced {s : State} {sc : Nat} {m : LaneMask} {o : MemOp} {a : Acc} {p : Party}
    (ho : o ∈ (s.showFenced sc m).pend) (ha : a ∈ o.accs) (hp : p ∈ a.seen) (hne : p ≠ .fenced sc s.coreNo s.g.id) :
    ∃ q ∈ s.pend, ∃ b ∈ q.accs, p ∈ b.seen ∧ ∀ x ∈ b.seen, x ∈ a.seen := by
  obtain ⟨q, hq, -, b, hb, hseen⟩ := State.exists_of_mem_show ho ha
  refine ⟨q, hq, b, hb, ?_, fun x hx => ?_⟩
  · rw [hseen] at hp
    split at hp
    · exact (List.mem_cons.mp hp).resolve_left hne
    · exact hp
  · rw [hseen]
    split
    · exact List.mem_cons_of_mem _ hx
    · exact hx

/-- R78: the lanes take in what another fence has shown to a scope that they lie in, where their scope takes in its lane. -/
theorem State.party_mem_takeFenced {s : State} {sc : Nat} {m : LaneMask} {o : MemOp} {a : Acc} {b c g : Nat}
    (ho : o ∈ (s.takeFenced sc m).pend) (ha : a ∈ o.accs) (hf : .fenced b c g ∈ a.seen)
    (hin : scopeMeets b c g s.coreNo s.g.id = true) (hout : scopeMeets sc s.coreNo s.g.id c g = true) : s.party m ∈ a.seen := by
  obtain ⟨q, -, -, x, -, hseen⟩ := State.exists_of_mem_show ho ha
  rw [hseen] at hf ⊢
  split
  · exact List.mem_cons_self
  · next hno =>
    rw [if_neg hno] at hf
    exact absurd (List.any_eq_true.mpr ⟨_, hf, by simp [hin, hout]⟩) hno

/-! ### Where a fence goes on -/

/-- What holds of the state `t` behind a fence of scope `sc` (R77, R78). -/
structure Fenced (s t : State) (r : Run) (sc : Nat) : Prop where
  runs : RunsOn s t r 4
  machine : t = { s with w := t.w, pend := t.pend }
  ids : t.pend.map MemOp.id = s.pend.map MemOp.id
  shown : ∀ o ∈ t.pend, MKind.writes o.kind = true → ∀ a ∈ o.accs, a.binds s.coreNo s.g.id s.w.idx r.lanes = true →
    .fenced sc s.coreNo s.g.id ∈ a.seen
  taken : ∀ o ∈ t.pend, ∀ a ∈ o.accs, ∀ b c g, .fenced b c g ∈ a.seen → (b, c, g) ≠ (sc, s.coreNo, s.g.id) →
    scopeMeets b c g s.coreNo s.g.id = true → scopeMeets sc s.coreNo s.g.id c g = true → s.party r.lanes ∈ a.seen

theorem fenced_advance {s : State} {r : Run} (h : s.w.run = some r) (sc : Nat) :
    Fenced s (advance 4 ((s.takeFenced sc r.lanes).showFenced sc r.lanes)) r sc where
  runs := advance_runsOn 4 h rfl
  machine := by rw [advance_frame]; rfl
  ids := by rw [advance_pend, State.showFenced, State.show_ids, State.takeFenced, State.show_ids]
  shown o ho hw a ha hb := by
    rw [advance_pend] at ho
    exact State.fenced_mem_showFenced (s := s.takeFenced sc r.lanes) ho ha hw hb
  taken o ho a ha b c g hf hne hin hout := by
    rw [advance_pend] at ho
    obtain ⟨q, hq, x, hx, hfx, hsub⟩ := State.exists_of_mem_showFenced ho ha hf fun e => hne (by injection e with h1 h2 h3; rw [h1, h2, h3]; rfl)
    exact hsub _ (State.party_mem_takeFenced hq hx hfx hin hout)

theorem mem_mine {s : State} {m : LaneMask} {o : MemOp} :
    o ∈ s.mine m ↔ o ∈ s.pend ∧ o.gid = s.g.id ∧ o.wid = s.w.idx ∧ o.lanes &&& m ≠ 0 := by
  simp [State.mine, and_assoc]

/-- R77: no load of the lanes is outstanding, and none of their values is on its way. -/
theorem loading_eq_false {s : State} {m : LaneMask}
    (hl : ∀ l ∈ s.landing, l.gid = s.g.id → l.wid = s.w.idx → l.lanes &&& m = 0)
    (hp : ∀ o ∈ s.mine m, o.failed = none → o.isLoad = false) : s.loading m = false := by
  refine Bool.or_eq_false_iff.mpr ⟨List.any_eq_false.mpr fun o ho => ?_, List.any_eq_false.mpr fun l hm => ?_⟩
  · cases hf : o.failed with
    | none => simp [hp o ho hf]
    | some _ => simp
  · simpa using hl l hm

/-- R77: a fence of lanes with no load outstanding. -/
theorem fence_goes {i : Instr} {s : State} {r : Run} {sc : Nat} (hn : i.info.len = 4) (hi : Issues i s r) (hl : s.loading r.lanes = false) :
    Goes (fence i s sc) fun t => Fenced s t r sc := by
  refine issue_goes hi (t := (s.takeFenced sc r.lanes).showFenced sc r.lanes) (by simp [hl]) ?_
  rw [hn]
  exact fenced_advance hi.1 sc

/-- R58, R77: a `fence.sys` of lanes with nothing outstanding but what is deferred, and no write that has failed. -/
theorem fenceSys_goes {s : State} {r : Run} (hi : Issues .fenceSys s r) (hl : s.loading r.lanes = false)
    (hfail : ∀ o ∈ s.mine r.lanes, o.failed ≠ none → o.kind ≠ .store ∧ o.kind ≠ .release)
    (hdef : ∀ o ∈ s.mine r.lanes, o.failed = none → o.deferred = true) : Goes (execFenceSys s) fun t => Fenced s t r 3 := by
  have hlost : ((s.mine r.lanes).filter fun o => o.failed.isSome && (MKind.isStore o.kind || MKind.isRelease o.kind)) = [] := by
    refine List.filter_eq_nil_iff.mpr fun o ho hc => ?_
    obtain ⟨hf, hk⟩ := Bool.and_eq_true_iff.mp hc
    obtain ⟨hs, hr⟩ := hfail o ho (Option.isSome_iff_ne_none.mp hf)
    cases hkind : o.kind with
    | store => exact hs hkind
    | release => exact hr hkind
    | load _ _ => simp [hkind, MKind.isStore, MKind.isRelease] at hk
    | atomic _ _ _ _ _ => simp [hkind, MKind.isStore, MKind.isRelease] at hk
  have hout : ((s.mine r.lanes).any fun o => o.failed.isNone && !o.deferred) = false := by
    refine List.any_eq_false.mpr fun o ho => ?_
    cases hf : o.failed with
    | none => simp [hdef o ho hf]
    | some _ => simp
  exact issue_goes hi (t := (s.takeFenced 3 r.lanes).showFenced 3 r.lanes) (by simp [hlost, hl, hout]) (fenced_advance hi.1 3)

end Sys2Proof.Machine
end

section
open Sys2Proof Sys2Proof.Machine
/-- Settles O27: with no load outstanding a fence goes on (`fence_goes`, `fenceSys_goes`), and shows what `Fenced` says. -/
theorem fences : Obligations.Fences := by
  unfold Obligations.Fences
  intro s r m mine landed after shows
  have hafter {sc : Nat} {t : State} (h : Fenced s t r sc) : after sc t := ⟨h.runs, h.machine, h.ids, h.shown, h.taken⟩
  have hshows {i : Instr} {sc : Nat} (he : exec i s = fence i s sc) (hn : i.info.len = 4) : shows i sc := by
    intro hi hland hload
    rw [he]
    refine (fence_goes hn hi (loading_eq_false hland fun o ho hf => ?_)).mono fun _ => hafter
    exact hload o (mem_mine.mp ho).1 (mem_mine.mp ho).2 hf
  refine ⟨hshows rfl rfl, hshows rfl rfl, hshows rfl rfl, fun hi hland hout => ?_⟩
  have hq (o : MemOp) (ho : o ∈ s.mine m) := hout o (mem_mine.mp ho).1 (mem_mine.mp ho).2
  refine (fenceSys_goes hi (loading_eq_false hland fun o ho hf => ?_) (fun o ho hf => ?_) fun o ho hf => ?_).mono fun _ => hafter
  · exact (if_pos hf ▸ hq o ho).2
  · have h := hq o ho
    rwa [if_neg hf] at h
  · exact (if_pos hf ▸ hq o ho).1
end

section
/-! SUPPORT. A bind of a synchronisation object, whose instruction is 8 bytes long: a word and its EX word (R246). -/
namespace Sys2Proof.Machine
open Sys2Proof.Tests

/-- `sobind.grp.shr v1, [v2], 0, s6`: the free object of `stB` is bound to the bytes from offset 0 of the shared segment. -/
def grpBind : Instr := .sobindGrp (.v 2) (.k 0) .shr (.s 6) (.v 1)

theorem grpBind_issues : Issues grpBind stB run2 := ⟨rfl, by decide⟩

/-- The run goes on behind both words of the bind. -/
theorem grpBind_after : ∃ t, exec grpBind stB = .next t ∧ t.w.run = some (run2.behind 8) := ⟨_, rfl, by decide⟩
end Sys2Proof.Machine
end

section
open Sys2Proof Sys2Proof.Machine Sys2Proof.Tests
/-- Refutes O26: the statement has the run go on 4 bytes behind a bind, but `sobind` has an EX word and is 8 bytes long (R246): in
`stB` the run goes on at `run2.pc + 8` (`grpBind_after`). -/
theorem not_objectInstructions : ¬ Obligations.ObjectInstructions := by
  unfold Obligations.ObjectInstructions
  intro h
  obtain ⟨hbind, -⟩ := h stB run2 (.v 2) (.k 0) (.s 6) (.v 1) .shr .shr
  obtain ⟨-, hinv, hcheck, hexcl, hshared, hregion, hmeets, -⟩ := wit_ObjectInstructions
  obtain ⟨t, ht, -, -, -, -, hrun, -⟩ := hbind rfl ⟨grpBind_issues, hinv, hcheck, wit_ObjectInstructions_before⟩ hexcl hshared
    hregion (.inr hmeets)
  obtain ⟨u, hu, hrun'⟩ := grpBind_after
  obtain rfl : t = u := Host.Outcome.next.inj (ht.symm.trans hu)
  exact absurd (hrun.symm.trans hrun') (by decide)
end

section
/-! SUPPORT. Atomics lane after lane: what a piece's lanes receive, and what its word holds behind them (R85). -/
namespace Sys2Proof.Machine

section
variable {m : List Host.Cell} {op : AOp} {ty : AType} {n : Nat} {ks : List Nat}

/-- R85: lanes that follow others start from the memory that these leave. -/
theorem rmwAll_append (l l' : List Acc) : rmwAll m op ty n ks (l ++ l')
    = ((rmwAll (rmwAll m op ty n ks l).1 op ty n ks l').1,
       (rmwAll m op ty n ks l).2 ++ (rmwAll (rmwAll m op ty n ks l).1 op ty n ks l').2) := by
  induction l generalizing m with
  | nil => rfl
  | cons a t ih => simp only [List.cons_append, rmwAll, ih]

theorem rmwAll_length (l : List Acc) : (rmwAll m op ty n ks l).2.length = l.length := by
  induction l generalizing m with
  | nil => rfl
  | cons a t ih => simp [rmwAll, ih]

/-- R85: a lane receives what the lanes before it have left. -/
theorem rmwAll_received (pre post : List Acc) (a : Acc) : (rmwAll m op ty n ks (pre ++ a :: post)).2[pre.length]?
    = some (a.lane, readLE (rmwAll m op ty n ks pre).1 ks) := by
  rw [rmwAll_append, List.getElem?_append_right (rmwAll_length pre).le, rmwAll_length, Nat.sub_self]
  rfl

theorem wf_rmw (h : Memory.wf m) (data : List Byte) : Memory.wf (rmw m op ty n ks data).1 := Memory.wf_writeBytes h _

/-- R235: an update stores its value's low bytes. -/
theorem readLE_rmw (h : Memory.wf m) (hn : ks.Nodup) (hl : ks.length = n) (data : List Byte) : readLE (rmw m op ty n ks data).1 ks
    = AOp.update op ty (readLE m ks) (leNat (data.take n)) (leNat (data.drop n)) % 2 ^ (8 * n) := by
  simp only [rmw]
  rw [readLE, map_readByte_writeBytes h hn (by rw [hl, leBytes_length]), leNat_leBytes]

theorem readByte_rmw (h : Memory.wf m) {k : Nat} (hk : k ∉ ks) (data : List Byte) :
    readByte (rmw m op ty n ks data).1 k = readByte m k :=
  readByte_writeBytes_notMem h fun hm => by
    obtain ⟨p, hp, rfl⟩ := List.mem_map.mp hm
    exact hk (List.of_mem_zip hp).1

/-- R85: only the word's bytes change. -/
theorem readByte_rmwAll (h : Memory.wf m) {k : Nat} (hk : k ∉ ks) (l : List Acc) :
    readByte (rmwAll m op ty n ks l).1 k = readByte m k := by
  induction l generalizing m with
  | nil => rfl
  | cons a t ih => exact (ih (wf_rmw h a.data)).trans (readByte_rmw h hk a.data)

/-- R85: what a lane leaves for the next. -/
theorem readLE_rmwAll_snoc (h : Memory.wf m) (hn : ks.Nodup) (hl : ks.length = n) (pre : List Acc) (a : Acc) :
    readLE (rmwAll m op ty n ks (pre ++ [a])).1 ks
      = AOp.update op ty (readLE (rmwAll m op ty n ks pre).1 ks) (leNat (a.data.take n)) (leNat (a.data.drop n)) % 2 ^ (8 * n) := by
  rw [rmwAll_append]
  exact readLE_rmw (Memory.wf_rmwAll h _ _ _ _ _) hn hl a.data

theorem update_add {ty : AType} (h : ty ≠ .f32) (old x y : Nat) : AOp.update .add ty old x y = (old + x) % 2 ^ (8 * AType.bytes ty) := by
  rw [pow_mul]
  cases ty with
  | f32 => exact absurd rfl h
  | n32 => rfl
  | i32 => rfl
  | n64 => rfl

/-- R85: integer sums add up over the lanes. -/
theorem readLE_rmwAll_add (h : Memory.wf m) (hn : ks.Nodup) (hl : ks.length = AType.bytes ty) (hty : ty ≠ .f32) (l : List Acc) :
    readLE (rmwAll m .add ty (AType.bytes ty) ks l).1 ks
      = (readLE m ks + (l.map fun a => leNat (a.data.take (AType.bytes ty))).sum) % 2 ^ (8 * AType.bytes ty) := by
  induction l generalizing m with
  | nil =>
    have hlt := leNat_lt (ks.map (readByte m))
    rw [List.length_map, hl] at hlt
    exact (Nat.mod_eq_of_lt hlt).symm
  | cons a t ih =>
    refine (ih (wf_rmw h a.data)).trans ?_
    rw [readLE_rmw h hn hl, update_add hty, Nat.mod_mod, Nat.mod_add_mod, List.map_cons, List.sum_cons, Nat.add_assoc]

end

/-! ### Extrema of signed words (R235) -/

theorem toInt_i32min (a b : Nat) :
    (BitVec.ofNat 32 (i32min a b)).toInt = min (BitVec.ofNat 32 a).toInt (BitVec.ofNat 32 b).toInt := by
  unfold i32min
  split
  · next h => rw [min_eq_left (BitVec.sle_iff_toInt_le.mp h)]
  · next h => rw [min_eq_right (Int.le_of_not_le fun h' => h (BitVec.sle_iff_toInt_le.mpr h'))]

theorem toInt_i32max (a b : Nat) :
    (BitVec.ofNat 32 (i32max a b)).toInt = max (BitVec.ofNat 32 a).toInt (BitVec.ofNat 32 b).toInt := by
  unfold i32max
  split
  · next h => rw [max_eq_right (BitVec.sle_iff_toInt_le.mp h)]
  · next h => rw [max_eq_left (Int.le_of_not_le fun h' => h (BitVec.sle_iff_toInt_le.mpr h'))]

end Sys2Proof.Machine
end

section
/-! SUPPORT. Rounding and sums do not depend on the unit in which a value is written (R97, R256). -/
namespace Sys2Proof.Machine

theorem log2_mul_two_pow {m : Nat} (hm : m ≠ 0) (j : Nat) : Nat.log2 (m * 2 ^ j) = Nat.log2 m + j := by
  induction j with
  | zero => simp
  | succ j ih =>
    have hne : m * 2 ^ j ≠ 0 := Nat.mul_ne_zero hm (Nat.two_pow_pos j).ne'
    rw [pow_succ, ← Nat.mul_assoc, Nat.mul_comm _ 2, Nat.log2_two_mul hne, ih, Nat.add_assoc]

theorem roundShift_scale (md : RMode) (neg : Bool) (m sh j : Nat) : roundShift md neg (m * 2 ^ j) (sh + j) = roundShift md neg m sh := by
  have hj : 0 < 2 ^ j := Nat.two_pow_pos j
  have hlt (a b : Nat) : (a * 2 ^ j < 2 * (b * 2 ^ j)) = (a < 2 * b) := by rw [← Nat.mul_assoc, Nat.mul_lt_mul_right hj]
  have heq (a b : Nat) : (a * 2 ^ j == 2 * (b * 2 ^ j)) = (a == 2 * b) := by
    rw [← Nat.mul_assoc, Bool.eq_iff_iff, beq_iff_eq, beq_iff_eq, Nat.mul_left_inj hj.ne']
  have hdraw (b : Nat) : b * 2 ^ j * 2 ^ 16 / (2 ^ sh * 2 ^ j) = b * 2 ^ 16 / 2 ^ sh := by
    rw [Nat.mul_right_comm, Nat.mul_div_mul_right _ _ hj]
  have hzero (b : Nat) : (b * 2 ^ j = 0) = (b = 0) := by simp
  simp only [roundShift, pow_add _ sh j, Nat.mul_div_mul_right _ _ hj, Nat.mul_mod_mul_right, hlt, heq, hdraw, hzero]

theorem roundShift_exact (md : RMode) (neg : Bool) (q sh : Nat) : roundShift md neg (q * 2 ^ sh) sh = (q, false) := by
  simp [roundShift]

/-- A value in smaller units rounds alike. -/
theorem roundAt_scale (md : RMode) (neg : Bool) (m j : Nat) (e q : Int) :
    roundAt md neg (m * 2 ^ j) e q = roundAt md neg m (e + j) q := by
  unfold roundAt
  by_cases h1 : q ≤ e
  · have hj : (e + j - q).toNat = j + (e - q).toNat := by omega
    rw [if_pos h1, if_pos (by omega), hj, pow_add, Nat.mul_assoc]
  · rw [if_neg h1]
    by_cases h2 : q ≤ e + j
    · have hj : j = (e + j - q).toNat + (q - e).toNat := by omega
      rw [if_pos h2]
      conv_lhs => rw [hj, pow_add, ← Nat.mul_assoc]
      exact roundShift_exact ..
    · have hj : (q - e).toNat = (q - (e + j)).toNat + j := by omega
      rw [if_neg h2, hj, roundShift_scale]

/-- R97: rounding into a format depends on the value alone. -/
theorem FFmt.round_scale (F : FFmt) (md : RMode) (sat neg : Bool) (m j : Nat) (e : Int) :
    F.round md sat neg (m * 2 ^ j) e = F.round md sat neg m (e + j) := by
  by_cases hm : m = 0
  · simp [FFmt.round, hm]
  · have hq : e + ((Nat.log2 m + j : Nat) : Int) - F.fw = e + j + Nat.log2 m - F.fw := by push_cast; ring
    have hm' : m * 2 ^ j ≠ 0 := Nat.mul_ne_zero hm (Nat.two_pow_pos j).ne'
    simp only [FFmt.round, hm, hm', if_false, log2_mul_two_pow hm, roundAt_scale, hq]

/-- A value in the units of a lower exponent. -/
theorem toUnits_of_le (neg : Bool) (m : Nat) {e e0 q : Int} (hq : q ≤ e0) (he : e0 ≤ e) :
    toUnits neg m e q = toUnits neg m e e0 * 2 ^ (e0 - q).toNat := by
  have hsum : (e - q).toNat = (e - e0).toNat + (e0 - q).toNat := by omega
  cases neg <;> simp [toUnits, hsum, pow_add, mul_assoc]

/-- R256: a finite sum that is not zero, in the units of any exponent that neither operand falls below. -/
theorem FFmt.addFin_eq_round (F : FFmt) (md : RMode) (na nb : Bool) (ma mb : Nat) {ea eb q : Int} (ha : q ≤ ea) (hb : q ≤ eb)
    (hv : toUnits na ma ea q + toUnits nb mb eb q ≠ 0) : F.addFin md na ma ea nb mb eb
      = F.round md false (toUnits na ma ea q + toUnits nb mb eb q < 0) (toUnits na ma ea q + toUnits nb mb eb q).natAbs q := by
  have h0 : q ≤ min ea eb := le_min ha hb
  have hsum : toUnits na ma ea q + toUnits nb mb eb q
      = (toUnits na ma ea (min ea eb) + toUnits nb mb eb (min ea eb)) * 2 ^ (min ea eb - q).toNat := by
    rw [toUnits_of_le na ma h0 (min_le_left _ _), toUnits_of_le nb mb h0 (min_le_right _ _), add_mul]
  rw [hsum] at hv ⊢
  have hpos : (0 : Int) < 2 ^ (min ea eb - q).toNat := by positivity
  have hneg (v : Int) : (v * 2 ^ (min ea eb - q).toNat < 0) = (v < 0) := by simp [mul_neg_iff, hpos, hpos.not_gt]
  have habs (v : Int) : (v * 2 ^ (min ea eb - q).toNat).natAbs = v.natAbs * 2 ^ (min ea eb - q).toNat := by
    simp [Int.natAbs_mul, Int.natAbs_pow]
  have hexp : q + ((min ea eb - q).toNat : Int) = min ea eb := by omega
  simp only [FFmt.addFin, if_neg (left_ne_zero_of_mul hv), hneg, habs, FFmt.round_scale, hexp]

end Sys2Proof.Machine
end

section
/-! SUPPORT. The order of binary32 encodings: by sign and magnitude, as their values (R91, R258, R259). -/
namespace Sys2Proof.Machine

/-- An encoding without its sign. -/
def mag32 (x : Word) : Nat := x.toNat % 2 ^ 31
/-- The magnitude of a finite encoding, in units of the smallest subnormal. -/
def units32 (k : Nat) : Nat := if k < 2 ^ 23 then k else (2 ^ 23 + k % 2 ^ 23) * 2 ^ (k / 2 ^ 23 - 1)

theorem units32_subnormal {k : Nat} (h : k < 2 ^ 23) : units32 k = k := if_pos h
theorem units32_normal {k : Nat} (h : ¬ k < 2 ^ 23) : units32 k = (2 ^ 23 + k % 2 ^ 23) * 2 ^ (k / 2 ^ 23 - 1) := if_neg h

theorem units32_strictMono : StrictMono units32 := by
  refine strictMono_nat_of_lt_succ fun k => ?_
  by_cases hsub : k + 1 < 2 ^ 23
  · rw [units32_subnormal hsub, units32_subnormal (by omega)]
    omega
  · rw [units32_normal hsub]
    by_cases hlast : k < 2 ^ 23
    · obtain rfl : k = 2 ^ 23 - 1 := by omega
      decide
    · rw [units32_normal hlast]
      obtain ⟨a, ha⟩ : ∃ a, k / 2 ^ 23 = a + 1 := ⟨k / 2 ^ 23 - 1, by omega⟩
      have hpos : 0 < 2 ^ a := Nat.two_pow_pos a
      by_cases hbin : k % 2 ^ 23 + 1 < 2 ^ 23
      · rw [show (k + 1) / 2 ^ 23 = a + 1 by omega, show (k + 1) % 2 ^ 23 = k % 2 ^ 23 + 1 by omega, ha]
        exact Nat.mul_lt_mul_of_pos_right (by omega) hpos
      · rw [show (k + 1) / 2 ^ 23 = a + 1 + 1 by omega, show (k + 1) % 2 ^ 23 = 0 by omega, ha]
        have hlt : (2 ^ 23 + k % 2 ^ 23) * 2 ^ a < 2 ^ 24 * 2 ^ a := Nat.mul_lt_mul_of_pos_right (by omega) hpos
        simp only [Nat.add_sub_cancel, pow_succ 2 a]
        omega

theorem ord32_eq (x : Word) : ord32 x = if x.msb then -(mag32 x : Int) - 1 else (mag32 x : Int) := by
  unfold ord32 mag32
  by_cases h : x.msb
  · rw [if_pos h, if_pos h]
  · have := BitVec.toNat_lt_of_msb_false (Bool.not_eq_true _ ▸ h)
    rw [if_neg h, if_neg h, Nat.mod_eq_of_lt this]

theorem ord32_injective {x y : Word} (h : ord32 x = ord32 y) : x = y := by
  have hx := x.isLt
  have hy := y.isLt
  refine BitVec.eq_of_toNat_eq ?_
  simp only [ord32, BitVec.msb_eq_decide, decide_eq_true_eq] at h
  split at h <;> split at h <;> omega

/-- R91: an encoding's value by its sign and magnitude. -/
theorem f32_eq (x : Word) : f32 x =
    if 255 * 2 ^ 23 < mag32 x then .nan (mag32 x % 2 ^ 23 / 2 ^ 22 == 0)
    else if mag32 x = 255 * 2 ^ 23 then .inf x.msb
    else if mag32 x < 2 ^ 23 then .fin x.msb (mag32 x) F32.qmin
    else .fin x.msb (2 ^ 23 + mag32 x % 2 ^ 23) (F32.qmin + (mag32 x / 2 ^ 23 - 1 : Nat)) := by
  have hx := x.isLt
  have hfr : x.toNat % 2 ^ 23 = mag32 x % 2 ^ 23 := by unfold mag32; omega
  have hex : x.toNat / 2 ^ 23 % 2 ^ 8 = mag32 x / 2 ^ 23 := by unfold mag32; omega
  have hneg : (x.toNat / 2 ^ (23 + 8) % 2 == 1) = x.msb := by
    rw [BitVec.msb_eq_decide, Bool.eq_iff_iff, beq_iff_eq, decide_eq_true_iff]
    omega
  have hunit : F32.qmin = -149 := rfl
  have hlt : mag32 x < 2 ^ 31 := Nat.mod_lt _ (by decide)
  rw [hunit]
  simp only [f32, FFmt.decode, F32, hfr, hex, hneg]
  generalize mag32 x = k at hlt ⊢
  have htop : (decide (k / 2 ^ 23 = 254) && decide (2 ^ 24 - 1 < 2 ^ 23 + k % 2 ^ 23)) = false := by
    rw [decide_eq_false (p := 2 ^ 24 - 1 < 2 ^ 23 + k % 2 ^ 23) (by omega), Bool.and_false]
  by_cases hnan : 255 * 2 ^ 23 < k
  · rw [if_pos (by omega), if_neg (by omega), if_pos hnan]
    rfl
  · rw [if_neg hnan]
    by_cases hinf : k = 255 * 2 ^ 23
    · rw [if_pos (by omega), if_pos (by omega), if_pos hinf]
    · rw [if_neg (by omega), htop, if_neg hinf]
      by_cases hsub : k < 2 ^ 23
      · rw [if_pos (show k / 2 ^ 23 = 0 by omega), if_pos hsub, Nat.mod_eq_of_lt hsub]
        rfl
      · rw [if_neg (show ¬ k / 2 ^ 23 = 0 by omega), if_neg hsub]
        refine congrArg (FVal.fin x.msb (2 ^ 23 + k % 2 ^ 23)) ?_
        omega

/-- What a finite encoding's value is: its sign, and its magnitude in units of the smallest subnormal. -/
theorem f32_fin {x : Word} {n : Bool} {m : Nat} {e : Int} (h : f32 x = .fin n m e) : n = x.msb ∧ F32.qmin ≤ e
    ∧ toUnits n m e F32.qmin = if x.msb then -(units32 (mag32 x) : Int) else (units32 (mag32 x) : Int) := by
  rw [f32_eq] at h
  split at h
  · cases h
  · split at h
    · cases h
    · split at h
      · next hsub =>
        obtain ⟨rfl, rfl, rfl⟩ := h
        exact ⟨rfl, le_refl _, by rw [units32_subnormal hsub]; simp [toUnits]⟩
      · next hsub =>
        obtain ⟨rfl, rfl, rfl⟩ := h
        exact ⟨rfl, by omega, by rw [units32_normal hsub]; simp [toUnits]⟩

theorem f32_inf {x : Word} {n : Bool} (h : f32 x = .inf n) : x.msb = n ∧ mag32 x = 255 * 2 ^ 23 := by
  rw [f32_eq] at h
  split at h
  · cases h
  · split at h
    · next hmag =>
      cases h
      exact ⟨rfl, hmag⟩
    · split at h <;> cases h

theorem mag32_le {x : Word} (h : isNan32 x = false) : mag32 x ≤ 255 * 2 ^ 23 := by
  by_contra hlt
  rw [isNan32, f32_eq, if_pos (Nat.lt_of_not_le hlt)] at h
  cases h

theorem isNan32_of_fin {x : Word} {n : Bool} {m : Nat} {e : Int} (h : f32 x = .fin n m e) : isNan32 x = false := by
  rw [isNan32, h]
  rfl

/-! ### Values and encodings in one order -/

/-- R259: of two finite values the lesser has the lesser encoding, and -0 lies below +0. -/
theorem ord32_le_of_fin {x y : Word} {n k : Bool} {m b : Nat} {e g : Int} (hx : f32 x = .fin n m e) (hy : f32 y = .fin k b g)
    (h : toUnits n m e F32.qmin < toUnits k b g F32.qmin
      ∨ toUnits n m e F32.qmin = toUnits k b g F32.qmin ∧ (n = true ∨ k = false)) : ord32 x ≤ ord32 y := by
  obtain ⟨rfl, -, hvx⟩ := f32_fin hx
  obtain ⟨rfl, -, hvy⟩ := f32_fin hy
  have hxy := units32_strictMono.le_iff_le (a := mag32 x) (b := mag32 y)
  have hyx := units32_strictMono.le_iff_le (a := mag32 y) (b := mag32 x)
  rw [hvx, hvy] at h
  rw [ord32_eq, ord32_eq]
  cases hsx : x.msb <;> cases hsy : y.msb <;>
    simp only [hsx, hsy, Bool.false_eq_true, reduceCtorEq, or_self, and_false, or_false, if_true, if_false] at h ⊢ <;> omega

/-- R259: the infinities lie at the ends of the order. -/
theorem ord32_le_of_inf {x y : Word} (hx : isNan32 x = false) (hy : isNan32 y = false) (h : f32 x = .inf true ∨ f32 y = .inf false) :
    ord32 x ≤ ord32 y := by
  have hmx := mag32_le hx
  have hmy := mag32_le hy
  rw [ord32_eq, ord32_eq]
  rcases h with h | h
  · obtain ⟨hs, hm⟩ := f32_inf h
    rw [if_pos hs]
    split <;> omega
  · obtain ⟨hs, hm⟩ := f32_inf h
    rw [hs, if_neg Bool.false_ne_true]
    split <;> omega

/-- R259: the lesser and the greater of two numbers, whichever comes first. -/
theorem minmax32_of_le {x y : Word} (hx : isNan32 x = false) (hy : isNan32 y = false) (h : ord32 x ≤ ord32 y) :
    ((minmax32 false x y).1 = x ∧ (minmax32 true x y).1 = y) ∧ (minmax32 false y x).1 = x ∧ (minmax32 true y x).1 = y := by
  rcases h.lt_or_eq with hlt | heq
  · simp [minmax32, hx, hy, hlt, hlt.not_gt]
  · obtain rfl := ord32_injective heq
    simp [minmax32, hx]

/-! ### Sums -/

/-- R92, R256: a sum with a NaN is the canonical NaN. -/
theorem F32.add_nan {a b : FVal} (md : RMode) (h : a.isNan = true ∨ b.isNan = true) : (F32.add md a b).1 = 0x7FC00000 := by
  rcases h with h | h
  · cases a with
    | nan s => rfl
    | inf n => cases h
    | fin n m e => cases h
  · cases b with
    | nan s => cases a <;> rfl
    | inf n => cases h
    | fin n m e => cases h

/-! ### What an `f32` atomic stores (R235) -/

section
variable (old x : Word) (y : Nat)

theorem update_add_f32 : BitVec.ofNat 32 (AOp.update .add .f32 old.toNat x.toNat y)
    = BitVec.ofNat 32 (F32.add .nearest (f32 old) (f32 x)).1 := by
  simp only [AOp.update, add32, w32, BitVec.ofNat_toNat, BitVec.setWidth_eq]

theorem update_min_f32 : BitVec.ofNat 32 (AOp.update .min .f32 old.toNat x.toNat y) = (minmax32 false old x).1 := by
  simp [AOp.update]

theorem update_max_f32 : BitVec.ofNat 32 (AOp.update .max .f32 old.toNat x.toNat y) = (minmax32 true old x).1 := by
  simp [AOp.update]

end

end Sys2Proof.Machine
end

section
open Sys2Proof Sys2Proof.Machine
/-- Settles O20: a lane starts from what the lanes before it leave (`rmwAll_append`); an `f32` sum is one rounding
(`FFmt.addFin_eq_round`), and the lesser and the greater follow the order of encodings (`ord32_le_of_fin`, `minmax32_of_le`). -/
theorem atomicValues : Obligations.AtomicValues := by
  unfold Obligations.AtomicValues
  refine ⟨?lanes, ?integers, ?floats⟩
  case lanes =>
    intro m op ty ks l n hm hn hl
    refine ⟨fun k hk => readByte_rmwAll hm hk l, fun pre a post hsplit => ⟨?_, readLE_rmwAll_snoc hm hn hl pre a⟩, fun hop hty => ?_⟩
    · rw [hsplit]
      exact rmwAll_received pre post a
    · rw [hop]
      exact readLE_rmwAll_add hm hn hl hty l
  case integers =>
    intro ty old x y w hold hx
    refine ⟨fun hty => update_add hty old x y, ?extrema, ?signed, rfl, rfl, rfl, rfl, rfl, rfl, ?decw⟩
    case extrema =>
      rintro (rfl | rfl)
      · exact ⟨rfl, rfl⟩
      · exact ⟨rfl, rfl⟩
    case signed =>
      rintro rfl
      exact ⟨toInt_i32min old x, toInt_i32max old x⟩
    case decw => simp [AOp.update]
  case floats =>
    intro old x y to_ finite
    have hadd : to_ .add = BitVec.ofNat 32 (F32.add .nearest (f32 old) (f32 x)).1 := update_add_f32 old x y
    have hmin : to_ .min = (minmax32 false old x).1 := update_min_f32 old x y
    have hmax : to_ .max = (minmax32 true old x).1 := update_max_f32 old x y
    rw [hadd, hmin, hmax]
    refine ⟨?sum, ?nanSum, ?below, ?above, ?belowInf, ?aboveInf, ?_, ?_, ?_⟩
    case sum =>
      intro n m e k b g hold hx hv
      rw [hold, hx, FFmt.add, FFmt.addFin_eq_round _ _ _ _ _ _ (f32_fin hold).2.1 (f32_fin hx).2.1 hv]
    case nanSum => exact fun h => congrArg (BitVec.ofNat 32) (F32.add_nan .nearest h)
    case below =>
      exact fun n m e k b g hold hx h => (minmax32_of_le (isNan32_of_fin hold) (isNan32_of_fin hx) (ord32_le_of_fin hold hx h)).1
    case above =>
      exact fun n m e k b g hold hx h => (minmax32_of_le (isNan32_of_fin hx) (isNan32_of_fin hold) (ord32_le_of_fin hx hold h)).2
    case belowInf => exact fun h hold hx => (minmax32_of_le hold hx (ord32_le_of_inf hold hx h)).1
    case aboveInf => exact fun h hold hx => (minmax32_of_le hx hold (ord32_le_of_inf hx hold h)).2
    all_goals
      intro hold hx
      simp [minmax32, hold, hx]
end

section
/-! SUPPORT. Products, quotients and shifts of words as integers (R109, R110, R217, R226). -/
namespace Sys2Proof.Machine

/-! ### Forms of one and two sources (R217, R220) -/

/-- R217: a form of two sources, by what its function gives of them. -/
theorem lane32_of_binOp {i : Instr} {s : State} {d a b : Opd} {f : Word → Word → Word} (h : exec i s = binOp i s d a b f)
    {g : Nat → Word} (hg : ∀ l, f (s.w.src a l) (s.w.src b l) = g l) : Lane32 i s d g :=
  funext hg ▸ laneOp_lanewise (fun w l => f (w.src a l) (w.src b l)) h

/-- R220: a form of one source. -/
theorem lane32_of_unOp {i : Instr} {s : State} {d a : Opd} {f : Word → Word} (h : exec i s = unOp i s d a f)
    {g : Nat → Word} (hg : ∀ l, f (s.w.src a l) = g l) : Lane32 i s d g :=
  funext hg ▸ laneOp_lanewise (fun w l => f (w.src a l)) h

/-- R226: a 64-bit form. -/
theorem lane64_of_laneOp64 {i : Instr} {s : State} {d : Opd} {f : Warp → Nat → Dword} (h : exec i s = laneOp64 i s d f)
    {g : Nat → Dword} (hg : ∀ l, f s.w l = g l) : Lane64 i s d g :=
  funext hg ▸ laneOp64_lanewise f h

/-! ### Products (R217, R226) -/

theorem mulwS_eq (x y : Word) : mulwS x y = BitVec.ofInt 64 (x.toInt * y.toInt) := (BitVec.ofInt_mul _ _).symm

theorem mulwU_eq (x y : Word) : mulwU x y = BitVec.ofNat 64 (x.toNat * y.toNat) := by
  apply BitVec.eq_of_toNat_eq
  simp [mulwU, BitVec.toNat_mul]

theorem mulhS_eq (x y : Word) : mulhS x y = BitVec.ofInt 32 (x.toInt * y.toInt / 2 ^ 32) := by
  change (mulwS x y >>> 32).truncate 32 = _
  rw [mulwS_eq]
  generalize x.toInt * y.toInt = z
  apply BitVec.eq_of_toNat_eq
  simp only [BitVec.truncate_eq_setWidth, BitVec.toNat_setWidth, BitVec.toNat_ushiftRight, BitVec.toNat_ofInt,
    Nat.shiftRight_eq_div_pow]
  omega

theorem mulhU_eq (x y : Word) : mulhU x y = BitVec.ofNat 32 (x.toNat * y.toNat / 2 ^ 32) := by
  change (mulwU x y >>> 32).truncate 32 = _
  rw [mulwU_eq]
  generalize x.toNat * y.toNat = z
  apply BitVec.eq_of_toNat_eq
  simp only [BitVec.truncate_eq_setWidth, BitVec.toNat_setWidth, BitVec.toNat_ushiftRight, BitVec.toNat_ofNat,
    Nat.shiftRight_eq_div_pow]
  omega

/-! ### Quotients and remainders (R110) -/

theorem divS_eq (x y : Word) : divS x y = if y = 0 then 0xFFFFFFFF else BitVec.ofInt 32 (x.toInt.tdiv y.toInt) := by
  unfold divS
  refine if_congr Iff.rfl rfl ?_
  apply BitVec.eq_of_toInt_eq
  rw [BitVec.toInt_sdiv, BitVec.toInt_ofInt]

theorem remS_eq (x y : Word) : remS x y = if y = 0 then x else BitVec.ofInt 32 (x.toInt.tmod y.toInt) := by
  unfold remS
  refine if_congr Iff.rfl rfl ?_
  rw [← BitVec.toInt_srem, BitVec.ofInt_toInt]

theorem divU_eq (x y : Word) : divU x y = if y = 0 then 0xFFFFFFFF else BitVec.ofNat 32 (x.toNat / y.toNat) := by
  unfold divU
  refine if_congr Iff.rfl rfl ?_
  rw [← BitVec.toNat_udiv, BitVec.ofNat_toNat, BitVec.setWidth_eq]

theorem remU_eq (x y : Word) : remU x y = if y = 0 then x else BitVec.ofNat 32 (x.toNat % y.toNat) := by
  unfold remU
  refine if_congr Iff.rfl rfl ?_
  rw [← BitVec.toNat_umod, BitVec.ofNat_toNat, BitVec.setWidth_eq]

/-! ### Shifts and rotations (R109) -/

theorem shiftLeft_eq_mul {n : Nat} (x : BitVec n) (k : Nat) : x <<< k = BitVec.ofNat n (x.toNat * 2 ^ k) := by
  apply BitVec.eq_of_toNat_eq
  rw [BitVec.toNat_shiftLeft, BitVec.toNat_ofNat, Nat.shiftLeft_eq]

theorem ushiftRight_eq_div {n : Nat} (x : BitVec n) (k : Nat) : x >>> k = BitVec.ofNat n (x.toNat / 2 ^ k) := by
  apply BitVec.eq_of_toNat_eq
  rw [BitVec.toNat_ushiftRight, BitVec.toNat_ofNat, Nat.shiftRight_eq_div_pow,
    Nat.mod_eq_of_lt (Nat.lt_of_le_of_lt (Nat.div_le_self _ _) x.isLt)]

theorem sarW_eq (x y : Word) : sarW x y = BitVec.ofInt 32 (x.toInt / 2 ^ (y.toNat % 256)) := by
  unfold sarW shAmt
  rw [BitVec.sshiftRight, Int.shiftRight_eq_div_pow]
  norm_cast

/-- R109: what leaves a rotated word at the top comes in at the bottom. -/
theorem rolW_eq (x y : Word) : rolW x y = BitVec.ofNat 32
    (x.toNat * 2 ^ (y.toNat % 256 % 32) % 2 ^ 32 + x.toNat / 2 ^ (32 - y.toNat % 256 % 32)) := by
  unfold rolW shAmt
  have hr : y.toNat % 256 % 32 < 32 := Nat.mod_lt _ (by omega)
  generalize y.toNat % 256 % 32 = r at hr ⊢
  have hx := x.isLt
  have hpow : 2 ^ (32 - r) * 2 ^ r = 2 ^ 32 := by rw [← pow_add, Nat.sub_add_cancel hr.le]
  have hlow : x.toNat / 2 ^ (32 - r) < 2 ^ r := Nat.div_lt_of_lt_mul (by rwa [hpow])
  have hsum : x.toNat * 2 ^ r % 2 ^ 32 ||| x.toNat / 2 ^ (32 - r) = x.toNat * 2 ^ r % 2 ^ 32 + x.toNat / 2 ^ (32 - r) := by
    rw [← hpow, Nat.mul_mod_mul_right, ← Nat.shiftLeft_eq, Nat.shiftLeft_add_eq_or_of_lt hlow]
  have hlt : x.toNat * 2 ^ r % 2 ^ 32 ||| x.toNat / 2 ^ (32 - r) < 2 ^ 32 :=
    Nat.or_lt_two_pow (Nat.mod_lt _ (by omega)) (Nat.lt_of_le_of_lt (Nat.div_le_self _ _) hx)
  apply BitVec.eq_of_toNat_eq
  rw [BitVec.rotateLeft_def, BitVec.toNat_or, BitVec.toNat_shiftLeft, BitVec.toNat_ushiftRight, Nat.mod_eq_of_lt hr,
    Nat.shiftLeft_eq, Nat.shiftRight_eq_div_pow, BitVec.toNat_ofNat, ← hsum, Nat.mod_eq_of_lt hlt]

/-- R220: an immediate amount is its own low 8 bits. -/
theorem shAmt_zeroExtend (n : BitVec 8) : shAmt (n.zeroExtend 32) = n.toNat := by
  have := n.isLt
  simp only [shAmt, BitVec.truncate_eq_setWidth, BitVec.toNat_setWidth]
  omega

theorem shlW_eq (x y : Word) : shlW x y = BitVec.ofNat 32 (x.toNat * 2 ^ (y.toNat % 256)) := shiftLeft_eq_mul x _
theorem shrW_eq (x y : Word) : shrW x y = BitVec.ofNat 32 (x.toNat / 2 ^ (y.toNat % 256)) := ushiftRight_eq_div x _

end Sys2Proof.Machine
end

section
open Sys2Proof Sys2Proof.Machine

/-- Settles O2: each form is one function of two words (`lane32_of_binOp`), and each function an exact product, quotient or
remainder reduced to its width (`mulhS_eq`, `divS_eq` and the lemmas beside them). -/
theorem integerExact : Obligations.IntegerExact := by
  refine ⟨fun s d a b => ⟨?_, ?_, ?_, ?_⟩, fun s d a b => ⟨?_, ?_, ?_, ?_⟩⟩
  · exact lane32_of_binOp (f := mulhS) rfl fun l => mulhS_eq _ _
  · exact lane32_of_binOp (f := mulhU) rfl fun l => mulhU_eq _ _
  · exact lane64_of_laneOp64 (f := fun w l => mulwS (w.src a l) (w.src b l)) rfl fun l => mulwS_eq _ _
  · exact lane64_of_laneOp64 (f := fun w l => mulwU (w.src a l) (w.src b l)) rfl fun l => mulwU_eq _ _
  · exact lane32_of_binOp (f := divS) rfl fun l => divS_eq _ _
  · exact lane32_of_binOp (f := remS) rfl fun l => remS_eq _ _
  · exact lane32_of_binOp (f := divU) rfl fun l => divU_eq _ _
  · exact lane32_of_binOp (f := remU) rfl fun l => remU_eq _ _

/-- Settles O3: each shift is a product or a quotient by a power of two (`shlW_eq`, `shrW_eq`, `sarW_eq`), and a rotation both
(`rolW_eq`); an immediate form shifts by its own amount (`shAmt_zeroExtend`). -/
theorem integerShifts : Obligations.IntegerShifts := by
  intro s d a b d' b' n x y x' y' left right arith
  have amount : (n.zeroExtend 32).toNat % 256 = n.toNat := shAmt_zeroExtend n
  refine ⟨?_, ?_, ?_, ?_, ?_, ?_, ?_, ?_, ?_, ?_, ?_, ?_⟩
  · exact lane32_of_binOp (f := shlW) rfl fun l => shlW_eq _ _
  · exact lane32_of_binOp (f := shrW) rfl fun l => shrW_eq _ _
  · exact lane32_of_binOp (f := sarW) rfl fun l => sarW_eq _ _
  · exact lane32_of_binOp (f := rolW) rfl fun l => rolW_eq _ _
  · exact lane32_of_unOp (f := (shlW · (n.zeroExtend 32))) rfl fun l => by rw [shlW_eq, amount]
  · exact lane32_of_unOp (f := (shrW · (n.zeroExtend 32))) rfl fun l => by rw [shrW_eq, amount]
  · exact lane32_of_unOp (f := (sarW · (n.zeroExtend 32))) rfl fun l => by rw [sarW_eq, amount]
  · exact lane32_of_binOp (f := shlW) rfl fun l => shlW_eq _ _
  · exact lane32_of_binOp (f := shrW) rfl fun l => shrW_eq _ _
  · exact lane32_of_binOp (f := sarW) rfl fun l => sarW_eq _ _
  · exact lane64_of_laneOp64 (f := fun w l => shlD (w.src64 a l) (w.src b l)) rfl fun l => shiftLeft_eq_mul _ _
  · exact lane64_of_laneOp64 (f := fun w l => shrD (w.src64 a l) (w.src b l)) rfl fun l => ushiftRight_eq_div _ _
end

section
/-! SUPPORT. Encodings of finite values: their fields, their order, and the step from one to the next (R91 to R94). -/
namespace Sys2Proof.Machine

theorem toUnits_false (m : Nat) (e e0 : Int) : toUnits false m e e0 = ((m * 2 ^ (e - e0).toNat : Nat) : Int) := rfl

/-- R91, R93, R94: what the binary formats have in common. -/
structure FFmt.Ok (F : FFmt) : Prop where
  fw_pos : 0 < F.fw
  emax_pos : 0 < F.emaxF
  emax_lt : F.emaxF < 2 ^ F.ew
  top_ge : 2 ^ F.fw ≤ F.top
  top_lt : F.top < 2 ^ (F.fw + 1)
  nan_lt : F.nan < 2 ^ (1 + F.ew + F.fw)

theorem F64_ok : F64.Ok := by constructor <;> decide
theorem F32_ok : F32.Ok := by constructor <;> decide
theorem F16_ok : F16.Ok := by constructor <;> decide
theorem BF16_ok : BF16.Ok := by constructor <;> decide
theorem E4M3_ok : E4M3.Ok := by constructor <;> decide
theorem E5M2_ok : E5M2.Ok := by constructor <;> decide
theorem E2M3_ok : E2M3.Ok := by constructor <;> decide
theorem E3M2_ok : E3M2.Ok := by constructor <;> decide
theorem E2M1_ok : E2M1.Ok := by constructor <;> decide

theorem ok_of_mem {F : FFmt} (h : F ∈ [F64, F32, F16, BF16, E4M3, E5M2]) : F.Ok := by
  simp only [List.mem_cons, List.not_mem_nil, or_false] at h
  rcases h with rfl | rfl | rfl | rfl | rfl | rfl
  · exact F64_ok
  · exact F32_ok
  · exact F16_ok
  · exact BF16_ok
  · exact E4M3_ok
  · exact E5M2_ok

/-- `p` units of 2^q are a finite value as the format writes it: normal, or in the subnormal unit. -/
structure FFmt.Canon (F : FFmt) (p : Nat) (q : Int) : Prop where
  lt : p < 2 ^ (F.fw + 1)
  qmin_le : F.qmin ≤ q
  sub : p < 2 ^ F.fw → q = F.qmin
  le_qmax : q ≤ F.qmax
  le_top : q = F.qmax → p ≤ F.top

/-! ### Fields -/

/-- An encoding without its sign, from its exponent field and its fraction. -/
def FFmt.fields (F : FFmt) (ex fr : Nat) : Nat := ex * 2 ^ F.fw + fr

variable {F : FFmt}

theorem FFmt.fields_lt {ex fr : Nat} (hex : ex < 2 ^ F.ew) (hfr : fr < 2 ^ F.fw) : F.fields ex fr < 2 ^ (F.fw + F.ew) := by
  calc ex * 2 ^ F.fw + fr < (ex + 1) * 2 ^ F.fw := by rw [Nat.succ_mul]; omega
    _ ≤ 2 ^ F.ew * 2 ^ F.fw := Nat.mul_le_mul_right _ hex
    _ = 2 ^ (F.fw + F.ew) := by rw [pow_add, Nat.mul_comm]

theorem FFmt.signBit_lt (F : FFmt) (n : Bool) {k : Nat} (hk : k < 2 ^ (F.fw + F.ew)) : F.signBit n + k < 2 ^ (1 + F.ew + F.fw) := by
  rw [show 1 + F.ew + F.fw = (F.fw + F.ew) + 1 by omega, pow_succ]
  cases n <;> simp [FFmt.signBit] <;> omega

/-- Every encoding is a sign, an exponent field and a fraction. -/
theorem FFmt.exists_fields (F : FFmt) {b : Nat} (hb : b < 2 ^ (1 + F.ew + F.fw)) :
    ∃ n ex fr, ex < 2 ^ F.ew ∧ fr < 2 ^ F.fw ∧ b = F.signBit n + F.fields ex fr := by
  have hA : 0 < 2 ^ F.fw := Nat.two_pow_pos _
  have hB : 0 < 2 ^ F.ew := Nat.two_pow_pos _
  have hsplit : b / 2 ^ F.fw / 2 ^ F.ew < 2 := by
    rw [Nat.div_div_eq_div_mul, ← pow_add]
    refine Nat.div_lt_of_lt_mul ?_
    rwa [← pow_succ, show F.fw + F.ew + 1 = 1 + F.ew + F.fw by omega]
  refine ⟨b / 2 ^ F.fw / 2 ^ F.ew == 1, b / 2 ^ F.fw % 2 ^ F.ew, b % 2 ^ F.fw, Nat.mod_lt _ hB, Nat.mod_lt _ hA, ?_⟩
  have hfr := Nat.div_add_mod b (2 ^ F.fw)
  have hex := Nat.div_add_mod (b / 2 ^ F.fw) (2 ^ F.ew)
  have hsign : F.signBit (b / 2 ^ F.fw / 2 ^ F.ew == 1) = 2 ^ F.fw * (2 ^ F.ew * (b / 2 ^ F.fw / 2 ^ F.ew)) := by
    obtain h | h : b / 2 ^ F.fw / 2 ^ F.ew = 0 ∨ b / 2 ^ F.fw / 2 ^ F.ew = 1 :=
      Nat.le_one_iff_eq_zero_or_eq_one.mp (Nat.lt_succ_iff.mp hsplit)
    · simp [FFmt.signBit, h]
    · simp [FFmt.signBit, h, pow_add]
  rw [hsign, FFmt.fields, Nat.mul_comm (_ % _), ← Nat.add_assoc, ← Nat.mul_add, hex, hfr]

theorem FFmt.decode_fields {n : Bool} {ex fr : Nat} (hex : ex < 2 ^ F.ew) (hfr : fr < 2 ^ F.fw) :
    F.decode (F.signBit n + F.fields ex fr) =
      if F.emaxF < ex then (if fr = 0 then .inf n else .nan (F.fw ≥ 7 && fr / 2 ^ (F.fw - 1) == 0))
      else if ex = F.emaxF && F.top < 2 ^ F.fw + fr then .nan false
      else if ex = 0 then .fin n fr F.qmin
      else .fin n (2 ^ F.fw + fr) ((ex : Int) - F.bias - F.fw) := by
  have hA : 0 < 2 ^ F.fw := Nat.two_pow_pos _
  have hB : 0 < 2 ^ F.ew := Nat.two_pow_pos _
  obtain ⟨c, hc, hn⟩ : ∃ c, F.signBit n = 2 ^ F.fw * (2 ^ F.ew * c) ∧ c % 2 = n.toNat := by
    cases n
    · exact ⟨0, rfl, rfl⟩
    · exact ⟨1, by simp [FFmt.signBit, pow_add], rfl⟩
  have hb : F.signBit n + F.fields ex fr = 2 ^ F.fw * (2 ^ F.ew * c + ex) + fr := by rw [hc, FFmt.fields]; ring
  have hmod : (2 ^ F.fw * (2 ^ F.ew * c + ex) + fr) % 2 ^ F.fw = fr := by rw [Nat.mul_add_mod, Nat.mod_eq_of_lt hfr]
  have hdiv : (2 ^ F.fw * (2 ^ F.ew * c + ex) + fr) / 2 ^ F.fw = 2 ^ F.ew * c + ex := by
    rw [Nat.mul_add_div hA, Nat.div_eq_of_lt hfr, Nat.add_zero]
  have hexp : (2 ^ F.ew * c + ex) % 2 ^ F.ew = ex := by rw [Nat.mul_add_mod, Nat.mod_eq_of_lt hex]
  have htop : (2 ^ F.ew * c + ex) / 2 ^ F.ew = c := by rw [Nat.mul_add_div hB, Nat.div_eq_of_lt hex, Nat.add_zero]
  have hsign : (c % 2 == 1) = n := by rw [hn]; cases n <;> rfl
  simp only [FFmt.decode, hb, pow_add, ← Nat.div_div_eq_div_mul, hmod, hdiv, hexp, htop, hsign]

/-! ### Finite values -/

theorem FFmt.finBits_sub (n : Bool) {p : Nat} (q : Int) (hp : p < 2 ^ F.fw) : F.finBits n p q = F.signBit n + F.fields 0 p := by
  simp [FFmt.finBits, FFmt.fields, hp]

theorem FFmt.finBits_normal (n : Bool) {p : Nat} {q : Int} (hp : 2 ^ F.fw ≤ p) :
    F.finBits n p q = F.signBit n + F.fields (q + F.bias + F.fw).toNat (p - 2 ^ F.fw) := by
  simp [FFmt.finBits, FFmt.fields, Nat.not_lt.mpr hp]

theorem FFmt.Canon.fields_normal {p : Nat} {q : Int} (h : F.Canon p q) (hp : 2 ^ F.fw ≤ p) :
    0 < (q + F.bias + F.fw).toNat ∧ (q + F.bias + F.fw).toNat ≤ F.emaxF ∧ p - 2 ^ F.fw < 2 ^ F.fw
      ∧ (((q + F.bias + F.fw).toNat : Nat) : Int) = q + F.bias + F.fw := by
  have h1 := h.qmin_le
  have h2 := h.le_qmax
  have h3 := h.lt
  rw [pow_succ] at h3
  unfold FFmt.qmin at h1
  unfold FFmt.qmax at h2
  omega

/-- R91: the encoding of a finite value reads back as that value. -/
theorem FFmt.decode_finBits (hF : F.Ok) (n : Bool) {p : Nat} {q : Int} (h : F.Canon p q) : F.decode (F.finBits n p q) = .fin n p q := by
  have hmax := hF.emax_lt
  by_cases hp : p < 2 ^ F.fw
  · have h0 : ¬ F.emaxF < 0 := Nat.not_lt_zero _
    have hne : ¬ 0 = F.emaxF := hF.emax_pos.ne
    rw [FFmt.finBits_sub n q hp, FFmt.decode_fields (Nat.two_pow_pos _) hp]
    simp [h0, hne, h.sub hp]
  · have hp' : 2 ^ F.fw ≤ p := Nat.le_of_not_lt hp
    obtain ⟨hpos, hle, hfr, hcast⟩ := h.fields_normal hp'
    have hnan : ¬ ((q + F.bias + F.fw).toNat = F.emaxF ∧ F.top < 2 ^ F.fw + (p - 2 ^ F.fw)) := by
      rintro ⟨he, ht⟩
      have := h.le_top (by unfold FFmt.qmax; omega)
      omega
    rw [FFmt.finBits_normal n hp', FFmt.decode_fields (by omega) hfr, if_neg (by omega), if_neg (by simpa using hnan),
      if_neg (by omega), Nat.add_sub_cancel' hp', hcast]
    congr 1
    omega

/-- R91: what reads as a finite value is the encoding of that value. -/
theorem FFmt.of_decode_fin (hF : F.Ok) {b : Nat} (hb : b < 2 ^ (1 + F.ew + F.fw)) {n : Bool} {p : Nat} {q : Int}
    (h : F.decode b = .fin n p q) : F.Canon p q ∧ b = F.finBits n p q := by
  obtain ⟨k, ex, fr, hex, hfr, rfl⟩ := F.exists_fields hb
  have hpow : 2 ^ (F.fw + 1) = 2 ^ F.fw * 2 := pow_succ ..
  have hpos := hF.emax_pos
  have htop := hF.top_ge
  rw [FFmt.decode_fields hex hfr] at h
  split at h
  · split at h <;> cases h
  · next hle =>
    split at h
    · cases h
    · next hnan =>
      simp only [Bool.and_eq_true, decide_eq_true_eq, not_and] at hnan
      split at h
      · next h0 =>
        obtain ⟨rfl, rfl, rfl⟩ := h
        subst h0
        refine ⟨⟨by omega, le_refl _, fun _ => rfl, ?_, fun _ => by omega⟩, (FFmt.finBits_sub _ _ hfr).symm⟩
        unfold FFmt.qmin FFmt.qmax
        omega
      · next h0 =>
        obtain ⟨rfl, rfl, rfl⟩ := h
        refine ⟨⟨by omega, by unfold FFmt.qmin; omega, fun _ => by omega, by unfold FFmt.qmax; omega, fun he => ?_⟩, ?_⟩
        · unfold FFmt.qmax at he
          have := hnan (by omega)
          omega
        · rw [FFmt.finBits_normal _ (by omega), Nat.add_sub_cancel_left,
            show ((ex : Int) - F.bias - F.fw + F.bias + F.fw).toNat = ex by omega]

theorem FFmt.finBits_lt (hF : F.Ok) (n : Bool) {p : Nat} {q : Int} (h : F.Canon p q) : F.finBits n p q < 2 ^ (1 + F.ew + F.fw) := by
  by_cases hp : p < 2 ^ F.fw
  · rw [FFmt.finBits_sub n q hp]
    exact F.signBit_lt n (FFmt.fields_lt (Nat.two_pow_pos _) hp)
  · have hp' := Nat.le_of_not_lt hp
    obtain ⟨-, hle, hfr, -⟩ := h.fields_normal hp'
    rw [FFmt.finBits_normal n hp']
    exact F.signBit_lt n (FFmt.fields_lt (hle.trans_lt hF.emax_lt) hfr)

theorem FFmt.finBits_sign (F : FFmt) (n : Bool) (p : Nat) (q : Int) : F.finBits n p q = F.signBit n + F.finBits false p q := by
  simp [FFmt.finBits, FFmt.signBit]

/-- The encoding is odd where the significand is. -/
theorem FFmt.finBits_mod_two (hF : F.Ok) (p : Nat) (q : Int) : F.finBits false p q % 2 = p % 2 := by
  obtain ⟨k, hk⟩ : ∃ k, F.fw = k + 1 := ⟨F.fw - 1, by have := hF.fw_pos; omega⟩
  by_cases hp : p < 2 ^ F.fw
  · simp [FFmt.finBits_sub _ _ hp, FFmt.fields, FFmt.signBit]
  · rw [FFmt.finBits_normal _ (Nat.le_of_not_lt hp), FFmt.fields]
    rw [hk, pow_succ] at hp ⊢
    have hmul : ∀ c, c * (2 ^ k * 2) = 2 * (c * 2 ^ k) := fun c => by ring
    rw [hmul]
    simp only [FFmt.signBit, Bool.false_eq_true, if_false]
    omega

/-! ### The largest value and the step to the next one -/

theorem FFmt.canon_max (hF : F.Ok) : F.Canon F.top F.qmax where
  lt := hF.top_lt
  qmin_le := by have := hF.emax_pos; unfold FFmt.qmin FFmt.qmax; omega
  sub := fun h => absurd hF.top_ge (by omega)
  le_qmax := le_refl _
  le_top := fun _ => le_refl _

theorem FFmt.finBits_eq_maxBits (hF : F.Ok) {p : Nat} {q : Int} (h : F.Canon p q) :
    F.finBits false p q = F.maxBits false ↔ p = F.top ∧ q = F.qmax := by
  refine ⟨fun hb => ?_, fun ⟨hp, hq⟩ => by rw [hp, hq]; rfl⟩
  have hd := congrArg F.decode hb
  rw [FFmt.decode_finBits hF _ h, FFmt.maxBits, FFmt.decode_finBits hF _ (FFmt.canon_max hF)] at hd
  injection hd with _ hp hq
  exact ⟨hp, hq⟩

/-- A significand that a rounding carried out of its width, in the next unit. -/
def FFmt.carry (F : FFmt) (r : Nat) (q : Int) : Nat × Int := if r = 2 ^ (F.fw + 1) then (2 ^ F.fw, q + 1) else (r, q)

theorem FFmt.carry_of_ne {r : Nat} (q : Int) (h : r ≠ 2 ^ (F.fw + 1)) : F.carry r q = (r, q) := if_neg h

theorem FFmt.toUnits_carry (n : Bool) (r : Nat) {q e0 : Int} (h : e0 ≤ q) :
    toUnits n (F.carry r q).1 (F.carry r q).2 e0 = toUnits n r q e0 := by
  unfold FFmt.carry
  split
  · next hr =>
    rw [hr, toUnits, toUnits, show (q + 1 - e0).toNat = (q - e0).toNat + 1 by omega]
    simp only [pow_succ]
    rw [Nat.mul_right_comm, Nat.mul_assoc]
  · rfl

theorem FFmt.Canon.succ (hF : F.Ok) {p : Nat} {q : Int} (h : F.Canon p q) (hl : ¬ (p = F.top ∧ q = F.qmax)) :
    F.Canon (F.carry (p + 1) q).1 (F.carry (p + 1) q).2 := by
  have hlt := h.lt
  have hsub := h.sub
  have hmin := h.qmin_le
  have hmax := h.le_qmax
  have htop := h.le_top
  have hge := hF.top_ge
  have hT := hF.top_lt
  have hpow : 2 ^ (F.fw + 1) = 2 ^ F.fw * 2 := pow_succ ..
  by_cases hr : p + 1 = 2 ^ (F.fw + 1)
  · rw [FFmt.carry, if_pos hr]
    have hq : q ≠ F.qmax := fun he => hl ⟨by have := htop he; omega, he⟩
    exact ⟨by have := Nat.two_pow_pos F.fw; omega, by omega, fun h => absurd h (by omega), by omega, fun _ => hge⟩
  · rw [FFmt.carry_of_ne q hr]
    exact ⟨by omega, hmin, fun h => hsub (by omega), hmax, fun he => by have := htop he; have := fun hp => hl ⟨hp, he⟩; omega⟩

/-- R91: the encodings of finite values follow one another. -/
theorem FFmt.finBits_carry (n : Bool) {p : Nat} {q : Int} (h : F.Canon p q) :
    F.finBits n (F.carry (p + 1) q).1 (F.carry (p + 1) q).2 = F.finBits n p q + 1 := by
  have hpow : 2 ^ (F.fw + 1) = 2 ^ F.fw * 2 := pow_succ ..
  have hpos : 0 < 2 ^ F.fw := Nat.two_pow_pos _
  by_cases hr : p + 1 = 2 ^ (F.fw + 1)
  · obtain ⟨-, -, -, hcast⟩ := h.fields_normal (show 2 ^ F.fw ≤ p by omega)
    rw [FFmt.carry, if_pos hr, FFmt.finBits_normal n (le_refl _), FFmt.finBits_normal n (show 2 ^ F.fw ≤ p by omega),
      show (q + 1 + F.bias + F.fw).toNat = (q + F.bias + F.fw).toNat + 1 by omega, FFmt.fields, FFmt.fields, Nat.succ_mul]
    omega
  · rw [FFmt.carry_of_ne q hr]
    by_cases hp : p + 1 < 2 ^ F.fw
    · rw [FFmt.finBits_sub n q hp, FFmt.finBits_sub n q (show p < 2 ^ F.fw by omega), FFmt.fields, FFmt.fields]
      omega
    · rw [FFmt.finBits_normal n (Nat.le_of_not_lt hp)]
      by_cases hlast : p < 2 ^ F.fw
      · rw [FFmt.finBits_sub n q hlast, h.sub hlast, show (F.qmin + F.bias + F.fw).toNat = 1 by unfold FFmt.qmin; omega,
          FFmt.fields, FFmt.fields]
        omega
      · rw [FFmt.finBits_normal n (Nat.le_of_not_lt hlast), FFmt.fields, FFmt.fields]
        show _ + ((q + F.bias + F.fw).toNat * _ + _) = _
        omega

end Sys2Proof.Machine
end

section
/-! SUPPORT. Rounding (R97 to R99): an inexact value becomes one of its two neighbours, and a format's finite values, its overflow
and its exceptions follow. -/
namespace Sys2Proof.Machine

/-! ### To an integer multiple (R97, R98) -/

/-- R97, R98: whether the mode, or its draw, gives the neighbour of greater magnitude to a value `x` between `lo` and `hi`;
`odd` says of the lower neighbour that it is odd. -/
def RMode.away (md : RMode) (neg odd : Bool) (x lo hi : Int) : Bool :=
  match md with
  | .nearest => lo + hi < 2 * x || (lo + hi == 2 * x && odd)
  | .zero => false | .up => !neg | .down => neg
  | .stoch u => (u : Int) < (x - lo) * 2 ^ 16 / (hi - lo)

theorem RMode.away_scale (md : RMode) (neg odd : Bool) (x lo hi : Int) {c : Int} (hc : 0 < c) :
    md.away neg odd (x * c) (lo * c) (hi * c) = md.away neg odd x lo hi := by
  have hlt : (lo * c + hi * c < 2 * (x * c)) = (lo + hi < 2 * x) := by
    rw [← add_mul, ← mul_assoc, mul_lt_mul_iff_left₀ hc]
  have heq : (lo * c + hi * c == 2 * (x * c)) = (lo + hi == 2 * x) := by
    rw [← add_mul, ← mul_assoc, Bool.eq_iff_iff, beq_iff_eq, beq_iff_eq, mul_left_inj' hc.ne']
  cases md <;> simp only [RMode.away, hlt, heq]
  rw [← sub_mul, ← sub_mul, mul_right_comm, Int.mul_ediv_mul_of_pos_left _ _ hc]

theorem roundShift_of_dvd (md : RMode) (n : Bool) {m k : Nat} (h : m % 2 ^ k = 0) : roundShift md n m k = (m / 2 ^ k, false) := by
  simp [roundShift, h]

theorem roundShift_inexact (md : RMode) (n : Bool) {m k : Nat} (h : m % 2 ^ k ≠ 0) : roundShift md n m k =
    (if md.away n (m / 2 ^ k % 2 == 1) m (m / 2 ^ k * 2 ^ k : Nat) ((m / 2 ^ k + 1) * 2 ^ k : Nat) then m / 2 ^ k + 1 else m / 2 ^ k,
      true) := by
  have hm := Nat.div_add_mod m (2 ^ k)
  rw [Nat.mul_comm] at hm
  unfold roundShift
  generalize m / 2 ^ k = q at hm ⊢
  have hlt : (((q * 2 ^ k : Nat) : Int) + ((q + 1) * 2 ^ k : Nat) < 2 * m) = (2 ^ k < 2 * (m % 2 ^ k)) := by
    rw [Nat.succ_mul, eq_iff_iff]; omega
  have heq : (((q * 2 ^ k : Nat) : Int) + ((q + 1) * 2 ^ k : Nat) == 2 * m) = (2 ^ k == 2 * (m % 2 ^ k)) := by
    rw [Nat.succ_mul, Bool.eq_iff_iff, beq_iff_eq, beq_iff_eq]; omega
  have hrem : (m : Int) - (q * 2 ^ k : Nat) = (m % 2 ^ k : Nat) := by omega
  have hstep : (((q + 1) * 2 ^ k : Nat) : Int) - (q * 2 ^ k : Nat) = (2 ^ k : Nat) := by rw [Nat.succ_mul]; omega
  have hdraw (u : Nat) : ((u : Int) < ((m % 2 ^ k : Nat) : Int) * 2 ^ 16 / (2 ^ k : Nat)) = (u < m % 2 ^ k * 2 ^ 16 / 2 ^ k) := by
    norm_cast
  simp only [if_neg h]
  cases md <;> simp only [RMode.away, hlt, heq, hrem, hstep, hdraw] <;> rfl

/-- R97: to nearest, an inexact value lies within half a unit of its rounding, and a tie goes to an even one. -/
theorem roundShift_nearest (n : Bool) {m k : Nat} (h : m % 2 ^ k ≠ 0) :
    let q := (roundShift .nearest n m k).1
    2 * (q * 2 ^ k) ≤ 2 * m + 2 ^ k ∧ 2 * m ≤ 2 * (q * 2 ^ k) + 2 ^ k ∧ (2 * (m % 2 ^ k) = 2 ^ k → q % 2 = 0) := by
  intro q
  have hm := Nat.div_add_mod m (2 ^ k)
  rw [Nat.mul_comm] at hm
  have hrem : m % 2 ^ k < 2 ^ k := Nat.mod_lt _ (Nat.two_pow_pos k)
  have hq : q = _ := congrArg Prod.fst (roundShift_inexact .nearest n h)
  generalize m / 2 ^ k = lo at hm hq
  have hsucc : (lo + 1) * 2 ^ k = lo * 2 ^ k + 2 ^ k := Nat.succ_mul ..
  by_cases ha : RMode.nearest.away n (lo % 2 == 1) m (lo * 2 ^ k : Nat) ((lo + 1) * 2 ^ k : Nat) = true
  · simp only [if_pos ha] at hq
    simp only [RMode.away, hsucc, Bool.or_eq_true, Bool.and_eq_true, decide_eq_true_eq, beq_iff_eq] at ha
    rw [hq, hsucc]
    omega
  · simp only [if_neg ha] at hq
    simp only [RMode.away, hsucc, Bool.or_eq_true, Bool.and_eq_true, decide_eq_true_eq, beq_iff_eq, not_or, not_and] at ha
    rw [hq]
    omega

/-- R98: a draw takes the neighbour of greater magnitude where it lies below the top 16 bits of the remainder. -/
theorem roundShift_stoch (n : Bool) (u : Nat) {m k : Nat} (h : m % 2 ^ k ≠ 0) :
    (roundShift (.stoch u) n m k).1 = m / 2 ^ k + 1 ↔ u < m % 2 ^ k * 2 ^ 16 / 2 ^ k := by
  simp only [roundShift, if_neg h, decide_eq_true_eq]
  split
  · next hu => exact ⟨fun _ => hu, fun _ => rfl⟩
  · next hu => exact ⟨fun he => by simp at he, fun h => absurd h hu⟩

/-- Whichever unit two multiples of powers of two are reckoned in, they compare alike. -/
theorem toUnits_le_iff (a b : Nat) {e q e0 e1 : Int} (h01 : e0 ≤ e1) (he : e1 ≤ e) (hq : e1 ≤ q) :
    toUnits false a e e0 ≤ toUnits false b q e0 ↔ toUnits false a e e1 ≤ toUnits false b q e1 := by
  rw [toUnits_of_le false a h01 he, toUnits_of_le false b h01 hq]
  exact mul_le_mul_iff_left₀ (by positivity)

theorem toUnits_lt_iff (a b : Nat) {e q e0 e1 : Int} (h01 : e0 ≤ e1) (he : e1 ≤ e) (hq : e1 ≤ q) :
    toUnits false a e e0 < toUnits false b q e0 ↔ toUnits false a e e1 < toUnits false b q e1 := by
  rw [toUnits_of_le false a h01 he, toUnits_of_le false b h01 hq]
  exact mul_lt_mul_iff_left₀ (by positivity)

theorem toUnits_self (a : Nat) (e : Int) : toUnits false a e e = a := by simp [toUnits]

/-- Rounding takes no value across a multiple of the unit. -/
theorem le_roundAt {md : RMode} {n : Bool} {m c : Nat} {e q e0 : Int} (he : e0 ≤ e) (hq : e0 ≤ q)
    (h : toUnits false c q e0 ≤ toUnits false m e e0) : c ≤ (roundAt md n m e q).1 := by
  rw [toUnits_le_iff c m (le_min he hq) (min_le_right _ _) (min_le_left _ _)] at h
  unfold roundAt
  by_cases hqe : q ≤ e
  · rw [min_eq_right hqe, toUnits_self, toUnits_false] at h
    rw [if_pos hqe]
    exact_mod_cast h
  · rw [min_eq_left (by omega), toUnits_self, toUnits_false] at h
    rw [if_neg hqe]
    have hc : c ≤ m / 2 ^ (q - e).toNat := (Nat.le_div_iff_mul_le (Nat.two_pow_pos _)).mpr (by exact_mod_cast h)
    by_cases hr : m % 2 ^ (q - e).toNat = 0
    · rw [roundShift_of_dvd _ _ hr]; exact hc
    · rw [roundShift_inexact _ _ hr]; dsimp only; split <;> omega

theorem roundAt_le {md : RMode} {n : Bool} {m c : Nat} {e q e0 : Int} (he : e0 ≤ e) (hq : e0 ≤ q)
    (h : toUnits false m e e0 ≤ toUnits false c q e0) : (roundAt md n m e q).1 ≤ c := by
  rw [toUnits_le_iff m c (le_min he hq) (min_le_left _ _) (min_le_right _ _)] at h
  unfold roundAt
  by_cases hqe : q ≤ e
  · rw [min_eq_right hqe, toUnits_self, toUnits_false] at h
    rw [if_pos hqe]
    exact_mod_cast h
  · rw [min_eq_left (by omega), toUnits_self, toUnits_false] at h
    rw [if_neg hqe]
    have hm : m ≤ c * 2 ^ (q - e).toNat := by exact_mod_cast h
    have hpos : 0 < 2 ^ (q - e).toNat := Nat.two_pow_pos _
    by_cases hr : m % 2 ^ (q - e).toNat = 0
    · rw [roundShift_of_dvd _ _ hr]
      exact Nat.div_le_of_le_mul (by rwa [Nat.mul_comm])
    · have hc : m / 2 ^ (q - e).toNat < c := by
        refine Nat.div_lt_of_lt_mul (lt_of_le_of_ne (by rwa [Nat.mul_comm]) fun hmc => hr ?_)
        rw [hmc, Nat.mul_mod_right]
      rw [roundShift_inexact _ _ hr]; dsimp only; split <;> omega

/-- R97: a multiple of the unit stays. -/
theorem roundAt_self (md : RMode) (n : Bool) (m : Nat) (e : Int) : roundAt md n m e e = (m, false) := by simp [roundAt]

/-- R97, R98: a value strictly between two adjacent multiples of the unit becomes one of them. -/
theorem roundAt_between {md : RMode} {n : Bool} {m p : Nat} {e q e0 : Int} (he : e0 ≤ e) (hq : e0 ≤ q)
    (hlo : toUnits false p q e0 < toUnits false m e e0) (hhi : toUnits false m e e0 < toUnits false (p + 1) q e0) :
    roundAt md n m e q =
      (if md.away n (p % 2 == 1) (toUnits false m e e0) (toUnits false p q e0) (toUnits false (p + 1) q e0) then p + 1 else p, true) := by
  have hqe : ¬ q ≤ e := by
    intro hqe
    rw [toUnits_lt_iff p m hq (le_refl q) hqe, toUnits_self, toUnits_false] at hlo
    rw [toUnits_lt_iff m (p + 1) hq hqe (le_refl q), toUnits_self, toUnits_false] at hhi
    omega
  have heq : e ≤ q := by omega
  rw [toUnits_of_le false p he heq, toUnits_of_le false (p + 1) he heq, toUnits_of_le false m he (le_refl e),
    RMode.away_scale _ _ _ _ _ _ (by positivity), toUnits_self, toUnits_false, toUnits_false]
  rw [toUnits_lt_iff p m he heq (le_refl e), toUnits_self, toUnits_false] at hlo
  rw [toUnits_lt_iff m (p + 1) he (le_refl e) heq, toUnits_self, toUnits_false] at hhi
  rw [roundAt, if_neg hqe]
  generalize (q - e).toNat = k at hlo hhi ⊢
  have hlo' : p * 2 ^ k < m := by exact_mod_cast hlo
  have hhi' : m < (p + 1) * 2 ^ k := by exact_mod_cast hhi
  have hdiv : m / 2 ^ k = p := Nat.div_eq_of_lt_le hlo'.le hhi'
  have hrem : m % 2 ^ k ≠ 0 := by
    intro h0
    have := Nat.div_add_mod m (2 ^ k)
    rw [hdiv, h0, Nat.mul_comm] at this
    omega
  rw [roundShift_inexact _ _ hrem, hdiv]

/-! ### Into a format (R97 to R99) -/

/-- The unit of the significand that a value rounds to with the exponent unbounded, and in the format. -/
def FFmt.freeUnit (F : FFmt) (m : Nat) (e : Int) : Int := e + Nat.log2 m - F.fw
def FFmt.unit (F : FFmt) (m : Nat) (e : Int) : Int := max (F.freeUnit m e) F.qmin

/-- R97: tininess after rounding with the exponent unbounded. -/
def FFmt.tiny (F : FFmt) (md : RMode) (n : Bool) (m : Nat) (e : Int) : Bool :=
  if (roundAt md n m e (F.freeUnit m e)).1 = 2 ^ (F.fw + 1) then F.freeUnit m e + 1 < F.qmin else F.freeUnit m e < F.qmin

/-- R97, R99: what overflows. -/
def FFmt.overflow (F : FFmt) (md : RMode) (sat n : Bool) : Nat × Exc :=
  (if F.hasInf && !sat && md.overInf n then F.infBits n else F.maxBits n, { of := true, nx := true })

variable {F : FFmt}

theorem FFmt.round_zero (F : FFmt) (md : RMode) (sat n : Bool) (e : Int) : F.round md sat n 0 e = (F.signBit n, {}) := by
  simp [FFmt.round]

/-- R97: rounding to the unit, the carry, the overflow and the exceptions. -/
theorem FFmt.round_eq {md : RMode} {sat n : Bool} {m : Nat} {e : Int} (hm : m ≠ 0) {r : Nat} {nx : Bool}
    (h : roundAt md n m e (F.unit m e) = (r, nx)) : F.round md sat n m e =
      if F.qmax < (F.carry r (F.unit m e)).2 ∨ (F.carry r (F.unit m e)).2 = F.qmax ∧ F.top < (F.carry r (F.unit m e)).1
      then F.overflow md sat n
      else (F.finBits n (F.carry r (F.unit m e)).1 (F.carry r (F.unit m e)).2, { nx := nx, uf := nx && F.tiny md n m e }) := by
  have hu : max (e + Nat.log2 m - F.fw) F.qmin = F.unit m e := rfl
  simp only [FFmt.round, if_neg hm, hu, h, FFmt.overflow, FFmt.tiny, FFmt.freeUnit]
  unfold FFmt.carry
  split <;> refine if_congr (by simp) rfl rfl

/-- The magnitude of a value, in powers of two: `log2` in the units of a lower exponent. -/
theorem lt_two_pow_iff {m : Nat} (hm : m ≠ 0) {e e0 : Int} (he : e0 ≤ e) (k : Nat) :
    toUnits false m e e0 < (2 ^ k : Nat) ↔ e + Nat.log2 m < e0 + k := by
  have hne : m * 2 ^ (e - e0).toNat ≠ 0 := Nat.mul_ne_zero hm (Nat.two_pow_pos _).ne'
  rw [toUnits_false, Nat.cast_lt, ← Nat.log2_lt hne, log2_mul_two_pow hm]
  omega

theorem two_pow_toUnits (k : Nat) (q e0 : Int) : toUnits false (2 ^ k) q e0 = (2 ^ (k + (q - e0).toNat) : Nat) := by
  rw [toUnits_false, pow_add]

/-- The unit is the one in which the value's magnitude has the width of a significand, or the least. -/
theorem FFmt.unit_eq {m p : Nat} {e q e0 : Int} (hm : m ≠ 0) (he : e0 ≤ e) (hq : e0 ≤ q) (hmin : F.qmin ≤ q)
    (hp : p < 2 ^ (F.fw + 1)) (hsub : p < 2 ^ F.fw → q = F.qmin) (hlo : toUnits false p q e0 ≤ toUnits false m e e0)
    (hhi : toUnits false m e e0 < toUnits false (p + 1) q e0) : F.unit m e = q := by
  have hcast : ((q - e0).toNat : Int) = q - e0 := by omega
  have mono {a b : Nat} (h : a ≤ b) : toUnits false a q e0 ≤ toUnits false b q e0 := by
    rw [toUnits_false, toUnits_false]
    exact_mod_cast Nat.mul_le_mul_right _ h
  have hlt := hhi.trans_le (mono hp)
  rw [two_pow_toUnits, lt_two_pow_iff hm he] at hlt
  unfold FFmt.unit FFmt.freeUnit
  by_cases h : p < 2 ^ F.fw
  · have hlt' := hhi.trans_le (mono h)
    rw [two_pow_toUnits, lt_two_pow_iff hm he] at hlt'
    have := hsub h
    omega
  · have hge : ¬ toUnits false m e e0 < toUnits false (2 ^ F.fw) q e0 := ((mono (Nat.le_of_not_lt h)).trans hlo).not_gt
    rw [two_pow_toUnits, lt_two_pow_iff hm he] at hge
    omega

/-- R97: a value that the format represents is its own rounding. -/
theorem FFmt.round_canon {p : Nat} {q : Int} (h : F.Canon p q) (md : RMode) (sat n : Bool) :
    F.round md sat n p q = (F.finBits n p q, {}) := by
  by_cases hp : p = 0
  · subst hp
    rw [FFmt.round_zero, FFmt.finBits_sub n q (Nat.two_pow_pos _), FFmt.fields]
    simp
  · have hlt : toUnits false p q q < toUnits false (p + 1) q q := by rw [toUnits_self, toUnits_self]; omega
    have hu := FFmt.unit_eq hp (le_refl q) (le_refl q) h.qmin_le h.lt h.sub (le_refl _) hlt
    have hr : roundAt md n p q (F.unit p q) = (p, false) := by rw [hu, roundAt_self]
    rw [FFmt.round_eq hp hr, hu, FFmt.carry_of_ne q h.lt.ne, if_neg]
    · rfl
    · have h1 := h.le_qmax
      have h2 := h.le_top
      rintro (h | ⟨h, ht⟩)
      · exact absurd h (by omega)
      · exact absurd (h2 h) (by dsimp only at ht; omega)

/-- R97, R98: a value strictly between two adjacent finite values, or between the largest one and the step behind it. -/
theorem FFmt.round_between (hF : F.Ok) {md : RMode} {sat n : Bool} {m p : Nat} {e q e0 : Int} (hm : m ≠ 0) (h : F.Canon p q)
    (he : e0 ≤ e) (hq : e0 ≤ q) (hlo : toUnits false p q e0 < toUnits false m e e0)
    (hhi : toUnits false m e e0 < toUnits false (p + 1) q e0) {away : Bool}
    (ha : md.away n (p % 2 == 1) (toUnits false m e e0) (toUnits false p q e0) (toUnits false (p + 1) q e0) = away) :
    F.round md sat n m e = if away ∧ p = F.top ∧ q = F.qmax then F.overflow md sat n
      else (F.finBits n p q + away.toNat, { nx := true, uf := F.tiny md n m e }) := by
  have hu := FFmt.unit_eq hm he hq h.qmin_le h.lt h.sub hlo.le hhi
  have hr := roundAt_between (md := md) (n := n) he hq hlo hhi
  rw [ha, ← hu] at hr
  rw [FFmt.round_eq hm hr, hu]
  cases away
  · have h1 := h.le_qmax
    have h2 := h.le_top
    rw [if_neg Bool.false_ne_true, FFmt.carry_of_ne q h.lt.ne, if_neg, if_neg (by simp)]
    · simp
    · rintro (h | ⟨h, ht⟩)
      · exact absurd h (by omega)
      · exact absurd (h2 h) (by dsimp only at ht; omega)
  · rw [if_pos rfl]
    by_cases hl : p = F.top ∧ q = F.qmax
    · have hover : F.qmax < (F.carry (p + 1) q).2 ∨ (F.carry (p + 1) q).2 = F.qmax ∧ F.top < (F.carry (p + 1) q).1 := by
        rw [hl.1, hl.2]
        unfold FFmt.carry
        split
        · exact .inl (by dsimp only; omega)
        · exact .inr ⟨rfl, Nat.lt_succ_self _⟩
      rw [if_pos hover, if_pos ⟨rfl, hl⟩]
    · have hs := h.succ hF hl
      have h1 := hs.le_qmax
      have h2 := hs.le_top
      have hfits : ¬ (F.qmax < (F.carry (p + 1) q).2 ∨ (F.carry (p + 1) q).2 = F.qmax ∧ F.top < (F.carry (p + 1) q).1) := by
        rintro (h | ⟨h, ht⟩)
        · exact absurd h (by omega)
        · exact absurd (h2 h) (by omega)
      rw [if_neg hfits, if_neg (fun h => hl h.2), FFmt.finBits_carry n h]
      simp

/-- R97, R99: what reaches the step behind the largest value overflows. -/
theorem FFmt.round_overflow (hF : F.Ok) {md : RMode} {sat n : Bool} {m : Nat} {e e0 : Int} (hm : m ≠ 0) (he : e0 ≤ e)
    (hq : e0 ≤ F.qmax) (h : toUnits false (F.top + 1) F.qmax e0 ≤ toUnits false m e e0) : F.round md sat n m e = F.overflow md sat n := by
  have hT := hF.top_ge
  have hge : ¬ toUnits false m e e0 < toUnits false (2 ^ F.fw) F.qmax e0 := by
    refine (le_trans ?_ h).not_gt
    rw [toUnits_false, toUnits_false]
    exact_mod_cast Nat.mul_le_mul_right _ (by omega)
  rw [two_pow_toUnits, lt_two_pow_iff hm he] at hge
  have hu : F.qmax ≤ F.unit m e := by unfold FFmt.unit FFmt.freeUnit; omega
  rw [FFmt.round_eq hm rfl, if_pos]
  unfold FFmt.carry
  rcases hu.lt_or_eq with hlt | heq
  · refine .inl ?_
    split <;> dsimp only <;> omega
  · have hr : F.top + 1 ≤ (roundAt md n m e (F.unit m e)).1 := by rw [← heq]; exact le_roundAt he hq h
    split
    · exact .inl (by dsimp only; omega)
    · exact .inr ⟨heq.symm, hr⟩

/-- R97: a value is tiny where it stays below the least normal value both as it is and rounded with one bit more. -/
theorem FFmt.tiny_eq {md : RMode} {n : Bool} {m : Nat} {e e0 : Int} (hm : m ≠ 0) (he : e0 ≤ e) (hq : e0 ≤ F.qmin) :
    F.tiny md n m e =
      (decide (toUnits false m e e0 < toUnits false (2 ^ F.fw) F.qmin e0)
        && decide ((roundAt md n m e (F.qmin - 1)).1 < 2 ^ (F.fw + 1))) := by
  have hx : toUnits false m e e0 < toUnits false (2 ^ F.fw) F.qmin e0 ↔ F.freeUnit m e < F.qmin := by
    rw [two_pow_toUnits, lt_two_pow_iff hm he]
    unfold FFmt.freeUnit
    omega
  rw [FFmt.tiny, decide_eq_decide.mpr hx]
  have hlow : ∀ {q : Int}, F.freeUnit m e ≤ q → (roundAt md n m e q).1 ≤ 2 ^ (F.fw + 1) := by
    intro q hle
    refine roundAt_le (e0 := min e q) (min_le_left _ _) (min_le_right _ _) ?_
    rw [two_pow_toUnits]
    refine ((lt_two_pow_iff hm (min_le_left _ _) _).mpr ?_).le
    unfold FFmt.freeUnit at hle
    omega
  rcases lt_trichotomy (F.freeUnit m e) (F.qmin - 1) with hlt | heq | hgt
  · have hr : (roundAt md n m e (F.qmin - 1)).1 ≤ 2 ^ F.fw := by
      refine roundAt_le (e0 := min e (F.qmin - 1)) (min_le_left _ _) (min_le_right _ _) ?_
      rw [two_pow_toUnits]
      refine ((lt_two_pow_iff hm (min_le_left _ _) _).mpr ?_).le
      unfold FFmt.freeUnit at hlt
      omega
    have hpow : 2 ^ (F.fw + 1) = 2 ^ F.fw * 2 := pow_succ ..
    have hpos := Nat.two_pow_pos F.fw
    rw [decide_eq_true (show F.freeUnit m e < F.qmin by omega), decide_eq_true (show F.freeUnit m e + 1 < F.qmin by omega),
      decide_eq_true (show (roundAt md n m e (F.qmin - 1)).1 < 2 ^ (F.fw + 1) by omega)]
    simp
  · have hr := hlow heq.le
    rw [← heq] at hr ⊢
    rw [decide_eq_true (show F.freeUnit m e < F.qmin by omega), decide_eq_false (show ¬ F.freeUnit m e + 1 < F.qmin by omega),
      Bool.true_and, Bool.if_false_left, Bool.and_true, ← decide_not, decide_eq_decide]
    omega
  · rw [decide_eq_false (show ¬ F.freeUnit m e < F.qmin by omega), decide_eq_false (show ¬ F.freeUnit m e + 1 < F.qmin by omega)]
    simp

/-- Rounded to its unit, a value has a significand of the format's width, or the power of two behind it. -/
theorem FFmt.roundAt_unit (F : FFmt) (md : RMode) (n : Bool) {m : Nat} {e : Int} (hm : m ≠ 0) :
    (roundAt md n m e (F.unit m e)).1 ≤ 2 ^ (F.fw + 1)
    ∧ ((roundAt md n m e (F.unit m e)).1 < 2 ^ F.fw → F.unit m e = F.qmin) := by
  have he : min e (F.unit m e) ≤ e := min_le_left _ _
  have hu : min e (F.unit m e) ≤ F.unit m e := min_le_right _ _
  constructor
  · refine roundAt_le he hu ?_
    rw [two_pow_toUnits]
    refine ((lt_two_pow_iff hm he _).mpr ?_).le
    unfold FFmt.unit FFmt.freeUnit
    omega
  · intro hlt
    by_contra hne
    refine absurd (le_roundAt (c := 2 ^ F.fw) he hu ?_) hlt.not_ge
    rw [two_pow_toUnits]
    refine not_lt.mp (mt (lt_two_pow_iff hm he _).mp ?_)
    unfold FFmt.unit FFmt.freeUnit at hne ⊢
    omega

/-- A significand that does not overflow is a finite value's, once its carry is in the next unit. -/
theorem FFmt.canon_carry (hF : F.Ok) {r : Nat} {u : Int} (hr : r ≤ 2 ^ (F.fw + 1)) (hmin : F.qmin ≤ u) (hsub : r < 2 ^ F.fw → u = F.qmin)
    (hfit : ¬ (F.qmax < (F.carry r u).2 ∨ (F.carry r u).2 = F.qmax ∧ F.top < (F.carry r u).1)) :
    F.Canon (F.carry r u).1 (F.carry r u).2 := by
  have hpow : 2 ^ (F.fw + 1) = 2 ^ F.fw * 2 := pow_succ ..
  have hpos := Nat.two_pow_pos F.fw
  by_cases hc : r = 2 ^ (F.fw + 1)
  · rw [FFmt.carry, if_pos hc] at hfit ⊢
    exact ⟨by omega, by dsimp only; omega, fun h => absurd h (by simp), by dsimp only at hfit ⊢; omega, fun _ => hF.top_ge⟩
  · rw [FFmt.carry_of_ne u hc] at hfit ⊢
    exact ⟨by dsimp only; omega, hmin, hsub, by dsimp only at hfit ⊢; omega, fun h => by dsimp only at hfit h ⊢; omega⟩

theorem FFmt.canon_zero (hF : F.Ok) : F.Canon 0 F.qmin where
  lt := Nat.two_pow_pos _
  qmin_le := le_refl _
  sub := fun _ => rfl
  le_qmax := by have := hF.emax_pos; unfold FFmt.qmin FFmt.qmax; omega
  le_top := fun _ => Nat.zero_le _

/-- What a rounding gives is an encoding: an overflow's, or a finite value's. -/
theorem FFmt.round_cases (hF : F.Ok) (md : RMode) (sat n : Bool) (m : Nat) (e : Int) :
    F.round md sat n m e = F.overflow md sat n ∨ ∃ p q, F.Canon p q ∧ (F.round md sat n m e).1 = F.finBits n p q := by
  by_cases hm : m = 0
  · refine .inr ⟨0, F.qmin, FFmt.canon_zero hF, ?_⟩
    rw [hm, FFmt.round_zero, FFmt.finBits_sub n _ (Nat.two_pow_pos _), FFmt.fields]
    simp
  · obtain ⟨hr, hsub⟩ := F.roundAt_unit md n (e := e) hm
    rw [FFmt.round_eq hm rfl]
    split
    · exact .inl rfl
    · next hfit => exact .inr ⟨_, _, FFmt.canon_carry hF hr (le_max_right _ _) hsub hfit, rfl⟩

theorem FFmt.maxBits_lt (hF : F.Ok) (n : Bool) : F.maxBits n < 2 ^ (1 + F.ew + F.fw) := FFmt.finBits_lt hF n (FFmt.canon_max hF)

theorem FFmt.infBits_lt (F : FFmt) (n : Bool) : F.infBits n < 2 ^ (1 + F.ew + F.fw) := by
  have hA := Nat.two_pow_pos F.fw
  have hB := Nat.two_pow_pos F.ew
  refine F.signBit_lt n ?_
  rw [pow_add, Nat.mul_comm, Nat.mul_lt_mul_left hA]
  omega

/-- A rounded value fits the format's bits. -/
theorem FFmt.round_lt (hF : F.Ok) (md : RMode) (sat n : Bool) (m : Nat) (e : Int) :
    (F.round md sat n m e).1 < 2 ^ (1 + F.ew + F.fw) := by
  rcases FFmt.round_cases hF md sat n m e with h | ⟨p, q, hc, h⟩
  · rw [h, FFmt.overflow]
    dsimp only
    split
    · exact F.infBits_lt n
    · exact FFmt.maxBits_lt hF n
  · rw [h]
    exact FFmt.finBits_lt hF n hc

end Sys2Proof.Machine
end

section
open Sys2Proof Sys2Proof.Machine

/-- Settles O9: a represented value has its own encoding as its significand (`FFmt.of_decode_fin`, `FFmt.round_canon`); an inexact
one stands between two multiples of its unit (`roundShift_inexact`, `FFmt.round_between`), which are adjacent encodings
(`FFmt.finBits_carry`), and overflows from the step behind the largest value on (`FFmt.round_overflow`). -/
theorem floatRounding : Obligations.FloatRounding := by
  refine ⟨?represented, ?multiple, ?neighbours⟩
  case represented =>
    intro F hmem md sat n m e b hb hd
    have hF := ok_of_mem hmem
    obtain ⟨hc, rfl⟩ := FFmt.of_decode_fin hF hb hd
    exact FFmt.round_canon hc md sat n
  case multiple =>
    intro md n m k q lo
    have hm : lo * 2 ^ k + m % 2 ^ k = m := by rw [Nat.mul_comm]; exact Nat.div_add_mod m _
    by_cases hr : m % 2 ^ k = 0
    · have hq : q = lo := by simp only [q, lo, roundShift_of_dvd md n hr]
      refine ⟨by simp [roundShift_of_dvd md n hr, hr], fun _ => by rw [hq]; omega, fun h => absurd hr h⟩
    · have hq : q = if md.away n (lo % 2 == 1) m (lo * 2 ^ k : Nat) ((lo + 1) * 2 ^ k : Nat) then lo + 1 else lo := by
        simp only [q, lo, roundShift_inexact md n hr]
      refine ⟨by simp [roundShift_inexact md n hr, hr], fun h => absurd h hr, fun _ => ⟨?_, ?nearest, ?_, ?_, ?_, ?draw⟩⟩
      · rw [hq]
        split
        · exact .inr rfl
        · exact .inl rfl
      case nearest =>
        rintro rfl
        exact roundShift_nearest n hr
      · rintro rfl
        exact hq
      · rintro rfl
        rw [hq]
        cases n <;> rfl
      · rintro rfl
        exact hq
      case draw =>
        rintro u rfl
        exact roundShift_stoch n u hr
  case neighbours =>
    intro F hmem md sat n m b p e q hm hb hd e0 x lo last hi away infinite most tiny
    have hF := ok_of_mem hmem
    have hlt : 2 ^ (F.ew + F.fw) < 2 ^ (1 + F.ew + F.fw) := Nat.pow_lt_pow_right (by omega) (by omega)
    obtain ⟨hc, hbits⟩ := FFmt.of_decode_fin hF (hb.trans hlt) hd
    have he : e0 ≤ e := min_le_left _ _
    have hmin : e0 ≤ F.qmin := min_le_right _ _
    have hlast : last = true ↔ p = F.top ∧ q = F.qmax := by
      rw [decide_eq_true_iff, hbits]
      exact FFmt.finBits_eq_maxBits hF hc
    have hhi : hi = toUnits false (p + 1) q e0 := by
      by_cases hl : last = true
      · obtain ⟨rfl, rfl⟩ := hlast.mp hl
        exact if_pos hl
      · have hnext : F.decode (b + 1) = .fin false (F.carry (p + 1) q).1 (F.carry (p + 1) q).2 := by
          rw [hbits, ← FFmt.finBits_carry false hc]
          exact FFmt.decode_finBits hF false (hc.succ hF (mt hlast.mpr hl))
        have : hi = toUnits false (F.carry (p + 1) q).1 (F.carry (p + 1) q).2 e0 := by simp only [hi, if_neg hl, hnext]
        rw [this, FFmt.toUnits_carry false _ (hmin.trans hc.qmin_le)]
    have hodd : (b % 2 == 1) = (p % 2 == 1) := by rw [hbits, FFmt.finBits_mod_two hF]
    have haway : md.away n (p % 2 == 1) x lo hi = away := by rw [← hodd]; cases md <;> rfl
    have hmost : F.overflow md sat n = most := by cases md <;> rfl
    have htiny : F.tiny md n m e = tiny := FFmt.tiny_eq hm he hmin
    refine ⟨fun hl hx => ?_, fun hlo hup => ?_⟩
    · obtain ⟨rfl, rfl⟩ := hlast.mp hl
      rw [hhi] at hx
      rw [FFmt.round_overflow hF hm he (hmin.trans hc.qmin_le) hx, hmost]
    · rw [hhi] at hup haway
      rw [FFmt.round_between hF hm hc he (hmin.trans hc.qmin_le) hlo hup haway, hmost, htiny, FFmt.finBits_sign, ← hbits]
      refine if_congr ?_ rfl ?_
      · rw [Bool.and_eq_true, hlast]
      · cases away <;> rfl
end

section
/-! SUPPORT. Sums, products and packed halves (R92, R254 to R265). -/
namespace Sys2Proof.Machine

/-! ### Forms of two and three sources -/

/-- R254: a form of two sources, by what its function gives of them. -/
theorem lane32E_of_fpBin {i : Instr} {s : State} {d a b : Opd} {kc : Fin 8 → Word} {f : Word → Word → Word × Exc}
    (h : exec i s = fpBin i s d a b kc f) {g : Nat → Word × Exc} (hg : ∀ l, f (s.w.get kc a l) (s.w.get kc b l) = g l) :
    Lane32E i s d g :=
  funext hg ▸ fpOp_lanewise (fun w l => f (w.get kc a l) (w.get kc b l)) h

/-- R254: a form whose destination is its third source. -/
theorem lane32E_of_fpTer {i : Instr} {s : State} {d a b : Opd} {kc : Fin 8 → Word} {f : Word → Word → Word → Word × Exc}
    (h : exec i s = fpTer i s d a b kc f) {g : Nat → Word × Exc}
    (hg : ∀ l, f (s.w.get kc a l) (s.w.get kc b l) (s.w.get kc d l) = g l) : Lane32E i s d g :=
  funext hg ▸ fpOp_lanewise (fun w l => f (w.get kc a l) (w.get kc b l) (w.get kc d l)) h

/-! ### Sums and products of values (R92, R256) -/

/-- A sum in one unit is zero in every unit that neither operand falls below, or in none. -/
theorem toUnits_add_eq_zero_iff (na nb : Bool) (ma mb : Nat) {ea eb e0 e1 : Int} (h : e0 ≤ e1) (ha : e1 ≤ ea) (hb : e1 ≤ eb) :
    toUnits na ma ea e0 + toUnits nb mb eb e0 = 0 ↔ toUnits na ma ea e1 + toUnits nb mb eb e1 = 0 := by
  rw [toUnits_of_le na ma h ha, toUnits_of_le nb mb h hb, ← add_mul, mul_eq_zero]
  simp

/-- R256: a finite sum, in whatever unit it is reckoned. -/
theorem FFmt.addFin_eq (F : FFmt) (md : RMode) (na nb : Bool) (ma mb : Nat) {ea eb e0 : Int} (ha : e0 ≤ ea) (hb : e0 ≤ eb) :
    F.addFin md na ma ea nb mb eb = if toUnits na ma ea e0 + toUnits nb mb eb e0 = 0
      then (F.signBit (if (na == nb) = true then na else decide (md = .down)), {})
      else F.round md false (toUnits na ma ea e0 + toUnits nb mb eb e0 < 0) (toUnits na ma ea e0 + toUnits nb mb eb e0).natAbs e0 := by
  by_cases hv : toUnits na ma ea e0 + toUnits nb mb eb e0 = 0
  · have hv' := (toUnits_add_eq_zero_iff na nb ma mb (le_min ha hb) (min_le_left _ _) (min_le_right _ _)).mp hv
    rw [if_pos hv, FFmt.addFin]
    exact if_pos hv'
  · rw [if_neg hv, FFmt.addFin_eq_round F md na nb ma mb ha hb hv]

theorem FVal.isNan_iff {a : FVal} : a.isNan = true ↔ ∃ s, a = .nan s := by cases a <;> simp [FVal.isNan]

/-- R92: a NaN among the operands of a sum. -/
theorem FFmt.add_nan (F : FFmt) (md : RMode) {a b : FVal} (h : a.isNan = true ∨ b.isNan = true) : F.add md a b = F.nanOf [a, b] := by
  rcases h with h | h
  · obtain ⟨s, rfl⟩ := FVal.isNan_iff.mp h
    rfl
  · obtain ⟨s, rfl⟩ := FVal.isNan_iff.mp h
    cases a <;> rfl

/-- R92: a NaN among the factors. -/
theorem FFmt.mul_nan (F : FFmt) (md : RMode) {a b : FVal} (h : a.isNan = true ∨ b.isNan = true) : F.mul md a b = F.nanOf [a, b] :=
  if_pos (by simpa using h)

theorem FFmt.fma_nan (F : FFmt) (md : RMode) {a b : FVal} (c : FVal) (h : a.isNan = true ∨ b.isNan = true) :
    F.fma md a b c = F.nanOf [a, b, c] :=
  if_pos (by simpa using h)

theorem FFmt.mul_eq (F : FFmt) (md : RMode) {a b : FVal} (ha : a.isNan = false) (hb : b.isNan = false) :
    F.mul md a b = ((FVal.mul a b).map (F.ofVal md)).getD F.invalid := by
  rw [FFmt.mul, ha, hb, Bool.or_self, if_neg Bool.false_ne_true]
  cases FVal.mul a b <;> rfl

theorem FFmt.fma_eq (F : FFmt) (md : RMode) {a b : FVal} (c : FVal) (ha : a.isNan = false) (hb : b.isNan = false) :
    F.fma md a b c = ((FVal.mul a b).map fun p => F.add md p c).getD F.invalid := by
  rw [FFmt.fma, ha, hb, Bool.or_self, if_neg Bool.false_ne_true]
  cases FVal.mul a b <;> rfl

/-! ### Results fit their bits -/

variable {F : FFmt}

theorem FFmt.signBit_zero_lt (F : FFmt) (n : Bool) : F.signBit n < 2 ^ (1 + F.ew + F.fw) :=
  F.signBit_lt n (Nat.two_pow_pos _)

theorem FFmt.addFin_lt (hF : F.Ok) (md : RMode) (na nb : Bool) (ma mb : Nat) (ea eb : Int) :
    (F.addFin md na ma ea nb mb eb).1 < 2 ^ (1 + F.ew + F.fw) := by
  rw [FFmt.addFin_eq F md na nb ma mb (min_le_left ea eb) (min_le_right ea eb)]
  split
  · exact F.signBit_zero_lt _
  · exact FFmt.round_lt hF ..

theorem FFmt.add_lt (hF : F.Ok) (md : RMode) (a b : FVal) : (F.add md a b).1 < 2 ^ (1 + F.ew + F.fw) := by
  unfold FFmt.add
  split
  · exact FFmt.addFin_lt hF ..
  · split
    · exact F.infBits_lt _
    · exact hF.nan_lt
  · exact F.infBits_lt _
  · exact F.infBits_lt _
  · exact hF.nan_lt

theorem FFmt.ofVal_lt (hF : F.Ok) (md : RMode) (a : FVal) : (F.ofVal md a).1 < 2 ^ (1 + F.ew + F.fw) := by
  cases a with
  | nan s => exact hF.nan_lt
  | inf n => exact F.infBits_lt n
  | fin n m e => exact FFmt.round_lt hF ..

theorem FFmt.mul_lt (hF : F.Ok) (md : RMode) (a b : FVal) : (F.mul md a b).1 < 2 ^ (1 + F.ew + F.fw) := by
  unfold FFmt.mul
  split
  · exact hF.nan_lt
  · split
    · exact hF.nan_lt
    · exact FFmt.ofVal_lt hF ..

theorem FFmt.fma_lt (hF : F.Ok) (md : RMode) (a b c : FVal) : (F.fma md a b c).1 < 2 ^ (1 + F.ew + F.fw) := by
  unfold FFmt.fma
  split
  · exact hF.nan_lt
  · split
    · exact hF.nan_lt
    · exact FFmt.add_lt hF ..

/-! ### Packed halves (R263, R264) -/

/-- R263: a half of a packed result, for a function whose results fit 16 bits. -/
theorem half_halves (F : FFmt) {f : (Nat → FVal) → Nat × Exc} (hf : ∀ v, (f v).1 < 2 ^ 16) (x : Nat → Word) {e : Nat} (he : e < 2) :
    (halves F f x).1.toNat / 2 ^ (16 * e) % 2 ^ 16 = (f fun j => F.decode (half (x j) e)).1 := by
  have h0 := hf fun j => F.decode (half (x j) 0)
  have h1 := hf fun j => F.decode (half (x j) 1)
  simp only [halves, BitVec.toNat_ofNat]
  obtain rfl | rfl : e = 0 ∨ e = 1 := by omega
  · omega
  · omega

end Sys2Proof.Machine
end

section
open Sys2Proof Sys2Proof.Machine

/-- Settles O7: each form is one function of its operands' values (`lane32E_of_fpBin`, `lane32E_of_fpTer`, `fpOp64_lanewise`); a finite
sum is one rounding in any unit (`FFmt.addFin_eq`), the other cases are the model's own, and a half of a packed result fits its 16
bits (`half_halves`). -/
theorem floatArithmetic : Obligations.FloatArithmetic := by
  refine ⟨?forms, ?values, ?packed⟩
  case forms =>
    intro s d a b md d' b' x y z x' y' X Y Z q
    refine ⟨?_, ?_, ?_, ?_, ?_, ?_, ?_, ?_, ?_, ?_, ?_, ?_, ?_, ?_, ?_, ?_⟩
    · exact lane32E_of_fpBin (kc := f32K) (f := add32 q) rfl fun _ => rfl
    · exact lane32E_of_fpBin (kc := f32K) (f := sub32 q) rfl fun _ => rfl
    · exact lane32E_of_fpBin (kc := f32K) (f := mul32 q) rfl fun _ => rfl
    · exact lane32E_of_fpTer (kc := f32K) (f := fma32 q) rfl fun _ => rfl
    · exact lane32E_of_fpBin (kc := f32K) (f := add32 .nearest) rfl fun _ => rfl
    · exact lane32E_of_fpBin (kc := f32K) (f := sub32 .nearest) rfl fun _ => rfl
    · exact lane32E_of_fpBin (kc := f32K) (f := mul32 .nearest) rfl fun _ => rfl
    · exact fpOp64_lanewise (fun w l => w64 (F64.add q (f64 (w.srcD a l)) (f64 (w.srcD b l)))) rfl
    · exact fpOp64_lanewise (fun w l => w64 (F64.mul q (f64 (w.srcD a l)) (f64 (w.srcD b l)))) rfl
    · exact fpOp64_lanewise (fun w l => w64 (F64.fma q (f64 (w.srcD a l)) (f64 (w.srcD b l)) (f64 (w.srcD d l)))) rfl
    · exact lane32E_of_fpBin (kc := f16K) (f := add2 F16 q) rfl fun _ => rfl
    · exact lane32E_of_fpBin (kc := f16K) (f := mul2 F16 q) rfl fun _ => rfl
    · exact lane32E_of_fpTer (kc := f16K) (f := fma2 F16 q) rfl fun _ => rfl
    · exact lane32E_of_fpBin (kc := bf16K) (f := add2 BF16 q) rfl fun _ => rfl
    · exact lane32E_of_fpBin (kc := bf16K) (f := mul2 BF16 q) rfl fun _ => rfl
    · exact lane32E_of_fpTer (kc := bf16K) (f := fma2 BF16 q) rfl fun _ => rfl
  case values =>
    intro F _ md na nb ma mb ea eb e0 a b c once nan ab
    refine ⟨fun ha hb => F.addFin_eq md na nb ma mb ha hb, rfl, rfl, ?infs, rfl, rfl, rfl, ?infFin, ?finInf, ?infFma, ?nans⟩
    case infs => exact if_congr beq_iff_eq rfl rfl
    case infFin =>
      rw [F.mul_eq md rfl rfl, FVal.mul]
      split <;> rfl
    case finInf =>
      rw [F.mul_eq md rfl rfl, FVal.mul]
      split <;> rfl
    case infFma =>
      rw [F.fma_eq md c rfl rfl, FVal.mul]
      split <;> rfl
    case nans =>
      intro h
      rw [F.add_nan md h, F.mul_nan md h, F.fma_nan md c h]
      simp [FFmt.nanOf, nan, Bool.or_assoc]
  case packed =>
    intro F hmem md x y z el halves'
    obtain ⟨hF, hw⟩ : F.Ok ∧ 1 + F.ew + F.fw = 16 := by
      simp only [List.mem_cons, List.not_mem_nil, or_false] at hmem
      rcases hmem with rfl | rfl
      · exact ⟨F16_ok, rfl⟩
      · exact ⟨BF16_ok, rfl⟩
    have hlt {k : Nat} (h : k < 2 ^ (1 + F.ew + F.fw)) : k < 2 ^ 16 := hw ▸ h
    refine ⟨⟨fun e he => ?_, rfl⟩, ⟨fun e he => ?_, rfl⟩, ⟨fun e he => ?_, rfl⟩⟩
    · exact half_halves F (fun v => hlt (FFmt.add_lt hF ..)) _ he
    · exact half_halves F (fun v => hlt (FFmt.mul_lt hF ..)) _ he
    · exact half_halves F (fun v => hlt (FFmt.fma_lt hF ..)) _ he
end

section
/-! SUPPORT. The sum of a chunk's products, and the chunks of a row (R104, R106). -/
namespace Sys2Proof.Machine

/-! ### Exact sums (R104) -/

/-- A finite value in units of 2^e0, and its own exponent; 0 for any other value. -/
def FVal.units (e0 : Int) (v : FVal) : Int := match v with | .fin n m e => toUnits n m e e0 | _ => 0
def FVal.expo (v : FVal) : Int := match v with | .fin _ _ e => e | _ => 0
def FVal.isMinus (v : FVal) : Bool := match v with | .fin n _ _ => n | _ => false

/-- The least exponent of a list of values. -/
def leastExpo (l : List FVal) : Int := (l.map FVal.expo).min?.getD 0

theorem sumFin_eq (l : List FVal) : sumFin l = if (l.map (FVal.units (leastExpo l))).sum = 0 then .fin (l.all FVal.isMinus) 0 (leastExpo l)
    else .fin ((l.map (FVal.units (leastExpo l))).sum < 0) (l.map (FVal.units (leastExpo l))).sum.natAbs (leastExpo l) := rfl

theorem leastExpo_spec {l : List FVal} (hl : l ≠ []) : leastExpo l ∈ l.map FVal.expo ∧ ∀ v ∈ l, leastExpo l ≤ v.expo := by
  obtain ⟨x, hx⟩ : ∃ x, (l.map FVal.expo).min? = some x := by
    cases h : (l.map FVal.expo).min? with
    | none => exact absurd (List.map_eq_nil_iff.mp (List.min?_eq_none_iff.mp h)) hl
    | some x => exact ⟨x, rfl⟩
  obtain ⟨hmem, hle⟩ := List.min?_eq_some_iff.mp hx
  simp only [leastExpo, hx, Option.getD_some]
  exact ⟨hmem, fun v hv => hle _ (List.mem_map_of_mem hv)⟩

/-- Values in the units of a lower exponent. -/
theorem sum_units_of_le {l : List FVal} {e0 e1 : Int} (h : e0 ≤ e1) (hl : ∀ v ∈ l, ∃ n m e, v = .fin n m e ∧ e1 ≤ e) :
    (l.map (FVal.units e0)).sum = (l.map (FVal.units e1)).sum * 2 ^ (e1 - e0).toNat := by
  rw [← List.sum_map_mul_right]
  refine congrArg List.sum (List.map_congr_left fun v hv => ?_)
  obtain ⟨n, m, e, rfl, he⟩ := hl v hv
  exact toUnits_of_le n m h he

theorem toUnits_natAbs (t : Int) (e e0 : Int) : toUnits (t < 0) t.natAbs e e0 = t * 2 ^ (e - e0).toNat := by
  by_cases ht : t < 0
  · simp [toUnits, ht, abs_of_neg ht]
  · simp [toUnits, ht, abs_of_nonneg (not_lt.mp ht)]

/-! ### Products of a chunk (R104) -/

theorem FVal.mul_eq_none_iff {a b : FVal} (ha : a.isNan = false) (hb : b.isNan = false) :
    FVal.mul a b = none ↔ ∃ n k e, (a, b) = (.inf n, .fin k 0 e) ∨ (a, b) = (.fin k 0 e, .inf n) := by
  cases a <;> cases b <;> simp_all [FVal.mul, FVal.isNan]

theorem FVal.mul_eq_inf_iff {a b : FVal} (s : Bool) : FVal.mul a b = some (.inf s) ↔ ∃ n k, s = (n != k) ∧
    ((a, b) = (.inf n, .inf k) ∨ ∃ m e, m ≠ 0 ∧ ((a, b) = (.inf n, .fin k m e) ∨ (a, b) = (.fin n m e, .inf k))) := by
  constructor
  · intro h
    cases a with
    | nan t => cases h
    | inf n =>
      cases b with
      | nan t => cases h
      | inf k => exact ⟨n, k, by injection h with h; injection h with h; exact h.symm, .inl rfl⟩
      | fin k m e =>
        by_cases hm : m = 0
        · simp [FVal.mul, hm] at h
        · exact ⟨n, k, by simpa [FVal.mul, hm, eq_comm] using h, .inr ⟨m, e, hm, .inl rfl⟩⟩
    | fin n m e =>
      cases b with
      | nan t => cases h
      | inf k =>
        by_cases hm : m = 0
        · simp [FVal.mul, hm] at h
        · exact ⟨n, k, by simpa [FVal.mul, hm, eq_comm] using h, .inr ⟨m, e, hm, .inr rfl⟩⟩
      | fin k b g => cases h
  · rintro ⟨n, k, rfl, h | ⟨m, e, hm, h | h⟩⟩
    · cases h; rfl
    · cases h; exact if_neg hm
    · cases h; exact if_neg hm

/-! ### A chunk into its accumulator (R104) -/

/-- The products of a chunk that are values. -/
def chunkProducts (a b : List FVal) : List FVal := (a.zip b).filterMap fun p => FVal.mul p.1 p.2

theorem mem_chunkProducts {a b : List FVal} {v : FVal} : v ∈ chunkProducts a b ↔ ∃ p ∈ a.zip b, FVal.mul p.1 p.2 = some v :=
  List.mem_filterMap

theorem FVal.isInfOf_iff {n : Bool} {v : FVal} : FVal.isInfOf n v = true ↔ v = .inf n := by
  cases v <;> simp [FVal.isInfOf]

theorem any_isInfOf_iff (a b : List FVal) (s : Bool) :
    (chunkProducts a b).any (FVal.isInfOf s) = true ↔ ∃ p ∈ a.zip b, FVal.mul p.1 p.2 = some (.inf s) := by
  rw [List.any_eq_true, ← mem_chunkProducts]
  simp only [FVal.isInfOf_iff, exists_eq_right]

/-- R104: what a chunk does to its accumulator, by its NaNs, its products without a value and its infinite products. -/
theorem chunkStep_eq (acc : Word) (a b : List FVal) : chunkStep acc a b =
    if isNan32 acc || a.any FVal.isNan || b.any FVal.isNan then (0x7FC00000, {})
    else if ((a.zip b).any fun p => (FVal.mul p.1 p.2).isNone)
        || ((chunkProducts a b).any (FVal.isInfOf false) && (chunkProducts a b).any (FVal.isInfOf true)) then
      (0x7FC00000, { nv := true })
    else w32 (F32.add .nearest (f32 acc) (if (chunkProducts a b).any (FVal.isInfOf false) then .inf false
      else if (chunkProducts a b).any (FVal.isInfOf true) then .inf true else sumFin (chunkProducts a b))) := by
  have hp : ((a.zip b).map fun p => FVal.mul p.1 p.2).filterMap id = chunkProducts a b := by
    rw [List.filterMap_map]
    rfl
  simp only [chunkStep, hp, List.any_map]
  rfl

theorem F32.add_inf (md : RMode) {x : FVal} (s : Bool) (hx : x.isNan = false) :
    F32.add md x (.inf s) = if x = .inf (!s) then (F32.nan, { nv := true }) else (F32.infBits s, {}) := by
  cases x with
  | nan t => simp [FVal.isNan] at hx
  | inf n => cases n <;> cases s <;> rfl
  | fin n m e => rfl

/-! ### Chunks, one after another (R104, R106) -/

theorem chunksInto_append {as bs : List (List FVal)} (h : as.length = bs.length) (a b : List FVal) (acc : Word) (e : Exc) :
    chunksInto (as ++ [a]) (bs ++ [b]) acc e =
      ((chunkStep (chunksInto as bs acc e).1 a b).1, (chunksInto as bs acc e).2.or (chunkStep (chunksInto as bs acc e).1 a b).2) := by
  induction as generalizing bs acc e with
  | nil =>
    obtain rfl : bs = [] := List.length_eq_zero_iff.mp h.symm
    rfl
  | cons x as ih =>
    cases bs with
    | nil => cases h
    | cons y bs => exact ih (Nat.succ_injective h) _ _

theorem groups32_length (k : Nat) (l : List FVal) : (groups32 k l).length = k := by
  induction k generalizing l with
  | zero => rfl
  | succ k ih => simp [groups32, ih]

theorem groups32_getElem? {k c : Nat} (l : List FVal) (h : c < k) : (groups32 k l)[c]? = some ((l.drop (32 * c)).take 32) := by
  induction k generalizing l c with
  | zero => omega
  | succ k ih =>
    cases c with
    | zero => simp [groups32]
    | succ c =>
      rw [groups32, List.getElem?_cons_succ, ih _ (by omega), List.drop_drop, show 32 + 32 * c = 32 * (c + 1) by ring]

end Sys2Proof.Machine
end

section
open Sys2Proof Sys2Proof.Machine

/-- Settles O38: a sum is reckoned in the least exponent (`sumFin_eq`) and its value does not depend on the unit (`sum_units_of_le`);
a chunk is decided by its NaNs, its products without a value and its infinite products (`chunkStep_eq`, `FVal.mul_eq_none_iff`,
`FVal.mul_eq_inf_iff`). -/
theorem matrixExactSum : Obligations.MatrixExactSum := by
  refine ⟨?sums, ?finite, ?special, ?order, ?rows⟩
  case sums =>
    intro l e0 hl hne
    obtain ⟨hmem, hleast⟩ := leastExpo_spec hne
    have he0 : e0 ≤ leastExpo l := by
      obtain ⟨v, hv, he⟩ := List.mem_map.mp hmem
      obtain ⟨n, m, e, rfl, hle⟩ := hl v hv
      exact he ▸ hle
    have hfin : ∀ v ∈ l, ∃ n m e, v = .fin n m e ∧ leastExpo l ≤ e := by
      intro v hv
      obtain ⟨n, m, e, rfl, -⟩ := hl v hv
      exact ⟨n, m, e, rfl, hleast _ hv⟩
    have hsum := sum_units_of_le he0 hfin
    have hminus : l.all FVal.isMinus = true ↔ ∀ v ∈ l, ∃ k e, v = .fin true k e := by
      rw [List.all_eq_true]
      refine forall₂_congr fun v hv => ?_
      obtain ⟨n, m, e, rfl, -⟩ := hl v hv
      simp [FVal.isMinus]
    by_cases ht : (l.map (FVal.units (leastExpo l))).sum = 0
    · refine ⟨l.all FVal.isMinus, 0, leastExpo l, by rw [sumFin_eq, if_pos ht], he0, ?_, fun _ => hminus⟩
      refine Eq.trans ?_ hsum.symm
      rw [ht]
      simp [Machine.toUnits]
    · refine ⟨_, _, _, by rw [sumFin_eq, if_neg ht], he0, ?_, fun h => absurd (Int.natAbs_eq_zero.mp h) ht⟩
      exact (toUnits_natAbs _ _ _).trans hsum.symm
  case finite =>
    intro acc l hacc fin
    have hzip : (l.map fun p => fin p.1).zip (l.map fun p => fin p.2) = l.map fun p => (fin p.1, fin p.2) := List.zip_map' ..
    have hprod : chunkProducts (l.map fun p => fin p.1) (l.map fun p => fin p.2)
        = l.map fun p => fin (p.1.1 != p.2.1, p.1.2.1 * p.2.2.1, p.1.2.2 + p.2.2.2) := by
      rw [chunkProducts, hzip, List.filterMap_map, ← List.filterMap_eq_map]
      rfl
    have hinf (s : Bool) : (l.map fun p => fin (p.1.1 != p.2.1, p.1.2.1 * p.2.2.1, p.1.2.2 + p.2.2.2)).any (FVal.isInfOf s) = false := by
      rw [List.any_eq_false]
      intro v hv
      obtain ⟨p, -, rfl⟩ := List.mem_map.mp hv
      exact Bool.false_ne_true
    rw [chunkStep_eq, hprod, hinf, hinf, hzip, if_neg, if_neg]
    · rfl
    · simp [FVal.mul, fin]
    · simp [FVal.isNan, fin, hacc]
  case special =>
    intro acc a b hlen nans clash infinite
    have hnan : (isNan32 acc || a.any FVal.isNan || b.any FVal.isNan) = true ↔ nans := by
      simp [nans, or_assoc, or_and_right, exists_or]
    have hclash (h : ¬ nans) : ((a.zip b).any fun p => (FVal.mul p.1 p.2).isNone) = true ↔ clash := by
      rw [List.any_eq_true]
      refine exists_congr fun p => and_congr_right fun hp => ?_
      have number {v : FVal} (hv : v ∈ a ++ b) : v.isNan = false := Bool.eq_false_iff.mpr fun hn => h (.inr ⟨v, hv, hn⟩)
      obtain ⟨hpa, hpb⟩ := List.of_mem_zip hp
      rw [Option.isNone_iff_eq_none]
      exact FVal.mul_eq_none_iff (number (List.mem_append_left _ hpa)) (number (List.mem_append_right _ hpb))
    have hinf (s : Bool) : (chunkProducts a b).any (FVal.isInfOf s) = true ↔ infinite s := by
      rw [any_isInfOf_iff]
      exact exists_congr fun p => and_congr_right fun _ => FVal.mul_eq_inf_iff s
    rw [chunkStep_eq]
    refine ⟨fun h => if_pos (hnan.mpr h), fun h hv => ?_, fun s h hc hi hni => ?_⟩
    · rw [if_neg (mt hnan.mp h), if_pos]
      simpa only [Bool.or_eq_true, Bool.and_eq_true, hclash h, hinf] using hv
    · have hacc : (f32 acc).isNan = false := Bool.eq_false_iff.mpr fun hn => h (.inl hn)
      have hadd : (if (chunkProducts a b).any (FVal.isInfOf false) then FVal.inf false
          else if (chunkProducts a b).any (FVal.isInfOf true) then .inf true else sumFin (chunkProducts a b)) = .inf s := by
        cases s
        · exact if_pos ((hinf false).mpr hi)
        · rw [if_neg (mt (hinf false).mp hni), if_pos ((hinf true).mpr hi)]
      rw [if_neg (mt hnan.mp h), if_neg, hadd, F32.add_inf _ s hacc]
      · split
        · rfl
        · cases s <;> rfl
      · simp only [Bool.or_eq_true, Bool.and_eq_true, hclash h, hinf]
        rintro (h | ⟨h0, h1⟩)
        · exact hc h
        · cases s
          · exact hni h1
          · exact hni h0
  case order =>
    exact fun as bs a b acc e h => ⟨rfl, chunksInto_append h a b acc e⟩
  case rows =>
    intro mode f vs
    refine ⟨by rw [rowChunks, List.length_map, groups32_length], fun c hc => ?_⟩
    rw [rowChunks, List.getElem?_map, groups32_getElem? vs hc, Option.map_some]
    simp only [Bool.and_eq_true, decide_eq_true_eq]
end

section
/-! SUPPORT. Instructions over lanes whose results depend on the run, and reductions over 64 values (R107, R275 to R282). -/
namespace Sys2Proof.Machine

/-! ### Results of the run -/

/-- R276: one result a lane that depends on the run. -/
theorem laneRun_of_write {i : Instr} {s : State} {d : Opd} {f : Run → Nat → Word}
    (h : exec i s = issue i s fun r => .ok (s.setW (s.w.write d r.lanes (f r)))) {g : Run → Nat → Word} (hg : ∀ r l, f r l = g r l) :
    LaneRun i s d g := by
  obtain rfl : f = g := funext fun r => funext (hg r)
  exact lanewise_of_block h fun r => write_block s.w r d f

/-- R277: what a lane receives from the lane that its shuffle names. -/
def Warp.shuffled (w : Warp) (a : Opd) (m : LaneMask) (l : Nat) : Option Nat → Word
  | some q => if q < Config.warpW && has m q then w.src a q else w.src a l
  | none => w.src a l

theorem shuffle_laneRun {i : Instr} {s : State} {d a : Opd} {f : Warp → Nat → Option Nat} (h : exec i s = shuffle i s d a f)
    {g : Run → Nat → Word} (hg : ∀ r l, s.w.shuffled a r.lanes l (f s.w l) = g r l) : LaneRun i s d g := by
  refine laneRun_of_write (f := fun r l => s.w.shuffled a r.lanes l (f s.w l)) (h.trans (congrArg (issue i s) ?_)) hg
  funext r
  refine congrArg (fun f => Act.ok (s.setW (s.w.write d r.lanes f))) (funext fun l => ?_)
  cases f s.w l <;> rfl

theorem Warp.shuffled_some (w : Warp) (a : Opd) (m : LaneMask) (l q : Nat) :
    w.shuffled a m l (some q) = if q < 64 ∧ has m q then w.src a q else w.src a l :=
  if_congr (by rw [Bool.and_eq_true, decide_eq_true_iff]; rfl) rfl rfl

theorem Warp.shuffled_up (w : Warp) (a : Opd) (m : LaneMask) (l k : Nat) : w.shuffled a m l (laneUp l k) =
    if k ≤ l then (if l - k < 64 ∧ has m (l - k) then w.src a (l - k) else w.src a l) else w.src a l := by
  unfold laneUp
  split
  · exact w.shuffled_some a m l _
  · rfl

/-- R281: a lane's identifier as one sum. -/
theorem wid_eq (s : State) (l : Nat) :
    wid s l = BitVec.ofNat 64 (l + s.w.idx * 2 ^ s.g.kern.widths.headD 6 + s.g.coord.toNat) := by
  rw [wid, shiftLeft_eq_mul]
  apply BitVec.eq_of_toNat_eq
  simp

/-! ### Reductions (R107) -/

theorem Exc.or_assoc (a b c : Exc) : (a.or b).or c = a.or (b.or c) := by simp [Exc.or, Bool.or_assoc]
theorem Exc.none_or (a : Exc) : Exc.or {} a = a := by simp [Exc.or]
theorem Exc.or_none (a : Exc) : a.or {} = a := by simp [Exc.or]

theorem Exc.foldl_or (l : List Exc) (e : Exc) : l.foldl Exc.or e = e.or (Exc.all l) := by
  induction l generalizing e with
  | nil => exact (Exc.or_none e).symm
  | cons x l ih =>
    have hall : Exc.all (x :: l) = x.or (Exc.all l) := (ih _).trans (by rw [Exc.none, Exc.none_or])
    rw [List.foldl_cons, ih, hall, Exc.or_assoc]

theorem Exc.all_append (l k : List Exc) : Exc.all (l ++ k) = (Exc.all l).or (Exc.all k) := by
  rw [Exc.all, List.foldl_append, Exc.foldl_or]
  rfl

/-- R107: one halving of the values that `u` numbers. -/
theorem redStep_range (o : RedOp) (u : Nat → Word) (d : Nat) (e : Exc) :
    redStep o ((List.range (2 * d)).map u, e) d =
      ((List.range d).map fun i => (RedOp.combine o (u i) (u (i + d))).1,
        e.or (Exc.all ((List.range d).map fun i => (RedOp.combine o (u i) (u (i + d))).2))) := by
  have hz : List.zipWith (RedOp.combine o) (((List.range (2 * d)).map u).take d) (((List.range (2 * d)).map u).drop d)
      = (List.range d).map fun i => RedOp.combine o (u i) (u (i + d)) := by
    refine List.ext_getElem (by simp; omega) fun i h1 h2 => ?_
    simp [Nat.add_comm d i]
  simp only [redStep, hz, List.map_map]
  rfl

/-- R107: what stands in place `i` after `k` halvings of 64 values. -/
def redTree (o : RedOp) (v : Nat → Word) : Nat → Nat → Word
  | 0, i => v i
  | k + 1, i => (RedOp.combine o (redTree o v k i) (redTree o v k (i + 2 ^ (5 - k)))).1

/-- The exceptions of halving `k`. -/
def redExc (o : RedOp) (v : Nat → Word) (k : Nat) : List Exc :=
  (List.range (2 ^ (5 - k))).map fun i => (RedOp.combine o (redTree o v k i) (redTree o v k (i + 2 ^ (5 - k)))).2

theorem foldl_redStep (o : RedOp) (v : Nat → Word) {k : Nat} (hk : k ≤ 6) :
    ((List.range k).map fun j => 2 ^ (5 - j)).foldl (redStep o) ((List.range 64).map v, {}) =
      ((List.range (2 ^ (6 - k))).map (redTree o v k), Exc.all ((List.range k).flatMap (redExc o v))) := by
  induction k with
  | zero => rfl
  | succ k ih =>
    have hd : 2 ^ (6 - k) = 2 * 2 ^ (5 - k) := by rw [show 6 - k = 5 - k + 1 by omega, pow_succ, Nat.mul_comm]
    rw [List.range_succ (n := k), List.map_append, List.foldl_append, ih (by omega), hd, List.map_singleton, List.foldl_cons,
      List.foldl_nil, redStep_range, List.flatMap_append, List.flatMap_singleton, Exc.all_append, show 6 - (k + 1) = 5 - k by omega]
    rfl

theorem reduce_range (o : RedOp) (v : Nat → Word) :
    reduce o ((List.range 64).map v) = (redTree o v 6 0, Exc.all ((List.range 6).flatMap (redExc o v))) := by
  have h := foldl_redStep o v (le_refl 6)
  have hs : ((List.range 6).map fun j => 2 ^ (5 - j)) = [32, 16, 8, 4, 2, 1] := by decide
  rw [hs] at h
  simp only [reduce, h]
  rfl

end Sys2Proof.Machine
end

section
open Sys2Proof Sys2Proof.Machine

/-- Settles O12: a shuffle gives each lane its own value or that of the lane it names (`shuffle_laneRun`, `Warp.shuffled_up`), votes and
reductions are one value for the run, and six halvings leave the value of a tree of 64 leaves (`foldl_redStep`). -/
theorem crossLane : Obligations.CrossLane := by
  refine ⟨?forms, ?tree, rfl, rfl, rfl, rfl, rfl, rfl⟩
  case forms =>
    intro s d a b j op k x y from_ up ones vals
    refine ⟨?_, ?_, ?_, ?_, ?_, ?_, ?_, ?bcast, ?get, ?red, ?scan, ?_, ?_, ?ballot, ?all, ?_⟩
    · exact shuffle_laneRun (f := fun w l => laneUp l (w.src b l).toNat) rfl fun r l => s.w.shuffled_up a _ _ _
    · exact shuffle_laneRun (f := fun _ l => laneUp l (Config.warpW / 2 ^ j.val)) rfl fun r l => s.w.shuffled_up a _ _ _
    · exact shuffle_laneRun (f := fun w l => laneDn l (w.src b l).toNat) rfl fun r l => s.w.shuffled_some a _ _ _
    · exact shuffle_laneRun (f := fun _ l => laneDn l (Config.warpW / 2 ^ j.val)) rfl fun r l => s.w.shuffled_some a _ _ _
    · exact shuffle_laneRun (f := fun w l => laneXor l (w.src b l).toNat) rfl fun r l => s.w.shuffled_some a _ _ _
    · exact shuffle_laneRun (f := fun _ l => laneXor l (Config.warpW / 2 ^ j.val)) rfl fun r l => s.w.shuffled_some a _ _ _
    · exact shuffle_laneRun (f := fun w l => some (w.src b l).toNat) rfl fun r l => s.w.shuffled_some a _ _ _
    case bcast =>
      refine laneRun_of_write (f := fun r _ => s.w.src a
        (if y (lowLane r.lanes) < Config.warpW && has r.lanes (y (lowLane r.lanes)) then y (lowLane r.lanes) else lowLane r.lanes)) rfl
        fun r l => ?_
      rw [apply_ite (s.w.src a)]
      exact s.w.shuffled_some a r.lanes _ _
    case get => exact laneOp_lanewise (fun w l => if (w.src b l).toNat < Config.warpW then w.src a (w.src b l).toNat else 0) rfl
    case red =>
      exact lanewise_of_block rfl fun r =>
        (write_block s.w r d fun r _ => (reduce op (vals r 63)).1).raise fun r _ => (reduce op (vals r 63)).2
    case scan =>
      exact lanewise_of_block rfl fun r =>
        (write_block s.w r d fun r l => (reduce op (vals r (if d.kind = 2 then 63 else l))).1).raise
          fun r l => (reduce op (vals r (if d.kind = 2 then 63 else l))).2
    · exact laneRun_of_write (f := fun r _ => if ones r = 0 then 0 else 1) rfl fun _ _ => rfl
    · exact laneRun_of_write (f := fun r _ => if ones r = r.lanes then 1 else 0) rfl fun _ _ => rfl
    case ballot => exact lanewise_of_block rfl fun r => write64_block s.w r d fun r _ => ones r
    case all => exact lane64_of_laneOp64 (f := fun _ l => wid s l) rfl fun l => wid_eq s l
    · exact laneOp_lanewise (fun _ l => widField s.g.kern.widths k.val (wid s l)) rfl
  case tree =>
    intro op v one' t
    have hone : one' = RedOp.combine op := by
      funext p q
      cases op <;> rfl
    have ht (n : Nat) : t n = redTree op v n := by
      induction n with
      | zero => rfl
      | succ n ih =>
        funext i
        show (one' (t n i) (t n (i + 2 ^ (5 - n)))).1 = _
        rw [ih, hone]
        rfl
    rw [reduce_range, ht]
    refine ⟨rfl, ?_⟩
    simp only [ht, hone]
    rfl
end

section
/-! SUPPORT. Conversions of elements (R98, R99, R266 to R268). -/
namespace Sys2Proof.Machine

/-! ### Blocks over lanes that advance generators, or write a run of registers -/

theorem writeRun_block (w : Warp) (r : Run) (d : Opd) (n : Nat) (f : Run → Nat → Nat → Word) :
    BlockDoes w (w.writeRun d n r.lanes (f r)) r d n f none none :=
  (writeRun_regs w d n r.lanes (f r)).1.block (writeRun_regs w d n r.lanes (f r)).2

/-- R98: generators advance in lanes that depend on the run. -/
theorem BlockDoes.advanceGen {w u : Warp} {r : Run} {d : Opd} {n : Nat} {f : Run → Nat → Nat → Word}
    {e : Option (Run → Nat → Exc)} (h : BlockDoes w u r d n f e none) (m : Run → LaneMask) (x : Run → Nat → Word) :
    BlockDoes w (u.putGen (m r) (x r)) r d n f e (some fun r l => if has (m r) l then x r l else w.getGen l) :=
  { h.putGen (m r) (x r) with gen := (h.putGen (m r) (x r)).gen }

/-! ### To an integer (R99) -/

/-- R99: an integer is rounded by the mode and takes the nearest bound outside its range. -/
theorem toInt_fin {lo hi : Int} (hle : lo ≤ hi) (md : RMode) (n : Bool) (m : Nat) (e : Int) :
    toInt lo hi md (.fin n m e) =
      (max lo (min hi (toUnits n (roundAt md n m e 0).1 0 0)),
        if toUnits n (roundAt md n m e 0).1 0 0 < lo ∨ hi < toUnits n (roundAt md n m e 0).1 0 0 then { nv := true } else {}) := by
  have hr : (if n then -((roundAt md n m e 0).1 : Int) else ((roundAt md n m e 0).1 : Int)) = toUnits n (roundAt md n m e 0).1 0 0 := by
    simp [toUnits]
  simp only [toInt, hr]
  generalize toUnits n (roundAt md n m e 0).1 0 0 = x
  by_cases hlo : x < lo
  · rw [if_pos hlo, if_pos (.inl hlo), min_eq_right (by omega), max_eq_left hlo.le]
    rfl
  · rw [if_neg hlo]
    by_cases hhi : hi < x
    · rw [if_pos hhi, if_pos (.inr hhi), min_eq_left hhi.le, max_eq_right hle]
      rfl
    · rw [if_neg hhi, if_neg (by omega), min_eq_right (by omega), max_eq_right (by omega)]

/-- R99: the conversion to an integer format with the bounds `lo` and `hi`, written out by `out`. -/
theorem convert_int {dst : CFmt} {m : CMode} {u : Nat} {lo hi : Int} {out : Int → Nat} (hle : lo ≤ hi) (h0 : out 0 = 0)
    (hc : ∀ v, CFmt.convert dst m u v = (out (toInt lo hi (CMode.rmode m u) v).1, (toInt lo hi (CMode.rmode m u) v).2))
    (n : Bool) (a : Nat) (e : Int) (sig : Bool) :
    CFmt.convert dst m u (.nan sig) = (0, { nv := true })
    ∧ CFmt.convert dst m u (.inf n) = (out (if n then lo else hi), { nv := true })
    ∧ CFmt.convert dst m u (.fin n a e) = (out (max lo (min hi (toUnits n (roundAt (CMode.rmode m u) n a e 0).1 0 0))),
        if toUnits n (roundAt (CMode.rmode m u) n a e 0).1 0 0 < lo ∨ hi < toUnits n (roundAt (CMode.rmode m u) n a e 0).1 0 0
        then { nv := true } else {}) := by
  refine ⟨?_, ?_, ?_⟩
  · rw [hc, toInt, h0]; rfl
  · rw [hc, toInt]; rfl
  · rw [hc, toInt_fin hle]

/-- R98: the next state of a generator, on numbers. -/
theorem nextGen_toNat (g : Word) : (nextGen g).toNat =
    let a := g.toNat ^^^ (g.toNat * 2 ^ 13 % 2 ^ 32)
    let b := a ^^^ (a / 2 ^ 17)
    b ^^^ (b * 2 ^ 5 % 2 ^ 32) := by
  simp only [nextGen, BitVec.toNat_xor, BitVec.toNat_shiftLeft, BitVec.toNat_ushiftRight, Nat.shiftLeft_eq, Nat.shiftRight_eq_div_pow]

end Sys2Proof.Machine
end

section
open Sys2Proof Sys2Proof.Machine

/-- Settles O10: a conversion writes, raises and draws lane by lane (`BlockDoes.advanceGen`, `writeRun_block`); the values are the
model's rounding, `FFmt.round_overflow` at the edge of E4M3, and the clamped integers of `toInt_fin`. -/
theorem conversions : Obligations.Conversions := by
  refine ⟨?forms, ?values, ?draws⟩
  case forms =>
    intro s d a dst src m
    refine ⟨?single, ?unpack, ?pack⟩
    case single =>
      intro p
      by_cases hd : dst = .f64
      · subst hd
        exact lanewise_of_block rfl fun r =>
          ((write64_block s.w r d fun _ l => BitVec.ofNat 64 (p l).1).raise fun r l => (p (leader d r.lanes l)).2.1).advanceGen
            (fun r => genLanes d r.lanes) fun _ l => (p l).2.2
      · simp only [if_neg hd]
        have hexec : exec (.cvt d a dst src m) s = issue (.cvt d a dst src m) s fun r => .ok (s.setW
            (((s.w.write d r.lanes fun l => BitVec.ofNat 32 (p l).1).raise r.lanes fun l => (p (leader d r.lanes l)).2.1).putGen
              (genLanes d r.lanes) fun l => (p l).2.2)) := by
          cases dst with
          | f64 => exact absurd rfl hd
          | _ => rfl
        exact lanewise_of_block hexec fun r =>
          ((write_block s.w r d fun _ l => BitVec.ofNat 32 (p l).1).raise fun r l => (p (leader d r.lanes l)).2.1).advanceGen
            (fun r => genLanes d r.lanes) fun _ l => (p l).2.2
    case unpack =>
      intro hn p
      have hexec : exec (.cvtPk d a dst src m) s = issue (.cvtPk d a dst src m) s fun r => .ok (s.setW
          ((s.w.writeRun d src.packN r.lanes fun e l => BitVec.ofNat 32 (p e l).1).raise r.lanes fun l =>
            Exc.all ((List.range src.packN).map fun e => (p e l).2))) :=
        congrArg (issue _ s) (funext fun r => if_pos hn)
      exact lanewise_of_block hexec fun r =>
        (writeRun_block s.w r d src.packN fun _ e l => BitVec.ofNat 32 (p e l).1).raise fun _ l =>
          Exc.all ((List.range src.packN).map fun e => (p e l).2)
    case pack =>
      intro hn at' p
      have hexec : exec (.cvtPk d a dst src m) s = issue (.cvtPk d a dst src m) s fun r => .ok (s.setW
          (((s.w.write d r.lanes fun l => BitVec.ofNat 32 (packElems (CFmt.bits dst) (p l).1)).raise r.lanes fun l =>
            (p (leader d r.lanes l)).2.1).putGen (genLanes d r.lanes) fun l => (p l).2.2)) :=
        congrArg (issue _ s) (funext fun r => if_neg hn)
      exact lanewise_of_block hexec fun r =>
        ((write_block s.w r d fun _ l => BitVec.ofNat 32 (packElems (CFmt.bits dst) (p l).1)).raise fun r l =>
          (p (leader d r.lanes l)).2.1).advanceGen (fun r => genLanes d r.lanes) fun _ l => (p l).2.2
  case values =>
    intro m u n a e sig md sat
    refine ⟨?floats, ?infE4M3, ?infSat, ?overE4M3, ?ints⟩
    case floats =>
      intro dst hmem
      simp only [List.mem_cons, List.not_mem_nil, or_false] at hmem
      rcases hmem with rfl | rfl | rfl | rfl | rfl | rfl
      all_goals refine ⟨rfl, rfl, fun hne hs => ?_⟩
      case inr.inr.inr.inr.inl => exact absurd rfl hne
      all_goals exact if_pos (by rw [show CMode.sat m = false from hs]; rfl)
    case infE4M3 => cases n <;> rfl
    case infSat =>
      intro hs
      have hc : CFmt.convert .e5m2 m u (.inf n) = (E5M2.maxBits n, { of := true, nx := true }) :=
        if_neg (by rw [show CMode.sat m = true from hs]; decide)
      rw [hc]
      cases n <;> rfl
    case overE4M3 =>
      intro ha he
      have hover : E4M3.round md sat n a e = E4M3.overflow md sat n := by
        refine FFmt.round_overflow E4M3_ok (by omega) he (by decide) (e0 := 0) ?_
        have hpow : a * 1 ≤ a * 2 ^ (e - 0).toNat := Nat.mul_le_mul_left _ (Nat.one_le_two_pow)
        rw [toUnits_false, toUnits_false, Nat.cast_le]
        exact le_trans (by decide) (ha.trans (by omega))
      exact hover.trans (by cases n <;> rfl)
    case ints =>
      rintro lo hi out dst (⟨rfl, rfl, rfl, hout⟩ | ⟨rfl, rfl, rfl, hout⟩)
      · have hbits (z : Int) : (BitVec.ofInt 32 z).toNat = out z := by rw [BitVec.toNat_ofInt, hout]; rfl
        exact convert_int (by decide) (by rw [hout]; rfl) (fun v => by rw [← hbits]; rfl) n a e sig
      · exact convert_int (by decide) (by rw [hout]; rfl) (fun v => by rw [hout]; rfl) n a e sig
  case draws =>
    intro f m g v x a b
    exact ⟨nextGen_toNat g, rfl⟩
end

section
/-! SUPPORT. Blocks as strings of bits: elements, words and fields (R270), and the lanes that packing and unpacking serve. -/
namespace Sys2Proof.Machine

/-! ### Bits of a number -/

/-- Bits below `k` do not depend on what stands from `k` on. -/
theorem bits_low {k a b : Nat} (x y : Nat) (h : a + b ≤ k) : (x + 2 ^ k * y) / 2 ^ a % 2 ^ b = x / 2 ^ a % 2 ^ b := by
  obtain ⟨c, rfl⟩ := Nat.exists_eq_add_of_le h
  rw [show x + 2 ^ (a + b + c) * y = x + 2 ^ a * (2 ^ b * (2 ^ c * y)) by rw [pow_add, pow_add]; ring,
    Nat.add_mul_div_left _ _ (Nat.two_pow_pos a), Nat.add_mul_mod_self_left]

/-- Bits from `k` on do not depend on what stands below. -/
theorem bits_high {k x : Nat} (a y : Nat) (h : x < 2 ^ k) : (x + 2 ^ k * y) / 2 ^ (k + a) = y / 2 ^ a := by
  rw [pow_add, ← Nat.div_div_eq_div_mul, Nat.add_mul_div_left _ _ (Nat.two_pow_pos k), Nat.div_eq_of_lt h, Nat.zero_add]

theorem bits_mod {k a b : Nat} (x : Nat) (h : a + b ≤ k) : x % 2 ^ k / 2 ^ a % 2 ^ b = x / 2 ^ a % 2 ^ b := by
  conv_rhs => rw [← Nat.mod_add_div x (2 ^ k)]
  exact (bits_low _ _ h).symm

theorem add_two_pow_mul_lt {k j x y : Nat} (hx : x < 2 ^ k) (hy : y < 2 ^ j) : x + 2 ^ k * y < 2 ^ (k + j) := by
  calc x + 2 ^ k * y < 2 ^ k * (y + 1) := by rw [Nat.mul_succ]; omega
    _ ≤ 2 ^ k * 2 ^ j := Nat.mul_le_mul_left _ hy
    _ = 2 ^ (k + j) := (pow_add ..).symm

/-! ### Elements of equal width -/

theorem packElems_cons (b x : Nat) (l : List Nat) : packElems b (x :: l) = x + 2 ^ b * packElems b l := rfl

theorem packElems_lt {b : Nat} {l : List Nat} (h : ∀ x ∈ l, x < 2 ^ b) : packElems b l < 2 ^ (b * l.length) := by
  induction l with
  | nil => exact Nat.two_pow_pos _
  | cons x l ih =>
    rw [packElems_cons, List.length_cons, Nat.mul_succ, Nat.add_comm (b * _)]
    exact add_two_pow_mul_lt (h x (List.mem_cons_self ..)) (ih fun y hy => h y (List.mem_cons_of_mem _ hy))

/-- R270: each element stands at its own place. -/
theorem packElems_elem {b : Nat} {l : List Nat} (h : ∀ x ∈ l, x < 2 ^ b) (k : Nat) :
    packElems b l / 2 ^ (b * k) % 2 ^ b = l.getD k 0 := by
  induction l generalizing k with
  | nil => simp [packElems]
  | cons x l ih =>
    have hx := h x (List.mem_cons_self ..)
    rw [packElems_cons]
    cases k with
    | zero => simp [Nat.mod_eq_of_lt hx]
    | succ k =>
      rw [Nat.mul_succ, Nat.add_comm (b * k), bits_high _ _ hx, ih (fun y hy => h y (List.mem_cons_of_mem _ hy))]
      rfl

theorem packElems_eq_zero {b : Nat} {l : List Nat} (h : ∀ x ∈ l, x = 0) : packElems b l = 0 := by
  induction l with
  | nil => rfl
  | cons x l ih =>
    rw [packElems_cons, h x (List.mem_cons_self ..), ih fun y hy => h y (List.mem_cons_of_mem _ hy),
      Nat.mul_zero]

theorem getD_eq_zero {l : List Nat} (h : ∀ x ∈ l, x = 0) (i : Nat) : l.getD i 0 = 0 := by
  rw [List.getD_eq_getElem?_getD]
  cases hi : l[i]? with
  | none => rfl
  | some x => exact h x (List.mem_of_getElem? hi)

/-! ### Words and bytes -/

theorem leNat_append (a b : List Byte) : leNat (a ++ b) = leNat a + 2 ^ (8 * a.length) * leNat b := by
  induction a with
  | nil => simp [leNat]
  | cons x a ih =>
    rw [List.cons_append, leNat, ih, leNat, List.length_cons, Nat.mul_succ, pow_add]
    ring

/-- A list of words is one number, by words or by bytes. -/
theorem leNat_words {ws : List Nat} (h : ∀ x ∈ ws, x < 2 ^ 32) : leNat (ws.flatMap (leBytes 4)) = packElems 32 ws := by
  induction ws with
  | nil => rfl
  | cons x ws ih =>
    rw [List.flatMap_cons, leNat_append, leBytes_length, leNat_leBytes_four (h x (List.mem_cons_self ..)),
      ih fun y hy => h y (List.mem_cons_of_mem _ hy)]
    rfl

/-- A number's words give it back. -/
theorem packElems_words (n k : Nat) : packElems 32 ((List.range k).map fun j => n / 2 ^ (32 * j) % 2 ^ 32) = n % 2 ^ (32 * k) := by
  induction k generalizing n with
  | zero => simp [packElems, Nat.mod_one]
  | succ k ih =>
    have hshift : ((List.range k).map fun j => n / 2 ^ (32 * (j + 1)) % 2 ^ 32)
        = (List.range k).map fun j => n / 2 ^ 32 / 2 ^ (32 * j) % 2 ^ 32 := by
      refine List.map_congr_left fun j _ => ?_
      rw [Nat.div_div_eq_div_mul, ← pow_add, show 32 * (j + 1) = 32 + 32 * j by ring]
    rw [List.range_succ_eq_map, List.map_cons, List.map_map, packElems_cons]
    simp only [Function.comp_def, Nat.succ_eq_add_one]
    rw [hshift, ih, show 32 * (k + 1) = 32 + 32 * k by ring, pow_add, Nat.mod_mul, Nat.mul_zero, pow_zero, Nat.div_one]

/-- R270: the string of a block's words. -/
theorem leNat_blockWords {n nw : Nat} (sc : Nat) (hn : n < 2 ^ (32 * nw)) (hw : nw ≤ 32) :
    leNat (((blockWords n nw sc).take nw).flatMap (leBytes 4)) = n := by
  have ht : (blockWords n nw sc).take nw = (List.range nw).map fun j => n / 2 ^ (32 * j) % 2 ^ 32 := by
    rw [blockWords, ← List.map_take, List.take_range, min_eq_left hw]
    exact List.map_congr_left fun j hj => if_pos (List.mem_range.mp hj)
  rw [ht, leNat_words, packElems_words, Nat.mod_eq_of_lt hn]
  intro x hx
  obtain ⟨j, -, rfl⟩ := List.mem_map.mp hx
  exact Nat.mod_lt _ (by decide)

theorem blockWords_scale {n nw : Nat} (sc : Nat) (hw : nw < 32) : (blockWords n nw sc).getD 31 0 = sc := by
  have h : ¬ 31 < nw := by omega
  simp [blockWords, h]

/-! ### Lanes (R271, R272) -/

/-- What an instruction over lanes gives is told by its results in the 64 lanes. -/
theorem Lanewise.congr {i : Instr} {s : State} {d : Opd} {n : Nat} {f f' : Run → Nat → Nat → Word} {e e' : Option (Run → Nat → Exc)}
    {g g' : Option (Run → Nat → Word)} (h : Lanewise i s d n f e g) (hf : ∀ r j l, l < 64 → f r j l = f' r j l)
    (he : ∀ r l, l < 64 → e.map (· r l) = e'.map (· r l)) (hg : ∀ r l, l < 64 → g.map (· r l) = g'.map (· r l)) :
    Lanewise i s d n f' e' g' := by
  intro r hr
  refine (h r hr).mono fun t ⟨hrun, hframe, hflg, hgen, hres⟩ => ⟨hrun, hframe, ?_, ?_, fun j l hj hm hk => ?_⟩
  · cases e with
    | none =>
      cases e' with
      | none => exact hflg
      | some y => cases he r 0 (by omega)
    | some x =>
      cases e' with
      | none => cases he r 0 (by omega)
      | some y =>
        intro l hl
        have hxy : x r l = y r l := Option.some.inj (he r l hl)
        rw [← hxy]
        exact hflg l hl
  · cases g with
    | none =>
      cases g' with
      | none => exact hgen
      | some y => cases hg r 0 (by omega)
    | some x =>
      cases g' with
      | none => cases hg r 0 (by omega)
      | some y => exact fun l hl => (hgen l hl).trans (Option.some.inj (hg r l hl))
  · rw [hres j l hj hm hk]
    refine hf r j _ ?_
    split
    · exact has_lt (has_lowLane hm)
    · exact has_lt hm

/-- R271: the block that serves a lane. -/
theorem block_of_lane {α : Type} (b : Nat → α) {l : Nat} (h : l < 64) : (if l < 32 then b 0 else b 1) = b (l / 32) := by
  split
  · rw [show l / 32 = 0 by omega]
  · rw [show l / 32 = 1 by omega]

end Sys2Proof.Machine
end

section
/-! SUPPORT. The scale of a block and its elements (R94 to R96, R100, R101). -/
namespace Sys2Proof.Machine

/-! ### Elements without a draw -/

theorem CMode.rmode_of_not_rs {m : CMode} (h : CMode.isRs m = false) (u : Nat) : CMode.rmode m u = CMode.rmode m 0 := by
  cases m with
  | rs => cases h
  | rsSat => cases h
  | _ => rfl

theorem CMode.judge_of_not_rs {m : CMode} (h : CMode.isRs m = false) : CMode.judge m = CMode.rmode m 0 := by
  simp [CMode.judge, h]

/-- Elements whose functions do not look at the draw. -/
theorem zipDraw_fst {fs : List (Nat → FVal → Nat × Exc)} {m : CMode} {gs : List Word} {vs : List FVal}
    (hu : ∀ f ∈ fs, ∀ u v, f u v = f 0 v) (hf : vs.length ≤ fs.length) (hg : gs.length = vs.length) :
    (zipDraw fs m gs vs).map Prod.fst = List.zipWith (fun f v => (f 0 v).1) fs vs := by
  induction vs generalizing fs gs with
  | nil => cases gs <;> simp [zipDraw]
  | cons v vs ih =>
    cases gs with
    | nil => cases hg
    | cons g gs =>
      cases fs with
      | nil => simp at hf
      | cons f fs =>
        have hfst : (convertDraw f m g v).1 = (f 0 v).1 := congrArg Prod.fst (hu f (List.mem_cons_self ..) _ v)
        rw [zipDraw, List.map_cons, List.zipWith_cons_cons, hfst,
          ih (fun f hf => hu f (List.mem_cons_of_mem _ hf)) (Nat.le_of_succ_le_succ hf) (Nat.succ_injective hg)]

theorem zip_map_zero {vs : List FVal} {gs : List Word} (hg : gs.length = vs.length) :
    ((vs.zip gs).map fun p => (0, ({} : Exc), p.2)).map Prod.fst = vs.map fun _ => 0 := by
  refine List.ext_getElem (by simp [hg]) fun i h1 h2 => by simp

/-! ### The greatest magnitude (R100, R101) -/

/-- The exponent of a magnitude's leading bit is `x` at most. -/
def FVal.logLe (x : Int) (v : FVal) : Prop := ∃ k b g, v = .fin k b g ∧ (b = 0 ∨ g + Nat.log2 b ≤ x)
/-- The exponent of a magnitude's leading bit is `x`. -/
def FVal.logEq (x : Int) (v : FVal) : Prop := ∃ n a e, v = .fin n a e ∧ a ≠ 0 ∧ e + Nat.log2 a = x

/-- The greater of a logarithm found so far and a value's. -/
def logStep (o : Option Int) (v : FVal) : Option Int :=
  match v with
  | .fin _ m e =>
    if m = 0 then o
    else match o with
      | none => some (e + Nat.log2 m)
      | some x => some (max x (e + Nat.log2 m))
  | _ => o

theorem maxLog_eq_foldl (l : List FVal) : maxLog l = l.foldl logStep none := by
  refine congrArg (fun f => l.foldl f none) (funext₂ fun o v => ?_)
  cases v with
  | fin n m e => cases o <;> rfl
  | _ => rfl

theorem foldl_logStep_zero {l : List FVal} (h : ∀ v ∈ l, ∃ n e, v = .fin n 0 e) (o : Option Int) : l.foldl logStep o = o := by
  induction l with
  | nil => rfl
  | cons v l ih =>
    obtain ⟨n, e, rfl⟩ := h v (List.mem_cons_self ..)
    exact ih fun w hw => h w (List.mem_cons_of_mem _ hw)

theorem foldl_logStep_max {l : List FVal} {x : Int} (hle : ∀ v ∈ l, FVal.logLe x v) {o : Option Int}
    (ho : ∀ y, o = some y → y ≤ x) (hx : o = some x ∨ ∃ v ∈ l, FVal.logEq x v) : l.foldl logStep o = some x := by
  induction l generalizing o with
  | nil => simpa using hx
  | cons v l ih =>
    obtain ⟨n, a, e, rfl, hv⟩ := hle v (List.mem_cons_self ..)
    refine ih (fun w hw => hle w (List.mem_cons_of_mem _ hw)) ?bound ?found
    case bound =>
      intro y hy
      by_cases ha : a = 0
      · exact ho y (by simpa [logStep, ha] using hy)
      · have hlog : e + (Nat.log2 a : Int) ≤ x := hv.resolve_left ha
        cases o with
        | none =>
          simp only [logStep, if_neg ha, Option.some.injEq] at hy
          omega
        | some z =>
          have := ho z rfl
          simp only [logStep, if_neg ha, Option.some.injEq] at hy
          omega
    case found =>
      rcases hx with rfl | ⟨w, hw, hlog⟩
      · left
        by_cases ha : a = 0
        · simp [logStep, ha]
        · simp [logStep, ha, hv.resolve_left ha]
      · rcases List.mem_cons.mp hw with rfl | hw
        · left
          obtain ⟨k, b, g, hfin, hb, hlog⟩ := hlog
          injection hfin with _ h2 h3
          subst h2 h3
          cases o with
          | none => simp [logStep, hb, hlog]
          | some z => simp [logStep, hb, hlog, ho z rfl]
        · exact .inr ⟨w, hw, hlog⟩

theorem maxLog_zero {l : List FVal} (h : ∀ v ∈ l, ∃ n e, v = .fin n 0 e) : maxLog l = none := by
  rw [maxLog_eq_foldl, foldl_logStep_zero h]

theorem maxLog_max {l : List FVal} {x : Int} (hle : ∀ v ∈ l, FVal.logLe x v) {v : FVal} (hv : v ∈ l) (hx : FVal.logEq x v) :
    maxLog l = some x := by
  rw [maxLog_eq_foldl]
  exact foldl_logStep_max hle (by simp) (.inr ⟨v, hv, hx⟩)

theorem any_isNan_iff {l : List FVal} : l.any FVal.isNan = true ↔ ∃ sg, .nan sg ∈ l := by
  simp only [List.any_eq_true, FVal.isNan_iff]
  exact ⟨fun ⟨v, hv, sg, h⟩ => ⟨sg, h ▸ hv⟩, fun ⟨sg, h⟩ => ⟨_, h, sg, rfl⟩⟩

theorem FVal.isInf_iff {v : FVal} : v.isInf = true ↔ ∃ n, v = .inf n := by cases v <;> simp [FVal.isInf]

theorem any_isInf_iff {l : List FVal} : l.any FVal.isInf = true ↔ ∃ n, .inf n ∈ l := by
  simp only [List.any_eq_true, FVal.isInf_iff]
  exact ⟨fun ⟨v, hv, sg, h⟩ => ⟨sg, h ▸ hv⟩, fun ⟨sg, h⟩ => ⟨_, h, sg, rfl⟩⟩

/-- Values that are all finite hold no NaN and no infinity. -/
theorem any_special_of_fin {l : List FVal} (h : ∀ v ∈ l, ∃ n m e, v = .fin n m e) :
    l.any FVal.isNan = false ∧ l.any FVal.isInf = false := by
  constructor
  · refine Bool.eq_false_iff.mpr fun hn => ?_
    obtain ⟨sg, hv⟩ := any_isNan_iff.mp hn
    obtain ⟨n, m, e, he⟩ := h _ hv
    cases he
  · refine Bool.eq_false_iff.mpr fun hi => ?_
    obtain ⟨k, hv⟩ := any_isInf_iff.mp hi
    obtain ⟨n, m, e, he⟩ := h _ hv
    cases he

theorem clampI_toNat (v : Int) : (((clampI 0 254 v).toNat : Nat) : Int) = max 0 (min 254 v) := by
  unfold clampI
  omega

/-! ### MX (R94, R100) -/

section
variable {f : Nat} {l : List FVal}

theorem mxScale_nan (h : ∃ sg, .nan sg ∈ l) : mxScale f l = 255 := if_pos (any_isNan_iff.mpr h)

theorem mxScale_inf (hn : ∀ sg, .nan sg ∉ l) (h : ∃ n, .inf n ∈ l) : mxScale f l = 254 := by
  rw [mxScale, if_neg (mt any_isNan_iff.mp (not_exists.mpr hn)), if_pos (any_isInf_iff.mpr h)]

theorem mxScale_zero (h : ∀ v ∈ l, ∃ n e, v = .fin n 0 e) : mxScale f l = 0 := by
  obtain ⟨hn, hi⟩ := any_special_of_fin fun v hv => let ⟨n, e, h⟩ := h v hv; ⟨n, 0, e, h⟩
  simp [mxScale, hn, hi, maxLog_zero h]

theorem mxScale_max {x : Int} (hle : ∀ v ∈ l, FVal.logLe x v) {v : FVal} (hv : v ∈ l) (hx : FVal.logEq x v) :
    (mxScale f l : Int) = max 0 (min 254 (x - mxEmax f + 127)) := by
  obtain ⟨hn, hi⟩ := any_special_of_fin fun v hv => let ⟨n, m, e, h, _⟩ := hle v hv; ⟨n, m, e, h⟩
  simp only [mxScale, hn, hi, maxLog_max hle hv hx, Bool.false_eq_true, if_false]
  exact clampI_toNat _

theorem mxScale_ne (hn : ∀ sg, .nan sg ∉ l) : mxScale f l ≠ 255 := by
  rw [mxScale, if_neg (mt any_isNan_iff.mp (not_exists.mpr hn))]
  split
  · decide
  · split
    · decide
    · unfold clampI
      omega

end

/-- R100: the elements of a block in bits. -/
def mxEls (f : Nat) (m : CMode) (vs : List FVal) : List Nat :=
  vs.map fun v => if mxScale f vs = 255 then 0 else (mxElem f (mxScale f vs) m 0 v).1

theorem mxElem_draw {m : CMode} (h : CMode.isRs m = false) (f x u : Nat) (v : FVal) : mxElem f x m u v = mxElem f x m 0 v := by
  simp only [mxElem, CMode.rmode_of_not_rs h u]

/-- R270, R271: the words of an MX block. -/
theorem packBlock_words_mx {f : Nat} (hf : f < 12) (planar : Bool) {m : CMode} (hm : CMode.isRs m = false) {vs : List FVal} {gs : List Word}
    (hv : vs.length = 32) (hg : gs.length = 32) : (packBlock f planar m vs gs).words =
      blockWords (packElems (mxBits f) (mxEls f m vs)) (blockNw f planar) (mxScale f vs) := by
  rw [packBlock, if_pos hf]
  dsimp only
  congr 2
  unfold mxEls
  by_cases hx : mxScale f vs = 255
  · simp only [hx, if_true]
    exact zip_map_zero (hg.trans hv.symm)
  · simp only [hx, if_false]
    rw [zipDraw_fst (fun g hg u v => ?_) (by simp [hv]) (hg.trans hv.symm)]
    · rw [← hv]
      exact List.ext_getElem (by simp) fun i h1 h2 => by simp only [List.getElem_zipWith, List.getElem_replicate, List.getElem_map]
    · rw [List.eq_of_mem_replicate hg]
      exact mxElem_draw hm ..

/-- R94, R270: what the code of an MX format fixes. -/
structure MxCode (f nw w : Nat) (emax : Int) (F : Option FFmt) : Prop where
  code : f < 12
  words : ∀ planar, blockNw f planar = nw
  bits : mxBits f = w
  emax : mxEmax f = emax
  fmt : mxFmt f = F
  string : nw = w
  width : w ≤ 8
  ok : ∀ G, F = some G → G.Ok ∧ 1 + G.ew + G.fw = w
  int8 : F = none → w = 8

theorem mxCode_of_mem {f nw w : Nat} {emax : Int} {F : Option FFmt} (h : (f, nw, w, emax, F) ∈
    [(6, 8, 8, 8, some E4M3), (7, 8, 8, 15, some E5M2), (8, 6, 6, 2, some E2M3), (9, 6, 6, 4, some E3M2), (10, 4, 4, 2, some E2M1),
      (11, 8, 8, 0, none)]) : MxCode f nw w emax F := by
  have fmt {G H : FFmt} {w : Nat} (hok : G.Ok) (hw : 1 + G.ew + G.fw = w) (he : some G = some H) : H.Ok ∧ 1 + H.ew + H.fw = w :=
    Option.some.inj he ▸ ⟨hok, hw⟩
  simp only [List.mem_cons, List.not_mem_nil, or_false, Prod.mk.injEq] at h
  rcases h with ⟨rfl, rfl, rfl, rfl, rfl⟩ | ⟨rfl, rfl, rfl, rfl, rfl⟩ | ⟨rfl, rfl, rfl, rfl, rfl⟩ | ⟨rfl, rfl, rfl, rfl, rfl⟩ |
    ⟨rfl, rfl, rfl, rfl, rfl⟩ | ⟨rfl, rfl, rfl, rfl, rfl⟩
  · exact ⟨by decide, fun _ => rfl, rfl, rfl, rfl, rfl, by decide, fun _ => fmt E4M3_ok rfl, nofun⟩
  · exact ⟨by decide, fun _ => rfl, rfl, rfl, rfl, rfl, by decide, fun _ => fmt E5M2_ok rfl, nofun⟩
  · exact ⟨by decide, fun _ => rfl, rfl, rfl, rfl, rfl, by decide, fun _ => fmt E2M3_ok rfl, nofun⟩
  · exact ⟨by decide, fun _ => rfl, rfl, rfl, rfl, rfl, by decide, fun _ => fmt E3M2_ok rfl, nofun⟩
  · exact ⟨by decide, fun _ => rfl, rfl, rfl, rfl, rfl, by decide, fun _ => fmt E2M1_ok rfl, nofun⟩
  · exact ⟨by decide, fun _ => rfl, rfl, rfl, rfl, rfl, by decide, nofun, fun _ => rfl⟩

theorem mxCode_of_float {f nw w : Nat} {F : FFmt} (h : (f, nw, w, F) ∈ [(6, 8, 8, E4M3), (7, 8, 8, E5M2), (8, 6, 6, E2M3), (9, 6, 6, E3M2),
    (10, 4, 4, E2M1)]) : ∃ emax, MxCode f nw w emax (some F) := by
  simp only [List.mem_cons, List.not_mem_nil, or_false, Prod.mk.injEq] at h
  rcases h with ⟨rfl, rfl, rfl, rfl⟩ | ⟨rfl, rfl, rfl, rfl⟩ | ⟨rfl, rfl, rfl, rfl⟩ | ⟨rfl, rfl, rfl, rfl⟩ | ⟨rfl, rfl, rfl, rfl⟩
  · exact ⟨8, mxCode_of_mem (by simp)⟩
  · exact ⟨15, mxCode_of_mem (by simp)⟩
  · exact ⟨2, mxCode_of_mem (by simp)⟩
  · exact ⟨4, mxCode_of_mem (by simp)⟩
  · exact ⟨2, mxCode_of_mem (by simp)⟩

theorem mxElem_nan (f x : Nat) (m : CMode) (u : Nat) (s : Bool) : (mxElem f x m u (.nan s)).1 = 0 := by
  unfold mxElem
  cases mxFmt f <;> rfl

theorem mxElem_inf_float {f : Nat} {G : FFmt} (h : mxFmt f = some G) (x : Nat) (m : CMode) (u : Nat) (n : Bool) :
    (mxElem f x m u (.inf n)).1 = G.maxBits n := by
  simp only [mxElem, h]

theorem mxElem_inf_int8 {f : Nat} (h : mxFmt f = none) (x : Nat) (m : CMode) (u : Nat) (n : Bool) :
    (mxElem f x m u (.inf n)).1 = if n then 129 else 127 := by
  simp only [mxElem, h]

/-- R100: a finite element is rounded under the scale. -/
theorem mxElem_float {f : Nat} {G : FFmt} (h : mxFmt f = some G) (x : Nat) (m : CMode) (u : Nat) (n : Bool) (a : Nat) (e : Int) :
    mxElem f x m u (.fin n a e) = G.round (CMode.rmode m u) true n a (e + 127 - x) := by
  simp only [mxElem, h, show e + 127 - (x : Int) = e + (127 - x) by ring]

theorem mxElem_int8 {f : Nat} (h : mxFmt f = none) (x : Nat) (m : CMode) (u : Nat) (n : Bool) (a : Nat) (e : Int) :
    (mxElem f x m u (.fin n a e)).1 = if 127 < (roundAt (CMode.rmode m u) n a (e + 127 - x) (-6)).1 then (if n then 129 else 127)
      else if n then (256 - (roundAt (CMode.rmode m u) n a (e + 127 - x) (-6)).1) % 256
      else (roundAt (CMode.rmode m u) n a (e + 127 - x) (-6)).1 := by
  simp only [mxElem, h, show e + 127 - (x : Int) = e + (127 - x) by ring]
  split <;> rfl

theorem MxCode.elem_lt {f nw w : Nat} {emax : Int} {F : Option FFmt} (h : MxCode f nw w emax F) (x : Nat) (m : CMode) (u : Nat) (v : FVal) :
    (mxElem f x m u v).1 < 2 ^ w := by
  cases hF : F with
  | none =>
    have hf := h.fmt.trans hF
    rw [h.int8 hF]
    cases v with
    | nan s => rw [mxElem_nan]; decide
    | inf n => rw [mxElem_inf_int8 hf]; cases n <;> decide
    | fin n a e =>
      rw [mxElem_int8 hf]
      cases n <;> simp only [Bool.false_eq_true, if_true, if_false] <;> split <;> omega
  | some G =>
    have hf := h.fmt.trans hF
    obtain ⟨hok, hw⟩ := h.ok G hF
    rw [← hw]
    cases v with
    | nan s => rw [mxElem_nan]; exact Nat.two_pow_pos _
    | inf n => rw [mxElem_inf_float hf]; exact FFmt.maxBits_lt hok n
    | fin n a e => rw [mxElem_float hf]; exact FFmt.round_lt hok ..

theorem MxCode.els_lt {f nw w : Nat} {emax : Int} {F : Option FFmt} (h : MxCode f nw w emax F) (m : CMode) (vs : List FVal) :
    ∀ y ∈ mxEls f m vs, y < 2 ^ w := by
  intro y hy
  obtain ⟨v, -, rfl⟩ := List.mem_map.mp hy
  split
  · exact Nat.two_pow_pos _
  · exact h.elem_lt ..

theorem MxCode.string_lt {f nw w : Nat} {emax : Int} {F : Option FFmt} (h : MxCode f nw w emax F) (m : CMode) {vs : List FVal}
    (hv : vs.length = 32) : packElems w (mxEls f m vs) < 2 ^ (32 * nw) := by
  have hlen : 32 * nw = w * (mxEls f m vs).length := by rw [mxEls, List.length_map, hv, h.string, Nat.mul_comm]
  rw [hlen]
  exact packElems_lt (h.els_lt m vs)

theorem mxEls_nan {f : Nat} {m : CMode} {vs : List FVal} (h : mxScale f vs = 255) : ∀ x ∈ mxEls f m vs, x = 0 := by
  intro x hx
  obtain ⟨v, -, rfl⟩ := List.mem_map.mp hx
  exact if_pos h

theorem mxEls_getD {f : Nat} (m : CMode) {vs : List FVal} (h : mxScale f vs ≠ 255) {k : Nat} {v : FVal} (hk : vs[k]? = some v) :
    (mxEls f m vs).getD k 0 = (mxElem f (mxScale f vs) m 0 v).1 := by
  rw [mxEls, List.getD_eq_getElem?_getD, List.getElem?_map, hk]
  exact if_neg h

/-! ### CF pecks (R95, R101) -/

/-- R101: a magnitude under the scale `e` and the micro-exponent `u`; a value that is not finite is not below any bound. -/
def peckMag (md : RMode) (p : Nat) (e u : Int) (v : FVal) : Nat :=
  match v with | .fin n a x => (roundAt md n a x (e - 127 - u - (p - 1))).1 | _ => 2 ^ p

theorem cfUnit_eq {p : Nat} (hp : 1 ≤ p) (e mu : Nat) : cfUnit p e mu = (e : Int) - 127 - mu - (p - 1) := by
  unfold cfUnit
  omega

theorem cfMag_eq {p : Nat} (hp : 1 ≤ p) (e mu : Nat) (md : RMode) (v : FVal) : cfMag p e mu md v = peckMag md p e mu v := by
  cases v with
  | fin n a x => rw [cfMag, cfUnit_eq hp]; rfl
  | _ => rfl

/-- R101: the elements of a peck in bits. -/
def cfEls (p : Nat) (m : CMode) (l : List FVal) : List Nat :=
  if cfE p m l = 255 then l.map fun _ => 0
  else List.zipWith (fun i v => (cfElem p (cfE p m l) ((cfMu p (cfE p m l) m l).getD (i / 2) 0) m 0 v).1) (List.range 16) l

section
variable {p : Nat} {m : CMode} {l : List FVal}

theorem cfE_nan (h : ∃ sg, .nan sg ∈ l) : cfE p m l = 255 := if_pos (any_isNan_iff.mpr h)

theorem cfE_inf (hn : ∀ sg, .nan sg ∉ l) (h : ∃ n, .inf n ∈ l) : cfE p m l = 254 := by
  rw [cfE, if_neg (mt any_isNan_iff.mp (not_exists.mpr hn)), if_pos (any_isInf_iff.mpr h)]

theorem cfE_zero (h : ∀ v ∈ l, ∃ n e, v = .fin n 0 e) : cfE p m l = 0 := by
  obtain ⟨hn, hi⟩ := any_special_of_fin fun v hv => let ⟨n, e, h⟩ := h v hv; ⟨n, 0, e, h⟩
  simp [cfE, hn, hi, maxLog_zero h]

/-- R101, steps 4 to 6. -/
theorem cfE_max {x : Int} (hle : ∀ v ∈ l, FVal.logLe x v) {v : FVal} (hv : v ∈ l) (hx : FVal.logEq x v) :
    cfE p m l = if (clampI 0 254 (x + 127)).toNat < 254 ∧ 0 ≤ x + 127
        ∧ ∃ v ∈ cfLargest l, 2 ^ p ≤ cfMag p (clampI 0 254 (x + 127)).toNat 0 (CMode.judge m) v
      then (clampI 0 254 (x + 127)).toNat + 1 else (clampI 0 254 (x + 127)).toNat := by
  obtain ⟨hn, hi⟩ := any_special_of_fin fun v hv => let ⟨n, m, e, h, _⟩ := hle v hv; ⟨n, m, e, h⟩
  simp only [cfE, hn, hi, maxLog_max hle hv hx, Bool.false_eq_true, if_false]
  refine if_congr ?_ rfl rfl
  simp only [Bool.and_eq_true, decide_eq_true_eq, List.any_eq_true, and_assoc]

theorem cfE_le : cfE p m l ≤ 255 := by
  unfold cfE
  split
  · omega
  · split
    · omega
    · split
      · omega
      · next x _ =>
        dsimp only
        have hc : (clampI 0 254 (x + 127)).toNat ≤ 254 := by unfold clampI; omega
        split <;> omega

theorem cfE_ne (hn : ∀ sg, .nan sg ∉ l) : cfE p m l ≠ 255 := by
  rw [cfE, if_neg (mt any_isNan_iff.mp (not_exists.mpr hn))]
  split
  · decide
  · split
    · decide
    · next x _ =>
      dsimp only
      have hc : (clampI 0 254 (x + 127)).toNat ≤ 254 := by unfold clampI; omega
      split
      · next h =>
        simp only [Bool.and_eq_true, decide_eq_true_eq] at h
        omega
      · omega

/-- R101, step 7. -/
theorem cfMu_eq_one_iff {e j : Nat} (he : e ≠ 255) (hj : j < 8) : (cfMu p e m l).getD j 0 = 1 ↔
    ∀ i, i / 2 = j → ∀ v, l[i]? = some v → cfMag p e 1 (CMode.judge m) v < 2 ^ p := by
  have hpair (q : Nat → Prop) : (∀ i, i / 2 = j → q i) ↔ q (2 * j) ∧ q (2 * j + 1) := by
    refine ⟨fun h => ⟨h _ (by omega), h _ (by omega)⟩, fun h i hi => ?_⟩
    obtain rfl | rfl : i = 2 * j ∨ i = 2 * j + 1 := by omega
    · exact h.1
    · exact h.2
  have hbelow (i : Nat) : (match l[i]? with | some v => decide (cfMag p e 1 (CMode.judge m) v < 2 ^ p) | none => true) = true ↔
      ∀ v, l[i]? = some v → cfMag p e 1 (CMode.judge m) v < 2 ^ p := by
    cases l[i]? <;> simp
  have hmu : (cfMu p e m l).getD j 0 = if e != 255 && [2 * j, 2 * j + 1].all (fun i => match l[i]? with
      | some v => decide (cfMag p e 1 (CMode.judge m) v < 2 ^ p)
      | none => true) then 1 else 0 := by
    rw [cfMu, List.getD_eq_getElem?_getD, List.getElem?_map, List.getElem?_range hj]
    rfl
  rw [hpair, ← hbelow, ← hbelow, hmu]
  simp [he]

theorem cfMu_le {e : Nat} : ∀ x ∈ cfMu p e m l, x < 2 ^ 1 := by
  intro x hx
  obtain ⟨j, -, rfl⟩ := List.mem_map.mp hx
  split <;> decide

theorem cfMu_nan : ∀ x ∈ cfMu p 255 m l, x = 0 := by
  intro x hx
  obtain ⟨j, -, rfl⟩ := List.mem_map.mp hx
  rfl

theorem cfElem_draw (h : CMode.isRs m = false) (e mu u : Nat) (v : FVal) : cfElem p e mu m u v = cfElem p e mu m 0 v := by
  simp only [cfElem, CMode.rmode_of_not_rs h u]

theorem cfElem_lt {e mu u : Nat} (v : FVal) : (cfElem p e mu m u v).1 < 2 ^ (p + 1) := by
  have hp := Nat.two_pow_pos p
  rw [pow_succ]
  cases v with
  | nan s => exact Nat.mul_pos hp (by decide)
  | inf n => cases n <;> simp [cfElem] <;> omega
  | fin n a x =>
    simp only [cfElem]
    split
    · dsimp only; omega
    · split
      · cases n <;> simp <;> omega
      · cases n <;> simp <;> omega

/-- R101, step 8. -/
theorem cfElem_fin (hp : 1 ≤ p) {e mu : Nat} (he : e ≠ 255) (n : Bool) (a : Nat) (x : Int) :
    (cfElem p e mu m 0 (.fin n a x)).1 =
      min (peckMag (CMode.rmode m 0) p e mu (.fin n a x)) (2 ^ p - 1) + if n then 2 ^ p else 0 := by
  have hpos := Nat.two_pow_pos p
  simp only [cfElem, cfUnit_eq hp, if_neg he, peckMag]
  split
  · rw [min_eq_right (by omega)]
  · rw [min_eq_left (by omega)]

theorem cfEls_nan (h : cfE p m l = 255) : ∀ x ∈ cfEls p m l, x = 0 := by
  intro x hx
  rw [cfEls, if_pos h] at hx
  obtain ⟨v, -, rfl⟩ := List.mem_map.mp hx
  rfl

theorem cfEls_lt : ∀ x ∈ cfEls p m l, x < 2 ^ (p + 1) := by
  intro x hx
  unfold cfEls at hx
  split at hx
  · obtain ⟨v, -, rfl⟩ := List.mem_map.mp hx
    exact Nat.two_pow_pos _
  · rw [← List.map_uncurry_zip_eq_zipWith] at hx
    obtain ⟨q, -, rfl⟩ := List.mem_map.mp hx
    exact cfElem_lt _

theorem cfEls_getD (he : cfE p m l ≠ 255) {i : Nat} (hi : i < 16) {v : FVal} (hv : l[i]? = some v) :
    (cfEls p m l).getD i 0 = (cfElem p (cfE p m l) ((cfMu p (cfE p m l) m l).getD (i / 2) 0) m 0 v).1 := by
  rw [cfEls, if_neg he, List.getD_eq_getElem?_getD, List.getElem?_zipWith, hv]
  simp [hi]

end

end Sys2Proof.Machine
end

section
/-! SUPPORT. Where the fields of a CF block stand, plain and planar (R95, R270), and what a block reads back as (R94 to R96, R272). -/
namespace Sys2Proof.Machine

/-! ### The fields of a CF block (R270) -/

/-- Two parts of a string, each with bits of its own. -/
theorem bits_part {k : Nat} (X : Nat → Nat) (h0 : X 0 < 2 ^ k) {h : Nat} (hh : h < 2) {a b : Nat} (hab : a + b ≤ k) :
    (X 0 + 2 ^ k * X 1) / 2 ^ (k * h + a) % 2 ^ b = X h / 2 ^ a % 2 ^ b := by
  obtain rfl | rfl : h = 0 ∨ h = 1 := by omega
  · rw [Nat.mul_zero, Nat.zero_add, bits_low _ _ hab]
  · rw [Nat.mul_one, bits_high _ _ h0]

/-- The string of a CF block from the scales, micro-exponents and elements of its two pecks. -/
def cfString (planar : Bool) (p : Nat) (E M L : Nat → Nat) : Nat :=
  if planar then L 0 + 2 ^ (16 * (p + 1)) * L 1
  else (E 0 + 256 * M 0 + 65536 * L 0) + 2 ^ (16 + 16 * (p + 1)) * (E 1 + 256 * M 1 + 65536 * L 1)

/-- The scale word of a CF block. -/
def cfScaleWord (planar : Bool) (E M : Nat → Nat) : Nat :=
  if planar then E 0 + 2 ^ 8 * M 0 + 2 ^ 16 * E 1 + 2 ^ 24 * M 1 else 0

/-- Where the string of a peck begins. -/
def cfBase (planar : Bool) (p h : Nat) : Nat := if planar then 16 * (p + 1) * h else (16 + 16 * (p + 1)) * h

section
variable {p : Nat} {E M L : Nat → Nat} (hE : ∀ h, E h < 2 ^ 8) (hM : ∀ h, M h < 2 ^ 8) (hL : ∀ h, L h < 2 ^ (16 * (p + 1)))
include hE hM

theorem cfHead_lt (h : Nat) : E h + 2 ^ 8 * M h < 2 ^ 16 := add_two_pow_mul_lt (hE h) (hM h)

theorem cfScaleWord_bits {h a b : Nat} (hh : h < 2) (hab : a + b ≤ 16) :
    cfScaleWord true E M / 2 ^ (16 * h + a) % 2 ^ b = (E h + 2 ^ 8 * M h) / 2 ^ a % 2 ^ b := by
  have hw : cfScaleWord true E M = (E 0 + 2 ^ 8 * M 0) + 2 ^ 16 * (E 1 + 2 ^ 8 * M 1) := by unfold cfScaleWord; rw [if_pos rfl]; ring
  rw [hw]
  exact bits_part (fun h => E h + 2 ^ 8 * M h) (cfHead_lt hE hM 0) hh hab

include hL

/-- A peck in the plain layout: scale, micro-exponents, elements. -/
theorem cfPeck_lt (h : Nat) : (E h + 2 ^ 8 * M h) + 2 ^ 16 * L h < 2 ^ (16 + 16 * (p + 1)) := add_two_pow_mul_lt (cfHead_lt hE hM h) (hL h)

theorem cfString_bits {h a b : Nat} (hh : h < 2) (hab : a + b ≤ 16 + 16 * (p + 1)) :
    cfString false p E M L / 2 ^ ((16 + 16 * (p + 1)) * h + a) % 2 ^ b = ((E h + 2 ^ 8 * M h) + 2 ^ 16 * L h) / 2 ^ a % 2 ^ b := by
  rw [cfString, if_neg Bool.false_ne_true]
  exact bits_part (fun h => (E h + 2 ^ 8 * M h) + 2 ^ 16 * L h) (cfPeck_lt hE hM hL 0) hh hab

theorem cfString_lt (planar : Bool) : cfString planar p E M L < 2 ^ (32 * if planar then p + 1 else p + 2) := by
  cases planar with
  | true =>
    have h := add_two_pow_mul_lt (hL 0) (hL 1)
    rwa [show 16 * (p + 1) + 16 * (p + 1) = 32 * (p + 1) by ring] at h
  | false =>
    have h := add_two_pow_mul_lt (cfPeck_lt hE hM hL 0) (cfPeck_lt hE hM hL 1)
    rwa [show 16 + 16 * (p + 1) + (16 + 16 * (p + 1)) = 32 * (p + 2) by ring] at h

/-- R270: the scale of a peck. -/
theorem cf_scale (planar : Bool) {h : Nat} (hh : h < 2) :
    (if planar then cfScaleWord planar E M / 2 ^ (16 * h) % 256 else cfString planar p E M L / 2 ^ cfBase planar p h % 256) = E h := by
  have hhead : (E h + 2 ^ 8 * M h) / 2 ^ 0 % 2 ^ 8 = E h := by rw [bits_low _ _ (by omega)]; simpa using Nat.mod_eq_of_lt (hE h)
  cases planar with
  | true => exact (cfScaleWord_bits hE hM (a := 0) (b := 8) hh (by omega)).trans hhead
  | false => exact ((cfString_bits hE hM hL (a := 0) (b := 8) hh (by omega)).trans (bits_low _ _ (by omega))).trans hhead

/-- R270: a micro-exponent of a peck. -/
theorem cf_micro (planar : Bool) {h j : Nat} (hh : h < 2) (hj : j < 8) :
    (if planar then cfScaleWord planar E M / 2 ^ (16 * h + 8) else cfString planar p E M L / 2 ^ (cfBase planar p h + 8)) / 2 ^ j % 2
      = M h / 2 ^ j % 2 := by
  have hhead : (E h + 2 ^ 8 * M h) / 2 ^ (8 + j) % 2 ^ 1 = M h / 2 ^ j % 2 ^ 1 := by rw [bits_high _ _ (hE h)]
  cases planar with
  | true =>
    simp only [if_true]
    rw [Nat.div_div_eq_div_mul, ← pow_add, Nat.add_assoc]
    exact (cfScaleWord_bits hE hM (b := 1) hh (by omega)).trans hhead
  | false =>
    simp only [Bool.false_eq_true, if_false]
    rw [Nat.div_div_eq_div_mul, ← pow_add, Nat.add_assoc]
    exact ((cfString_bits hE hM hL (b := 1) hh (by omega)).trans (bits_low _ _ (by omega))).trans hhead

/-- R270: an element of a peck. -/
theorem cf_elem (planar : Bool) {h i : Nat} (hh : h < 2) (hi : i < 16) :
    cfString planar p E M L / 2 ^ (cfBase planar p h + (if planar then 0 else 16) + i * (p + 1)) % 2 ^ (p + 1)
      = L h / 2 ^ ((p + 1) * i) % 2 ^ (p + 1) := by
  have hle : i * (p + 1) + (p + 1) ≤ 16 * (p + 1) := by
    rw [← Nat.succ_mul]
    exact Nat.mul_le_mul_right _ hi
  rw [Nat.mul_comm (p + 1) i]
  cases planar with
  | true => exact bits_part L (hL 0) hh hle
  | false =>
    rw [Nat.add_assoc]
    refine (cfString_bits hE hM hL hh (by simp only [Bool.false_eq_true, if_false]; omega)).trans ?_
    exact congrArg (· % _) (bits_high _ _ (cfHead_lt hE hM h))

end

/-! ### The words of a CF block (R271) -/

/-- R95: what the code of a CF format fixes. -/
structure CfCode (f p : Nat) : Prop where
  code : ¬ f < 12
  width : cfP f = p
  words : ∀ planar, blockNw f planar = if planar then p + 1 else p + 2
  pos : 1 ≤ p
  le : p ≤ 7

theorem cfCode_of_mem {f p : Nat} (h : (f, p) ∈ [(12, 7), (13, 4), (14, 2)]) : CfCode f p := by
  simp only [List.mem_cons, List.not_mem_nil, or_false, Prod.mk.injEq] at h
  rcases h with ⟨rfl, rfl⟩ | ⟨rfl, rfl⟩ | ⟨rfl, rfl⟩ <;> exact ⟨by decide, rfl, fun planar => by cases planar <;> rfl, by decide, by decide⟩

/-- The values of a peck of a block. -/
def peckOf (vs : List FVal) (h : Nat) : List FVal := (vs.drop (16 * h)).take 16

theorem peckOf_length {vs : List FVal} (hv : vs.length = 32) {h : Nat} (hh : h < 2) : (peckOf vs h).length = 16 := by
  rw [peckOf, List.length_take, List.length_drop, hv]
  omega

theorem packBlock_words_cf {f p : Nat} (hf : CfCode f p) (planar : Bool) {m : CMode} (hm : CMode.isRs m = false) {vs : List FVal}
    {gs : List Word} (hv : vs.length = 32) (hg : gs.length = 32) : (packBlock f planar m vs gs).words =
      blockWords (cfString planar p (fun h => cfE p m (peckOf vs h))
          (fun h => packElems 1 (cfMu p (cfE p m (peckOf vs h)) m (peckOf vs h))) fun h => packElems (p + 1) (cfEls p m (peckOf vs h)))
        (blockNw f planar)
        (cfScaleWord planar (fun h => cfE p m (peckOf vs h)) fun h => packElems 1 (cfMu p (cfE p m (peckOf vs h)) m (peckOf vs h))) := by
  have h0 : vs.take 16 = peckOf vs 0 := rfl
  have h1 : vs.drop 16 = peckOf vs 1 := (List.take_of_length_le (by simp [hv])).symm
  have hels (l : List FVal) (g : List Word) (hl : l.length = 16) (hlg : g.length = 16) :
      (if cfE p m l = 255 then (l.zip g).map fun q => (0, ({} : Exc), q.2)
        else zipDraw ((List.range 16).map fun i => cfElem p (cfE p m l) ((cfMu p (cfE p m l) m l).getD (i / 2) 0) m) m g l).map Prod.fst
      = cfEls p m l := by
    unfold cfEls
    by_cases he : cfE p m l = 255
    · rw [if_pos he, if_pos he]
      exact zip_map_zero (hlg.trans hl.symm)
    · rw [if_neg he, if_neg he, zipDraw_fst (fun k hk u v => ?_) (by simp [hl]) (hlg.trans hl.symm), List.zipWith_map_left]
      obtain ⟨i, -, rfl⟩ := List.mem_map.mp hk
      exact cfElem_draw hm ..
  rw [packBlock, if_neg hf.code]
  simp only [hf.width, h0, h1]
  rw [hels _ _ (peckOf_length hv (by omega)) (by simp [hg]), hels _ _ (peckOf_length hv (by omega)) (by simp [hg])]
  rfl

/-! ### Reading back (R272) -/

theorem unpackBlock_getElem? (f : Nat) (planar : Bool) (ws : List Nat) (k : Nat) : (unpackBlock f planar ws)[k]? =
    ((blockVals f planar (packElems 32 (ws.take (blockNw f planar))) (ws.getD 31 0))[k]?).map FVal.to32 :=
  List.getElem?_map ..

theorem blockVals_mx {f k : Nat} (hf : f < 12) (planar : Bool) (str sc : Nat) (hk : k < 32) :
    (blockVals f planar str sc)[k]? = some (mxVal f (sc % 256) (str / 2 ^ (mxBits f * k) % 2 ^ mxBits f)) := by
  rw [blockVals, if_pos hf, List.getElem?_map, List.getElem?_range hk]
  rfl

theorem blockVals_cf {f p k : Nat} (hf : CfCode f p) (planar : Bool) (str sc : Nat) (hk : k < 32) :
    (blockVals f planar str sc)[k]? = some (cfVal p
      (if planar then sc / 2 ^ (16 * (k / 16)) % 256 else str / 2 ^ cfBase planar p (k / 16) % 256)
      ((if planar then sc / 2 ^ (16 * (k / 16) + 8) else str / 2 ^ (cfBase planar p (k / 16) + 8)) / 2 ^ (k % 16 / 2) % 2)
      (str / 2 ^ (cfBase planar p (k / 16) + (if planar then 0 else 16) + k % 16 * (p + 1)) % 2 ^ (p + 1))) := by
  have hmu (x : Nat) : x % 2 ^ 8 / 2 ^ (k % 16 / 2) % 2 ^ 1 = x / 2 ^ (k % 16 / 2) % 2 ^ 1 := bits_mod x (by omega)
  rw [blockVals, if_neg hf.code, List.getElem?_map, List.getElem?_range hk, hf.width]
  cases planar with
  | true => exact congrArg (fun y => some (cfVal p _ y _)) (hmu _)
  | false => exact congrArg (fun y => some (cfVal p _ y _)) (hmu _)

end Sys2Proof.Machine
end

section
/-! SUPPORT. What a packed block holds (R100, R101, R270): its scales, its micro-exponents and its elements. -/
namespace Sys2Proof.Machine

/-! ### MX (R100) -/

section
variable {f nw w : Nat} {emax : Int} {F : Option FFmt} (hf : MxCode f nw w emax F) (planar : Bool) {m : CMode}
  (hm : CMode.isRs m = false) {vs : List FVal} {gs : List Word} (hv : vs.length = 32) (hg : gs.length = 32)
include hf hm hv hg

theorem packBlock_string_mx : leNat (((packBlock f planar m vs gs).words.take nw).flatMap (leBytes 4)) = packElems w (mxEls f m vs) := by
  have hle := hf.string ▸ hf.width
  rw [packBlock_words_mx hf.code planar hm hv hg, hf.words, hf.bits]
  exact leNat_blockWords _ (hf.string_lt m hv) (by omega)

theorem packBlock_scale_mx : (packBlock f planar m vs gs).words.getD 31 0 = mxScale f vs := by
  have hle := hf.string ▸ hf.width
  rw [packBlock_words_mx hf.code planar hm hv hg, hf.words]
  exact blockWords_scale _ (by omega)

end

/-! ### CF (R101) -/

/-- The scales, the packed micro-exponents and the packed elements of the pecks of a block. -/
def blkE (p : Nat) (m : CMode) (vs : List FVal) (h : Nat) : Nat := cfE p m (peckOf vs h)
def blkM (p : Nat) (m : CMode) (vs : List FVal) (h : Nat) : Nat := packElems 1 (cfMu p (blkE p m vs h) m (peckOf vs h))
def blkL (p : Nat) (m : CMode) (vs : List FVal) (h : Nat) : Nat := packElems (p + 1) (cfEls p m (peckOf vs h))

theorem blkE_lt (p : Nat) (m : CMode) (vs : List FVal) (h : Nat) : blkE p m vs h < 2 ^ 8 := by
  have : blkE p m vs h ≤ 255 := cfE_le
  omega

theorem blkM_lt (p : Nat) (m : CMode) (vs : List FVal) (h : Nat) : blkM p m vs h < 2 ^ 8 := by
  have hlen : (cfMu p (blkE p m vs h) m (peckOf vs h)).length = 8 := by simp [cfMu]
  have := packElems_lt (cfMu_le (p := p) (m := m) (l := peckOf vs h) (e := blkE p m vs h))
  rwa [hlen] at this

theorem cfEls_length_le (p : Nat) (m : CMode) {l : List FVal} (h : l.length ≤ 16) : (cfEls p m l).length ≤ 16 := by
  unfold cfEls
  split
  · simpa using h
  · simp

theorem blkL_lt (p : Nat) (m : CMode) (vs : List FVal) (h : Nat) : blkL p m vs h < 2 ^ (16 * (p + 1)) := by
  refine (packElems_lt cfEls_lt).trans_le (Nat.pow_le_pow_right (by omega) ?_)
  rw [Nat.mul_comm]
  exact Nat.mul_le_mul_right _ (cfEls_length_le p m (List.length_take_le _ _))

/-- R270: a micro-exponent as its field reads. -/
theorem blkM_bit (p : Nat) (m : CMode) (vs : List FVal) (h j : Nat) :
    blkM p m vs h / 2 ^ j % 2 = (cfMu p (blkE p m vs h) m (peckOf vs h)).getD j 0 := by
  have := packElems_elem (cfMu_le (p := p) (m := m) (l := peckOf vs h) (e := blkE p m vs h)) j
  rwa [Nat.one_mul, pow_one] at this

/-- R270: an element as its field reads. -/
theorem blkL_elem (p : Nat) (m : CMode) (vs : List FVal) (h i : Nat) :
    blkL p m vs h / 2 ^ ((p + 1) * i) % 2 ^ (p + 1) = (cfEls p m (peckOf vs h)).getD i 0 :=
  packElems_elem cfEls_lt i

section
variable {f p : Nat} (hf : CfCode f p) (planar : Bool) {m : CMode} (hm : CMode.isRs m = false) {vs : List FVal} {gs : List Word}
  (hv : vs.length = 32) (hg : gs.length = 32)
include hf hm hv hg

theorem packBlock_string_cf :
    leNat (((packBlock f planar m vs gs).words.take (if planar then p + 1 else p + 2)).flatMap (leBytes 4)) =
      cfString planar p (blkE p m vs) (blkM p m vs) (blkL p m vs) := by
  have hle := hf.le
  rw [packBlock_words_cf hf planar hm hv hg, hf.words]
  exact leNat_blockWords _ (cfString_lt (blkE_lt p m vs) (blkM_lt p m vs) (blkL_lt p m vs) planar) (by split <;> omega)

theorem packBlock_scale_cf : (packBlock f planar m vs gs).words.getD 31 0 = cfScaleWord planar (blkE p m vs) (blkM p m vs) := by
  have hle := hf.le
  rw [packBlock_words_cf hf planar hm hv hg, hf.words]
  exact blockWords_scale _ (by split <;> omega)

end

/-- R101: the scale of a peck by its largest magnitude, where `e0` is the scale before step 6. -/
theorem cfE_of_max {p : Nat} (hp : 1 ≤ p) {m : CMode} (hm : CMode.isRs m = false) {l : List FVal} {x : Int}
    (hle : ∀ v ∈ l, FVal.logLe x v) {v : FVal} (hv : v ∈ l) (hx : FVal.logEq x v) {e0 : Int} (he0 : e0 = max 0 (min 254 (x + 127))) :
    ((cfE p m l : Int) = e0 ∨ (cfE p m l : Int) = e0 + 1)
    ∧ ((∀ y ∈ l, peckMag (CMode.rmode m 0) p e0 0 y < 2 ^ p) → (cfE p m l : Int) = e0)
    ∧ (e0 < 254 → 0 ≤ x + 127 → (∀ y ∈ l, FVal.magLe y v = true) → 2 ^ p ≤ peckMag (CMode.rmode m 0) p e0 0 v →
        (cfE p m l : Int) = e0 + 1) := by
  have hE := cfE_max (p := p) (m := m) hle hv hx
  have hc : (((clampI 0 254 (x + 127)).toNat : Nat) : Int) = e0 := (clampI_toNat _).trans he0.symm
  rw [CMode.judge_of_not_rs hm] at hE
  simp only [cfMag_eq hp, hc, Nat.cast_zero] at hE
  refine ⟨?_, fun hall => ?_, fun h254 h0 hlargest hmag => ?_⟩
  · rw [hE]
    split <;> omega
  · rw [hE, if_neg, hc]
    rintro ⟨-, -, y, hy, hge⟩
    exact absurd (hall y (List.mem_of_mem_filter hy)) (by omega)
  · have hmem : v ∈ cfLargest l := List.mem_filter.mpr ⟨hv, List.all_eq_true.mpr hlargest⟩
    rw [hE, if_pos ⟨by omega, h0, v, hmem, hmag⟩]
    omega

end Sys2Proof.Machine
end

section
open Sys2Proof Sys2Proof.Machine

/-- Settles O11: a block is a string of elements of equal width (`packElems_elem`, `leNat_words`), laid out for MX and for CF
(`MxCode`, `cf_scale`, `cf_micro`, `cf_elem`); its scale follows the greatest magnitude (`maxLog_max`). -/
theorem blockConversions : Obligations.BlockConversions := by
  refine ⟨?forms, ?packMx, ?packCf, ?readCf, ?readInt8, ?readMx⟩
  case forms =>
    intro s d a f m pk pack up unpack
    have packs {i : Instr} {planar : Bool} (hi : exec i s = packBlocks i d a f.val planar m s) : pack i planar := by
      refine Lanewise.congr (lanewise_of_block hi fun r => ((write_block s.w r d fun r l => BitVec.ofNat 32
        ((if l < 32 then pk planar r 0 else pk planar r 1).words.getD (l % 32) 0)).raise fun r l =>
          (if l < 32 then pk planar r 0 else pk planar r 1).exc.getD (l % 32) {}).advanceGen (fun r => r.lanes) fun r l =>
            (if l < 32 then pk planar r 0 else pk planar r 1).gens.getD (l % 32) 0) ?_ ?_ ?_
      · exact fun r j l hl => by rw [block_of_lane (pk planar r) hl]
      · exact fun r l hl => congrArg (fun b : Packed => some (b.exc.getD (l % 32) {})) (block_of_lane (pk planar r) hl)
      · exact fun r l hl => congrArg (fun b : Packed => some (if has r.lanes l then b.gens.getD (l % 32) 0 else s.w.getGen l))
          (block_of_lane (pk planar r) hl)
    have unpacks {i : Instr} {planar : Bool} (hi : exec i s = unpackBlocks i d a f.val planar s) : unpack i planar := by
      let blk (h : Nat) := unpackBlock f.val planar ((List.range 32).map fun k => (s.w.src a (32 * h + k)).toNat)
      refine Lanewise.congr (lanewise_of_block hi fun r => (write_block s.w r d fun _ l => BitVec.ofNat 32
        ((if l < 32 then blk 0 else blk 1).getD (l % 32) (0, {})).1).raise fun _ l =>
          ((if l < 32 then blk 0 else blk 1).getD (l % 32) (0, {})).2) ?_ ?_ fun _ _ _ => rfl
      · exact fun r j l hl => by rw [block_of_lane blk hl]
      · exact fun r l hl => congrArg (fun b : List (Nat × Exc) => some (b.getD (l % 32) (0, {})).2) (block_of_lane blk hl)
    exact ⟨packs rfl, packs rfl, unpacks rfl, unpacks rfl⟩
  case packMx =>
    intro f nw w emax F planar m vs gs hmem hv hg hm p md str el x
    have hf : MxCode f nw w emax F := mxCode_of_mem hmem
    have hstr : str = packElems w (mxEls f m vs) := packBlock_string_mx hf planar hm hv hg
    have hx : x = mxScale f vs := packBlock_scale_mx hf planar hm hv hg
    have hel (k : Nat) : el k = (mxEls f m vs).getD k 0 := by
      show str / 2 ^ (w * k) % 2 ^ w = _
      rw [hstr]
      exact packElems_elem (hf.els_lt m vs) k
    rw [hx]
    refine ⟨fun h => ⟨mxScale_nan h, by rw [hstr, packElems_eq_zero (mxEls_nan (mxScale_nan h))]⟩, fun hn => ?_⟩
    refine ⟨mxScale_inf hn, mxScale_zero, ?scale, ?elems⟩
    case scale =>
      rintro v hvm n a e rfl ha hmax
      rw [mxScale_max hmax hvm ⟨n, a, e, rfl, ha, rfl⟩, hf.emax]
    case elems =>
      intro k n a e hk
      rw [hel, mxEls_getD m (mxScale_ne hn) hk]
      refine ⟨fun G hG => ?_, fun hF => mxElem_int8 (hf.fmt.trans hF) ..⟩
      rw [mxElem_float (hf.fmt.trans hG)]
      obtain ⟨hok, hw⟩ := hf.ok G hG
      exact (Nat.mod_eq_of_lt (hw ▸ FFmt.round_lt hok ..)).symm
  case packCf =>
    intro f p planar m vs gs hmem hv hg hm q md str sc h hh us at_ E mu el mag
    have hf : CfCode f p := cfCode_of_mem hmem
    have hE : E = cfE p m us := by
      simp only [E, str, sc, q, packBlock_string_cf hf planar hm hv hg, packBlock_scale_cf hf planar hm hv hg]
      exact cf_scale (blkE_lt p m vs) (blkM_lt p m vs) (blkL_lt p m vs) planar hh
    have hmu {j : Nat} (hj : j < 8) : mu j = (cfMu p E m us).getD j 0 := by
      simp only [mu, str, sc, q, packBlock_string_cf hf planar hm hv hg, packBlock_scale_cf hf planar hm hv hg]
      rw [hE]
      exact (cf_micro (blkE_lt p m vs) (blkM_lt p m vs) (blkL_lt p m vs) planar hh hj).trans (blkM_bit p m vs h j)
    have hel {i : Nat} (hi : i < 16) : el i = (cfEls p m us).getD i 0 := by
      simp only [el, str, q, packBlock_string_cf hf planar hm hv hg]
      exact (cf_elem (blkE_lt p m vs) (blkM_lt p m vs) (blkL_lt p m vs) planar hh hi).trans (blkL_elem p m vs h i)
    have hmag : mag = peckMag md p := by
      funext e u v
      cases v <;> rfl
    have hlen : us.length = 16 := peckOf_length hv hh
    clear_value E mu el
    subst hE
    refine ⟨fun hn => ?invalid, fun hn => ⟨cfE_inf hn, cfE_zero, ?scale, ?micro, ?elems⟩⟩
    case invalid =>
      have he : cfE p m us = 255 := cfE_nan hn
      refine ⟨he, fun i hi => ⟨?_, ?_⟩⟩
      · rw [hel hi, getD_eq_zero (cfEls_nan he)]
      · rw [hmu (by omega), he, getD_eq_zero cfMu_nan]
    case scale =>
      rintro v hvm n a e rfl ha hmax e0
      rw [hmag]
      exact cfE_of_max hf.pos hm hmax hvm ⟨n, a, e, rfl, ha, rfl⟩ rfl
    case micro =>
      intro j hj
      rw [hmu hj, cfMu_eq_one_iff (cfE_ne hn) hj, CMode.judge_of_not_rs hm, hmag]
      simp only [cfMag_eq hf.pos]
      rfl
    case elems =>
      intro i n a e hi
      have hlt : i < 16 := by
        by_contra hge
        rw [List.getElem?_eq_none (by omega)] at hi
        cases hi
      rw [hel hlt, cfEls_getD (cfE_ne hn) hlt hi, cfElem_fin hf.pos (cfE_ne hn), hmag, hmu (by omega)]
  case readCf =>
    intro f p planar ws k hmem hlen hws hk str sc at_ E mu el
    have hf : CfCode f p := cfCode_of_mem hmem
    have hstr : packElems 32 (ws.take (blockNw f planar)) = str := by
      rw [hf.words]
      exact (leNat_words fun x hx => hws x (List.mem_of_mem_take hx)).symm
    rw [unpackBlock_getElem?, hstr, blockVals_cf hf planar _ _ hk]
    show some (FVal.to32 (cfVal p E mu el)) = _
    rw [cfVal, cfUnit_eq hf.pos]
    split <;> rfl
  case readInt8 =>
    intro planar ws k hlen hws hk b x
    have hstr : packElems 32 (ws.take 8) = leNat ((ws.take 8).flatMap (leBytes 4)) :=
      (leNat_words fun x hx => hws x (List.mem_of_mem_take hx)).symm
    rw [unpackBlock_getElem?, blockVals_mx (by decide) planar _ _ hk]
    show some (FVal.to32 (mxVal 11 x (packElems 32 (ws.take 8) / 2 ^ (8 * k) % 256))) = _
    rw [hstr, mxVal]
    split
    · rfl
    · rw [show (x : Int) - 127 - 6 = -6 + ((x : Int) - 127) by ring]
      rfl
  case readMx =>
    intro f nw w F planar ws k hmem hlen hws hk el x
    obtain ⟨emax, hf⟩ := mxCode_of_float hmem
    have hstr : packElems 32 (ws.take (blockNw f planar)) = leNat ((ws.take nw).flatMap (leBytes 4)) := by
      rw [hf.words]
      exact (leNat_words fun x hx => hws x (List.mem_of_mem_take hx)).symm
    rw [unpackBlock_getElem?, blockVals_mx hf.code planar _ _ hk, hstr, hf.bits]
    show some (FVal.to32 (mxVal f x el)) = _
    rw [mxVal, hf.fmt]
    split
    · rfl
    · dsimp only
      cases F.decode el with
      | nan sg => rfl
      | inf n => rfl
      | fin n a e =>
        have hexp : e + ((x : Int) - 127) = e + x - 127 := by ring
        exact congrArg (fun y => some (F32.round .nearest false n a y)) hexp
end

section
/-! SUPPORT. The matrix instructions that answer with a word, and the ranges and tiles of a group (R113 to R115, R122, R289, R290). -/
namespace Sys2Proof.Machine

/-! ### An answer written at the end of an instruction -/

/-- The run goes on, its destination holds the same word in every lane, and the other registers are unchanged. -/
structure Answered (s t : State) (r : Run) (d : Opd) (v : Word) : Prop where
  holds : Holds t d r.lanes fun _ => v
  only : OnlyWrites s t d 1 r.lanes
  run : t.w.run = some (r.behind 4)

theorem answered_of_write {s t : State} {r : Run} {d : Opd} {v : Word}
    (ht : t.w = { s.w.write d r.lanes (fun _ => v) with run := some (r.behind 4) }) : Answered s t r d v :=
  ⟨holds_write ht, write_onlyWrites ht, by rw [ht]⟩

/-- An instruction that ends by writing its answer: of the state `u` that it has come to, the warp alone changes. -/
theorem goes_answer {i : Instr} {s u : State} {r : Run} {body : Run → Act} {d : Opd} {v : Word} {p : State → Prop} (h : Issues i s r)
    (hl : i.info.len = 4) (hw : u.w = s.w) (hb : body r = .ok (u.writeAll r d v))
    (hp : ∀ t, Answered s t r d v → t = u.setW t.w → p t) : Goes (issue i s body) p := by
  refine issue_goes h hb ?_
  have hrun : (u.w.write d r.lanes fun _ => v).run = some r := (Warp.write_run ..).trans (hw ▸ h.1)
  rw [hl, State.writeAll, advance_setW hrun]
  exact hp _ (answered_of_write (by rw [State.setW_w, hw])) rfl

/-- An instruction that ends with no answer, and has changed nothing of the warp. -/
theorem goes_quiet {i : Instr} {s u : State} {r : Run} {body : Run → Act} {p : State → Prop} (h : Issues i s r)
    (hl : i.info.len = 4) (hw : u.w = s.w) (hb : body r = .ok u)
    (hp : ∀ t, RunsOn s t r 4 → t = u.setW t.w → p t) : Goes (issue i s body) p := by
  refine issue_goes h hb ?_
  rw [hl, advance_of_run 4 (r := r) (hw ▸ h.1)]
  exact hp _ (by rw [RunsOn, State.setW_w, hw]) rfl

/-- R113: a group with a window may use the instructions of the matrix engine. -/
theorem inWindow_open {s : State} (h : s.g.kern.obwin ≠ 0) (r : Run) (k : Act) : inWindow s r k = k := if_neg h

/-! ### The state's parts (R112) -/

@[simp] theorem State.putEngine_engine (s : State) (clu : Nat) (e : Engine) : (s.putEngine clu e).engine clu = e :=
  getKey_setKey_self _ _ _ _
@[simp] theorem State.mapEngine_engine (s : State) (clu : Nat) (f : Engine → Engine) : (s.mapEngine clu f).engine clu = f (s.engine clu) :=
  getKey_setKey_self _ _ _ _

/-- A change of a group's shared fields leaves everything but the groups. -/
theorem mapGroup_frame (s : State) (gid : Nat) (f : Group → Group) :
    s.mapGroup gid f = { s with g := (s.mapGroup gid f).g, groups := (s.mapGroup gid f).groups } := by
  unfold State.mapGroup
  split <;> rfl

/-! ### Ranges (R114, R115) -/

/-- R114: of a group's ranges those leave that have been released. -/
theorem reapRanges_cases (s : State) (gid : Nat) : s.reapRanges gid = s
    ∨ ∃ busy : Range → Bool, s.reapRanges gid = s.mapGroup gid fun q => { q with ranges := q.ranges.filter fun x => !x.gone || busy x } := by
  unfold State.reapRanges
  split
  · exact .inl rfl
  · exact .inr ⟨_, rfl⟩

theorem mapGroup_own (s : State) (f : Group → Group) : s.mapGroup s.g.id f = s.setG (f s.g) := if_pos rfl

/-- R114: what the selected group loses with its released ranges. -/
theorem reapRanges_own (s : State) : ∃ keep : Range → Bool, (∀ x, keep x = false → x.gone = true)
    ∧ s.reapRanges s.g.id = s.setG { s.g with ranges := s.g.ranges.filter keep } := by
  rcases reapRanges_cases s s.g.id with h | ⟨busy, h⟩
  · exact ⟨fun _ => true, fun _ hx => (Bool.noConfusion hx), by rw [h, List.filter_true]; rfl⟩
  · refine ⟨fun x => !x.gone || busy x, fun x hx => ?_, h.trans (mapGroup_own s _)⟩
    simpa using (Bool.or_eq_false_iff.mp hx).1

theorem mem_of_mem_reapRanges {s : State} {x : Range} (h : x ∈ (s.reapRanges s.g.id).g.ranges) : x ∈ s.g.ranges := by
  obtain ⟨keep, -, he⟩ := reapRanges_own s
  rw [he] at h
  exact List.mem_of_mem_filter h

theorem gone_of_notMem_reapRanges {s : State} {x : Range} (h : x ∈ s.g.ranges) (hn : x ∉ (s.reapRanges s.g.id).g.ranges) :
    x.gone = true := by
  obtain ⟨keep, hk, he⟩ := reapRanges_own s
  rw [he] at hn
  exact hk x (by simpa using mt (fun hx => List.mem_filter.mpr ⟨h, hx⟩) hn)

/-- R114: the lowest place of a range lies in the window, away from the ranges that are there. -/
theorem firstFit_fits {n lim b : Nat} {used : List (Nat × Nat)} (hn : n ≠ 0) (h : firstFit n lim used = some b) :
    b + n ≤ lim ∧ ∀ u ∈ used, u.2 = 0 ∨ b + n ≤ u.1 ∨ u.1 + u.2 ≤ b := by
  rw [firstFit, if_neg hn] at h
  have hfits := (List.mem_filter.mp (List.min?_mem h)).2
  simpa [fitsAt, or_assoc] using hfits

/-- R290: a handle that is given back names no range that is not released. -/
theorem freeRange_gone {g : Group} {h : Nat} {y : Range} (hy : y ∈ (g.freeRange h).ranges) (hh : y.h = h) : y.gone = true := by
  obtain ⟨x, -, rfl⟩ := List.mem_map.mp hy
  by_cases hx : x.h = h
  · rw [if_pos hx]
  · rw [if_neg hx] at hh
    exact absurd hh hx

/-! ### Tiles (R122) -/

/-- R122: the handle under which a group takes a tile. -/
def Engine.newHandle (e : Engine) (gid p : Nat) : Nat :=
  let mine := (e.tilesOf gid).map Tile.t
  if mine.contains p then (freeHandle 16 mine).getD p else p

theorem dropTile_tiles_of_free {e : Engine} {p : Nat} (h : p ∈ e.freeTiles) : (e.dropTile p).tiles = e.tiles := by
  refine List.filter_eq_self.mpr fun t ht => ?_
  exact List.all_eq_true.mp (List.mem_filter.mp h).2 t ht

theorem getKey_filter_of_not {β : Type} (l : List (Nat × β)) {q : Nat → Bool} {k : Nat} (hk : q k = false) (d : β) :
    getKey (l.filter fun x => q x.1) k d = d := by
  have h : (l.filter fun x => q x.1).lookup k = none := by
    refine List.lookup_eq_none_iff.mpr fun x hx => bne_iff_ne.mpr fun e => ?_
    have := (List.mem_filter.mp hx).2
    rw [← e, hk] at this
    cases this
  rw [getKey, h]
  rfl

/-- R122: a tile that is taken afresh holds zeros in every element, and no row flag. -/
theorem elem_putTile_dropTile (e : Engine) (t : Tile) {row col : Nat} (hr : row < 64) (hc : col < 512) :
    ((e.dropTile t.p).putTile t ([], [])).elem t.p row col = 0 := by
  refine getKey_filter_of_not e.acc (q := fun k => k / 32768 != t.p) ?_ 0
  simp only [bne_eq_false_iff_eq]
  omega

theorem rowFlags_putTile_dropTile (e : Engine) (t : Tile) {row : Nat} (hr : row < 64) :
    ((e.dropTile t.p).putTile t ([], [])).rowFlags t.p row = 0 := by
  refine getKey_filter_of_not e.rowf (q := fun k => k / 64 != t.p) ?_ 0
  simp only [bne_eq_false_iff_eq]
  omega

theorem not_freed_of_tile? {e : Engine} {gid h : Nat} {x : Tile} (hx : e.tile? gid h = some x) : x.freed = false := by
  have := List.find?_some hx
  simp only [Bool.and_eq_true, Bool.not_eq_true'] at this
  exact this.2

/-- R122: a tile that is given back leaves the engine, or stays under a handle that is no longer valid. -/
theorem notMem_releaseTile {e : Engine} {x : Tile} (hx : x.freed = false) : x ∉ (e.releaseTile x).tiles := by
  unfold Engine.releaseTile
  dsimp only
  split
  · intro hm
    obtain ⟨y, -, hy⟩ := List.mem_map.mp hm
    by_cases hyx : y = x
    · rw [if_pos hyx] at hy
      rw [← hy] at hx
      cases hx
    · rw [if_neg hyx] at hy
      exact hyx hy
  · exact fun hm => absurd (List.mem_filter.mp hm).2 (by simp)

end Sys2Proof.Machine
end

section
open Sys2Proof Sys2Proof.Machine

/-- Settles O36: each form ends with its answer (`goes_answer`) or quietly (`goes_quiet`); what becomes of ranges and tiles is
`reapRanges_own`, `firstFit_fits`, `freeRange_gone`, `elem_putTile_dropTile` and `notMem_releaseTile`. -/
theorem matrixResources : Obligations.MatrixResources := by
  unfold Obligations.MatrixResources
  intro s r d a f hwin v len tells e old
  have of {t u : State} {h : Nat} (ha : Answered s t r d (word h)) (ht : t = u.setW t.w) (hm : u.mem = s.mem) : tells t h :=
    ⟨ha.holds, ha.only, ha.run, fun p => by rw [ht, State.setW_rd, State.rd, hm, State.rd]⟩
  refine ⟨?reserve, ?record, fun x => mem_of_mem_reapRanges, fun x => gone_of_notMem_reapRanges, ?release, ?take, ?give, ?stat⟩
  case reserve =>
    intro h b hi hlen hf hfree hfit
    obtain ⟨hlim, hdisj⟩ := firstFit_fits hlen hfit
    refine ⟨hlim, fun x hx => hdisj _ (List.mem_map_of_mem hx), ?_⟩
    refine goes_answer (u := s.setG { s.g with ranges := old ++ [Range.default h b len f s.w.region] }) hi rfl rfl ?_ fun t ha ht =>
      ⟨of ha ht rfl, Range.default h b len f s.w.region, by rw [ht]; rfl, rfl, rfl, rfl, rfl, rfl⟩
    refine (inWindow_open hwin r _).trans ?_
    have hcond : (len = 0 || 14 < f.val : Bool) = false := by simp [hlen, Nat.not_lt.mpr hf]
    dsimp only
    simp only [hfree]
    rw [if_neg (by rw [hcond]; exact Bool.false_ne_true), hfit]
  case record =>
    intro h hi hchk hbefore hfree x hok
    refine goes_answer (u := s.setG { s.g with ranges := old ++ [x] }) hi rfl rfl ?_ fun t ha ht => ⟨of ha ht rfl, by rw [ht]; rfl⟩
    refine (inWindow_open hwin r _).trans ?_
    dsimp only
    rw [checked_none hchk, hbefore.ordered]
    simp only [hfree, Option.getD_some]
    exact if_neg (by rw [hok]; decide)
  case release =>
    intro x hi hx
    obtain ⟨keep, -, hreap⟩ := reapRanges_own (s.setG (s.g.freeRange v))
    refine goes_quiet (u := s.setG { s.g.freeRange v with ranges := (s.g.freeRange v).ranges.filter keep }) hi rfl rfl ?_
      fun t hrun ht => ⟨hrun, fun p => by rw [ht]; rfl, fun y hy => ?_, by rw [ht]; rfl, by rw [ht]; rfl⟩
    · refine (inWindow_open hwin r _).trans ?_
      dsimp only
      rw [hx]
      exact congrArg Act.ok hreap
    · rw [ht] at hy
      exact freeRange_gone (List.mem_of_mem_filter hy)
  case take =>
    intro p ps hi hfree
    have hp : p ∈ e.freeTiles := by rw [hfree]; exact List.mem_cons_self
    let x : Tile := ⟨e.newHandle s.g.id p, p, s.g.id, [s.w.region], false, false⟩
    refine goes_answer (u := s.putEngine s.g.clu ((e.dropTile p).putTile x ([], []))) (v := word x.t) hi rfl rfl ?_ fun t ha ht =>
      ⟨x.t, of ha ht rfl, ?_⟩
    · refine (inWindow_open hwin r _).trans ?_
      dsimp only
      rw [hfree]
      rfl
    · have he : t.myEngine = (e.dropTile p).putTile x ([], []) := by
        rw [ht]
        exact State.putEngine_engine s s.g.clu _
      rw [he]
      exact ⟨congrArg (x :: ·) (dropTile_tiles_of_free hp), fun row col hr hc =>
        ⟨elem_putTile_dropTile e x hr hc, rowFlags_putTile_dropTile e x hr⟩⟩
  case give =>
    intro x hi hx
    refine goes_quiet (u := s.mapEngine s.g.clu fun e => e.releaseTile x) hi rfl rfl ?_ fun t hrun ht =>
      ⟨hrun, fun p => by rw [ht]; rfl, ?_⟩
    · refine (inWindow_open hwin r _).trans ?_
      dsimp only
      rw [hx]
    · have he : t.myEngine = e.releaseTile x := by
        rw [ht]
        exact State.mapEngine_engine s s.g.clu fun e => e.releaseTile x
      rw [he]
      exact notMem_releaseTile (not_freed_of_tile? hx)
  case stat =>
    intro hi
    exact goes_answer hi rfl rfl (inWindow_open hwin r _) fun t ha ht => of ha ht rfl
end

section
/-! SUPPORT. A load of a weight slice, whose instruction is 8 bytes long: a word and its EX word (R118, R286). -/
namespace Sys2Proof.Machine
open Sys2Proof.Tests

/-- `mload s1, 0, s5`: rows 512 to 1023 of range 0. -/
def lastSlice : Instr := .mload (.s 1) (.k 0) .none (.s 5)
/-- The state `stM`, whose s5 names the last row from which a slice fits. -/
def stLoad : State := withS stM 5 512

theorem lastSlice_issues : Issues lastSlice stLoad run2 := issues_of_goes rfl wit_MatrixCommands_load.1

/-- The run goes on behind both words of the load. -/
theorem lastSlice_after : ∃ t, exec lastSlice stLoad = .next t ∧ t.w.run = some (run2.behind 8) := ⟨_, rfl, by decide⟩
end Sys2Proof.Machine
end

section
open Sys2Proof Sys2Proof.Machine Sys2Proof.Tests
/-- Refutes O37: the statement has the run go on 4 bytes behind each command, but `mload` has an EX word and is 8 bytes long (R286): in
`stLoad` the run goes on at `run2.pc + 8` (`lastSlice_after`). The statement's `mstream` and `mdrain` have an EX word too. -/
theorem not_matrixCommands : ¬ Obligations.MatrixCommands := by
  unfold Obligations.MatrixCommands
  rintro ⟨h, -⟩
  obtain ⟨-, hrange, hrows, hcheck, hwaits, htable, hgroup⟩ := wit_MatrixCommands_load
  obtain ⟨hload, -⟩ := h stLoad run2 (.s 1) (.k 0) (.k 0) (.s 5) 0 .none wit_MatrixResources.1 ⟨htable, hgroup⟩
  obtain ⟨t, ht, ⟨-, -, -, -, -, -, -, -, -, -, hrun, -⟩, -⟩ := hload rng2 lastSlice_issues hrange hrows hcheck hwaits
  obtain ⟨u, hu, hrun'⟩ := lastSlice_after
  obtain rfl : t = u := Host.Outcome.next.inj (ht.symm.trans hu)
  exact absurd (hrun.symm.trans hrun') (by decide)
end

section
/-! SUPPORT. The matrix engine's own steps: grants, what a command does, and what its end leaves (R123, R125 to R128, R357). -/
namespace Sys2Proof.Machine

/-! ### Grants (R357) -/

/-- R357: the better of the best request so far and one that is younger. -/
def betterGrant (b : Option MatCmd) (c : MatCmd) : Option MatCmd :=
  match b with
  | none => some c
  | some x => if x.prio < c.prio then some c else some x

/-- The better of two is one of them, and of no lower priority than either. -/
theorem betterGrant_cases (b : Option MatCmd) (x : MatCmd) : ∃ y, betterGrant b x = some y ∧ (y = x ∨ b = some y) ∧ x.prio ≤ y.prio
    ∧ ∀ z, b = some z → z.prio ≤ y.prio := by
  cases b with
  | none => exact ⟨x, rfl, .inl rfl, le_rfl, nofun⟩
  | some w =>
    simp only [betterGrant]
    split
    · next h => exact ⟨x, rfl, .inl rfl, le_rfl, fun z hz => by obtain rfl := Option.some.inj hz; exact Nat.le_of_lt h⟩
    · next h => exact ⟨w, rfl, .inr rfl, Nat.not_lt.mp h, fun z hz => by obtain rfl := Option.some.inj hz; exact le_rfl⟩

/-- R357: the best request of a list is one of it, and none has a higher priority. -/
theorem foldl_betterGrant {l : List MatCmd} {b : Option MatCmd} {c : MatCmd} (h : l.foldl betterGrant b = some c) :
    (c ∈ l ∨ b = some c) ∧ (∀ x ∈ l, x.prio ≤ c.prio) ∧ ∀ z, b = some z → z.prio ≤ c.prio := by
  induction l generalizing b with
  | nil => exact ⟨.inr h, fun x hx => absurd hx List.not_mem_nil, fun z hz => by rw [Option.some.inj (hz.symm.trans h)]⟩
  | cons x l ih =>
    obtain ⟨y, hy, hyx, hxy, hby⟩ := betterGrant_cases b x
    rw [List.foldl_cons, hy] at h
    obtain ⟨hc, hl, hle⟩ := ih h
    have hyc := hle y rfl
    refine ⟨?_, fun z hz => ?_, fun z hz => (hby z hz).trans hyc⟩
    · rcases hc with hc | hc
      · exact .inl (List.mem_cons_of_mem _ hc)
      · obtain rfl := Option.some.inj hc
        exact hyx.imp_left fun hyx => by rw [hyx]; exact List.mem_cons_self
    · rcases List.mem_cons.mp hz with rfl | hz
      · exact hxy.trans hyc
      · exact hl z hz

/-- R357: the request that is granted is overdue, or none is and it has the highest priority. -/
theorem chooseGrant_chooses {l : List MatCmd} {c : MatCmd} (h : chooseGrant l = some c) :
    c ∈ l ∧ (33 ≤ c.passed ∨ ∀ x ∈ l, x.passed < 33 ∧ x.prio ≤ c.prio) := by
  unfold chooseGrant at h
  split at h
  · next q hq =>
    obtain rfl := Option.some.inj h
    exact ⟨List.mem_of_find?_eq_some hq, .inl (by simpa using List.find?_some hq)⟩
  · next hn =>
    obtain ⟨hc, hl, -⟩ := foldl_betterGrant (b := none) h
    refine ⟨hc.resolve_right nofun, .inr fun x hx => ⟨?_, hl x hx⟩⟩
    simpa using List.find?_eq_none.mp hn x hx

/-! ### Changes of groups and warps that leave every group where it stands -/

/-- Memory is unchanged, and every group stands where it stood. -/
structure StandsStill (s t : State) : Prop where
  mem : t.mem = s.mem
  stand : ∀ k, (t.group? k).map Group.stand = (s.group? k).map Group.stand

theorem StandsStill.refl (s : State) : StandsStill s s := ⟨rfl, fun _ => rfl⟩
theorem StandsStill.trans {s t u : State} (h : StandsStill s t) (k : StandsStill t u) : StandsStill s u :=
  ⟨k.mem.trans h.mem, fun x => (k.stand x).trans (h.stand x)⟩

theorem StandsStill.here {s t : State} (h : StandsStill s t) {k : Nat} (hk : Here s k) : Here t k := by
  intro g hg
  have hs := h.stand k
  rw [hg] at hs
  obtain ⟨q, hq, hst⟩ := Option.map_eq_some_iff.mp hs.symm
  have hkeep := hk q hq
  unfold Group.isSaved at hkeep ⊢
  rwa [hst] at hkeep

theorem StandsStill.rd {s t : State} (h : StandsStill s t) (a : Nat) : t.rd a = s.rd a := by rw [State.rd, h.mem, State.rd]
theorem StandsStill.inv {s t : State} (h : StandsStill s t) (hi : s.Inv) : t.Inv := by rw [State.Inv, h.mem]; exact hi

theorem StandsStill.barAt {s t : State} (h : StandsStill s t) {gid k : Nat} (hh : Here s gid) (hk : 2 ^ 40 ≤ k) :
    t.barAt gid k = s.barAt gid k := by
  rw [State.barAt_of_here (h.here hh) hk, State.barAt_of_here hh hk, funext h.rd]

theorem StandsStill.engines (s : State) (es : List (Nat × Engine)) : StandsStill s { s with engines := es } := ⟨rfl, fun _ => rfl⟩

theorem StandsStill.mapGroup (s : State) (gid : Nat) {f : Group → Group} (hf : ∀ g, (f g).id = g.id ∧ (f g).stand = g.stand) :
    StandsStill s (s.mapGroup gid f) := by
  refine ⟨?_, fun k => stand_mapGroup s gid k hf⟩
  rw [mapGroup_frame]

theorem stand_setG_setW (s : State) {g : Group} (hg : g.id = s.g.id ∧ g.stand = s.g.stand) (w : Warp) (k : Nat) :
    (((s.setG g).setW w).group? k).map Group.stand = (s.group? k).map Group.stand := by
  obtain ⟨hid, hst⟩ := hg
  simp only [State.group?, State.allGroups, State.unselect, State.setG, State.setW, hid]
  split
  · rfl
  · simp only [List.find?_cons, (putWarp_stand _ _).2, hid]
    split <;> simp [(putWarp_stand _ _).1, hst]

/-- A change of a warp leaves everything but the warps. -/
theorem mapWarp_frame (s : State) (gid wid : Nat) (f : Warp → Warp) : s.mapWarp gid wid f = { s with
    w := (s.mapWarp gid wid f).w, g := (s.mapWarp gid wid f).g, groups := (s.mapWarp gid wid f).groups } := by
  unfold State.mapWarp
  split
  · rfl
  · split <;> rfl

theorem StandsStill.mapWarp (s : State) (gid wid : Nat) (f : Warp → Warp) : StandsStill s (s.mapWarp gid wid f) := by
  refine ⟨(mapWarp_keeps s gid wid f).1, fun k => ?_⟩
  unfold State.mapWarp
  split
  · exact stand_setG_setW s (g := s.g) ⟨rfl, rfl⟩ (f s.w) k
  · split
    · exact stand_setG_setW s (g := { s.g with others := mapIdx s.g.others wid f }) ⟨rfl, rfl⟩ s.w k
    · next hsel hg =>
      have h := stand_mapGroup s gid k (f := fun g => { g with others := mapIdx g.others wid f }) fun _ => ⟨rfl, rfl⟩
      rwa [State.mapGroup, if_neg hg] at h

/-- Of the selected group a change of a warp can reach the other warps alone. -/
theorem mapWarp_g (s : State) (gid wid : Nat) (f : Warp → Warp) : ∃ o, (s.mapWarp gid wid f).g = { s.g with others := o } := by
  unfold State.mapWarp
  split
  · exact ⟨s.g.others, rfl⟩
  · split
    · exact ⟨_, rfl⟩
    · exact ⟨s.g.others, rfl⟩

theorem StandsStill.reapRanges (s : State) (gid : Nat) : StandsStill s (s.reapRanges gid) := by
  rcases reapRanges_cases s gid with h | ⟨busy, h⟩
  · rw [h]
    exact .refl s
  · rw [h]
    exact .mapGroup s gid fun _ => ⟨rfl, rfl⟩

/-- Of the selected group its ranges can leave, and nothing else changes but other groups. -/
theorem reapRanges_frame (s : State) (gid : Nat) : ∃ rs gs, s.reapRanges gid = { s with g := { s.g with ranges := rs }, groups := gs } := by
  rcases reapRanges_cases s gid with h | ⟨busy, h⟩
  · exact ⟨s.g.ranges, s.groups, h⟩
  · rw [h]
    unfold State.mapGroup
    split
    · exact ⟨_, s.groups, rfl⟩
    · exact ⟨s.g.ranges, _, rfl⟩

end Sys2Proof.Machine
end

section
/-! SUPPORT. The rows that a pass reads and the elements that it leaves (R89, R112, R117, R118, R123). -/
namespace Sys2Proof.Machine

/-! ### Rows by their bushels (R89, R112) -/

/-- Places one after another, in pieces of one length. -/
theorem flatMap_places (a d n : Nat) : (List.range n).flatMap (fun b => places (a + b * d) d) = places a (n * d) := by
  induction n with
  | zero => simp [places]
  | succ n ih =>
    rw [List.range_succ, List.flatMap_append, ih, List.flatMap_singleton, Nat.succ_mul, places, places, places, List.range_add,
      List.map_append, List.map_map]
    congr 1
    exact List.map_congr_left fun k _ => Nat.add_assoc _ _ _

theorem rowNow_nil (s : State) (clu : Nat) (r : Range) (u i : Nat) :
    s.rowNow clu r [] u i = (List.range (bushels r.fmt)).map fun b => (64 * u + b, s.bushel clu r i b) := rfl

theorem rowNow_length (s : State) (clu : Nat) (r : Range) (taken : List (Nat × Bushel)) (u i : Nat) :
    (s.rowNow clu r taken u i).length = bushels r.fmt := by simp [State.rowNow]

/-- R89, R117: a row that is read bushel by bushel is the row as it stands in the range. -/
theorem bushelRow_rowNow (s : State) (clu mode : Nat) (r : Range) (u i : Nat) :
    bushelRow mode r (s.rowNow clu r [] u i) = s.rowOf clu mode r i := by
  have hpieces (a d : Nat) : ((List.range (bushels r.fmt)).flatMap fun b => (places (obKey clu (a + b * d)) d).map s.rd)
      = (places (obKey clu a) (bushels r.fmt * d)).map s.rd := by
    rw [← flatMap_places (obKey clu a) d, List.map_flatMap]
    simp only [obKey, Nat.add_assoc]
  have hdata := hpieces (r.base + i * r.rowb) (fmtData r.fmt (planar r))
  have hscale := hpieces (r.base + r.soff + i * r.srowb) (fmtScale r.fmt (planar r))
  rw [rowNow_nil, bushelRow, List.flatMap_map, List.flatMap_map]
  exact congrArg (rowChunks mode r.fmt) (congrArg₂ (rowVals r.fmt (planar r)) hdata hscale)

/-- One of several lists of one length that stand behind one another. -/
theorem flatMap_range_slice {α : Type} {f : Nat → List α} {len : Nat} (hf : ∀ j, (f j).length = len) {n j : Nat} (hj : j < n) :
    (((List.range n).flatMap f).drop (len * j)).take len = f j := by
  have hlen (n : Nat) : ((List.range n).flatMap f).length = len * n := by
    rw [List.length_flatMap, List.map_congr_left (g := fun _ => len) fun j _ => hf j]
    simp [Nat.mul_comm]
  induction n with
  | zero => exact absurd hj (Nat.not_lt_zero j)
  | succ n ih =>
    rw [List.range_succ, List.flatMap_append, List.flatMap_singleton]
    by_cases hjn : j = n
    · subst hjn
      rw [List.drop_left' (hlen j), List.take_of_length_le (hf j).le]
    · have hle : len * j + len ≤ len * n := by
        rw [← Nat.mul_succ]
        exact Nat.mul_le_mul_left len (by omega)
      rw [List.drop_append_of_le_length (by rw [hlen]; omega), List.take_append_of_le_length (by rw [List.length_drop, hlen]; omega)]
      exact ih (by omega)

/-- R118: where the engine holds no load for a plane, its rows are those of the range. -/
theorem weightRow_of_unloaded {s : State} {clu : Nat} {pl : Plane} (h : (s.engine clu).plane? pl.load = none) (y : Range) {j : Nat}
    (hj : j < 512) : s.weightRow clu pl y j = s.rowOf clu (s.engine clu).mode y (pl.row0 + j) := by
  have hw : s.weights clu pl y = s.sliceNow clu y pl.row0 [] := by simp only [State.weights, h]
  rw [State.weightRow, hw, State.sliceNow, flatMap_range_slice (fun j => rowNow_length s clu y [] j (pl.row0 + j)) hj,
    bushelRow_rowNow]

/-! ### The elements of a pass (R123) -/

theorem lookup_of_unique {β : Type} {l : List (Nat × β)} {k : Nat} {v : β} (hm : (k, v) ∈ l) (hu : ∀ w, (k, w) ∈ l → w = v) :
    l.lookup k = some v := by
  cases h : l.lookup k with
  | none => exact absurd (List.lookup_eq_none_iff.mp h _ hm) (by simp)
  | some w =>
    obtain ⟨l₁, l₂, he, -⟩ := List.lookup_eq_some_iff.mp h
    rw [hu w (by rw [he]; simp)]

/-- R123: the new elements of a row, by their keys. -/
theorem passRow_elems (e : Engine) (p row : Nat) (a : List (List FVal)) (w : Nat → List (List FVal)) :
    (e.passRow p row a ((List.range 512).map w)).1 = (List.range 512).map fun j =>
      ((64 * p + row) * 512 + j, (chunksInto a (w j) (e.elem p row j) {}).1) := by
  have hz : ((List.range 512).map w).zip (List.range 512) = (List.range 512).map fun j => (w j, j) := by
    rw [List.zip_map_left, ← List.map_id (List.range 512), List.zip_map']
    simp
  simp only [Engine.passRow, hz, List.map_map]
  rfl

/-- R123: an element of a row that a pass has streamed. -/
theorem elem_putRows (e e' : Engine) (p : Nat) (m : LaneMask) (a : Nat → List (List FVal)) (w : Nat → List (List FVal)) {i j : Nat}
    (hi : has m i = true) (hj : j < 512) :
    (e'.putRows p ((lanesOf m).map fun i => (i, e.passRow p i (a i) ((List.range 512).map w)))).elem p i j
      = (chunksInto (a i) (w j) (e.elem p i j) {}).1 := by
  have hmem (k : Nat) (v : Word) : (k, v) ∈ ((lanesOf m).map fun i => (i, e.passRow p i (a i) ((List.range 512).map w))).flatMap
        (fun x => x.2.1) ↔ ∃ r c, has m r = true ∧ c < 512 ∧ k = (64 * p + r) * 512 + c
          ∧ v = (chunksInto (a r) (w c) (e.elem p r c) {}).1 := by
    simp only [List.flatMap_map, List.mem_flatMap, passRow_elems, List.mem_map, List.mem_range, mem_lanesOf, Prod.mk.injEq]
    constructor
    · rintro ⟨r, hr, c, hc, hk, hv⟩
      exact ⟨r, c, hr, hc, hk.symm, hv.symm⟩
    · rintro ⟨r, c, hr, hc, hk, hv⟩
      exact ⟨r, hr, c, hc, hk.symm, hv.symm⟩
  have hl := lookup_of_unique ((hmem ((64 * p + i) * 512 + j) _).mpr ⟨i, j, hi, hj, rfl, rfl⟩) fun v hv => by
    obtain ⟨r, c, hr, hc, hk, rfl⟩ := (hmem _ _).mp hv
    obtain rfl : c = j := by omega
    obtain rfl : r = i := by omega
    rfl
  simp only [Engine.elem, Engine.putRows, getKey, List.lookup_append, hl]
  rfl

/-- R118: planes that are loaded again change nothing but the planes. -/
theorem freshen_frame (s : State) (clu : Nat) (pl : Plane) :
    ∃ es ps, s.freshen clu pl = { s with engines := es } ∧ (s.freshen clu pl).engine clu = { s.engine clu with planes := ps } := by
  unfold State.freshen
  split
  · exact ⟨_, _, rfl, rfl⟩
  · split
    · exact ⟨_, _, rfl, State.mapEngine_engine ..⟩
    · exact ⟨_, _, rfl, rfl⟩

/-- R123: what a pass leaves in its rows. -/
theorem elem_runPass (s : State) (clu p : Nat) (c : MatCmd) (x : Range) (rb : Nat) (pl : Plane) (y : Range) {i j : Nat}
    (hi : has c.lanes i = true) (hj : j < 512) :
    ((s.runPass clu p c x rb pl y).engine clu).elem p i j = (chunksInto ((s.freshen clu pl).streamRow clu c x rb i)
      ((s.freshen clu pl).weightRow clu pl y j) ((s.engine clu).elem p i j) {}).1 := by
  obtain ⟨es, ps, -, he⟩ := freshen_frame s clu pl
  have hel : ((s.freshen clu pl).engine clu).elem p i j = (s.engine clu).elem p i j := by rw [he]; rfl
  rw [← hel, State.runPass, State.putEngine_engine]
  exact elem_putRows _ _ p c.lanes ((s.freshen clu pl).streamRow clu c x rb) ((s.freshen clu pl).weightRow clu pl y) hi hj

/-- A pass changes no tile. -/
theorem tiles_runPass (s : State) (clu p : Nat) (c : MatCmd) (x : Range) (rb : Nat) (pl : Plane) (y : Range) :
    ((s.runPass clu p c x rb pl y).engine clu).tiles = (s.engine clu).tiles := by
  obtain ⟨es, ps, -, he⟩ := freshen_frame s clu pl
  rw [State.runPass, State.putEngine_engine, Engine.putRows, he]
  rfl

end Sys2Proof.Machine
end

section
/-! SUPPORT. The end of a matrix command: its effect, its barrier and counter, and the table without it (R125 to R128). -/
namespace Sys2Proof.Machine

/-! ### The effect of a command (R122, R123, R126) -/

/-- R118: the descriptors of a load are no longer busy. -/
def Group.loadEnds (id : Nat) (g : Group) : Group :=
  { g with active := if g.active.load = id then { g.active with busy := false } else g.active
           shadow := if g.shadow.load = id then { g.shadow with busy := false } else g.shadow }

section
variable {s : State} {clu : Nat} {c : MatCmd}

theorem perform_load {x : Range} {r0 : Nat} (h : c.kind = .load x r0) :
    s.perform clu c = (s.fillPlane clu c x r0).mapGroup c.gid (Group.loadEnds c.id) := by
  simp only [State.perform, h]
  rfl

theorem perform_stream {tl rb : Nat} {x y : Range} {pl : Plane} {z : Tile} (h : c.kind = .stream tl x rb pl y)
    (hz : (s.engine clu).tileOf c = some z) : s.perform clu c = s.runPass clu z.p c x rb pl y := by
  simp only [State.perform, h, hz]

theorem perform_zero {tl : Nat} {z : Tile} (h : c.kind = .zero tl) (hz : (s.engine clu).tileOf c = some z) :
    s.perform clu c = s.putEngine clu (((s.engine clu).dropTile z.p).putTile { z with bad := false } ([], [])) := by
  simp only [State.perform, h, hz]

theorem perform_drain {tl reg col n : Nat} {z : Tile} (h : c.kind = .drain tl reg col n) (hz : (s.engine clu).tileOf c = some z) :
    s.perform clu c = s.mapWarp c.gid c.wid fun w =>
      (List.range n).foldl (fun v j => v.land c.cap (Opd.ofBits reg) j c.lanes fun i => (s.engine clu).elem z.p i (col + j)) w := by
  simp only [State.perform, h, hz]

end

/-- A command changes its engine, what its group's planes say of their loads, or registers of its warp. -/
theorem perform_cases (s : State) (clu : Nat) (c : MatCmd) : (∃ es, s.perform clu c = { s with engines := es })
    ∨ (∃ es f, (∀ g, (f g).id = g.id ∧ (f g).stand = g.stand) ∧ s.perform clu c = State.mapGroup { s with engines := es } c.gid f)
    ∨ ∃ f, s.perform clu c = s.mapWarp c.gid c.wid f := by
  unfold State.perform
  dsimp only
  split
  · exact .inr (.inl ⟨_, Group.loadEnds c.id, fun _ => ⟨rfl, rfl⟩, rfl⟩)
  · next x rb pl y z _ _ =>
    obtain ⟨es, ps, h, -⟩ := freshen_frame s clu pl
    refine .inl ?_
    rw [State.runPass, h]
    exact ⟨_, rfl⟩
  · exact .inl ⟨_, rfl⟩
  · exact .inr (.inr ⟨_, rfl⟩)
  · exact .inl ⟨s.engines, rfl⟩

/-- A command leaves memory, and every group where it stands. -/
theorem perform_still (s : State) (clu : Nat) (c : MatCmd) : StandsStill s (s.perform clu c) := by
  rcases perform_cases s clu c with ⟨es, h⟩ | ⟨es, f, hf, h⟩ | ⟨f, h⟩
  · rw [h]
    exact .engines s es
  · rw [h]
    exact (StandsStill.engines s es).trans (.mapGroup _ _ hf)
  · rw [h]
    exact .mapWarp ..

/-- A command leaves everything but engines, groups and warps. -/
theorem perform_frame (s : State) (clu : Nat) (c : MatCmd) :
    ∃ es g gs w, s.perform clu c = { s with engines := es, g := g, groups := gs, w := w } := by
  rcases perform_cases s clu c with ⟨es, h⟩ | ⟨es, f, -, h⟩ | ⟨f, h⟩
  · exact ⟨es, s.g, s.groups, s.w, h⟩
  · rw [h, mapGroup_frame]
    exact ⟨_, _, _, _, rfl⟩
  · rw [h, mapWarp_frame]
    exact ⟨_, _, _, _, rfl⟩

/-! ### The table without the command (R127) -/

/-- The engine without a command, and without the tiles that only it kept. -/
def Engine.dropCmd (e : Engine) (c : MatCmd) : Engine :=
  let e1 := { e with cmds := e.cmds.filter fun q => q.id != c.id }
  (e1.tiles.filter fun x => x.freed && x.gid == c.gid).foldl Engine.releaseTile e1

theorem releaseTile_keeps (e : Engine) (t : Tile) : (e.releaseTile t).cmds = e.cmds ∧ (e.releaseTile t).planes = e.planes := by
  unfold Engine.releaseTile
  dsimp only
  split <;> exact ⟨rfl, rfl⟩

theorem dropCmd_keeps (e : Engine) (c : MatCmd) :
    (e.dropCmd c).cmds = (e.cmds.filter fun q => q.id != c.id) ∧ (e.dropCmd c).planes = e.planes :=
  foldl_keeps (fun u : Engine => u.cmds = (e.cmds.filter fun q => q.id != c.id) ∧ u.planes = e.planes) Engine.releaseTile
    (fun u t ⟨hc, hp⟩ => ⟨(releaseTile_keeps u t).1.trans hc, (releaseTile_keeps u t).2.trans hp⟩) _ ⟨rfl, rfl⟩

/-- Where no tile waits for its last command, none leaves. -/
theorem dropCmd_of_held {e : Engine} (h : ∀ z ∈ e.tiles, z.freed = false) (c : MatCmd) :
    e.dropCmd c = { e with cmds := e.cmds.filter fun q => q.id != c.id } := by
  have hf : (e.tiles.filter fun x => x.freed && x.gid == c.gid) = [] := List.filter_eq_nil_iff.mpr fun z hz => by simp [h z hz]
  simp only [Engine.dropCmd, hf]
  rfl

/-- R120: a plane that the selected group's shadow descriptor names can be loaded again. -/
theorem named_of_shadow {s : State} {d : PlaneData} (hg : d.gid = s.g.id) (h0 : s.g.id ≠ 0) (hl : s.g.shadow.load = d.load) :
    s.named d = true := by
  have hself : s.group? s.g.id = some (s.g.putWarp s.w) := by
    simp [State.group?, State.allGroups, State.unselect, h0, (putWarp_stand s.g s.w).2]
  have hshadow : (s.g.putWarp s.w).shadow = s.g.shadow := by
    unfold Group.putWarp
    split <;> rfl
  simp [State.named, hg, hself, hshadow, hl]

/-- R127: a command has left the table of its engine. -/
structure Leaves (s t : State) (clu : Nat) (c : MatCmd) : Prop where
  still : StandsStill s t
  cmds : ∀ q ∈ (t.engine clu).cmds, q.id ≠ c.id
  acc : (∀ z ∈ (s.engine clu).tiles, z.freed = false) → (t.engine clu).acc = (s.engine clu).acc
  planes : ∀ d ∈ (s.engine clu).planes, d.gid = s.g.id → s.g.id ≠ 0 → s.g.shadow.load = d.load → d ∈ (t.engine clu).planes
  group : ∃ o rs, t.g = { s.g with others := o, ranges := rs }
  regs : ∀ k l, t.w.getV k l = s.w.getV k l

/-- The state before planes that nothing names any more leave. -/
def State.unlisted (s : State) (clu : Nat) (c : MatCmd) : State :=
  ((s.mapEngine clu fun e => e.dropCmd c).mapWarp c.gid c.wid fun w => w.endFlag c.flag (lanesOf c.lanes)).reapRanges c.gid

theorem retireCmd_eq (s : State) (clu : Nat) (c : MatCmd) : s.retireCmd clu c = (s.unlisted clu c).reapPlanes clu := rfl

theorem unlisted_frame (s : State) (clu : Nat) (c : MatCmd) : StandsStill s (s.unlisted clu c)
    ∧ (s.unlisted clu c).engine clu = (s.engine clu).dropCmd c
    ∧ (∃ o rs, (s.unlisted clu c).g = { s.g with others := o, ranges := rs })
    ∧ ∀ k l, (s.unlisted clu c).w.getV k l = s.w.getV k l := by
  let u := s.mapEngine clu fun e => e.dropCmd c
  let v := u.mapWarp c.gid c.wid fun w => w.endFlag c.flag (lanesOf c.lanes)
  obtain ⟨rs, gs, hr⟩ := reapRanges_frame v c.gid
  obtain ⟨o, ho⟩ := mapWarp_g u c.gid c.wid fun w => w.endFlag c.flag (lanesOf c.lanes)
  have hv : v.engines = u.engines := by rw [show v = _ from mapWarp_frame ..]
  have hst : StandsStill s v := (StandsStill.engines s u.engines).trans (.mapWarp ..)
  rw [show s.unlisted clu c = _ from hr]
  refine ⟨hr ▸ hst.trans (.reapRanges v c.gid), ?_, ⟨o, rs, ?_⟩, fun k l => ?_⟩
  · exact (congrArg (fun es => getKey es clu Engine.empty) hv).trans (State.mapEngine_engine s clu _)
  · show { v.g with ranges := rs } = _
    rw [show v.g = _ from ho]
    rfl
  · show (u.mapWarp c.gid c.wid _).w.getV k l = _
    unfold State.mapWarp
    split
    · exact Warp.getV_endFlag ..
    · split <;> rfl

theorem retireCmd_leaves (s : State) (clu : Nat) (c : MatCmd) : Leaves s (s.retireCmd clu c) clu c := by
  obtain ⟨hstill, hengine, ⟨o, rs, hg⟩, hregs⟩ := unlisted_frame s clu c
  rw [retireCmd_eq]
  refine ⟨hstill.trans (.engines _ _), fun q hq => ?_, fun h => ?_, fun d hd hdg h0 hl => ?_, ⟨o, rs, hg⟩, hregs⟩
  all_goals rw [State.reapPlanes, State.mapEngine_engine] at *
  · have hq : q ∈ ((s.unlisted clu c).engine clu).cmds := hq
    rw [hengine, (dropCmd_keeps _ c).1] at hq
    simpa using (List.mem_filter.mp hq).2
  · show ((s.unlisted clu c).engine clu).acc = _
    rw [hengine, dropCmd_of_held h]
  · refine List.mem_filter.mpr ⟨by rw [hengine, (dropCmd_keeps _ c).2]; exact hd, ?_⟩
    have hn := named_of_shadow (s := s.unlisted clu c) (d := d) (by rw [hg]; exact hdg) (by rw [hg]; exact h0) (by rw [hg]; exact hl)
    simp only [hn, Bool.true_or]

theorem noteEnded_leaves {s t : State} {clu : Nat} {c : MatCmd} (h : Leaves s t clu c) : Leaves s (t.noteEnded c) clu c := by
  have hf : ∃ l, t.noteEnded c = { t with ended := l } := by
    unfold State.noteEnded
    split <;> exact ⟨_, rfl⟩
  obtain ⟨l, hl⟩ := hf
  rw [hl]
  exact ⟨h.still.trans ⟨rfl, fun _ => rfl⟩, h.cmds, h.acc, h.planes, h.group, h.regs⟩

/-! ### Completion (R49, R127) -/

/-- R127: the counter that a command names is decremented. -/
def State.countDown (s : State) (clu : Nat) (c : MatCmd) : Option State :=
  match c.ctr with
  | none => some s
  | some a => decrementAt (clu / 4) c.part c.vf a false (.cmd c.id) s

/-- R127: a command completes: its effect, what its joins see, its credit, its counter, and its leaving. -/
theorem completeCmd_eq (s : State) (clu : Nat) (c : MatCmd) : ∃ p, s.completeCmd clu c =
    (({ s.perform clu c with pend := p }.credit c.gid (clu / 4) c.core c.bar c.bytes).countDown clu c).map fun x : State =>
      (x.retireCmd clu c).noteEnded c := by
  cases hb : c.bar with
  | none =>
    cases hf : c.flag with
    | none => exact ⟨_, by simp only [State.completeCmd, hb, hf]; rfl⟩
    | some f => exact ⟨_, by simp only [State.completeCmd, hb, hf]; rfl⟩
  | some b =>
    cases hf : c.flag with
    | none => exact ⟨_, by simp only [State.completeCmd, hb, hf]; rfl⟩
    | some f => exact ⟨_, by simp only [State.completeCmd, hb, hf]; rfl⟩

end Sys2Proof.Machine
end

section
/-! SUPPORT. What the steps of an engine come to: a command that completes, one that fails, and what each joins (R49 to R51, R127, R128, R135). -/
namespace Sys2Proof.Machine

/-! ### Completion (R127) -/

theorem cmd?_id {s : State} {clu id : Nat} {c : MatCmd} (h : s.cmd? clu id = some c) : c.id = id := by
  simpa using List.find?_some h

/-- R127: a command that is ready and need not fail completes. -/
theorem exec_retire_completes {s : State} {clu id : Nat} {c : MatCmd} (hc : s.cmd? clu id = some c) (hr : (s.engine clu).ready c = true)
    (hm : (s.engine clu).mustFail c = false) (hb : s.anyBad (s.cmdPlaces clu c) = false) :
    exec (.matrixCommandRetire clu id) s = .next ((s.completeCmd clu c).getD s) := by
  show execMatrixCommandRetire clu id s = _
  simp [execMatrixCommandRetire, hc, hr, hm, hb]

/-- R128, R371: one that must fail, or that would read what cannot be corrected, fails. -/
theorem exec_retire_fails {s : State} {clu id : Nat} {c : MatCmd} (hc : s.cmd? clu id = some c) (hr : (s.engine clu).ready c = true)
    (h : (s.engine clu).mustFail c = true ∨ s.anyBad (s.cmdPlaces clu c) = true) :
    exec (.matrixCommandRetire clu id) s = .next (s.failCmd clu c 1) := by
  show execMatrixCommandRetire clu id s = _
  simp [execMatrixCommandRetire, hc, hr, h]

/-- R128: an error of the array. -/
theorem exec_fail_pass {s : State} {clu id : Nat} {c : MatCmd} (hc : s.cmd? clu id = some c) (hr : (s.engine clu).ready c = true)
    (hp : c.isPass = true) : exec (.matrixCommandFail clu id 9 false) s = .next ((s.trip clu).failCmd clu c 9) := by
  show execMatrixCommandFail clu id 9 false s = _
  simp [execMatrixCommandFail, hc, hr, hp]

/-- A credit changes bytes of memory and their codewords alone. -/
theorem credit_frame (s : State) (gid chip core : Nat) (b : Option BarRef) (n : Nat) :
    ∃ m e, s.credit gid chip core b n = { s with mem := m, ecc := e } := by
  cases b with
  | none => exact ⟨s.mem, s.ecc, rfl⟩
  | some b => exact ⟨_, _, rfl⟩

/-- R127: a command without a counter completes: behind its effect, what its joins see and its credit, it leaves. -/
theorem completeCmd_leaves (s : State) (clu : Nat) {c : MatCmd} (hctr : c.ctr = none) : ∃ p t, s.completeCmd clu c = some t
    ∧ Leaves ({ s.perform clu c with pend := p }.credit c.gid (clu / 4) c.core c.bar c.bytes) t clu c := by
  obtain ⟨p, hp⟩ := completeCmd_eq s clu c
  refine ⟨p, _, hp.trans ?_, noteEnded_leaves (retireCmd_leaves _ clu c)⟩
  simp only [State.countDown, hctr, Option.map_some]

/-- R49, R127: the barrier of a command that completes takes its credit. -/
theorem barAt_credited {s t : State} {clu : Nat} {c : MatCmd} {p : List MemOp} {b : BarRef} (hb : c.bar = some b) (hi : s.Inv)
    (hh : Here s c.gid) (h : Leaves ({ s.perform clu c with pend := p }.credit c.gid (clu / 4) c.core c.bar c.bytes) t clu c) :
    t.barAt c.gid (b.key (clu / 4) c.core) = (s.barAt c.gid (b.key (clu / 4) c.core)).update (.arr c.bytes) := by
  have hv : StandsStill s { s.perform clu c with pend := p } := (perform_still s clu c).trans ⟨rfl, fun _ => rfl⟩
  have hvh := hv.here hh
  rw [hb] at h
  rw [← hv.barAt hh (BarRef.key_le _ _ b)]
  exact State.barAt_barUpd (hv.inv hi) hvh (h.still.here (here_barUpd hvh hvh _ _)) (BarRef.key_le _ _ b) trivial h.still.rd

/-! ### Counters (R135) -/

theorem rdN_wrN {s : State} (hi : s.Inv) (a n v : Nat) : (s.wrN a n v).rdN a n = v % 2 ^ (8 * n) := readLE_writeBytes hi a n v

theorem rd_wrN_ne {s : State} (hi : s.Inv) {a n p : Nat} (v : Nat) (hp : p ∉ places a n) : (s.wrN a n v).rd p = s.rd p := by
  rw [State.wrN, State.rd_wrs, readByte_writeBytes_notMem hi, State.rd]
  rwa [List.map_fst_zip (by rw [places_length, leBytes_length])]

/-- R135: a counter above 1 counts down and fires nothing. -/
theorem counterDec_above {s : State} (hi : s.Inv) (chip p v : Nat) {k : Nat} (h1 : 1 < s.rdN k 4) (h2 : s.rdN k 4 ≤ 2 ^ 31 - 1) :
    counterDec chip p v k false s = some (s.wrN k 4 (s.rdN k 4 - 1)) := by
  have hne : s.rdN k 4 ≠ 2 ^ 31 := by omega
  have hdec : (s.rdN k 4 + 2 ^ 32 - 1) % 2 ^ 32 = s.rdN k 4 - 1 := by omega
  have hnew : (s.wrN k 4 (s.rdN k 4 - 1)).rdN k 4 = s.rdN k 4 - 1 := by
    rw [rdN_wrN hi]
    exact Nat.mod_eq_of_lt (by omega)
  have hquiet : (decide (s.rdN k 4 - 1 = 0) || decide (2 ^ 31 ≤ s.rdN k 4 - 1)) = false := by simp; omega
  rw [counterDec, if_neg hne, hdec, if_neg Bool.false_ne_true, counterCheck]
  simp only [hnew, hquiet, Bool.and_false, Bool.false_eq_true, if_false]

theorem objAt_congr {s t : State} (h : SameMaps s t) (chip p v : Nat) (a : Dword) (n : Nat) : t.objAt chip p v a n = s.objAt chip p v a n := by
  simp only [State.objAt, State.objMem, probe_congr h, dwsSize_congr h]

/-- R127: the counter of a command, whose joins have seen it, is decremented by 1. -/
theorem decrementAt_above {s : State} (hi : s.Inv) {chip p v k : Nat} {a : Dword} (q : Party) (ha : s.objAt chip p v a 16 = .ok k)
    (hr : s.objRoom chip p v a 16 = true) (h1 : 1 < s.rdN k 4) (h2 : s.rdN k 4 ≤ 2 ^ 31 - 1) :
    ∃ t, decrementAt chip p v a false q s = some t ∧ t.mem = (s.wrN k 4 (s.rdN k 4 - 1)).mem := by
  let y := (s.pass q (.place k)).meterObj chip p v a 16
  have hm : y.mem = s.mem := by
    show ((s.pass q (.place k)).meterObj chip p v a 16).mem = _
    unfold State.meterObj
    split <;> rfl
  have hk : y.rdN k 4 = s.rdN k 4 := by rw [State.rdN, hm, State.rdN]
  have hdec := counterDec_above (s := y) (by rw [State.Inv, hm]; exact hi) chip p v (by rwa [hk]) (by rwa [hk])
  refine ⟨_, by simpa only [decrementAt, ha, hr, if_true] using hdec, ?_⟩
  rw [hk]
  exact congrArg (fun m => writeBytes m _) hm

/-- R127, R135: a command whose counter is above 1 completes, and the counter counts down. -/
theorem completeCmd_counts {s : State} (hi : s.Inv) {clu k : Nat} {c : MatCmd} {a : Dword} (hctr : c.ctr = some a) (hbar : c.bar = none)
    (ha : s.objAt (clu / 4) c.part c.vf a 16 = .ok k) (hr : s.objRoom (clu / 4) c.part c.vf a 16 = true) (h1 : 1 < s.rdN k 4)
    (h2 : s.rdN k 4 ≤ 2 ^ 31 - 1) : ∃ u t, s.completeCmd clu c = some t ∧ Leaves u t clu c
      ∧ u.mem = (s.wrN k 4 (s.rdN k 4 - 1)).mem := by
  obtain ⟨p, hp⟩ := completeCmd_eq s clu c
  obtain ⟨es, g, gs, w, hf⟩ := perform_frame s clu c
  obtain ⟨u, hu, hum⟩ := decrementAt_above (s := { s.perform clu c with pend := p }) (chip := clu / 4) (p := c.part) (v := c.vf) (a := a)
    (k := k) (by rw [hf]; exact hi) (.cmd c.id)
    ((objAt_congr (s := s) (by rw [hf]; exact ⟨rfl, rfl, rfl, rfl, rfl, rfl, rfl⟩) _ _ _ _ _).trans ha)
    (by rw [hf]; exact hr) (by rw [hf]; exact h1) (by rw [hf]; exact h2)
  refine ⟨u, (u.retireCmd clu c).noteEnded c, hp.trans ?_, noteEnded_leaves (retireCmd_leaves u clu c), hum.trans (by rw [hf]; rfl)⟩
  rw [hbar, State.credit, State.countDown, hctr]
  exact congrArg (Option.map fun x : State => (x.retireCmd clu c).noteEnded c) hu

/-! ### Failure (R50, R51, R128) -/

/-- R51: what a failure without a barrier is kept under: the tile's handle, or 16 + the range's for a load. -/
def MatCmd.failTag (c : MatCmd) : Nat := match c.kind with | .load x _ => 16 + x.h | _ => c.tile.getD 0

/-- R51: a failure is kept for its tag. -/
def Group.keepFail (x : CmdFail) (g : Group) : Group := { g with fails := g.fails ++ [x] }

/-- R50, R51: the code of a failed command is reported. -/
def State.noteFail (s : State) (clu : Nat) (c : MatCmd) (code : Nat) : State :=
  match c.bar with
  | some b => s.barUpd c.gid (b.key (clu / 4) c.core) (.fail code c.num.toNat)
  | none => s.mapGroup c.gid (Group.keepFail ⟨c.failTag, code, 0, c.num, true, c.wid⟩)

/-- R128: the descriptor of a load that has failed. -/
def Plane.failLoad (id : Nat) (p : Plane) : Plane := if p.load = id then { p with busy := false, st := 2 } else p

/-- R128: the load of a group's descriptors has failed. -/
def Group.loadFails (id : Nat) (g : Group) : Group := { g with active := g.active.failLoad id, shadow := g.shadow.failLoad id }

/-- R128: what a drain that has failed leaves in its warp's registers. -/
def State.drainFails (s : State) (c : MatCmd) (reg n : Nat) (w : Warp) : Warp :=
  (List.range n).foldl (fun w j => w.land c.cap (Opd.ofBits reg) j c.lanes fun i => Config.freeWord (s.free + 64 * j + i)) w

/-- R128: what a failed command spoils: its descriptor and the passes that were issued on it, or the registers of a drain. -/
def State.spoil (s : State) (clu : Nat) (c : MatCmd) : State :=
  match c.kind with
  | .load _ _ =>
    (s.mapGroup c.gid (Group.loadFails c.id)).mapEngine clu fun e =>
      { e with cmds := e.cmds.map fun (q : MatCmd) =>
          match q.kind with
          | .stream a b rb pl y => if q.gid == c.gid then { q with kind := .stream a b rb (pl.failLoad c.id) y } else q
          | _ => q }
  | .drain _ reg _ n => (s.mapWarp c.gid c.wid (s.drainFails c reg n)).spend (64 * 32)
  | _ => s

theorem failCmd_eq (s : State) (clu : Nat) (c : MatCmd) (code : Nat) :
    s.failCmd clu c code = ((s.noteFail clu c code).spoil clu c).retireCmd clu c := by
  cases hk : c.kind <;> cases hb : c.bar <;> simp only [State.failCmd, State.noteFail, State.spoil, MatCmd.failTag, hk, hb] <;> rfl

theorem spoil_keeps (s : State) (clu : Nat) (c : MatCmd) : StandsStill s (s.spoil clu c) ∧ (s.spoil clu c).g.fails = s.g.fails := by
  unfold State.spoil
  split
  · refine ⟨(StandsStill.mapGroup s c.gid (f := Group.loadFails c.id) fun _ => ⟨rfl, rfl⟩).trans ⟨rfl, fun _ => rfl⟩, ?_⟩
    show (s.mapGroup c.gid (Group.loadFails c.id)).g.fails = _
    unfold State.mapGroup
    split <;> rfl
  · next reg _ n _ =>
    obtain ⟨o, ho⟩ := mapWarp_g s c.gid c.wid (s.drainFails c reg n)
    exact ⟨(StandsStill.mapWarp s c.gid c.wid (s.drainFails c reg n)).trans ⟨rfl, fun _ => rfl⟩, (congrArg Group.fails ho :)⟩
  · exact ⟨.refl s, rfl⟩

/-- R50, R51, R128: what a command that fails tells, and to whom. -/
theorem failCmd_tells (s : State) (clu : Nat) (c : MatCmd) {code : Nat} (hcode : code < 256) : let t := s.failCmd clu c code
    (∀ q ∈ (t.engine clu).cmds, q.id ≠ c.id)
    ∧ (c.bar = none → (∀ p, t.rd p = s.rd p) ∧ (c.gid = s.g.id →
        t.g.fails = s.g.fails ++ [⟨c.failTag, code, 0, c.num, true, c.wid⟩]))
    ∧ ∀ b, c.bar = some b → s.Inv → Here s c.gid → let k := b.key (clu / 4) c.core
      t.barAt c.gid k = (s.barAt c.gid k).update (.fail code c.num.toNat) := by
  intro t
  have ht : t = ((s.noteFail clu c code).spoil clu c).retireCmd clu c := failCmd_eq s clu c code
  have hl := retireCmd_leaves ((s.noteFail clu c code).spoil clu c) clu c
  obtain ⟨hspoil, hfails⟩ := spoil_keeps (s.noteFail clu c code) clu c
  have hstill := hspoil.trans hl.still
  rw [ht]
  refine ⟨hl.cmds, fun hb => ?_, fun b hb hi hh => ?_⟩
  · have hn : s.noteFail clu c code = s.mapGroup c.gid (Group.keepFail ⟨c.failTag, code, 0, c.num, true, c.wid⟩) := by
      simp only [State.noteFail, hb]
    refine ⟨fun p => ?_, fun hg => ?_⟩
    · rw [hstill.rd, hn]
      exact (StandsStill.mapGroup s c.gid (f := Group.keepFail ⟨c.failTag, code, 0, c.num, true, c.wid⟩) fun _ => ⟨rfl, rfl⟩).rd p
    · obtain ⟨o, rs, hgroup⟩ := hl.group
      rw [hgroup]
      refine hfails.trans ?_
      rw [hn, hg, mapGroup_own]
      rfl
  · have hn : s.noteFail clu c code = s.barUpd c.gid (b.key (clu / 4) c.core) (.fail code c.num.toNat) := by
      simp only [State.noteFail, hb]
    rw [hn] at hstill ⊢
    exact State.barAt_barUpd hi hh (hstill.here (here_barUpd hh hh _ _)) (BarRef.key_le _ _ b) ⟨hcode, c.num.isLt⟩ hstill.rd

end Sys2Proof.Machine
end

section
/-! SUPPORT. What a command that has completed leaves to be read of it (R118, R122, R123, R126). -/
namespace Sys2Proof.Machine

/-- R127: a command has completed, and what its completion has come to. -/
def Completed (s t : State) (clu : Nat) (c : MatCmd) : Prop :=
  ∃ p, Leaves ({ s.perform clu c with pend := p }.credit c.gid (clu / 4) c.core c.bar c.bytes) t clu c

section
variable {s t : State} {clu : Nat} {c : MatCmd}

theorem credit_keeps (s : State) (gid chip core : Nat) (b : Option BarRef) (n : Nat) : let t := s.credit gid chip core b n
    t.engines = s.engines ∧ t.g = s.g ∧ t.w = s.w := by
  obtain ⟨m, e, h⟩ := credit_frame s gid chip core b n
  rw [h]
  exact ⟨rfl, rfl, rfl⟩

theorem Completed.left (h : Completed s t clu c) : ∀ q ∈ (t.engine clu).cmds, q.id ≠ c.id := by
  obtain ⟨p, hl⟩ := h
  exact hl.cmds

/-- What stands beside memory is what the command's effect has left. -/
theorem Completed.leaves (h : Completed s t clu c) : ∃ u : State, Leaves u t clu c ∧ u.engine clu = (s.perform clu c).engine clu
    ∧ u.g = (s.perform clu c).g ∧ u.w = (s.perform clu c).w := by
  obtain ⟨p, hl⟩ := h
  obtain ⟨he, hg, hw⟩ := credit_keeps { s.perform clu c with pend := p } c.gid (clu / 4) c.core c.bar c.bytes
  exact ⟨_, hl, congrArg (fun es => getKey es clu Engine.empty) he, hg, hw⟩

/-- The elements of the accumulators are those that the command's effect has left. -/
theorem Completed.elem (h : Completed s t clu c) (hf : ∀ z ∈ ((s.perform clu c).engine clu).tiles, z.freed = false) (p i j : Nat) :
    (t.engine clu).elem p i j = ((s.perform clu c).engine clu).elem p i j := by
  obtain ⟨u, hl, he, -⟩ := h.leaves
  rw [Engine.elem, hl.acc (by rw [he]; exact hf), he, Engine.elem]

/-- R122: the tile of a command that clears it is zero. -/
theorem Completed.zero {tl : Nat} {z : Tile} (h : Completed s t clu c) (hk : c.kind = .zero tl) (hz : (s.engine clu).tileOf c = some z)
    (hf : ∀ x ∈ (s.engine clu).tiles, x.freed = false) {row col : Nat} (hr : row < 64) (hc : col < 512) :
    (t.engine clu).elem z.p row col = 0 := by
  have he : (s.perform clu c).engine clu = ((s.engine clu).dropTile z.p).putTile { z with bad := false } ([], []) := by
    rw [perform_zero hk hz, State.putEngine_engine]
  rw [h.elem ?_, he]
  · exact elem_putTile_dropTile (s.engine clu) { z with bad := false } hr hc
  · rw [he]
    intro x hx
    rcases List.mem_cons.mp hx with rfl | hx
    · exact hf z (List.mem_of_find?_eq_some hz)
    · exact hf x (List.mem_filter.mp hx).1

/-- R126: the registers of a command that reads its tile hold the columns. -/
theorem Completed.drain {tl reg col n : Nat} {z : Tile} (h : Completed s t clu c) (hk : c.kind = .drain tl reg col n)
    (hz : (s.engine clu).tileOf c = some z) (hs : s.isSel c.gid c.wid = true) {q : Fin 96} {j l : Nat} (hq : Opd.ofBits reg = .v q)
    (hj : j < n) (hn : q.val + j < s.w.nregs) (hc : q.val + j < c.cap) (hl : has c.lanes l = true) (hlive : has s.w.live l = true) :
    t.w.getV (q.val + j) l = (s.engine clu).elem z.p l (col + j) := by
  obtain ⟨u, hu, -, -, hw⟩ := h.leaves
  rw [hu.regs, hw, perform_drain hk hz, (mapWarp_keeps s c.gid c.wid _).2.2 hs, hq]
  exact (land_words s.w c.cap q c.lanes (fun j i => (s.engine clu).elem z.p i (col + j)) n).2.2 j l hj hn hc hl hlive

/-- R123: the elements of the rows that a pass has streamed. -/
theorem Completed.stream {tl rb : Nat} {x y : Range} {pl : Plane} {z : Tile} (h : Completed s t clu c) (hk : c.kind = .stream tl x rb pl y)
    (hz : (s.engine clu).tileOf c = some z) (hf : ∀ x ∈ (s.engine clu).tiles, x.freed = false) {i j : Nat} (hi : has c.lanes i = true)
    (hj : j < 512) : (t.engine clu).elem z.p i j = (chunksInto ((s.freshen clu pl).streamRow clu c x rb i)
      ((s.freshen clu pl).weightRow clu pl y j) ((s.engine clu).elem z.p i j) {}).1 := by
  rw [h.elem (by rw [perform_stream hk hz, tiles_runPass]; exact hf), perform_stream hk hz]
  exact elem_runPass s clu z.p c x rb pl y hi hj

theorem planes_fillPlane (s : State) (clu : Nat) (c : MatCmd) (x : Range) (r0 : Nat) : ((s.fillPlane clu c x r0).engine clu).planes
    = ⟨c.id, c.gid, x, r0, s.sliceNow clu x r0 c.taken, false, []⟩ :: (s.engine clu).planes := by
  rw [State.fillPlane, State.mapEngine_engine]

/-- R118: the group's descriptor of a load is no longer busy, and the engine holds the slice. -/
theorem Completed.load {x : Range} {r0 : Nat} (h : Completed s t clu c) (hk : c.kind = .load x r0) (hg : c.gid = s.g.id) (h0 : s.g.id ≠ 0)
    (hl : s.g.shadow.load = c.id) : t.g.shadow = { s.g.shadow with busy := false }
      ∧ ∃ d ∈ (t.engine clu).planes, d.load = c.id ∧ d.vals = s.sliceNow clu x r0 c.taken := by
  obtain ⟨u, hu, he, hug, -⟩ := h.leaves
  have hp : s.perform clu c = (s.fillPlane clu c x r0).setG (s.g.loadEnds c.id) := by
    rw [perform_load hk, hg]
    exact mapGroup_own (s.fillPlane clu c x r0) _
  have hgroup : u.g = s.g.loadEnds c.id := by rw [hug, hp]; rfl
  have hshadow : u.g.shadow = { s.g.shadow with busy := false } := by rw [hgroup]; exact if_pos hl
  have hplanes : (u.engine clu).planes = ⟨c.id, c.gid, x, r0, s.sliceNow clu x r0 c.taken, false, []⟩
      :: (s.engine clu).planes := by
    rw [he, hp]
    exact planes_fillPlane s clu c x r0
  generalize s.sliceNow clu x r0 c.taken = vals at hplanes ⊢
  have hid : u.g.id = s.g.id := by rw [hgroup]; rfl
  obtain ⟨o, rs, ht⟩ := hu.group
  refine ⟨by rw [ht]; exact hshadow, _, hu.planes _ (by rw [hplanes]; exact List.mem_cons_self) ?_ ?_ ?_, rfl, rfl⟩
  · exact hg.trans hid.symm
  · rwa [hid]
  · rw [hshadow]
    exact hl

/-- R49, R127: the barrier of a command that completes takes its credit. -/
theorem Completed.barrier {b : BarRef} (h : Completed s t clu c) (hb : c.bar = some b) (hi : s.Inv) (hh : Here s c.gid) :
    t.barAt c.gid (b.key (clu / 4) c.core) = (s.barAt c.gid (b.key (clu / 4) c.core)).update (.arr c.bytes) := by
  obtain ⟨p, hl⟩ := h
  exact barAt_credited hb hi hh hl

end

theorem left_of_cmd? {s : State} {clu id : Nat} {c : MatCmd} {l : List MatCmd} (hc : s.cmd? clu id = some c) (h : ∀ q ∈ l, q.id ≠ c.id) :
    ∀ q ∈ l, q.id ≠ id := fun q hq => (h q hq).trans_eq (cmd?_id hc)

/-- R127: a command without a counter, that is ready and need not fail, completes. -/
theorem retire_goes {s : State} {clu id : Nat} {c : MatCmd} (hc : s.cmd? clu id = some c) (hr : (s.engine clu).ready c = true)
    (hm : (s.engine clu).mustFail c = false) (hb : s.anyBad (s.cmdPlaces clu c) = false) (hctr : c.ctr = none) {p : State → Prop}
    (hp : ∀ t, Completed s t clu c → p t) :
    Goes (exec (.matrixCommandRetire clu id) s) fun t => (∀ q ∈ (t.engine clu).cmds, q.id ≠ id) ∧ p t := by
  obtain ⟨x, t, ht, hl⟩ := completeCmd_leaves s clu hctr
  have hdone : Completed s t clu c := ⟨x, hl⟩
  exact ⟨t, by rw [exec_retire_completes hc hr hm hb, ht]; rfl, left_of_cmd? hc hdone.left, hp t hdone⟩

/-- What a virtual function's passes are counted in is no part of an engine. -/
theorem engine_metered (s : State) (chip p v clu : Nat) (f : Use → Use) (g : Vf → Vf) :
    ((s.mapUse chip p v f).mapVf p v g).engine clu = s.engine clu := rfl

/-- R357, R401: a grant marks its request, and those that it passes by count it. -/
theorem grant_goes {s : State} {clu : Nat} {c : MatCmd} (hd : (s.engine clu).due = false) (hc : chooseGrant (s.requests clu) = some c) :
    Goes (exec (.matrixGrant clu) s) fun t => t.w = s.w ∧ t.g = s.g ∧ t.mem = s.mem
      ∧ (t.engine clu).cmds = (s.engine clu).cmds.map fun x => if x.id = c.id then { x with granted := true }
          else if x.id ∈ (s.requests clu).map MatCmd.id then { x with passed := x.passed + 1 } else x := by
  show Goes (execMatrixGrant clu s) _
  simp only [execMatrixGrant, hd, Bool.false_eq_true, if_false, hc]
  refine goes_next ⟨rfl, rfl, rfl, ?_⟩
  rw [engine_metered, State.mapEngine_engine]
  simp only [List.contains_iff_mem]

end Sys2Proof.Machine
end

section
open Sys2Proof Sys2Proof.Machine
/-- Settles O39: a grant by `chooseGrant_chooses`; a command that completes by what `Completed` says of its tile, registers, plane and
barrier, or by `completeCmd_counts` of its counter; one that fails by `failCmd_tells`. -/
theorem matrixEnd : Obligations.MatrixEnd := by
  unfold Obligations.MatrixEnd
  intro s clu id c e left runs good retires told
  have ends {p : State → Prop} (hp : good → ∀ t, Completed s t clu c → p t) : retires p :=
    fun ⟨hc, hr⟩ hgood hctr => retire_goes hc hr hgood.1 hgood.2.1 hctr (hp hgood)
  refine ⟨?grant, ?zero, ?drain, ?stream, ?rows, ?weights, ?load, ?barrier, ?loadBytes, ?passBytes, ?counter, ?fails, ?arrayFails⟩
  case grant =>
    intro hd hc
    obtain ⟨t, ht, hw, hg, hm, hcmds⟩ := grant_goes hd hc
    obtain ⟨hmem, hbest⟩ := chooseGrant_chooses hc
    exact ⟨t, ht, hw, hg, hm, hbest, hmem, hcmds⟩
  case zero => exact fun tl z hk hz => ends fun ⟨_, _, hf⟩ t h row col => h.zero hk hz hf
  case drain => exact fun tl reg col n z hk hz hs => ends fun _ t h q j l => h.drain hk hz hs
  case stream => exact fun tl x rb pl y z hk hz => ends fun ⟨_, _, hf⟩ t h i j => h.stream hk hz hf
  case rows =>
    intro x rb i ht
    rw [State.streamRow, ht]
    exact bushelRow_rowNow ..
  case weights => exact fun pl y j h hj => weightRow_of_unloaded h y hj
  case load =>
    intro x r0 hk hg h0 hruns
    exact ends (fun _ t h hl => by rw [← cmd?_id hruns.1] at hl ⊢; exact h.load hk hg h0 hl) hruns
  case barrier => exact fun b hb hi hh => ends fun _ t h => h.barrier hb hi hh
  case loadBytes => exact fun x r0 hk => by rw [MatCmd.bytes, hk]
  case passBytes => exact fun tl x rb pl y hk => by rw [MatCmd.bytes, hk]
  case counter =>
    intro a k hctr hbar ⟨hc, hr⟩ ⟨hm, hb, _⟩ hi ha hroom h1 h2
    obtain ⟨u, t, ht, hl, hmem⟩ := completeCmd_counts hi hctr hbar ha hroom h1 h2
    have hrd (p : Nat) : t.rd p = (s.wrN k 4 (s.rdN k 4 - 1)).rd p := by rw [hl.still.rd, State.rd, hmem, State.rd]
    refine ⟨t, by rw [exec_retire_completes hc hr hm hb, ht]; rfl, left_of_cmd? hc hl.cmds, ?_, fun p hp => ?_⟩
    · rw [State.rdN, hl.still.mem, hmem]
      exact (rdN_wrN hi k 4 _).trans (Nat.mod_eq_of_lt (by omega))
    · rw [hrd, rd_wrN_ne hi _ hp]
  case fails =>
    intro ⟨hc, hr⟩ hbad
    obtain ⟨hleft, htold⟩ := failCmd_tells s clu c (code := 1) (by decide)
    exact ⟨_, exec_retire_fails hc hr hbad, left_of_cmd? hc hleft, htold⟩
  case arrayFails =>
    intro ⟨hc, hr⟩ hp
    obtain ⟨hleft, htold⟩ := failCmd_tells (s.trip clu) clu c (code := 9) (by decide)
    exact ⟨_, exec_fail_pass hc hr hp, left_of_cmd? hc hleft, htold⟩
end

section
/-! SUPPORT. Changes of memory that stay within a run of bytes, and numbers read beside them or within them (R131, R135, R139). -/
namespace Sys2Proof.Machine

/-! ### Numbers and their low bytes -/

theorem rdN_congr {s t : State} {a n : Nat} (h : ∀ p ∈ places a n, t.rd p = s.rd p) : t.rdN a n = s.rdN a n :=
  congrArg leNat (List.map_congr_left h)

theorem rdN_of_mem {s t : State} (h : t.mem = s.mem) (a n : Nat) : t.rdN a n = s.rdN a n := by rw [State.rdN, h, State.rdN]

theorem rdD_of_mem {s t : State} (h : t.mem = s.mem) (a : Nat) : t.rdD a = s.rdD a := by rw [State.rdD, rdN_of_mem h, State.rdD]

theorem places_append (a n m : Nat) : places a (n + m) = places a n ++ places (a + n) m := by
  rw [places, List.range_add, List.map_append, List.map_map]
  exact congrArg (places a n ++ ·) (List.map_congr_left fun i _ => (Nat.add_assoc a n i).symm)

/-- The lowest byte of a number. -/
theorem rdN_one (s : State) (a n : Nat) : s.rdN a 1 = s.rdN a (1 + n) % 256 := by
  have hb := leNat_lt ((places a 1).map (readByte s.mem))
  have hl : ((places a 1).map (readByte s.mem)).length = 1 := by rw [List.length_map, places_length]
  rw [hl] at hb
  simp only [State.rdN, readLE, places_append a 1 n, List.map_append, leNat_append, hl]
  omega

theorem rdN_lt (s : State) (a n : Nat) : s.rdN a n < 2 ^ (8 * n) := by
  have h := leNat_lt ((places a n).map (readByte s.mem))
  rwa [List.length_map, places_length] at h

theorem rdD_wrD {s : State} (hi : s.Inv) (a : Nat) (v : Dword) : (s.wrD a v).rdD a = v := by
  rw [State.rdD, State.wrD, rdN_wrN hi, Nat.mod_eq_of_lt v.isLt, BitVec.ofNat_toNat, BitVec.setWidth_eq]

/-- A number below what its bytes hold is read back. -/
theorem rdN_wrN_of_lt {s : State} (hi : s.Inv) (a : Nat) {n v : Nat} (hv : v < 2 ^ (8 * n)) : (s.wrN a n v).rdN a n = v :=
  (rdN_wrN hi a n v).trans (Nat.mod_eq_of_lt hv)

/-! ### What a write leaves -/

@[simp] theorem State.wrN_w (s : State) (a n v : Nat) : (s.wrN a n v).w = s.w := rfl
@[simp] theorem State.wrN_ready (s : State) (a n v : Nat) : (s.wrN a n v).ready = s.ready := rfl
@[simp] theorem State.wrD_w (s : State) (a : Nat) (v : Dword) : (s.wrD a v).w = s.w := rfl
@[simp] theorem State.wrD_ready (s : State) (a : Nat) (v : Dword) : (s.wrD a v).ready = s.ready := rfl

/-! ### Changes within `n` bytes -/

/-- Of the memory only bytes among the `n` from `a` on have changed, and of the selected warp nothing. -/
structure Edits (s t : State) (a n : Nat) : Prop where
  inv : s.Inv → t.Inv
  bytes : ∀ p, p ∉ places a n → t.rd p = s.rd p
  w : t.w = s.w

section
variable {s t u : State} {a n b m : Nat}

theorem Edits.of_mem (hm : t.mem = s.mem) (hw : t.w = s.w) (a n : Nat) : Edits s t a n :=
  ⟨fun h => by rwa [State.Inv, hm], fun p _ => by rw [State.rd, hm, State.rd], hw⟩

theorem Edits.mono (h : Edits s t b m) (hl : a ≤ b) (hr : b + m ≤ a + n) : Edits s t a n :=
  ⟨h.inv, fun p hp => h.bytes p fun hq => hp (by rw [mem_places] at hq ⊢; omega), h.w⟩

theorem Edits.trans (h : Edits s t a n) (h' : Edits t u a n) : Edits s u a n :=
  ⟨fun hi => h'.inv (h.inv hi), fun p hp => (h'.bytes p hp).trans (h.bytes p hp), h'.w.trans h.w⟩

/-- Of what comes after, neither the memory nor the selected warp is changed. -/
theorem Edits.after (h : Edits s t a n) (hm : u.mem = t.mem) (hw : u.w = t.w) : Edits s u a n := h.trans (.of_mem hm hw a n)

/-- Nor of what comes before. -/
theorem Edits.behind (h : Edits t u a n) (hm : t.mem = s.mem) (hw : t.w = s.w) : Edits s u a n := (Edits.of_mem hm hw a n).trans h

/-- A change of narrower bytes behind one of wider bytes. -/
theorem Edits.andThen (h : Edits s t a n) (h' : Edits t u b m) (hl : a ≤ b) (hr : b + m ≤ a + n) : Edits s u a n :=
  h.trans (h'.mono hl hr)

theorem Edits.rdN (h : Edits s t a n) (hd : b + m ≤ a ∨ a + n ≤ b) : t.rdN b m = s.rdN b m :=
  rdN_congr fun p hp => h.bytes p fun hq => by rw [mem_places] at hp hq; omega

theorem Edits.rdD (h : Edits s t a n) (hd : b + 8 ≤ a ∨ a + n ≤ b) : t.rdD b = s.rdD b := by rw [State.rdD, h.rdN hd, State.rdD]

theorem wrs_edits (s : State) {l : List (Nat × Byte)} (hl : ∀ q ∈ l, q.1 ∈ places a n) : Edits s (s.wrs l) a n :=
  ⟨fun h => State.wf_wrs h l, fun _ hp => rd_wrs_ne s fun q hq e => hp (e ▸ hl q hq), rfl⟩

theorem wrN_edits (s : State) (a n v : Nat) : Edits s (s.wrN a n v) a n := wrs_edits s fun _ hq => (List.of_mem_zip hq).1

theorem wrD_edits (s : State) (a : Nat) (v : Dword) : Edits s (s.wrD a v) a 8 := wrN_edits s a 8 v.toNat

end

end Sys2Proof.Machine
end

section
/-! SUPPORT. An instruction that acts on an object, at once and without a trap (R75, R284, R392). -/
namespace Sys2Proof.Machine

/-- What an instruction of 4 bytes leaves whose block has come to `u`: the run goes on, and counters may have counted. -/
structure GoneOn (u t : State) (r : Run) : Prop where
  warp : t.w = { u.w with run := some (r.behind 4) }
  machine : t = { u with w := t.w, uses := t.uses, parts := t.parts }

/-- R75, R284, R390: the object of `n` bytes at `x` begins at `k`; there is room for an access, and nothing stands before it. -/
structure Reaches (s : State) (r : Run) (x : Dword) (n k : Nat) : Prop where
  object : s.objAt s.g.chip s.g.part s.g.vf x n = .ok k
  room : s.objRoom s.g.chip s.g.part s.g.vf x n = true
  noneBefore : NoneBefore s r.lanes (places k n)

section
variable {s u t : State} {r : Run}

theorem GoneOn.run (h : GoneOn u t r) : t.w.run = some (r.behind 4) := by rw [h.warp]
theorem GoneOn.mem (h : GoneOn u t r) : t.mem = u.mem := by rw [h.machine]
theorem GoneOn.ready (h : GoneOn u t r) : t.ready = u.ready := by rw [h.machine]
theorem GoneOn.waiters (h : GoneOn u t r) : t.waiters = u.waiters := by rw [h.machine]
theorem GoneOn.rdN (h : GoneOn u t r) (a n : Nat) : t.rdN a n = u.rdN a n := rdN_of_mem h.mem a n
theorem GoneOn.rdD (h : GoneOn u t r) (a : Nat) : t.rdD a = u.rdD a := rdD_of_mem h.mem a

/-- The bytes beside those that have changed before the instruction ended. -/
theorem Edits.frame {v : State} {a n : Nat} (he : Edits s v a n) (hm : t.mem = v.mem) : ∀ p, p ∉ places a n → t.rd p = s.rd p :=
  fun p hp => (congrArg (readByte · p) hm).trans (he.bytes p hp)

/-- What stands beside the destination that an instruction has written last. -/
theorem GoneOn.beside {w : Warp} (h : GoneOn (u.setW w) t r) : t.mem = u.mem ∧ t.ready = u.ready := ⟨h.mem, h.ready⟩

/-- An instruction that has written its one destination last. -/
theorem GoneOn.answered {d : Opd} {v : Word} (h : GoneOn (u.writeAll r d v) t r) (hw : u.w = s.w) : Answered s t r d v :=
  answered_of_write (by rw [h.warp, State.writeAll, State.setW_w, hw])

theorem meterObj_frame (s : State) (chip p v : Nat) (a : Dword) (n : Nat) :
    ∃ us ps, s.meterObj chip p v a n = { s with uses := us, parts := ps } := by
  unfold State.meterObj
  split <;> exact ⟨_, _, rfl⟩

/-- Counting the bytes of an access changes no byte, no register and no queue. -/
theorem meterObj_keeps (s : State) (chip p v : Nat) (a : Dword) (n : Nat) : (s.meterObj chip p v a n).mem = s.mem
    ∧ (s.meterObj chip p v a n).w = s.w ∧ (s.meterObj chip p v a n).ready = s.ready := by
  obtain ⟨us, ps, h⟩ := meterObj_frame s chip p v a n
  rw [h]
  exact ⟨rfl, rfl, rfl⟩

theorem withObj_reached {x : Dword} {n k : Nat} {f : Nat → Act} (hx : Reaches s r x n k) (hf : f k = .ok u) :
    withObj s r x n f = .ok (u.meterObj s.g.chip s.g.part s.g.vf x n) := by
  simp only [withObj, hx.object, hx.room, if_true, hx.noneBefore.ordered, hf, Act.besides]

theorem goneOn_advance {n : Nat} {v : State} (hv : ∃ us ps, v = { u with uses := us, parts := ps }) (hn : n = 4)
    (hrun : u.w.run = some r) : GoneOn u (advance n v) r := by
  obtain ⟨us, ps, rfl⟩ := hv
  rw [hn, advance_of_run (s := { u with uses := us, parts := ps }) 4 hrun]
  exact ⟨rfl, rfl⟩

/-- An instruction whose block comes to `u`. -/
theorem goes_on {i : Instr} {body : Run → Act} {p : State → Prop} (h : Issues i s r) (hl : i.info.len = 4) (hrun : u.w.run = some r)
    (hb : body r = .ok u) (hp : ∀ t, GoneOn u t r → p t) : Goes (issue i s body) p :=
  issue_goes h hb (hp _ (goneOn_advance ⟨u.uses, u.parts, rfl⟩ hl hrun))

/-- An instruction whose block acts on an object, and comes to `u`. -/
theorem goes_object {i : Instr} {body : Run → Act} {x : Dword} {n k : Nat} {f : Nat → Act} {p : State → Prop} (h : Issues i s r)
    (hl : i.info.len = 4) (hrun : u.w.run = some r) (hb : body r = withObj s r x n f) (hx : Reaches s r x n k) (hf : f k = .ok u)
    (hp : ∀ t, GoneOn u t r → p t) : Goes (issue i s body) p :=
  issue_goes h (hb.trans (withObj_reached hx hf)) (hp _ (goneOn_advance (meterObj_frame ..) hl hrun))

/-- R293: a group that serves a task may use the forms that need one. -/
theorem inTask_serving (h : s.g.task ≠ 0) (r : Run) (k : Act) : inTask s r k = k := if_neg h

/-- R284, R285: a destination that may be a scalar only is one. -/
theorem kind_of_issues {i : Instr} {o : Oper} (h : Issues i s r) (ho : o ∈ i.info.dsts) (hc : o.cls = 2) : o.o.kind = 2 := by
  have hcheck := h.2
  have hok : o.clsOk = true := by
    by_contra hn
    have hany : ((i.info.srcs ++ i.info.dsts).any fun u => !u.clsOk || !u.o.aligned u.span) = true :=
      List.any_eq_true.mpr ⟨o, List.mem_append_right _ ho, by simp [hn]⟩
    simp [issueCheck, hany] at hcheck
  rw [Oper.clsOk, hc] at hok
  cases ho : o.o <;> simp_all [Opd.kind]

theorem append_pairWord (x : Dword) : pairWord x 1 ++ pairWord x 0 = x := by
  ext i hi
  simp only [pairWord, Nat.one_ne_zero, if_true, if_false, BitVec.getElem_append, BitVec.truncate_eq_setWidth, BitVec.getElem_setWidth,
    BitVec.getLsbD_ushiftRight]
  split
  · exact BitVec.getLsbD_eq_getElem hi
  · rw [Nat.add_sub_of_le (by omega)]
    exact BitVec.getLsbD_eq_getElem hi

/-- A pair that a scalar destination names, by its two words. -/
theorem src64_of_pair {w : Warp} {d : Opd} (hd : d.kind = 2) {l : Nat} {x : Dword} (h0 : w.getAt d 0 l = pairWord x 0)
    (h1 : w.getAt d 1 l = pairWord x 1) : w.src64 d l = x := by
  have hs : w.src64 d l = w.getAt d 1 l ++ w.getAt d 0 l := by
    cases d with
    | k c => exact absurd hd (by decide : (8 : Nat) ≠ 2)
    | _ => rfl
  rw [hs, h0, h1]
  exact append_pairWord x

/-- An instruction that has written its one pair, of scalars, last. -/
theorem GoneOn.pair {d : Opd} {x : Dword} (h : GoneOn (u.writeAll64 r d x) t r) (hd : d.kind = 2) {l : Nat} (hl : has r.lanes l = true) :
    t.w.src64 d l = x := by
  have hget (j : Nat) (hj : j < 2) : t.w.getAt d j l = pairWord x j := by
    have hrun : t.w.getAt d j l = (u.w.write64 d r.lanes fun _ => x).getAt d j l := by
      rw [h.warp]
      cases d <;> rfl
    rw [hrun]
    exact (write64_block u.w r d fun _ _ => x).res j l hj hl (by rw [hd]; decide)
  exact src64_of_pair hd (hget 0 (by omega)) (hget 1 (by omega))

end

end Sys2Proof.Machine
end

section
/-! SUPPORT. Task records and frames: a record that is posted, and the record and frame of a child (R131, R133, R136, R137). -/
namespace Sys2Proof.Machine

section
variable {s : State}

/-! ### A record that is posted -/

/-- What the task unit has made of the record at `k` of a task: Ready, at the tail of its queue. -/
structure Posted (s t : State) (chip p v : Nat) (a : Dword) (k : Nat) (link : Dword) : Prop where
  edits : Edits s t (k + 32) 32
  state : t.recState k = 1
  forked : t.recFlag k 5 = decide (link ≠ 0)
  ready : t.ready = s.ready ++ [⟨chip, p, v, s.recPrio k, a⟩]

/-- R131: the STATUS that the task unit writes. -/
def postedStatus (link : Dword) (failed : Bool) : Nat := 1 + (if link = 0 then 0 else 32) + if failed then 128 else 0

theorem postedStatus_fields (link : Dword) (failed : Bool) : postedStatus link failed < 256 ∧ postedStatus link failed % 16 = 1
    ∧ (postedStatus link failed).testBit 5 = decide (link ≠ 0) := by
  unfold postedStatus
  by_cases hl : link = 0
  · rw [if_pos hl, decide_eq_false (not_not.mpr hl)]
    cases failed <;> decide
  · rw [if_neg hl, decide_eq_true hl]
    cases failed <;> decide

/-- R131: the fields that the task unit writes into the record at `k`. -/
def State.writeFields (s : State) (k : Nat) (link : Dword) (status chip : Nat) : State :=
  let t := ((s.wrD (k + 32) link).wrN (k + 40) 4 status).wrN (k + 46) 1 (s.rdN (k + 46) 1 / 8 * 8 + chip)
  t.wrD (k + 56) (Config.freeWord (t.free + 1) ++ Config.freeWord t.free)

theorem writeFields_edits (s : State) (k : Nat) (link : Dword) (status chip : Nat) :
    Edits s (s.writeFields k link status chip) (k + 32) 32 :=
  ((((wrD_edits s (k + 32) link).mono (by omega) (by omega)).andThen (wrN_edits _ (k + 40) 4 status) (by omega) (by omega)).andThen
    (wrN_edits _ (k + 46) 1 _) (by omega) (by omega)).andThen (wrD_edits _ (k + 56) _) (by omega) (by omega)

theorem status_writeFields (hi : s.Inv) (k : Nat) (link : Dword) {status : Nat} (hs : status < 256) (chip : Nat) :
    (s.writeFields k link status chip).rdN (k + 40) 1 = status := by
  rw [State.writeFields, (wrD_edits _ (k + 56) _).rdN (by omega), (wrN_edits _ (k + 46) 1 _).rdN (by omega), rdN_one _ (k + 40) 3,
    rdN_wrN_of_lt ((wrD_edits s (k + 32) link).inv hi) (k + 40) (by omega : status < 2 ^ (8 * 4)), Nat.mod_eq_of_lt hs]

section
variable (s) (chip p v : Nat) (a : Dword) (k : Nat) (link : Dword) (failed : Bool)

theorem State.mem_post : (s.post chip p v a k link failed).mem = (s.writeFields k link (postedStatus link failed) chip).mem := by
  simp only [State.post, State.writeFields, postedStatus, State.spend]
theorem State.w_post : (s.post chip p v a k link failed).w = s.w := by
  simp only [State.post, State.spend, State.wrN_w, State.wrD_w]
theorem State.ready_post : (s.post chip p v a k link failed).ready = s.ready ++ [⟨chip, p, v, s.recPrio k, a⟩] := by
  simp only [State.post, State.spend, State.wrN_ready, State.wrD_ready]

end

theorem post_posts (hi : s.Inv) (chip p v : Nat) (a : Dword) (k : Nat) (link : Dword) (failed : Bool) :
    Posted s (s.post chip p v a k link failed) chip p v a k link := by
  obtain ⟨hlt, hmod, hbit⟩ := postedStatus_fields link failed
  have hmem := s.mem_post chip p v a k link failed
  have hbyte : (s.post chip p v a k link failed).rdN (k + 40) 1 = postedStatus link failed := by
    rw [rdN_of_mem hmem, status_writeFields hi k link hlt]
  have hw := (s.w_post chip p v a k link failed).trans (writeFields_edits s k link (postedStatus link failed) chip).w.symm
  exact ⟨(writeFields_edits s k link _ chip).after hmem hw, by rw [State.recState, hbyte, hmod], by rw [State.recFlag, hbyte, hbit],
    s.ready_post chip p v a k link failed⟩

/-! ### The frame of a child (R136, R137) -/

theorem frameKey_add (part chip off n : Nat) : frameKey part chip (off + n) = frameKey part chip off + n := by
  unfold frameKey
  omega

theorem wrFrame_edits (s : State) (f : Frame) (bs : List Byte) :
    Edits s (s.wrFrame f [(0, bs)]) (frameKey f.part f.chip f.off) bs.length ∧ (s.wrFrame f [(0, bs)]).ready = s.ready :=
  ⟨wrs_edits s fun _ hq => (List.of_mem_zip hq).1, rfl⟩

/-- R136, R137: a frame that is taken begins with 256 bytes that the task unit clears. -/
theorem takeFrame_edits {u : State} {p v chip size off : Nat} {task : Dword} (h : s.takeFrame p v chip size task = some (off, u)) :
    Edits s u (frameKey p chip off) 256 ∧ u.ready = s.ready := by
  unfold State.takeFrame at h
  split at h
  · cases h
  · obtain ⟨o, -, he⟩ := Option.map_eq_some_iff.mp h
    injection he with ho hu
    subst ho hu
    obtain ⟨hcleared, hready⟩ := wrFrame_edits s
      { off := o, chip := chip, part := p, size := size, task := task, below := none, kind := 0, helpd := 0, saved := [], blocked := none
        vf := v }
      (List.replicate 256 0)
    rw [List.length_replicate] at hcleared
    exact ⟨hcleared.after (by dsimp only) (by dsimp only), hready⟩

/-- What stands once a child's frame is taken and its parent counts it. -/
def State.countChild (s u : State) (off par : Nat) : State :=
  (u.mapFrame s.g.part s.g.chip off fun f => { f with task := objFrame off }).setNchild par (s.nchild par + 1)

theorem countChild_edits (s u : State) (off par : Nat) : Edits u (s.countChild u off par) (par + 41) 1
    ∧ (s.countChild u off par).ready = u.ready :=
  ⟨(wrN_edits (u.mapFrame s.g.part s.g.chip off fun f => { f with task := objFrame off }) _ _ _).behind rfl rfl, rfl⟩

theorem nchild_countChild {u : State} (hu : u.Inv) (off : Nat) {par : Nat} (h : s.nchild par < 255) :
    (s.countChild u off par).nchild par = s.nchild par + 1 :=
  rdN_wrN_of_lt (s := u.mapFrame s.g.part s.g.chip off fun f => { f with task := objFrame off }) hu (par + 41) (by omega)

/-! ### The record of a child (R136) -/

/-- What `tfork` writes into the record of a child at `k`. -/
structure ChildRecord (s t : State) (k : Nat) (entry arg : Dword) (parent : Nat) : Prop where
  edits : Edits s t k 64
  entry : t.rdD k = entry
  arg : t.rdD (k + 8) = arg
  prio : t.recPrio k = s.recPrio parent
  ready : t.ready = s.ready

theorem childRecord_writes (hi : s.Inv) (k : Nat) (entry arg : Dword) (parent : Nat) :
    ChildRecord s (s.childRecord k entry arg parent) k entry arg parent := by
  let t1 := s.wrD k entry
  let t2 := t1.wrD (k + 8) arg
  let t3 := t2.wrD (k + 16) (s.rdD (parent + 16))
  let t4 := t3.wrD (k + 24) 0
  let t5 := t4.wrN (k + 44) 4 (s.recSlot parent * 2 ^ 8 + s.recPrio parent)
  have h1 : Edits s t1 k 8 := wrD_edits ..
  have h2 : Edits t1 t2 (k + 8) 8 := wrD_edits ..
  have h3 : Edits t2 t3 (k + 16) 8 := wrD_edits ..
  have h4 : Edits t3 t4 (k + 24) 8 := wrD_edits ..
  have h5 : Edits t4 t5 (k + 44) 4 := wrN_edits ..
  have h6 : Edits t5 (s.childRecord k entry arg parent) (k + 48) 8 := wrD_edits ..
  have hslot : s.recSlot parent < 16 := Nat.mod_lt _ (by omega)
  have hprio : s.recPrio parent < 8 := Nat.mod_lt _ (by omega)
  refine ⟨?_, ?_, ?_, ?_, by simp only [State.childRecord, State.wrN_ready, State.wrD_ready]⟩
  · exact (((((h1.mono (by omega) (by omega)).andThen h2 (by omega) (by omega)).andThen h3 (by omega) (by omega)).andThen h4 (by omega)
      (by omega)).andThen h5 (by omega) (by omega)).andThen h6 (by omega) (by omega)
  · rw [h6.rdD (by omega), h5.rdD (by omega), h4.rdD (by omega), h3.rdD (by omega), h2.rdD (by omega)]
    exact rdD_wrD hi k entry
  · rw [h6.rdD (by omega), h5.rdD (by omega), h4.rdD (by omega), h3.rdD (by omega)]
    exact rdD_wrD (h1.inv hi) (k + 8) arg
  · have hi4 : t4.Inv := h4.inv (h3.inv (h2.inv (h1.inv hi)))
    have hlt : s.recSlot parent * 2 ^ 8 + s.recPrio parent < 2 ^ (8 * 4) := by omega
    rw [State.recPrio, h6.rdN (by omega), rdN_one t5 (k + 44) 3, rdN_wrN_of_lt hi4 (k + 44) hlt]
    omega

/-! ### A forked child (R136) -/

/-- What `tfork` leaves beside its destination: a counted child whose record is posted. -/
def State.forked (s u : State) (off par : Nat) (entry arg : Dword) : State :=
  let k := frameKey s.g.part s.g.chip (off + 0x40)
  ((s.countChild u off par).childRecord k entry arg par).post s.g.chip s.g.part s.g.vf (objFrame off) k s.g.task false

/-- What stands of a child at `k` of the parent `par`, in the frame at `f`. -/
structure ChildStands (s t : State) (k par f : Nat) (child entry arg : Dword) : Prop where
  bytes : ∀ p, p ∉ places f 256 → p ≠ par + 41 → t.rd p = s.rd p
  w : t.w = s.w
  entry : t.rdD k = entry
  arg : t.rdD (k + 8) = arg
  state : t.recState k = 1
  forked : t.recFlag k 5 = true
  counted : t.nchild par = s.nchild par + 1
  ready : t.ready = s.ready ++ [⟨s.g.chip, s.g.part, s.g.vf, s.recPrio par, child⟩]

theorem forked_stands {u : State} {off par k : Nat} (hi : s.Inv) (entry arg : Dword) (htask : s.g.task ≠ 0) (hkids : s.nchild par < 255)
    (htake : s.takeFrame s.g.part s.g.vf s.g.chip s.g.kern.frame 0 = some (off, u)) (hk : k = frameKey s.g.part s.g.chip (off + 0x40))
    (hd : par + 64 ≤ frameKey s.g.part s.g.chip off ∨ frameKey s.g.part s.g.chip off + 256 ≤ par) :
    ChildStands s (s.forked u off par entry arg) k par (frameKey s.g.part s.g.chip off) (objFrame off) entry arg := by
  obtain ⟨etake, htaken⟩ := takeFrame_edits htake
  obtain ⟨ecount, hcounted⟩ := countChild_edits s u off par
  have hkids' : (s.countChild u off par).nchild par = s.nchild par + 1 := nchild_countChild (etake.inv hi) off hkids
  have hchild := childRecord_writes (ecount.inv (etake.inv hi)) k entry arg par
  have hpost := post_posts (hchild.edits.inv (ecount.inv (etake.inv hi))) s.g.chip s.g.part s.g.vf (objFrame off) k s.g.task false
  have ht : s.forked u off par entry arg = ((s.countChild u off par).childRecord k entry arg par).post s.g.chip s.g.part s.g.vf
      (objFrame off) k s.g.task false := by rw [hk]; rfl
  rw [frameKey_add] at hk
  rw [ht]
  generalize s.countChild u off par = v at *
  generalize v.childRecord k entry arg par = y at *
  generalize y.post s.g.chip s.g.part s.g.vf (objFrame off) k s.g.task false = t at *
  generalize frameKey s.g.part s.g.chip off = f at *
  have epost := hpost.edits
  have echild := hchild.edits
  refine ⟨fun p hp hne => ?_, epost.w.trans (echild.w.trans (ecount.w.trans etake.w)), ?_, ?_, hpost.state, ?_, ?_, ?_⟩
  · have hkid (n : Nat) (hn : n ≤ 64) : p ∉ places (k + (64 - n)) n := fun h => hp (by rw [mem_places] at h ⊢; omega)
    rw [epost.bytes p (hkid 32 (by omega)), echild.bytes p (hkid 64 (by omega)), ecount.bytes p, etake.bytes p hp]
    rw [mem_places]
    omega
  · rw [epost.rdD (by omega), hchild.entry]
  · rw [epost.rdD (by omega), hchild.arg]
  · rw [hpost.forked, decide_eq_true htask]
  · rw [← hkids', State.nchild, epost.rdN (by omega), echild.rdN (by omega), State.nchild]
  · rw [hpost.ready, hchild.ready, hchild.prio, hcounted, htaken, State.recPrio, ecount.rdN (by omega), etake.rdN (by omega),
      State.recPrio]

end

end Sys2Proof.Machine
end

section
/-! SUPPORT. Dependence counters: one that fires nothing, and one that posts its record (R135). -/
namespace Sys2Proof.Machine

section
variable {s : State}

/-- FLAGS of a counter, once bits of them are set. -/
theorem rdN_orFlags (hi : s.Inv) (k : Nat) {m : Nat} (hm : m < 2 ^ 32) : (s.orFlags k m).rdN (k + 4) 4 = s.rdN (k + 4) 4 ||| m :=
  rdN_wrN_of_lt hi (k + 4) (Nat.or_lt_two_pow (rdN_lt s (k + 4) 4) hm)

theorem orFlags_edits (s : State) (k m : Nat) : Edits s (s.orFlags k m) (k + 4) 4 := wrN_edits ..

/-- A counter that is neither 0 nor negative fires nothing. -/
theorem counterCheck_of_pos (chip p v : Nat) {k : Nat} (h0 : 0 < s.rdN k 4) (h1 : s.rdN k 4 < 2 ^ 31) :
    counterCheck chip p v k s = some s := by
  have hc : (decide (s.rdN k 4 = 0) || decide (2 ^ 31 ≤ s.rdN k 4)) = false := by simp; omega
  simp only [counterCheck, hc, Bool.and_false, Bool.false_eq_true, if_false]

/-- R135: a counter that is armed with a count that leaves it above 0. -/
theorem counterArm_pos (hi : s.Inv) (chip p v : Nat) {k n : Nat} (h0 : 0 < (s.rdN k 4 + n) % 2 ^ 32)
    (h1 : (s.rdN k 4 + n) % 2 ^ 32 < 2 ^ 31) : ∃ t, counterArm chip p v k n s = some t ∧ Edits s t k 16
      ∧ t.rdN k 4 = (s.rdN k 4 + n) % 2 ^ 32
      ∧ t.rdN (k + 4) 4 = s.rdN (k + 4) 4 ||| 2 ^ 31 ∧ t.ready = s.ready := by
  let c := (s.rdN k 4 + n) % 2 ^ 32
  have hw : Edits s (s.wrN k 4 c) k 4 := wrN_edits ..
  have hf : Edits (s.wrN k 4 c) ((s.wrN k 4 c).orFlags k (2 ^ 31)) (k + 4) 4 := orFlags_edits ..
  have hc : ((s.wrN k 4 c).orFlags k (2 ^ 31)).rdN k 4 = c := by
    rw [hf.rdN (by omega), rdN_wrN_of_lt hi k (Nat.mod_lt _ (by omega))]
  refine ⟨_, counterCheck_of_pos chip p v (by rwa [hc]) (by rwa [hc]),
    (hw.mono (by omega) (by omega)).andThen hf (by omega) (by omega), hc, ?_, rfl⟩
  rw [rdN_orFlags (hw.inv hi) k (by omega), hw.rdN (by omega)]

/-! ### A record behind a counter (R135) -/

theorem getKey_filter_of {β : Type} (l : List (Nat × β)) {q : Nat → Bool} {k : Nat} (hk : q k = true) (d : β) :
    getKey (l.filter fun x => q x.1) k d = getKey l k d := by
  unfold getKey
  congr 1
  induction l with
  | nil => rfl
  | cons x l ih =>
    rw [List.filter_cons]
    split
    · simp only [List.lookup, ih]
    · next hx =>
      have hne : (k == x.1) = false := beq_eq_false_iff_ne.mpr fun e => hx (e ▸ hk)
      rw [ih, List.lookup, hne]

/-- A write leaves every codeword of which nothing has shown without a condition. -/
theorem eccAt_wrs (s : State) (l : List (Nat × Byte)) {k : Nat} (h : s.eccAt k = 0) : (s.wrs l).eccAt k = 0 := by
  let full (no : Nat) : Bool := !(eccPlaces no).all fun q => (l.map Prod.fst).any fun k => physAt k == q
  have hecc : (s.wrs l).ecc = s.ecc.filter fun p => full p.1 := rfl
  have hkey : getKey (s.wrs l).ecc (eccNo k) 0 = getKey s.ecc (eccNo k) 0 ∨ getKey (s.wrs l).ecc (eccNo k) 0 = 0 := by
    rw [hecc]
    cases hf : full (eccNo k) with
    | true => exact .inl (getKey_filter_of s.ecc hf 0)
    | false => exact .inr (getKey_filter_of_not s.ecc hf 0)
  rw [State.eccAt] at h ⊢
  rcases hkey with hk | hk
  · rwa [hk]
  · rw [hk]
    rfl

/-- Translation alone does not look at the codewords' conditions. -/
theorem xlate_ecc (s : State) (e : List (Nat × Nat)) (p v va : Nat) (wr : Bool) :
    ({ s with ecc := e } : State).xlate p v va wr = s.xlate p v va wr := by
  have hl (g : Nat) : ({ s with ecc := e } : State).linked g = s.linked g := by
    simp only [State.linked, State.reachable, State.localChip, State.cutOff, State.upEnds,
      spread_congr (s := s) (t := { s with ecc := e }) rfl]
  simp only [State.xlate, State.xlateKv, hl]
  rfl

theorem xlate_wrs (s : State) (l : List (Nat × Byte)) (p v va : Nat) (wr : Bool) : (s.wrs l).xlate p v va wr = s.xlate p v va wr :=
  (xlate_ecc { s with mem := writeBytes s.mem l } (s.wrs l).ecc p v va wr).trans
    (xlate_congr (s := s) (t := { s with mem := writeBytes s.mem l }) ⟨rfl, rfl, rfl, rfl, rfl, rfl, rfl⟩ p v va wr)

theorem probe_wrs {p v va pa : Nat} {wr : Bool} (h : s.probe p v va wr = .ok pa) (l : List (Nat × Byte)) :
    (s.wrs l).probe p v va wr = .ok pa := by
  unfold State.probe at h ⊢
  rw [xlate_wrs]
  cases hx : s.xlate p v va wr with
  | ok q =>
    rw [hx] at h
    by_cases hq : s.eccAt q = 0
    · simp only [hq, if_true] at h
      simp only [eccAt_wrs s l hq, if_true, h]
    · simp [hq] at h
  | wait => simp [hx] at h
  | bad c code => simp [hx] at h

/-- R284: an address leads to the same object behind a write. -/
theorem objAt_wrs {chip p v n z : Nat} {a : Dword} (h : s.objAt chip p v a n = .ok z) (l : List (Nat × Byte)) :
    (s.wrs l).objAt chip p v a n = .ok z := by
  unfold State.objAt at h ⊢
  split at h
  · unfold State.objMem at h ⊢
    cases hp : s.probe p v a.toNat true with
    | ok pa => rw [hp] at h; rw [probe_wrs hp]; exact h
    | wait => rw [hp] at h; dsimp only at h; split at h <;> cases h
    | bad c code => rw [hp] at h; dsimp only at h; split at h <;> cases h
  · exact h
  · cases h

/-- R135: what `check` makes of a counter of 0 that is armed and has not fired, whose record is Free: it is posted. -/
theorem counterCheck_fires {chip p v k z : Nat} (h0 : s.rdN k 4 = 0) (harmed : (s.rdN (k + 4) 4).testBit 31 = true)
    (hfired : (s.rdN (k + 4) 4).testBit 30 = false) (hz : s.objAt chip p v (s.rdD (k + 8)) 64 = .ok z)
    (hfree : (s.orFlags k (2 ^ 30)).recState z = 0) :
    let t := ((s.orFlags k (2 ^ 30)).meetPlace k (.place (taskStart z))).forget k
    counterCheck chip p v k s = some ((t.post chip p v (s.rdD (k + 8)) z 0 ((s.rdN (k + 4) 4).testBit 29)).meterObj chip p v
      (s.rdD (k + 8)) 64) := by
  simp only [counterCheck, h0, harmed, hfired, hz, hfree, decide_true, Bool.not_false, Bool.true_or, Bool.and_self, if_true]

theorem counterDec_of_one {chip p v k : Nat} (h1 : s.rdN k 4 = 1) :
    counterDec chip p v k false s = counterCheck chip p v k (s.wrN k 4 0) := by
  simp [counterDec, h1]

/-- R83, R146: what an object passes on changes what is seen of accesses, not what they have changed. -/
theorem passedOn_keeps (s : State) (k j : Nat) (p : Party) : ((s.meetPlace k p).forget j).mem = s.mem
    ∧ ((s.meetPlace k p).forget j).w = s.w ∧ ((s.meetPlace k p).forget j).ready = s.ready := ⟨rfl, rfl, rfl⟩

/-- R135: a counter that comes to 0, armed and not fired yet, posts the record that it names. -/
theorem counterDec_fires (hi : s.Inv) {chip p v k z : Nat} (h1 : s.rdN k 4 = 1) (harmed : (s.rdN (k + 4) 4).testBit 31 = true)
    (hfired : (s.rdN (k + 4) 4).testBit 30 = false) (hz : s.objAt chip p v (s.rdD (k + 8)) 64 = .ok z) (hd : k + 16 ≤ z ∨ z + 64 ≤ k)
    (hfree : s.recState z = 0) : ∃ t, counterDec chip p v k false s = some t ∧ t.w = s.w ∧ t.rdN k 4 = 0 ∧ t.recState z = 1
      ∧ t.ready = s.ready ++ [⟨chip, p, v, s.recPrio z, s.rdD (k + 8)⟩] := by
  have e1 : Edits s (s.wrN k 4 0) k 4 := wrN_edits ..
  have hc : (s.wrN k 4 0).rdN k 4 = 0 := rdN_wrN_of_lt hi k (by omega)
  have hfl : (s.wrN k 4 0).rdN (k + 4) 4 = s.rdN (k + 4) 4 := e1.rdN (by omega)
  have haddr : (s.wrN k 4 0).rdD (k + 8) = s.rdD (k + 8) := e1.rdD (by omega)
  have hz1 : (s.wrN k 4 0).objAt chip p v (s.rdD (k + 8)) 64 = .ok z := objAt_wrs hz _
  have hready : (s.wrN k 4 0).ready = s.ready := s.wrN_ready k 4 0
  rw [counterDec_of_one h1]
  generalize s.wrN k 4 0 = t at e1 hc hfl haddr hz1 hready ⊢
  have e2 : Edits s (t.orFlags k (2 ^ 30)) k 16 :=
    (e1.mono (by omega) (by omega)).andThen (orFlags_edits t k _) (by omega) (by omega)
  have hcheck := counterCheck_fires hc (by rwa [hfl]) (by rwa [hfl]) (by rwa [haddr])
    ((congrArg (· % 16) (e2.rdN (b := z + 40) (m := 1) (by omega))).trans hfree)
  have hc2 : (t.orFlags k (2 ^ 30)).rdN k 4 = 0 := ((orFlags_edits t k _).rdN (by omega)).trans hc
  have hready2 : (t.orFlags k (2 ^ 30)).ready = t.ready := t.wrN_ready ..
  dsimp only at hcheck
  rw [haddr] at hcheck
  generalize t.orFlags k (2 ^ 30) = y at hcheck e2 hc2 hready2
  obtain ⟨hvm, hvw, hvq⟩ := passedOn_keeps y k k (.place (taskStart z))
  generalize (y.meetPlace k (.place (taskStart z))).forget k = u at hcheck hvm hvw hvq
  have e3 : Edits s u k 16 := e2.after hvm hvw
  have hprio : u.recPrio z = s.recPrio z := congrArg (· % 8) (e3.rdN (by omega))
  have hpost := post_posts (e3.inv hi) chip p v (s.rdD (k + 8)) z 0 ((t.rdN (k + 4) 4).testBit 29)
  obtain ⟨hm, hw, hq⟩ := meterObj_keeps (u.post chip p v (s.rdD (k + 8)) z 0 ((t.rdN (k + 4) 4).testBit 29)) chip p v (s.rdD (k + 8)) 64
  refine ⟨_, hcheck, hw.trans (hpost.edits.w.trans e3.w), ?_, ?_, ?_⟩
  · rw [rdN_of_mem hm, hpost.edits.rdN (by omega), rdN_of_mem hvm, hc2]
  · rw [State.recState, rdN_of_mem hm]
    exact hpost.state
  · rw [hq, hpost.ready, hprio, hvq, hready2, hready]

end

end Sys2Proof.Machine
end

section
/-! SUPPORT. Futures and lock words (R138 to R140). -/
namespace Sys2Proof.Machine

section
variable {s : State}

/-! ### Waiters that go on (R140) -/

/-- A waiter of the object at `k` goes on: only what a future counts of it may change. -/
theorem repost_edits {w : Waiter} {k : Nat} (hw : w.obj = k) : Edits s (s.repost w) (k + 20) 4 := by
  have hgone : Edits s (s.waiterGone w) (k + 20) 4 := by
    unfold State.waiterGone
    split
    · subst hw
      exact (Edits.of_mem (s := s) (t := { s with waiters := s.waiters.filter fun x => x != w }) rfl rfl _ _).trans (wrN_edits ..)
    · exact (Edits.of_mem (s := s) rfl rfl _ _).after rfl rfl
  exact hgone.after rfl rfl

theorem waiters_repost (w : Waiter) : (s.repost w).waiters = s.waiters.filter fun x => x != w := by
  show (s.waiterGone w).waiters = _
  unfold State.waiterGone
  split <;> rfl

theorem reposts_edits {k : Nat} {l : List Waiter} (hl : ∀ w ∈ l, w.obj = k) : Edits s (l.foldl State.repost s) (k + 20) 4 := by
  induction l generalizing s with
  | nil => exact .of_mem rfl rfl _ _
  | cons w l ih =>
    exact (repost_edits (hl w List.mem_cons_self)).trans (ih fun x hx => hl x (List.mem_cons_of_mem _ hx))

theorem mem_waiters_reposts {l : List Waiter} {w : Waiter} (h : w ∈ (l.foldl State.repost s).waiters) : w ∈ s.waiters ∧ w ∉ l := by
  induction l generalizing s with
  | nil => exact ⟨h, List.not_mem_nil⟩
  | cons x l ih =>
    obtain ⟨hs, hl⟩ := ih h
    rw [waiters_repost] at hs
    obtain ⟨hs, hne⟩ := List.mem_filter.mp hs
    exact ⟨hs, List.not_mem_cons_of_ne_of_not_mem (bne_iff_ne.mp hne) hl⟩

theorem wakeObj_edits (s : State) (k : Nat) : Edits s (s.wakeObj k) (k + 20) 4 :=
  reposts_edits fun _ hw => beq_iff_eq.mp (List.mem_filter.mp hw).2

/-- R140: no waiter of an object that is woken stays. -/
theorem obj_ne_of_mem_wakeObj {k : Nat} {w : Waiter} (h : w ∈ (s.wakeObj k).waiters) : w.obj ≠ k := by
  obtain ⟨hs, hl⟩ := mem_waiters_reposts h
  exact fun hk => hl (List.mem_filter.mpr ⟨hs, beq_iff_eq.mpr hk⟩)

/-! ### Futures (R138, R139) -/

/-- What a future that has been resolved holds, and who waits for it. -/
structure Resolved (s t : State) (k : Nat) (v : Dword) (st : Nat) : Prop where
  edits : Edits s t k 24
  value : t.rdD k = v
  state : t.futState k = st
  waiters : ∀ w ∈ t.waiters, w.obj ≠ k

theorem resolve_resolves (hi : s.Inv) (k : Nat) (v : Dword) {st : Nat} (hst : st < 2 ^ 32) : Resolved s (s.resolve k v st) k v st := by
  let t1 := s.wrD k v
  let t2 := t1.wrN (k + 16) 4 st
  let t3 := t2.wakeObj k
  have h1 : Edits s t1 k 8 := wrD_edits ..
  have h2 : Edits t1 t2 (k + 16) 4 := wrN_edits ..
  have h3 : Edits t2 t3 (k + 20) 4 := wakeObj_edits ..
  have h4 : Edits t3 (s.resolve k v st) (k + 20) 4 := wrN_edits ..
  refine ⟨?_, ?_, ?_, fun w hw => obj_ne_of_mem_wakeObj (s := t2) hw⟩
  · exact (((h1.mono (by omega) (by omega)).andThen h2 (by omega) (by omega)).andThen h3 (by omega) (by omega)).andThen h4
      (by omega) (by omega)
  · rw [h4.rdD (by omega), h3.rdD (by omega), h2.rdD (by omega)]
    exact rdD_wrD hi k v
  · rw [State.futState, h4.rdN (by omega), h3.rdN (by omega)]
    exact rdN_wrN_of_lt (h1.inv hi) (k + 16) hst

/-- R139: the value pair and the status behind it, which `fwait` writes. -/
theorem writeFut_writes {u t : State} {r : Run} {d : Opd} {v : Dword} {st : Word} (hd : d.kind = 2) (hw : u.w = s.w)
    (h : GoneOn (u.writeFut r d v st) t r) : OnlyWrites s t d 3 r.lanes
      ∧ ∀ l, has r.lanes l = true → t.w.src64 d l = v ∧ t.w.getAt d 2 l = st := by
  have hk : d.kind ≠ 8 := by rw [hd]; decide
  have ht : t.w = { (((s.w.writeAt d 0 r.lanes fun _ => v.truncate 32).writeAt d 1 r.lanes fun _ => (v >>> 32).truncate 32).writeAt d 2
      r.lanes fun _ => st) with run := some (r.behind 4) } := by
    rw [h.warp, ← hw]
    rfl
  refine ⟨((((RegsOnly.refl s.w d 3 r.lanes).writeAt (by omega) _).writeAt (by omega) _).writeAt (by omega) _).onlyWrites ht,
    fun l hl => ?_⟩
  have hget (j : Nat) : t.w.getAt d j l = if j = 2 then st else if j = 1 then pairWord v 1 else if j = 0 then pairWord v 0
      else s.w.getAt d j l := by
    have hrun : t.w.getAt d j l = (((s.w.writeAt d 0 r.lanes fun _ => v.truncate 32).writeAt d 1 r.lanes fun _ =>
        (v >>> 32).truncate 32).writeAt d 2 r.lanes fun _ => st).getAt d j l := by
      rw [ht]
      cases d <;> rfl
    rw [hrun, Warp.getAt_writeAt _ _ _ _ _ _ _ hl hk, Warp.getAt_writeAt _ _ _ _ _ _ _ hl hk, Warp.getAt_writeAt _ _ _ _ _ _ _ hl hk]
    rfl
  exact ⟨src64_of_pair hd (hget 0) (hget 1), hget 2⟩

/-! ### Lock words (R139) -/

/-- What a lock word holds that has been given an owner. -/
structure Locked (s t : State) (k : Nat) (o : Dword) (st n : Nat) : Prop where
  edits : Edits s t k 16
  owner : t.rdD k = o
  state : t.lockState k = st
  count : t.rdN (k + 12) 4 = n

theorem State.mem_setLock (s : State) (k : Nat) (o : Dword) (st n : Nat) :
    (s.setLock k o st n).mem = (((s.wrD k o).wrN (k + 8) 4 st).wrN (k + 12) 4 n).mem := by
  simp only [State.setLock]
theorem State.w_setLock (s : State) (k : Nat) (o : Dword) (st n : Nat) : (s.setLock k o st n).w = s.w := by
  simp only [State.setLock, State.wrN_w, State.wrD_w]

theorem setLock_locks (hi : s.Inv) (k : Nat) (o : Dword) {st n : Nat} (hst : st < 2 ^ 32) (hn : n < 2 ^ 32) :
    Locked s (s.setLock k o st n) k o st n := by
  let t1 := s.wrD k o
  let t2 := t1.wrN (k + 8) 4 st
  let t3 := t2.wrN (k + 12) 4 n
  have h1 : Edits s t1 k 8 := wrD_edits ..
  have h2 : Edits t1 t2 (k + 8) 4 := wrN_edits ..
  have h3 : Edits t2 t3 (k + 12) 4 := wrN_edits ..
  have h4 : Edits s t3 k 16 := ((h1.mono (by omega) (by omega)).andThen h2 (by omega) (by omega)).andThen h3 (by omega) (by omega)
  have hmem : (s.setLock k o st n).mem = t3.mem := s.mem_setLock k o st n
  refine ⟨h4.after hmem ((s.w_setLock k o st n).trans h4.w.symm), ?_, ?_, ?_⟩
  · rw [rdD_of_mem hmem, h3.rdD (by omega), h2.rdD (by omega)]
    exact rdD_wrD hi k o
  · rw [State.lockState, rdN_of_mem hmem, h3.rdN (by omega)]
    exact rdN_wrN_of_lt (h1.inv hi) (k + 8) hst
  · rw [rdN_of_mem hmem]
    exact rdN_wrN_of_lt (h2.inv (h1.inv hi)) (k + 12) hn

/-- R139, R146: what the lock passes on shows accesses and leaves the word. -/
theorem Locked.shown {t : State} {k : Nat} {o : Dword} {st n : Nat} (h : Locked s t k o st n) (p : Party) :
    Locked s (t.meetPlace k p) k o st n :=
  ⟨h.edits.after rfl rfl, h.owner, h.state, h.count⟩

/-- What `lkrel` makes of a lock word that the task holds and no one waits for, whose count is `n`. -/
def State.unlocked (s : State) (k n : Nat) : State := if 1 < n then s.wrN (k + 12) 4 (n - 1) else s.setLock k 0 0 0

theorem unlocked_unlocks (hi : s.Inv) {k n : Nat} (hst : s.lockState k = 1) (hn : n < 2 ^ 32) : Edits s (s.unlocked k n) k 16
    ∧ if 1 < n then (s.unlocked k n).rdN (k + 12) 4 = n - 1 ∧ (s.unlocked k n).lockState k = 1
      else (s.unlocked k n).lockState k = 0 ∧ (s.unlocked k n).rdD k = 0 := by
  unfold State.unlocked
  split
  · have he : Edits s (s.wrN (k + 12) 4 (n - 1)) (k + 12) 4 := wrN_edits ..
    exact ⟨he.mono (by omega) (by omega), rdN_wrN_of_lt hi (k + 12) (by omega), (he.rdN (by omega)).trans hst⟩
  · have hlock := setLock_locks hi k 0 (st := 0) (n := 0) (by omega) (by omega)
    exact ⟨hlock.edits, hlock.state, hlock.owner⟩

end

end Sys2Proof.Machine
end

section
/-! SUPPORT. The task instructions where they neither trap nor wait: the state that each one's block comes to (R134 to R139, R146,
R292 to R294). -/
namespace Sys2Proof.Machine

section
variable {s : State} {r : Run} {d a : Opd} {k : Nat} {p : State → Prop}

theorem Warp.writeAt_run (w : Warp) (d : Opd) (j : Nat) (m : LaneMask) (f : Nat → Word) : (w.writeAt d j m f).run = w.run := by
  cases d <;> rfl

/-- R134: a record that is Free, of a slot that is open. -/
theorem tspawn_goes (h : Issues (.tspawn d a) s r) (hx : Reaches s r (s.w.scal64 r a) 64 k) (hstate : s.recState k = 0)
    (hslot : ∃ y, s.slot? s.g.part s.g.vf (s.recSlot k) = some y ∧ y.closed = false)
    (hp : ∀ t, GoneOn ((((s.releaseChip r.lanes).meetSel r.lanes (.place (taskStart k))).post s.g.chip s.g.part s.g.vf
      (s.w.scal64 r a) k 0 false).writeAll r d 1) t r → p t) : Goes (exec (.tspawn d a) s) p := by
  show Goes (execTspawn d a s) p
  obtain ⟨y, hy, hopen⟩ := hslot
  refine goes_object h rfl ?_ rfl hx ?_ hp
  · rw [State.writeAll, State.setW_w, Warp.write_run, State.w_post]
    exact h.1
  · simp only [hstate, hy, hopen, bne_self_eq_false, Bool.not_false, Bool.not_true, Bool.or_self, Bool.false_eq_true, if_false]

/-- R136: a child whose entry lies in the kernel's code, of a parent that can count it, with a frame to be had. -/
theorem tfork_goes {sb : Fin 64} {par off : Nat} {u : State} (h : Issues (.tfork d a sb) s r) (htask : s.g.task ≠ 0)
    (hpar : s.unitAt s.g.chip s.g.part s.g.vf s.g.task 64 = .ok par) (heven : (s.w.scal64 r a).toNat % 2 = 0)
    (hlo : s.g.kern.entry ≤ (s.w.scal64 r a).toNat) (hhi : (s.w.scal64 r a).toNat < s.g.kern.entry + s.g.kern.codesz)
    (hkids : s.nchild par < 255) (htake : s.takeFrame s.g.part s.g.vf s.g.chip s.g.kern.frame 0 = some (off, u))
    (hw : (s.forked u off par (s.w.scal64 r a) (s.w.idxS64 sb)).w = s.w)
    (hp : ∀ t, GoneOn ((s.forked u off par (s.w.scal64 r a) (s.w.idxS64 sb)).writeAll64 r d (objFrame off)) t r → p t) :
    Goes (exec (.tfork d a sb) s) p := by
  show Goes (execTfork d a sb s) p
  have hgood : ((s.w.scal64 r a).toNat % 2 != 0 || decide ((s.w.scal64 r a).toNat < s.g.kern.entry)
      || decide (s.g.kern.entry + s.g.kern.codesz ≤ (s.w.scal64 r a).toNat) || s.nchild par == 255) = false := by
    simp only [Bool.or_eq_false_iff, bne_eq_false_iff_eq, decide_eq_false_iff_not, beq_eq_false_iff_ne]
    omega
  refine goes_on h rfl ?_ ?_ hp
  · rw [State.writeAll64, State.setW_w, Warp.write64, Warp.writeAt_run, Warp.writeAt_run, hw]
    exact h.1
  · rw [inTask_serving htask]
    simp only [hpar, hgood, htake, Bool.false_eq_true, if_false, State.forked, State.countChild]

/-- R136, R146: a task whose children have ended. -/
theorem tsync_goes {par : Nat} (h : Issues .tsync s r) (htask : s.g.task ≠ 0)
    (hpar : s.unitAt s.g.chip s.g.part s.g.vf s.g.task 64 = .ok par) (hkids : s.nchild par = 0)
    (hp : ∀ t, RunsOn s t r 4 → t = ((s.meetPlace (taskKids par) (s.party r.lanes)).forget (taskKids par)).setW t.w → p t) :
    Goes (exec .tsync s) p := by
  show Goes (execTsync s) p
  refine goes_quiet (u := (s.meetPlace (taskKids par) (s.party r.lanes)).forget (taskKids par)) h rfl rfl ?_ hp
  rw [inTask_serving htask]
  simp only [hpar, hkids, if_true]

/-- R135: a counter that is not armed. -/
theorem tpost_goes {u : State} (h : Issues (.tpost a d) s r) (hx : Reaches s r (s.w.scal64 r a) 16 k) (htask : s.g.task ≠ 0)
    (hunarmed : (s.rdN (k + 4) 4).testBit 31 = false) (hn : (s.w.scal r d).toNat < 2 ^ 31)
    (hu : counterArm s.g.chip s.g.part s.g.vf k (s.w.scal r d).toNat (s.meetSel r.lanes (.place k)) = some u) (hw : u.w = s.w)
    (hp : ∀ t, GoneOn u t r → p t) : Goes (exec (.tpost a d) s) p := by
  show Goes (execTpost a d s) p
  refine goes_object h rfl (hw ▸ h.1) rfl hx ?_ hp
  rw [inTask_serving htask]
  simp only [hunarmed, decide_eq_false (Nat.not_le.mpr hn), Bool.or_self, Bool.false_eq_true, if_false, hu, orHold]

/-- R135: a counter that no page keeps from its decrement. -/
theorem tdec_goes {u : State} (h : Issues (.tdec a) s r) (hx : Reaches s r (s.w.scal64 r a) 16 k) (htask : s.g.task ≠ 0)
    (hu : counterDec s.g.chip s.g.part s.g.vf k false (s.meetSel r.lanes (.place k)) = some u) (hw : u.w = s.w)
    (hp : ∀ t, GoneOn u t r → p t) : Goes (exec (.tdec a) s) p := by
  show Goes (execTdec a s) p
  refine goes_object h rfl (hw ▸ h.1) rfl hx ?_ hp
  have hdec : (s.meetSel r.lanes (.place k)).dec k false = some u := hu
  rw [inTask_serving htask]
  simp only [hdec, orHold]

/-- R138: a task that ends with nothing held. -/
theorem tdone_goes (h : Issues (.tdone a) s r) (htask : s.g.task ≠ 0) (hholds : s.endsHolding r = false) :
    Goes (exec (.tdone a) s) fun t => t = { s with
      w := { s.w with run := some { r.behind 4 with exit := .retire } }
      g := { s.g with tdone := some (s.g.tdone.getD (s.w.scal64 r a)) } } := by
  show Goes (execTdone a s) _
  refine issue_goes (t := (s.setG { s.g with tdone := some (s.g.tdone.getD (s.w.scal64 r a)) }).setExit .retire) h ?_
    (advance_setExit (s := s.setG { s.g with tdone := some (s.g.tdone.getD (s.w.scal64 r a)) }) h.1 4 .retire)
  rw [inTask_serving htask]
  simp only [hholds, Bool.false_eq_true, if_false]

/-- R139: a future that is no longer Empty. -/
theorem fwait_goes (h : Issues (.fwait d a) s r) (hx : Reaches s r (s.w.scal64 r a) 32 k) (htask : s.g.task ≠ 0)
    (hf : s.futState k = 1 ∨ s.futState k = 2)
    (hp : ∀ t, GoneOn ((s.meetPlace k (s.party r.lanes)).writeFut r d (if s.futState k = 1 then s.rdD k else 0)
      (if s.futState k = 1 then 1 else 2)) t r → p t) : Goes (exec (.fwait d a) s) p := by
  show Goes (execFwait d a s) p
  refine goes_object h rfl ?_ rfl hx ?_ hp
  · rw [State.writeFut, State.setW_w, Warp.writeAt_run, State.writeAll64, State.setW_w, Warp.write64, Warp.writeAt_run, Warp.writeAt_run]
    exact h.1
  · rw [inTask_serving htask]
    rcases hf with hf | hf
    · simp only [hf, if_true]
    · simp only [hf, (by decide : ¬ (2 : Nat) = 1), if_false]

/-- R139: a future that is Empty. -/
theorem fset_goes (h : Issues (.fset a d) s r) (hx : Reaches s r (s.w.scal64 r a) 32 k) (hf : s.futState k = 0)
    (hw : ((s.meetSel r.lanes (.place k)).resolve k (s.w.scal64 r d) 1).w = s.w)
    (hp : ∀ t, GoneOn ((s.meetSel r.lanes (.place k)).resolve k (s.w.scal64 r d) 1) t r → p t) : Goes (exec (.fset a d) s) p := by
  show Goes (execFset a d s) p
  refine goes_object h rfl (by rw [hw]; exact h.1) rfl hx ?_ hp
  simp only [hf, bne_self_eq_false, Bool.false_eq_true, if_false]

/-- R139: a lock word that is free, poisoned, or handed to the task that asks for it. -/
theorem lkacq_goes (h : Issues (.lkacq d a) s r) (hx : Reaches s r (s.w.scal64 r a) 16 k) (htask : s.g.task ≠ 0)
    (hst : s.lockState k = 0 ∨ s.lockState k = 2 ∨ s.lockState k = 3 ∧ s.rdD k = s.g.task)
    (hp : ∀ t, GoneOn (((s.setLock k s.g.task 1 1).meetPlace k (s.party r.lanes)).writeAll r d (BitVec.ofNat 32 (s.lockState k))) t r →
      p t) : Goes (exec (.lkacq d a) s) p := by
  show Goes (execLkacq d a s) p
  have hw : ((s.setLock k s.g.task 1 1).meetPlace k (s.party r.lanes)).w = s.w := s.w_setLock k s.g.task 1 1
  refine goes_object h rfl ?_ rfl hx ?_ hp
  · rw [State.writeAll, State.setW_w, Warp.write_run, hw]
    exact h.1
  · rw [inTask_serving htask]
    rcases hst with hst | hst | ⟨hst, ho⟩
    · simp only [hst, if_true, State.takeLock]
      rfl
    · simp only [hst, (by decide : ¬ (2 : Nat) = 0), if_true, if_false, State.takeLock]
      rfl
    · simp only [hst, ho, (by decide : ¬ (3 : Nat) = 0), (by decide : ¬ (3 : Nat) = 2), decide_true, beq_self_eq_true, Bool.and_self,
        if_true, if_false, State.takeLock]
      rfl

/-- R139: a lock word that the task holds already. -/
theorem lkacq_nests (h : Issues (.lkacq d a) s r) (hx : Reaches s r (s.w.scal64 r a) 16 k) (htask : s.g.task ≠ 0)
    (hst : s.lockState k = 1) (ho : s.rdD k = s.g.task) (hn : s.rdN (k + 12) 4 + 1 < 2 ^ 32)
    (hp : ∀ t, GoneOn ((s.wrN (k + 12) 4 (s.rdN (k + 12) 4 + 1)).writeAll r d 1) t r → p t) : Goes (exec (.lkacq d a) s) p := by
  show Goes (execLkacq d a s) p
  refine goes_object h rfl ((Warp.write_run ..).trans h.1) rfl hx ?_ hp
  rw [inTask_serving htask]
  simp only [hst, ho, (by decide : ¬ (1 : Nat) = 0), (by decide : ¬ (1 : Nat) = 2), (by decide : ¬ (1 : Nat) = 3), decide_true,
    decide_false, beq_self_eq_true, Bool.and_self, Bool.false_and, Bool.false_eq_true, if_true, if_false]
  exact if_neg (by omega)

/-- R139: a lock word that the task holds and no one waits for. -/
theorem lkrel_goes (h : Issues (.lkrel a) s r) (hx : Reaches s r (s.w.scal64 r a) 16 k) (htask : s.g.task ≠ 0) (hst : s.lockState k = 1)
    (ho : s.rdD k = s.g.task) (hwait : ∀ w ∈ s.waiters, w.obj ≠ k)
    (hw : ((s.meetSel r.lanes (.place k)).unlocked k (s.rdN (k + 12) 4)).w = s.w)
    (hp : ∀ t, GoneOn ((s.meetSel r.lanes (.place k)).unlocked k (s.rdN (k + 12) 4)) t r → p t) : Goes (exec (.lkrel a) s) p := by
  show Goes (execLkrel a s) p
  have hnone : (s.meetSel r.lanes (.place k)).waiters.find? (fun w => w.obj == k) = none :=
    List.find?_eq_none.mpr fun w hm => by simpa using hwait w hm
  refine goes_object h rfl (by rw [hw]; exact h.1) rfl hx ?_ hp
  rw [inTask_serving htask]
  by_cases hn : 1 < s.rdN (k + 12) 4
  · simp only [hst, ho, bne_self_eq_false, Bool.or_self, Bool.false_eq_true, hn, if_true, if_false, State.unlocked]
  · simp only [hst, ho, bne_self_eq_false, Bool.or_self, Bool.false_eq_true, hn, if_false, hnone, State.unlocked]

end

end Sys2Proof.Machine
end

section
open Sys2Proof Sys2Proof.Machine
/-- Settles O40: the state that each instruction's block comes to (`tspawn_goes` to `lkrel_goes`), and what stands in it: a posted record
(`post_posts`), a child (`forked_stands`), a counter (`counterArm_pos`, `counterDec_above`, `counterDec_fires`), a future
(`writeFut_writes`, `resolve_resolves`) or a lock word (`setLock_locks`). -/
theorem taskInstructions : Obligations.TaskInstructions := by
  unfold Obligations.TaskInstructions
  intro s r d a sb k hi _ x g at' frame
  have reach {n : Nat} (h : at' n) : Reaches s r x n k := ⟨h.1, h.2.1, h.2.2⟩
  refine ⟨?spawn, ?fork, ?sync, ?post, ?count, ?fire, ?self, ?done, ?wait, ?set, ?acquire, ?nest, ?release⟩
  case spawn =>
    intro h hat hstate hslot
    refine tspawn_goes h (reach hat) hstate hslot fun t ht => ?_
    have hpost := post_posts (s := (s.releaseChip r.lanes).meetSel r.lanes (.place (taskStart k))) hi s.g.chip s.g.part s.g.vf x k 0 false
    have he := hpost.edits.behind (s := s) rfl rfl
    have ha : Answered s t r d 1 := ht.answered he.w
    obtain ⟨hm, hq⟩ := ht.beside
    exact ⟨⟨(he.mono (by omega) (by omega)).frame hm, ht.run⟩, (congrArg (· % 16) (rdN_of_mem hm ..)).trans hpost.state,
      hq.trans hpost.ready, ha.holds, ha.only⟩
  case fork =>
    intro par off u h htask hpar heven hlo hhi hkids htake hk hd
    have hfork := forked_stands hi x (s.w.idxS64 sb) htask hkids htake hk hd
    refine tfork_goes h htask hpar heven hlo hhi hkids htake hfork.w fun t ht => ?_
    obtain ⟨hm, hq⟩ := ht.beside
    exact ⟨(rdD_of_mem hm _).trans hfork.entry, (rdD_of_mem hm _).trans hfork.arg,
      (congrArg (· % 16) (rdN_of_mem hm ..)).trans hfork.state,
      (congrArg (·.testBit 5) (rdN_of_mem hm ..)).trans hfork.forked, (rdN_of_mem hm ..).trans hfork.counted, hq.trans hfork.ready,
      fun p hp hne => (congrArg (readByte · p) hm).trans (hfork.bytes p hp hne), ht.run,
      fun l hl => ht.pair (kind_of_issues h (o := ⟨d, 2, 2⟩) List.mem_cons_self rfl) hl⟩
  case sync =>
    intro par h htask hpar hkids
    exact tsync_goes h htask hpar hkids fun t hruns ht => ⟨hruns, by rw [ht]; rfl⟩
  case post =>
    intro c n h hat htask hunarmed hn h0 h1
    obtain ⟨u, hu, he, hc, hf, hready⟩ := counterArm_pos (s := s.meetSel r.lanes (.place k)) hi s.g.chip s.g.part s.g.vf h0 h1
    exact tpost_goes h (reach hat) htask hunarmed hn hu he.w fun t ht =>
      ⟨⟨(he.behind rfl rfl).frame ht.mem, ht.run⟩, (ht.rdN ..).trans hc, (ht.rdN ..).trans hf, ht.ready.trans hready⟩
  case count =>
    intro c h hat htask h1 h2
    have hu := counterDec_above (s := s.meetSel r.lanes (.place k)) hi s.g.chip s.g.part s.g.vf h1 h2
    have he := (wrN_edits (s.meetSel r.lanes (.place k)) k 4 (c - 1)).behind (s := s) rfl rfl
    have hc := rdN_wrN_of_lt (s := s.meetSel r.lanes (.place k)) hi k (n := 4) (v := c - 1) (by omega)
    exact tdec_goes h (reach hat) htask hu rfl fun t ht =>
      ⟨⟨(he.mono (by omega) (by omega)).frame ht.mem, ht.run⟩, (ht.rdN ..).trans hc, ht.ready⟩
  case fire =>
    intro z h hat htask h1 harmed hfired hz hd hfree
    have hz' := (objAt_congr (s := s) (t := s.meetSel r.lanes (.place k)) ⟨rfl, rfl, rfl, rfl, rfl, rfl, rfl⟩ _ _ _ _ _).trans hz
    obtain ⟨u, hu, hw, hc, hstate, hready⟩ := counterDec_fires (s := s.meetSel r.lanes (.place k)) hi h1 harmed hfired hz' hd hfree
    exact tdec_goes h (reach hat) htask hu hw fun t ht =>
      ⟨(ht.rdN ..).trans hc, (congrArg (· % 16) (ht.rdN ..)).trans hstate, ht.ready.trans hready, ht.run⟩
  case self => exact lanewise_of_block rfl fun r => write64_block s.w r d fun _ _ => s.g.task
  case done => exact tdone_goes
  case wait =>
    intro h hat htask hf
    refine fwait_goes h (reach hat) htask hf fun t ht => ?_
    have hd : d.kind = 2 := kind_of_issues h (o := ⟨d, 2, 2⟩) List.mem_cons_self rfl
    obtain ⟨honly, hval⟩ := writeFut_writes (s := s) (u := s.meetPlace k (s.party r.lanes)) hd rfl ht
    exact ⟨⟨(Edits.of_mem rfl rfl k 0).frame ht.beside.1, ht.run⟩, honly, hval⟩
  case set =>
    intro h hat hf
    have hres := resolve_resolves (s := s.meetSel r.lanes (.place k)) hi k (s.w.scal64 r d) (st := 1) (by omega)
    exact fset_goes h (reach hat) hf hres.edits.w fun t ht =>
      ⟨⟨(hres.edits.behind rfl rfl).frame ht.mem, ht.run⟩, (ht.rdD ..).trans hres.value, (ht.rdN ..).trans hres.state,
        ht.waiters ▸ hres.waiters⟩
  case acquire =>
    intro h hat htask hst
    refine lkacq_goes h (reach hat) htask hst fun t ht => ?_
    have hlock := (setLock_locks hi k s.g.task (st := 1) (n := 1) (by omega) (by omega)).shown (s.party r.lanes)
    have ha : Answered s t r d (BitVec.ofNat 32 (s.lockState k)) := ht.answered hlock.edits.w
    have hm := ht.beside.1
    exact ⟨⟨hlock.edits.frame hm, ht.run⟩, (rdN_of_mem hm ..).trans hlock.state, (rdD_of_mem hm _).trans hlock.owner,
      (rdN_of_mem hm ..).trans hlock.count, ha.holds, ha.only⟩
  case nest =>
    intro h hat htask hst ho hn
    have he := (wrN_edits s (k + 12) 4 (s.rdN (k + 12) 4 + 1)).mono (a := k) (n := 16) (by omega) (by omega)
    exact lkacq_nests h (reach hat) htask hst ho hn fun t ht => ⟨⟨he.frame ht.beside.1, ht.run⟩,
      (rdN_of_mem ht.beside.1 ..).trans (rdN_wrN_of_lt hi (k + 12) hn), (ht.answered (s := s) rfl).holds⟩
  case release =>
    intro h hat htask hst ho hwait
    obtain ⟨he, hun⟩ := unlocked_unlocks (s := s.meetSel r.lanes (.place k)) hi hst (rdN_lt s (k + 12) 4)
    refine lkrel_goes h (reach hat) htask hst ho hwait he.w fun t ht => ⟨⟨(he.behind rfl rfl).frame ht.mem, ht.run⟩, ?_, ?_⟩
    · rw [RunsOn, ht.warp, he.w]
      rfl
    · rw [ht.rdN, State.lockState, ht.rdN, ht.rdD]
      exact hun
end
